-- ==== Sys2Proof/Word.lean ====
section
/-!
DEFINITION. The word types of the NX980's registers and byte streams, little-endian packing, the
long and short stamps of R10 to R12, and the name of a register field.
-/
namespace Sys2Proof

/-- A BAR0 register (R534). -/
abbrev Word := BitVec 32

/-- One byte of a payload, a parameter block or a data buffer. -/
abbrev Byte := BitVec 8

/-- A register field: BAR0 offset of its register and its bit range [hi:lo]. -/
structure Fld where
  off : Nat
  hi : Nat
  lo : Nat
  deriving DecidableEq, Repr

/-- A long stamp (R10): 48 bits of seconds and nanoseconds 0 to 999 999 999. -/
structure Stamp where
  sec : Nat
  ns : Nat
  deriving DecidableEq, Repr

/-- `le n v`: the n little-endian bytes of v (R551, R552, R555: every layout is little-endian). -/
def le : Nat → Nat → List Byte
  | 0, _ => []
  | n + 1, v => BitVec.ofNat 8 v :: le n (v / 256)

/-- The number that little-endian bytes spell. -/
def unle : List Byte → Nat
  | [] => 0
  | b :: bs => b.toNat + 256 * unle bs

/-- The two's complement image of an integer in w bits. -/
def ofInt (w : Nat) (i : Int) : Nat := (i % (2 ^ w : Int)).toNat

/-- The signed reading of the low w bits of n. -/
def toSigned (w n : Nat) : Int :=
  let v := n % 2 ^ w
  if 2 * v < 2 ^ w then (v : Int) else (v : Int) - (2 ^ w : Int)

/-- A long stamp as nanoseconds. -/
def Stamp.toNs (t : Stamp) : Nat := t.sec * 1000000000 + t.ns

/-- The long stamp of a number of nanoseconds. -/
def Stamp.ofNs (n : Nat) : Stamp := ⟨n / 1000000000 % 2 ^ 48, n % 1000000000⟩

/-- The short stamp of R11: floor((s × 10⁹ + ns) / 8) mod 2³². -/
def Stamp.short (t : Stamp) : Nat := t.toNs / 8 % 2 ^ 32

/-- A stamp moved by a signed number of nanoseconds. -/
def Stamp.move (t : Stamp) (d : Int) : Stamp := Stamp.ofNs (((t.toNs : Int) + d) % (2 ^ 48 * 1000000000 : Int)).toNat

/-- The ten bytes of a long stamp in an event payload (R555): seconds, then nanoseconds. -/
def Stamp.bytes (t : Stamp) : List Byte := le 6 t.sec ++ le 4 t.ns

/-- The signed 32-bit difference of two short stamps, by which they are ordered (R12). -/
def shortDiff (a b : Nat) : Int := toSigned 32 (a % 2 ^ 32 + 2 ^ 32 - b % 2 ^ 32)

/-- Clamping of an integer to a range. -/
def clampInt (lo hi x : Int) : Int := if x < lo then lo else if hi < x then hi else x

end Sys2Proof
end

