-- ==== Sys2Proof/Syntax.lean ====
section
/-!
DEFINITION. The commands of the block: the inductive Instr, one constructor per row of spec/opcode_table.json, and the
operand types its constructors carry.
Log: 3 (DESIGN CHOICE), 17 (DEDUCED), 83 (DESIGN CHOICE).
-/
namespace Sys2Proof

/-- The path on which a command reached the module: a submission queue (R549), a maintenance datagram on an Ethernet
port from a source address (R569), or a record of the configuration image (R626). -/
inductive Path where
  | queue (sq : Nat)
  | maint (port src : Nat)
  | config
  deriving DecidableEq, Repr

/-- A host command: its submission queue entry (R551), the envelope that leads its data buffer (64 bytes, or none when the env flag is
clear), and the rest of the data buffer. The opcode is the row's own. -/
structure Cmd where
  path : Path
  cid : Nat
  fence : Bool
  quiet : Bool
  env : List Byte
  dataLen : Nat
  bufLen : Nat
  bufAddr : Nat
  params : List Byte
  data : List Byte
  deriving DecidableEq, Repr

/-- A sample of a Lichen slot: its measurement time in ns (R213), its quality (R209), a reported standard deviation, and
its quantities by the codes of R210 as FP64 values (21 to 23: the angles and length of an FBK taut-wire, R223). -/
structure LchSample where
  at_ : Nat
  quality : BitVec 64
  sigma : Option (BitVec 64)
  vals : List (Nat × BitVec 64)
  deriving DecidableEq, Repr

/-- A navigation solution as the receiver's firmware computes it from its measurements (R106): the type it reaches with the
corrections held, the type it reaches without them, the satellites used, and the position in 10⁻⁹ degree and mm. -/
structure NavSolution where
  best : Nat
  alone : Nat
  used : Nat
  lat : Int
  lon : Int
  hgt : Int
  deriving DecidableEq, Repr

/-- One tracked signal at a solution epoch (R112, R559): channel, C/N0 in dB-Hz, seconds of lock, pseudorange and carrier
phase as FP64, Doppler as FP32, and the flags of R559. -/
structure SignalObs where
  ch : Nat
  cn0 : Nat
  lock : Nat
  range : BitVec 64
  phase : BitVec 64
  doppler : Word
  flags : Nat
  deriving DecidableEq, Repr

/-- A satellite's single difference (R103): system, number, azimuth and elevation in 10⁻³ degree, and the carrier phase of ANT_A less that of
ANT_B in 2⁻³² cycle. -/
structure SatDiff where
  sys : Nat
  sv : Nat
  az : Int
  el : Int
  phase : Int
  deriving DecidableEq, Repr

/-- What a solution epoch measures (R98, R103 to R113): the satellites in view (system, number, elevation in degrees), the two
solutions, the single differences, the common satellites, the heading state reached with the baseline length in mm,
its azimuth, elevation and standard deviation in 10⁻³ degree, whether the timing solution passes, TAI − UTC where held, whether a new
ephemeris set, and whether a new almanac, was decoded, and the tracked signals. -/
structure SolutionIn where
  sky : List (Nat × Nat × Nat)
  a : NavSolution
  b : NavSolution
  diffs : List SatDiff
  common : Nat
  head : Nat
  lenMm : Nat
  azimuth : Int
  elevation : Int
  sdev : Nat
  timing : Bool
  leap : Option Nat
  eph : Bool
  alm : Bool
  obs : List SignalObs
  deriving DecidableEq, Repr

/-- What a tap of the safety island sees on its channel in one safety cycle (R469): quarter counts, the word of an SSI frame, and
whether its line, CRC or timeout failed. -/
structure TapIn where
  steps : Int
  word : Option Nat
  fail : Bool
  deriving DecidableEq, Repr

/-- What the safety island samples in one safety cycle (R459 to R475): the levels of the channels (bit 2n SIn_A, bit 2n + 1 SIn_B),
their levels at the sample of a test window (R463), the mirrors (1: closed), outputs above 2.5 A, the SRST pin, VSAFE in mV, the taps of the
axes (A, then B), and whether the cores mismatch or island memory failed (R459). -/
structure SafetyIn where
  si : Nat
  tp : Nat
  mirror : Nat
  hot : Nat
  srst : Bool
  mv : Nat
  taps : List TapIn
  broken : Bool
  deriving DecidableEq, Repr

/-- The header of a frame of the stack link as it arrives (R497): the port (0 LINK_E, 1 LINK_W), source, destination mask, hops,
sequence, residence time in ns, and whether its CRC checks. -/
structure LinkHdr where
  port : Nat
  src : Nat
  dest : Nat
  hops : Nat
  seq : Nat
  residence : Nat
  crcOk : Bool
  deriving DecidableEq, Repr

/-- The Lichen item of a resynchronisation (R525): observer state and covariance, whether position and heading are initialised, hold
counters, t_l3 and the start of H2, the number of the next epoch, anchors, open assignments, samples by slot, features by slot, and
the registers of steps, status and scores. -/
structure SyncLch where
  x : List (BitVec 64)
  p : List (List (BitVec 64))
  hasPos : Bool
  hasHdg : Bool
  heldP : List Nat
  heldH : List Nat
  l3 : Nat
  h2 : Nat
  next : Nat
  anchors : List (Option (Int × Int))
  assign : List (Nat × List (Nat × Nat))
  samples : List (List LchSample)
  feats : List (List (List Word))
  regs : List (Nat × Word)
  deriving DecidableEq, Repr

/-- The positioning-law and Bracken items of a resynchronisation (R525): set-point, waypoints (north, east, heading, speed, rate), reached
waypoints, reference with its instant, history of accepted solutions with its age, accepted solves in a row, force, demand, integrators,
sector runs, last released commands (thrust, rpm, pitch, azimuth), lag, tripped generators, the retained point with its dimensions, and the
registers of mode, status, counters, sectors and generators. -/
structure SyncPl where
  setN : Int
  setE : Int
  setH : Nat
  autoH : Nat
  way : List (Int × Int × Nat × Nat × Nat)
  reached : Nat
  ref : List (BitVec 64)
  refAt : Nat
  hist : List (List (BitVec 64))
  age : Nat
  okRun : Nat
  force : List (BitVec 64)
  demand : List (BitVec 64)
  integ : List (BitVec 64)
  swRun : List Nat
  rel : List (Word × Option Word × Option Word × Option Word)
  lag : Nat
  tripped : List Nat
  kept : Option (List Nat × List (List (List (BitVec 64))))
  regs : List (Nat × Word)
  deriving DecidableEq, Repr

/-- The record of a string and its learner in a resynchronisation (R372, R394): state and cause, INT, INTC, D, u_prev, r_prev, ed_prev,
rdot_prev, the following-error time in ns, the miss, feedback and set-point runs, the registers of the learner, its table, and the
step that waits. -/
structure SyncStr where
  state : Nat
  cause : Nat
  int_ : Word
  intc : Word
  d : Word
  u : Word
  r : Word
  ed : Word
  rdot : Word
  fe : Nat
  runs : List Nat
  regs : List (Nat × Word)
  table : List Word
  i0 : Option Nat
  deriving DecidableEq, Repr

/-- What a SYNC_BULK frame carries (R524, R525): the active's configuration image with its generation, the commit cycle named with the active's SAF_CFG_CRC, or
an item of the snapshot. -/
inductive SyncItem where
  | config (image : List Byte) (generation : Nat)
  | commit (cycle safCrc : Nat)
  | lichen (x : SyncLch)
  | law (x : SyncPl)
  | string (t : Nat) (x : SyncStr)
  deriving DecidableEq, Repr

/-- What a start meets (R615 to R620): VBAK in mV, the AON counter and whether it is valid, every PLL locked in 100 ms, failing DRAM pages,
Bracken banks and Drone pages, whether the images of the active and the fallback slot and the GNSS image verify, MAINT_N low, the straps
(POS_2, POS_1, POS_0, POS_PAR from bit 3 down), the kinds whose copy of a staged image fails, whether power fails before FIDDLEHEAD and with how
many units of a copy recorded, whether the retained regions of Lichen, strings and GNSS check, with the strings whose Drone table does not, a partial record at the recorder's
head, the statuses of configuration records that wait for something outside the module, in order, and the ms from the beginning of the start
to FIDDLEHEAD, with those that its step 6 took. -/
structure StartIn where
  vbak : Nat
  aon : Nat
  aonValid : Bool
  locked : Bool
  badPages : List Nat
  badBanks : List Nat
  badDrone : List Nat
  activeOk : Bool
  fallbackOk : Bool
  gnssOk : Bool
  maintLow : Bool
  straps : Nat
  copyFails : List Nat
  cut : Option Nat
  lchOk : Bool
  strOk : Bool
  badTables : List Nat
  gnsOk : Bool
  partial_ : Bool
  waits : List Nat
  ms : Nat
  copyMs : Nat
  deriving DecidableEq, Repr


/-- The commands of the NX980: one constructor per row of the opcode table, in its order. -/
inductive Instr where
  /-- REGISTER_WRITE (R8): A host write to a BAR0 register that has no row of its own takes effect under the register's access codes. -/
  | registerWrite (off : Nat) (value : Word)
  /-- SNAPSHOT_READ (R34): A read of the lowest word of a multi-word counter latches the higher words until that word is read again. -/
  | snapshotRead (off : Nat)
  /-- BAR0_BAD_ACCESS (R534): An access to BAR0 that is not a naturally aligned 32-bit access is ignored or returns all ones, and sets bad_access. -/
  | bar0BadAccess
  /-- CYCLE_BOUNDARY (R19): The cycle compare on the timebase fires, the cycle number increments and a new DP cycle begins. -/
  | cycleBoundary
  /-- QP_ASSEMBLY_COMPLETE (R22): The cores finish assembling the QP, program the Bracken deadline and start the solve. -/
  | qpAssemblyComplete (phase : Nat)
  /-- BRACKEN_SOLVE_END (R321): Bracken writes its result record and status, and the law judges and takes the result. -/
  | brackenSolveEnd
  /-- DISPATCH_COMPLETE (R24): Dispatch converts stage-0 forces to set-points, stages them and announces the release instant. -/
  | dispatchComplete
  /-- RELEASE_INSTANT (R23): At t0 + T_rel the staged set-points replace the active ones and CAN command frames are queued. -/
  | releaseInstant
  /-- CYCLE_SKIP (R289): When the previous dispatch is incomplete at t0 + T/4, the cycle is skipped and counted. -/
  | cycleSkip
  /-- UNSHADOWED (R42): A sample named in the active's assignment not received 1 ms after epoch close marks the cycle UNSHADOWED on the standby. -/
  | unshadowed
  /-- CLOCK_MONITOR_WINDOW (R35): A clock monitor window ends and each domain's count is compared with the expected count. -/
  | clockMonitorWindow (d countA countB : Nat) (ocxoOk refInOk : Bool)
  /-- REF_SWITCH (R39): TIME moves to a newly preferred or newly valid 10 MHz reference at the next second boundary. -/
  | refSwitch (ocxoOk refInOk : Bool)
  /-- AON_COPY (R52): Once per second the timebase seconds are copied into the AON counter while time is valid. -/
  | aonCopy
  /-- TIME_INC_COMMIT (R54): A write of TIME_INC_HI commits the increment, or keeps the old one and sets inc_range when out of range. -/
  | timeIncCommit (value : Word)
  /-- TIME_STEP_REQUEST (R57): A write of TIME_CTRL.step_go requests a step, which is refused, queued or applied. -/
  | timeStepRequest (value : Word)
  /-- TPO_EDGE (R65): A timed pulse output switches at the compare of a leading or trailing edge target. -/
  | tpoEdge (k : Nat)
  /-- TPO_COMMIT (R67): A write of TPOk_CTRL.commit applies the staged TPO settings or refuses them. -/
  | tpoCommit (k : Nat) (value : Word)
  /-- CAPTURE_EDGE (R72): A filtered edge on a capture input is stamped into its FIFO and raises TIME_CAPTURE. -/
  | captureEdge (k : Nat) (rising : Bool) (stable : Nat)
  /-- CAP_FIFO_POP (R74): A read of CAPk_SH removes the head entry of the capture FIFO. -/
  | capFifoPop (k : Nat)
  /-- CAP_OVF_CLEAR (R74): A write of CAPk_STS.ovf_clr clears the capture overflow count. -/
  | capOvfClear (k : Nat) (value : Word)
  /-- PTP_EVENT_STAMP (R76): A PTP event message passing an Ethernet port is stamped, and an egress stamp is queued or written one-step. -/
  | ptpEventStamp (p : Nat) (egress : Bool) (frame : List Byte)
  /-- PTP_OVF_CLEAR (R78): A write of PTPp_STS.ovf_clr clears the egress stamp overflow count. -/
  | ptpOvfClear (p : Nat) (value : Word)
  /-- EFFECTIVE_SOURCE_CHANGE (R79): The effective discipline source changes when following a master starts or lapses after 10 ms without a master heartbeat. -/
  | effectiveSourceChange
  /-- DISCIPLINE_MEASUREMENT (R81): A valid discipline measurement arrives and the servo steps or slews the timebase. -/
  | disciplineMeasurement (time sys : Int) (unc freq want : Nat)
  /-- HOLDOVER_ENTRY (R82): No valid measurement for the entry time puts the timebase into holdover. -/
  | holdoverEntry
  /-- HOLD_BOUND_UPDATE (R83): Each second in holdover the error bound grows. -/
  | holdBoundUpdate
  /-- HOLDOVER_EXIT (R85): After 2 s of uninterrupted valid measurements the module leaves holdover. -/
  | holdoverExit
  /-- TIME_PULSE (R114): Between 200 ms and 100 ms before each PPS edge the module posts TIME_PULSE. -/
  | timePulse (offset : Option Int)
  /-- TIME_GET (R86): Command returning the current time taken in one TIME cycle. -/
  | timeGet (c : Cmd)
  /-- TIME_SET (R87): Command requesting a step to a given time of day. -/
  | timeSet (c : Cmd)
  /-- TIME_ADJUST (R87): Command loading an increment and/or requesting a step, whole or not at all. -/
  | timeAdjust (c : Cmd)
  /-- TIME_DISC_SET (R86): Command setting the discipline source, step permission, slew rate and step threshold. -/
  | timeDiscSet (c : Cmd)
  /-- TPO_ARM (R68): Command arming a timed pulse output as ONESHOT or PERIODIC. -/
  | tpoArm (c : Cmd)
  /-- TPO_DISARM (R87): Command turning a timed pulse output OFF after any pulse in progress. -/
  | tpoDisarm (c : Cmd)
  /-- CAP_SET (R86): Command configuring a capture input's edge, filter and source. -/
  | capSet (c : Cmd)
  /-- PTP_LAT_SET (R86): Command setting a port's PTP ingress and egress latencies. -/
  | ptpLatSet (c : Cmd)
  /-- ANT_BIAS_CHECK (R93): Every 100 ms each antenna's bias current is classified, removing bias on SHORT and posting changes. -/
  | antBiasCheck (ua ub : Nat)
  /-- ANT_BIAS_RETRY (R93): 10 s after a SHORT the antenna bias is retried. -/
  | antBiasRetry (a ua : Nat)
  /-- CHANNEL_STATE_CHANGE (R99): A GNSS tracking channel gains or loses lock and changes between ACQ, PULL_IN and TRACK. -/
  | channelStateChange (c st cn0 : Nat)
  /-- SPACING_APPLY (R97): A stored correlator spacing takes effect at a channel's next code-period boundary or on entry to TRACK. -/
  | spacingApply (c : Nat)
  /-- CHANNEL_CN0_RELEASE (R98): A satellite below cn0_mask for 5 s is released and its channels reassigned. -/
  | channelCn0Release (a sys sv : Nat)
  /-- NOTCH_ENGAGE (R101): A narrowband interferer appears and a free notch engages, or notch_full is set. -/
  | notchEngage (a b : Nat) (found : List (Int × Nat × Nat))
  /-- JAM_INDICATOR_UPDATE (R102): Every 100 ms the jamming indicators update and jam_over is set or cleared after 1 s. -/
  | jamIndicatorUpdate (quarters : List Nat)
  /-- SOLUTION_EPOCH (R105): At each solution epoch the navigation, heading and timing solutions are computed and delivered. -/
  | solutionEpoch (x : SolutionIn)
  /-- GNS_NO_SIGNAL (R117): No code lock on either antenna for 1 s sets no_signal. -/
  | gnsNoSignal
  /-- GNS_CTRL_RESTART (R126): A write of GNS_CTRL.restart restarts the receiver HOT, WARM or COLD. -/
  | gnsCtrlRestart (value : Word)
  /-- GNS_RESTART (R120): Command restarting the GNSS receiver HOT, WARM or COLD. -/
  | gnsRestart (c : Cmd)
  /-- GNS_AID (R100): Command giving an approximate position for a WARM start. -/
  | gnsAid (c : Cmd)
  /-- GNS_RTCM (R108): Command delivering RTCM correction frames, each checked on its own. -/
  | gnsRtcm (c : Cmd)
  /-- GNS_CFG_SET (R122): Command setting GNSS configuration, effective at the next solution epoch. -/
  | gnsCfgSet (c : Cmd)
  /-- GNS_SPACING_SET (R96): Command setting the correlator spacing of one or all channels. -/
  | gnsSpacingSet (c : Cmd)
  /-- GNS_SV_EXCLUDE (R98): Command excluding or including a satellite. -/
  | gnsSvExclude (c : Cmd)
  /-- GNS_OBS_STREAM (R112): Command directing raw observables to a stream queue. -/
  | gnsObsStream (c : Cmd)
  /-- GNS_STATUS_GET (R121): Command returning GNSS status registers. -/
  | gnsStatusGet (c : Cmd)
  /-- FIL_AN_ENABLE (R131): A write setting FIL_ANk_CFG.en from 0 to 1 checks admissibility and enables the channel or sets cfg_err. -/
  | filAnEnable (k : Nat) (value : Word)
  /-- AN_OUTPUT_SAMPLE (R134): An analogue chain produces its sample for grid instant t_k and offers it to consumers. -/
  | anOutputSample (k : Nat) (mods : List Int) (overcurrent : Bool)
  /-- RATIO_SERVO_UPDATE (R136): Once per millisecond the resampler ratio is servoed, setting unlock beyond ±200 ppm. -/
  | ratioServoUpdate (k ratio : Nat)
  /-- AN_SHUNT_RETRY (R142): An opened current shunt is retried after 1 s. -/
  | anShuntRetry (k : Nat) (overcurrent : Bool)
  /-- SERIAL_CHARACTER (R150): A character is received on a serial port and advances sentence or packet framing. -/
  | serialCharacter (p : Nat) (b : Byte) (err : Nat)
  /-- SERIAL_GAP_TIMEOUT (R150): A gap above gap_max abandons the frame in progress. -/
  | serialGapTimeout (p : Nat)
  /-- SERIAL_SILENT_TIMEOUT (R155): No frame delivered for the silent time sets silent and raises FIL_SP_SILENT. -/
  | serialSilentTimeout (p : Nat)
  /-- FIL_SP_ERR (R157): At most once per second a port's error counters are posted. -/
  | filSpErr (p : Nat)
  /-- SERIAL_SEND_DONE (R156): The last stop bit of a FIL_SER_SEND is sent and the command completes. -/
  | serialSendDone (p : Nat)
  /-- FIL_AN_CFG (R159): Command configuring an analogue channel, all fields or none. -/
  | filAnCfg (c : Cmd)
  /-- FIL_COEF_LOAD (R159): Command loading or restoring FIR and resampler coefficients. -/
  | filCoefLoad (c : Cmd)
  /-- FIL_AN_STREAM (R147): Command binding an analogue channel to a stream queue. -/
  | filAnStream (c : Cmd)
  /-- FIL_DCB_CTRL (R141): Command freezing, unfreezing or resetting a DC blocker. -/
  | filDcbCtrl (c : Cmd)
  /-- FIL_SER_CFG (R159): Command configuring a serial port, all fields or none. -/
  | filSerCfg (c : Cmd)
  /-- FIL_SER_STREAM (R154): Command binding a serial port to a stream queue. -/
  | filSerStream (c : Cmd)
  /-- FIL_SER_SEND (R156): Command transmitting bytes on a serial port. -/
  | filSerSend (c : Cmd)
  /-- FIL_STATUS_GET (R157): Command returning FIL status and optionally clearing counters. -/
  | filStatusGet (c : Cmd)
  /-- FBK_CH_ENABLE (R166): A write setting FBK_CHc_CFG.en from 0 to 1 checks the configuration and enables the channel or sets cfg_err. -/
  | fbkChEnable (c : Nat) (value : Word)
  /-- FBK_LINE_CHANGE (R167): An accepted change on a feedback channel's lines acts on the count, the index logic and the speed estimator. -/
  | fbkLineChange (c : Nat) (a b z : Bool) (na nb nz : Nat)
  /-- LINE_AMPLITUDE_LOSS (R168): A monitored pair below 200 mV for over 1 µs sets line_err. -/
  | lineAmplitudeLoss (c pairs : Nat)
  /-- LINE_ERR_CLEAR (R168): 10 ms of normal levels on every monitored pair clears line_err. -/
  | lineErrClear (c : Nat)
  /-- BASE_TICK (R342): The string base tick compare fires; feedback channels latch and due strings compute. -/
  | baseTick
  /-- SSI_FRAME_END (R182): An SSI frame ends and its outcome is decided as valid, TIMEOUT, CRC error or ERRBIT. -/
  | ssiFrameEnd (c : Nat) (highAtRequest highAfter : Bool) (data : List Bool)
  /-- SSI_LINE_TEST (R184): A line test runs in the next gap after an SSI error and gives TRANSIENT or LASTING. -/
  | ssiLineTest (c failedPairs : Nat)
  /-- EMU_COUNT_OUTPUT (R194): An encoder emulator emits its next backlogged output count. -/
  | emuCountOutput (k : Nat)
  /-- SUPPLY_OVERLOAD (R197): An encoder supply above 150 mA for 10 ms is switched off. -/
  | supplyOverload (c : Nat)
  /-- SUPPLY_RETRY (R197): An encoder supply in fault is retried every 1 s. -/
  | supplyRetry (c : Nat) (good : Bool)
  /-- SUPPLY_BUDGET (R198): Total encoder supply load above 7.5 W for 10 ms switches supplies off, highest channel first. -/
  | supplyBudget (loads : List Nat)
  /-- FBK_CFG (R200): Command configuring a feedback channel, all fields or none. -/
  | fbkCfg (c : Cmd)
  /-- FBK_SET_POS (R174): Command presetting a channel's count. -/
  | fbkSetPos (c : Cmd)
  /-- FBK_IDX_ARM (R178): Command arming or disarming an ARMED_ONCE channel. -/
  | fbkIdxArm (c : Cmd)
  /-- FBK_EMU_CFG (R200): Command configuring an encoder emulator. -/
  | fbkEmuCfg (c : Cmd)
  /-- FBK_STREAM (R186): Command binding a feedback channel to a stream queue. -/
  | fbkStream (c : Cmd)
  /-- FBK_STATUS_GET (R199): Command returning FBK status and optionally clearing counters. -/
  | fbkStatusGet (c : Cmd)
  /-- FBK_LINE_TEST_RUN (R184): Command running a line test on demand. -/
  | fbkLineTestRun (c : Cmd)
  /-- EPOCH_CLOSE (R215): A fusion epoch closes when all streams are complete or at the wait limit, and the observer, trust and steps are updated. -/
  | epochClose
  /-- TIMING_SUSPECT_CLEAR (R220): ts_clear seconds without a slip clear timing_suspect. -/
  | timingSuspectClear (k : Nat)
  /-- JUMP_HOLD_END (R228): A stream's jump hold ends jump_hold seconds after the last high jump score. -/
  | jumpHoldEnd (k : Nat)
  /-- LCH_STREAM_CFG (R250): Command configuring a Lichen stream slot. -/
  | lchStreamCfg (c : Cmd)
  /-- LCH_STREAM_EXCLUDE (R249): Command excluding or including a stream. -/
  | lchStreamExclude (c : Cmd)
  /-- LCH_DESIGNATE (R247): Command designating a SUSPECT stream or releasing a designation. -/
  | lchDesignate (c : Cmd)
  /-- LCH_WEIGHTS_LOAD (R231): Command loading a signed trust-network weights image. -/
  | lchWeightsLoad (c : Cmd)
  /-- LCH_DATUM_SET (R250): Command setting the local tangent plane datum. -/
  | lchDatumSet (c : Cmd)
  /-- LCH_CFG_SET (R250): Command setting Lichen configuration. -/
  | lchCfgSet (c : Cmd)
  /-- LCH_REF_ANCHOR (R223): Command fixing the target of a relative position reference. -/
  | lchRefAnchor (c : Cmd)
  /-- LCH_RESET (R250): Command re-initialising the observer. -/
  | lchReset (c : Cmd)
  /-- LCH_OUT_STREAM (R249): Command streaming estimates and features to a queue. -/
  | lchOutStream (c : Cmd)
  /-- LCH_STATUS_GET (R249): Command returning Lichen status. -/
  | lchStatusGet (c : Cmd)
  /-- PL_MANUAL_TMO (R291): No manual feed within manual_tmo sets manual_stale and releases zero thrust. -/
  | plManualTmo
  /-- PL_MODE_SET (R256): Command changing the law's mode at the next boundary. -/
  | plModeSet (c : Cmd)
  /-- PL_SETPOINT (R260): Command setting the position and heading set-point. -/
  | plSetpoint (c : Cmd)
  /-- PL_TRACK (R295): Command queuing track waypoints. -/
  | plTrack (c : Cmd)
  /-- PL_CFG_SET (R295): Command setting the law configuration. -/
  | plCfgSet (c : Cmd)
  /-- PL_THR_CFG (R295): Command configuring a thruster. -/
  | plThrCfg (c : Cmd)
  /-- PL_TABLE_LOAD (R280): Command loading a thruster characteristic table. -/
  | plTableLoad (c : Cmd)
  /-- PL_MODEL_LOAD (R293): Command loading a signed vessel model image. -/
  | plModelLoad (c : Cmd)
  /-- PL_FEED (R294): Command feeding manual commands, bus power or generator online state. -/
  | plFeed (c : Cmd)
  /-- BRACKEN_ITERATION_END (R316): An interior-point iteration completes or is rejected, and termination is tested. -/
  | brackenIterationEnd
  /-- SOLVE_STOP_INSTANT (R325): The stop instant D − 10 µs is reached and Bracken returns the best completed iterate. -/
  | solveStopInstant (phase : Nat)
  /-- PACE_LOST (R314): No mark or summary for 2 ms ends pacing of a standby solve. -/
  | paceLost
  /-- SCRATCH_ECC_ERROR (R330): An ECC error in Bracken scratch memory is corrected or ends the solve NUMERIC, and a march test is scheduled. -/
  | scratchEccError (bank addr : Nat) (uncorrectable readable : Bool)
  /-- BANK_MARCH_TEST (R331): A bank march test runs in an idle gap and gives TRANSIENT or LASTING. -/
  | bankMarchTest (bank : Nat) (pass : Bool)
  /-- SLV_SOLVE (R334): Command submitting a host QP to Bracken. -/
  | slvSolve (c : Cmd)
  /-- SLV_CANCEL (R334): Command ending a running or pending host solve. -/
  | slvCancel (c : Cmd) (phase : Nat)
  /-- SLV_SELFTEST (R332): Command running Bracken's self-test. -/
  | slvSelftest (c : Cmd)
  /-- SLV_CFG_SET (R333): Command setting Bracken configuration. -/
  | slvCfgSet (c : Cmd)
  /-- SLV_STATUS_GET (R333): Command returning Bracken status. -/
  | slvStatusGet (c : Cmd)
  /-- SLV_BANK_TEST (R333): Command running a march test of one bank. -/
  | slvBankTest (c : Cmd)
  /-- SELF_CHECK_END (R618): A start's Bracken self-check ends, and a third failure restarts the module. -/
  | selfCheckEnd (parts : Nat) (x : StartIn)
  /-- OUTPUT_INSTANT (R344): At t_k + out_dly all sinks of the tick's computations take their new values together. -/
  | outputInstant
  /-- STR_SPH_WRITE (R341): A write of STR_Ss_SPH is forwarded and taken at the application tick on every copy. -/
  | strSphWrite (t : Nat) (value : Word)
  /-- STR_CFG_SET (R375): Command configuring a string, all fields or none. -/
  | strCfgSet (c : Cmd)
  /-- STR_STATE_SET (R362): Command requesting a string state change on masked strings. -/
  | strStateSet (c : Cmd)
  /-- STR_SP_SET (R375): Command setting host set-points at one base tick. -/
  | strSpSet (c : Cmd)
  /-- STR_OUT_SET (R375): Command setting the held output of an OPEN string. -/
  | strOutSet (c : Cmd)
  /-- STR_STREAM (R374): Command streaming local string computations to a queue. -/
  | strStream (c : Cmd)
  /-- STR_STATUS_GET (R374): Command returning string status. -/
  | strStatusGet (c : Cmd)
  /-- STR_TIMING_SET (R375): Command setting the output delay. -/
  | strTimingSet (c : Cmd)
  /-- DRONE_ECC_ERROR (R392): An ECC error in Drone memory is corrected or resets the owning table. -/
  | droneEccError (page entry : Nat) (uncorrectable : Bool)
  /-- DRONE_PAGE_TEST (R638): A Drone page march test runs within 100 ms of an error and gives a verdict. -/
  | dronePageTest (page : Nat) (pass : Bool)
  /-- DRONE_TABLE_BACKUP (R393): Once per second allocated tables are copied to retained DRAM. -/
  | droneTableBackup
  /-- DRN_CFG_SET (R396): Command configuring a learner. -/
  | drnCfgSet (c : Cmd)
  /-- DRN_ALLOC (R396): Command allocating or freeing Drone pages. -/
  | drnAlloc (c : Cmd)
  /-- DRN_MODE_SET (R389): Command setting learner modes. -/
  | drnModeSet (c : Cmd)
  /-- DRN_RESET (R395): Command resetting learner tables. -/
  | drnReset (c : Cmd)
  /-- DRN_PERIOD_SET (R396): Command setting a learner's host period. -/
  | drnPeriodSet (c : Cmd)
  /-- DRN_TABLE_WRITE (R396): Command writing a learner table. -/
  | drnTableWrite (c : Cmd)
  /-- DRN_TABLE_READ (R391): Command reading a learner table snapshot. -/
  | drnTableRead (c : Cmd)
  /-- DRN_STATUS_GET (R395): Command returning Drone status. -/
  | drnStatusGet (c : Cmd)
  /-- CAN_MODE_WRITE (R405): A write of CAN_c_CTRL.mode checks the bit timing when leaving OFF. -/
  | canModeWrite (c : Nat) (value : Word)
  /-- CAN_MODE_APPLY (R408): A mode change takes effect at the next bus idle. -/
  | canModeApply (c : Nat)
  /-- CAN_TX_START (R410): At bus idle the pending frame with the lowest identifier starts. -/
  | canTxStart (c lag : Nat)
  /-- CAN_TX_END (R414): A transmitted frame completes, or fails and is retried or reported. -/
  | canTxEnd (c result tdcv : Nat)
  /-- CAN_FRAME_RECEIVE (R416): A frame received without error is routed by the filters. -/
  | canFrameReceive (c ago id dlc flags : Nat) (payload : List Byte)
  /-- CAN_BUS_ERROR (R421): A bus error updates TEC or REC and the error state. -/
  | canBusError (c typ : Nat) (dataPhase tx dominant : Bool)
  /-- CAN_LOOP_TEST_END (R423): The loopback test ends with TRANSIENT or LASTING. -/
  | canLoopTestEnd (c : Nat) (pass : Bool)
  /-- CAN_BUSOFF_RECOVERY (R422): 128 recessive sequences complete and the controller rejoins error-active. -/
  | canBusoffRecovery (c : Nat)
  /-- CAN_TT_TARGET (R413): A time-triggered object becomes pending at its target. -/
  | canTtTarget (c o : Nat)
  /-- CAN_TX_LATE (R413): A time-triggered frame not started by target + tt_late is withdrawn. -/
  | canTxLate (c o : Nat)
  /-- CAN_CFG (R426): Command configuring a CAN controller. -/
  | canCfg (c : Cmd)
  /-- CAN_CTRL_ACT (R425): Command setting the mode, permitting recovery or running a loopback test. -/
  | canCtrlAct (c : Cmd)
  /-- CAN_OBJ_CFG (R426): Command configuring a message object. -/
  | canObjCfg (c : Cmd)
  /-- CAN_TX (R426): Command requesting transmission of an object's frame. -/
  | canTx (c : Cmd)
  /-- CAN_CANCEL (R415): Command cancelling an object's pending frame. -/
  | canCancel (c : Cmd)
  /-- CAN_RX_READ (R426): Command reading frame records from an object or FIFO. -/
  | canRxRead (c : Cmd)
  /-- CAN_STREAM (R418): Command binding a FIFO to a stream queue. -/
  | canStream (c : Cmd)
  /-- CAN_STATUS_GET (R425): Command returning CAN status. -/
  | canStatusGet (c : Cmd)
  /-- VFIELD_MEASURE (R434): Every 10 µs each VFIELD group is measured and its level updated. -/
  | vfieldMeasure (mv : List Nat)
  /-- DI_SAMPLE (R439): Every 10 µs each digital input's integrating counter is sampled. -/
  | diSample (mv : List Nat)
  /-- DIO_DI_ENABLE (R438): A write setting an input's en from 0 to 1 checks thresholds and restarts its filter. -/
  | dioDiEnable (n : Nat) (value : Word)
  /-- DIO_DO_CMD_WRITE (R442): A write of DIO_DO_CMD changes commanded states, driven at the next output instant. -/
  | dioDoCmdWrite (value : Word)
  /-- DO_OVERLOAD (R444): An output at its current limit for 500 µs or overheating is switched off. -/
  | doOverload (j : Nat)
  /-- AO_FAULT (R448): An analogue output overloaded or unable to hold its loop for 1 ms is disabled. -/
  | aoFault (k : Nat)
  /-- DIO_CFG (R453): Command configuring field inputs and outputs. -/
  | dioCfg (c : Cmd)
  /-- DIO_DO_SET (R442): Command setting digital outputs at an apply-at time. -/
  | dioDoSet (c : Cmd)
  /-- DIO_AO_SET (R447): Command setting an analogue output value. -/
  | dioAoSet (c : Cmd)
  /-- DIO_REARM (R435): Command clearing the latches of OK groups. -/
  | dioRearm (c : Cmd)
  /-- DIO_FAULT_CLR (R444): Command clearing output faults. -/
  | dioFaultClr (c : Cmd) (hot : Nat)
  /-- DIO_STREAM (R441): Command streaming input edges. -/
  | dioStream (c : Cmd)
  /-- DIO_TEST (R451): Command testing one field group. -/
  | dioTest (c : Cmd)
  /-- DIO_STATUS_GET (R452): Command returning DIO status. -/
  | dioStatusGet (c : Cmd)
  /-- ISLAND_SELFTEST_END (R460): The island's self-test ends, entering RUN or SAFE. -/
  | islandSelftestEnd (pass : Bool)
  /-- SAFETY_CYCLE (R459): Every 250 µs the island samples inputs, evaluates functions, sets outputs and publishes its image. -/
  | safetyCycle (x : SafetyIn)
  /-- SO_SWITCH_TEST (R468): Once per second each safety output switch is pulsed off and read back. -/
  | soSwitchTest (o : Nat) (low turnedOff : Bool)
  /-- APP_HEARTBEAT (R480): Firmware sends the application heartbeat to the island every 1 ms. -/
  | appHeartbeat
  /-- SAFE_FRAME_PRODUCE (R477): Each period a producing safe connection sends its two copies. -/
  | safeFrameProduce (k : Nat)
  /-- SAFE_FRAME_RECEIVE (R479): A consumer checks a received safe frame copy and pairs it. -/
  | safeFrameReceive (k net : Nat) (bytes : List Byte)
  /-- SAFE_PAIR_WINDOW (R479): pair_win expires with one valid copy, accepted as ONE_COPY. -/
  | safePairWindow (k : Nat)
  /-- SAFE_CONN_TIMEOUT (R479): No accepted sequence for tmo makes the connection SAFE. -/
  | safeConnTimeout (k : Nat)
  /-- SAF_CFG_LOAD (R484): Command loading a candidate safety configuration. -/
  | safCfgLoad (c : Cmd)
  /-- SAF_CFG_ACCEPT (R485): Command accepting the candidate safety configuration. -/
  | safCfgAccept (c : Cmd)
  /-- SAF_DEMAND (R482): Command adding or withdrawing host demands. -/
  | safDemand (c : Cmd)
  /-- SAF_STATUS_GET (R487): Command returning the safety status image. -/
  | safStatusGet (c : Cmd)
  /-- SAF_OUT_TEST (R487): Command testing a safety output. -/
  | safOutTest (c : Cmd)
  /-- SAF_FAULT_LOG (R487): Command returning the island fault log. -/
  | safFaultLog (c : Cmd)
  /-- STRAP_CHANGE (R493): The position straps read differently from the start value. -/
  | strapChange (straps : Nat)
  /-- LINK_PORT_UP (R495): An Onauc port gains block lock in both directions. -/
  | linkPortUp (port nb : Nat)
  /-- LINK_PORT_DOWN (R495): An Onauc port goes down after 10 µs without valid blocks or excess CRC errors. -/
  | linkPortDown (port : Nat)
  /-- HEARTBEAT (R513): A HEARTBEAT frame from another module is received. -/
  | heartbeat (h : LinkHdr) (payload : List Byte) (other : Option Int)
  /-- SAMPLE (R40): A forwarded SAMPLE frame is received. -/
  | sample (h : LinkHdr) (slot : Nat) (x : LchSample)
  /-- EPOCH_ASSIGN (R217): The active's epoch assignment is received and the standby closes the epoch. -/
  | epochAssign (h : LinkHdr) (epoch : Nat) (named : List (Nat × Nat))
  /-- RELEASE (R290): An announced release instant is received by the standby. -/
  | release (h : LinkHdr) (cycle at_ : Nat)
  /-- PACE (R314): A Bracken mark or result summary from the active is received. -/
  | pace (h : LinkHdr) (payload : List Byte)
  /-- DIGEST (R516): A peer's DIGEST frame is received. -/
  | digest (h : LinkHdr) (cycle digest status : Nat) (unshadowed : Bool)
  /-- SHADOW (R371): A SHADOW frame of string and Drone records is received and applied. -/
  | shadow (h : LinkHdr) (payload : List Byte)
  /-- COMMAND (R515): A forwarded command or register write is received. -/
  | command (h : LinkHdr) (op : Nat) (c : Cmd) (at_ : Nat)
  /-- SETPOINT (R282): A set-point for a local string is received from the active. -/
  | setpoint (h : LinkHdr) (at_ t : Nat) (value : Word)
  /-- SYNC_BULK (R525): A resynchronisation snapshot frame is received. -/
  | syncBulk (h : LinkHdr) (item : SyncItem) (x : StartIn)
  /-- BRG_REQ (R521): A switchover request or grant frame is received. -/
  | brgReq (h : LinkHdr) (cycle : Nat)
  /-- DELAY (R499): A DELAY beacon is received and the follower steers its timebase. -/
  | delay (h : LinkHdr) (t org : Stamp) (num unc freq want : Nat)
  /-- HEARTBEAT_SEND (R513): At every whole millisecond a module sends its heartbeat and restarts its line hold timer. -/
  | heartbeatSend
  /-- DELAY_BEACON_SEND (R499): At every whole millisecond the master sends a DELAY beacon. -/
  | delayBeaconSend
  /-- LINK_DELAY_MEASURE (R499): Once per second neighbours measure their cable delay. -/
  | linkDelayMeasure (port delay : Nat)
  /-- HEARTBEAT_MISS (R514): A heartbeat not arrived 100 µs after it was due counts as missed. -/
  | heartbeatMiss (p : Nat)
  /-- LINE_HOLD_EXPIRE (R505): The line hold timer expires and the controller releases its BRIDGE line. -/
  | lineHoldExpire
  /-- BRIDGE_LINE_CHANGE (R506): A BRIDGE or pair line changes between driven and released. -/
  | bridgeLineChange (line : Nat) (low : Bool)
  /-- BRIDGE_CONDITION (R506): A line driven for 100 µs with the peer released gives the bridge condition and completes a claim. -/
  | bridgeCondition (line : Nat)
  /-- CLAIM_WITHDRAW (R507): A claimant reading the peer line driven for 20 µs or 1 ms withdraws. -/
  | claimWithdraw
  /-- PEER_RELEASE_DETECT (R518): The active's line released for 100 µs while reported driven starts a claim. -/
  | peerReleaseDetect
  /-- BRIDGE_STUCK (R508): A line read driven contrary to heartbeats for 10 ms is reported stuck. -/
  | bridgeStuck (own : Bool)
  /-- ROLE_RESOLVE (R502): After 200 ms of listening a controller resolves its role. -/
  | roleResolve
  /-- HOLDER_HOLD_EXPIRE (R510): An expansion's xb_hold expires without a holder heartbeat or line. -/
  | holderHoldExpire (heartbeat : Bool)
  /-- DIGEST_COMPARE (R517): By r_n + 1.5 ms the digests are compared as matched, uncompared or divergent. -/
  | digestCompare
  /-- SWITCHOVER_RELEASE (R521): At r_c + 2 ms with matched digests the active releases its line and becomes STANDBY. -/
  | switchoverRelease
  /-- RESYNC_TIMEOUT (R526): A transfer not committed within 2 s fails the attempt. -/
  | resyncTimeout
  /-- AUTO_REJOIN (R503): An ISOLATED module with cause LINK hearing the active for 1 s becomes SYNCING. -/
  | autoRejoin
  /-- LINK_TEST_END (R528): A 1 s link test ends and STK_LINK_TEST completes. -/
  | linkTestEnd (port : Nat) (pass : Bool)
  /-- STK_STATUS_GET (R527): Command returning stack status. -/
  | stkStatusGet (c : Cmd)
  /-- STK_SWITCHOVER (R521): Command handing control to the standby. -/
  | stkSwitchover (c : Cmd)
  /-- STK_ISOLATE (R528): Command isolating the module. -/
  | stkIsolate (c : Cmd)
  /-- STK_REJOIN (R528): Command rejoining an isolated module. -/
  | stkRejoin (c : Cmd)
  /-- STK_CFG_SET (R527): Command setting stack configuration for the next start. -/
  | stkCfgSet (c : Cmd)
  /-- STK_RESYNC (R528): Command sending a STANDBY to SYNCING. -/
  | stkResync (c : Cmd)
  /-- STK_LINK_TEST (R528): Command testing an Onauc port. -/
  | stkLinkTest (c : Cmd)
  /-- HOST_LINK_RESET (R536): A function-level reset, hot reset, link-down or Bus Master Enable clear disables every queue. -/
  | hostLinkReset (kind : Nat)
  /-- HOST_LINK_UP (R536): The PCIe link comes up and HIF_LINK is posted. -/
  | hostLinkUp (speed width : Nat)
  /-- QUEUE_ENABLE (R542): A write setting a queue's en from 0 to 1 checks and enables the queue. -/
  | queueEnable (typ n : Nat) (value : Word)
  /-- QUEUE_DISABLE (R543): A write clearing a queue's en disables it at once, or is ignored for a bound CQ. -/
  | queueDisable (typ n : Nat) (value : Word)
  /-- DOORBELL_POLL (R544): The module reads the doorbell page and updates queue levels. -/
  | doorbellPoll (words : List (Option Nat))
  /-- COMMAND_FETCH (R549): A submission entry is fetched once CQ space is reserved, checked and started. -/
  | commandFetch (q : Nat) (entry : Option (Nat × Cmd))
  /-- ETH_FRAME_RECEIVE (R565): An Ethernet frame is received and served or dropped. -/
  | ethFrameReceive (p : Nat) (frame : List Byte) (fcsOk noBuf : Bool)
  /-- N450_DATAGRAM (R567): An IEC 61162-450 datagram is checked and its sentences delivered. -/
  | n450Datagram (p g : Nat) (payload : List Byte) (ago : Nat)
  /-- MAINT_REQUEST (R569): A maintenance datagram carrying a command is executed and answered. -/
  | maintRequest (p src op : Nat) (c : Cmd)
  /-- NET_LINK (R570): An Ethernet link goes up or down. -/
  | netLink (p : Nat) (up : Bool)
  /-- NOP (R563): Command doing nothing. -/
  | nop (c : Cmd)
  /-- GEN_IDENTIFY (R563): Command returning identity data. -/
  | genIdentify (c : Cmd)
  /-- GEN_STATE_GET (R564): Command returning module state, role and lifecycle. -/
  | genStateGet (c : Cmd)
  /-- GEN_RESET (R564): Command requesting a warm or cold reset 10 ms after completion. -/
  | genReset (c : Cmd)
  /-- NET_CFG (R563): Command configuring an Ethernet port. -/
  | netCfg (c : Cmd)
  /-- NET_450_CFG (R567): Command joining or leaving an IEC 61162-450 group. -/
  | net450Cfg (c : Cmd)
  /-- NET_STATUS_GET (R563): Command returning Ethernet status. -/
  | netStatusGet (c : Cmd)
  /-- PTP_CFG (R566): Command configuring the PTP instance of a port. -/
  | ptpCfg (c : Cmd)
  /-- HIF_STATUS_GET (R563): Command returning host interface status. -/
  | hifStatusGet (c : Cmd)
  /-- IRQ_SOURCE_RISE (R578): A source level arriving high in CORE becomes PENDING and opens or counts in a window. -/
  | irqSourceRise (n : Nat)
  /-- IRQ_SOURCE_FALL (R578): A source level arriving low returns it to IDLE, counting SPURIOUS_AFTER_CLAIM if unlooked. -/
  | irqSourceFall (n : Nat)
  /-- IRQ_WINDOW_COMMIT (R580): A coalescing window reaches its count or time threshold and commits. -/
  | irqWindowCommit (gs : List Nat)
  /-- MSIX_UNMASK (R582): Clearing an MSI-X mask sends or clears a held message. -/
  | msixUnmask (v : Nat) (mask : Bool)
  /-- IRQ_REPEAT (R585): A source CLAIMED for repeat ms is delivered again. -/
  | irqRepeat (ns : List Nat)
  /-- IRQ_VEC_CLAIM_READ (R584): A read of IRQ_VECv_CLAIM returns and marks looked the lowest unlooked source. -/
  | irqVecClaimRead (v : Nat)
  /-- IRQ_CLAIMED_READ (R584): A read of IRQ_CLAIMEDw marks its claimed sources looked. -/
  | irqClaimedRead (w : Nat)
  /-- IRQ_SRC_TGT_WRITE (R587): A write of IRQ_SRCs_TGT changes enable or stages a target change. -/
  | irqSrcTgtWrite (n : Nat) (value : Word)
  /-- IRQ_SWR_SET (R588): A write to IRQ_SWR_SETx raises software sources. -/
  | irqSwrSet (x : Nat) (value : Word)
  /-- IRQ_SWR_CLR (R588): A write to IRQ_SWR_CLRx lowers software sources. -/
  | irqSwrClr (x : Nat) (value : Word)
  /-- RECORD_COMMIT (R598): A buffered Peat record is numbered and committed to flash, evicting older records. -/
  | recordCommit (flashOk : Bool) (life : Nat)
  /-- TIME_ANCHOR (R596): Every anchor_ms the recorder writes a time anchor. -/
  | timeAnchor
  /-- LOG_FLUSH_TIMEOUT (R607): A flush exceeding 10 s completes LOG_FLUSH with TIMEOUT. -/
  | logFlushTimeout
  /-- LOG_ERASED (R607): An erase finishes and the floor and tail take the next sequence. -/
  | logErased (failed : List Nat)
  /-- LOG_STATUS_GET (R606): Command returning recorder status. -/
  | logStatusGet (c : Cmd)
  /-- LOG_READ (R602): Command returning stored records in sequence order. -/
  | logRead (c : Cmd)
  /-- LOG_SEG_READ (R604): Command returning raw segment bytes. -/
  | logSegRead (c : Cmd)
  /-- LOG_WRITE (R607): Command writing a host note record. -/
  | logWrite (c : Cmd)
  /-- LOG_CFG_SET (R606): Command setting recorder configuration. -/
  | logCfgSet (c : Cmd)
  /-- LOG_FLUSH (R607): Command committing every buffered record. -/
  | logFlush (c : Cmd)
  /-- LOG_ERASE (R607): Command erasing the recorder in MAINT. -/
  | logErase (c : Cmd)
  /-- POWER_GOOD (R613): A VMAIN feed in range for 10 ms with ENABLE high gives power-good. -/
  | powerGood (aOk bOk : Bool) (va vb : Nat) (x : StartIn)
  /-- RST_N_LOW (R685): RST_N held low for 1 µs holds the module and island in reset. -/
  | rstNLow
  /-- RST_N_RELEASE (R685): RST_N is released and a cold start with cause RST_PIN begins. -/
  | rstNRelease (x : StartIn)
  /-- WATCHDOG_EXPIRE (R614): The watchdog unserviced for 100 ms starts the module again. -/
  | watchdogExpire (x : StartIn)
  /-- RESET_DELAY_EXPIRE (R564): 10 ms after GEN_RESET or an activation with restart the module resets. -/
  | resetDelayExpire (x : StartIn)
  /-- START_TIMEOUT (R618): No SERVICE or stop within 60 s of power-good starts again with cause START_TMO. -/
  | startTimeout (x : StartIn)
  /-- FIDDLEHEAD_BOUNDARY (R631): A 200 ms Fiddlehead boundary runs the reduced law and tests SERVICE conditions. -/
  | fiddleheadBoundary
  /-- DRAM_ECC_ERROR (R638): A DRAM ECC error is scrubbed and tested or retires its page. -/
  | dramEccError (addr : Nat) (uncorrectable rereadFails : Bool) (x : StartIn)
  /-- CORRELATOR_PARITY_ERROR (R638): A GNSS correlator parity error releases the channel and runs its BIST. -/
  | correlatorParityError (c : Nat)
  /-- UPD_BACKUP (R669): After confirmation the active section is backed up into the fallback section. -/
  | updBackup
  /-- AUTH_FAIL_WINDOW_END (R656): A 1 s authentication-failure window ends and SEC_AUTH_FAIL is posted. -/
  | authFailWindowEnd
  /-- TAMPER_BREACH (R673): The housing seal switch opens and tamper latches. -/
  | tamperBreach
  /-- UPD_BEGIN (R662): Command starting a download into a staging slot. -/
  | updBegin (c : Cmd)
  /-- UPD_BLOCK (R663): Command writing a block of a staged image. -/
  | updBlock (c : Cmd)
  /-- UPD_VERIFY (R665): Command verifying a received image. -/
  | updVerify (c : Cmd)
  /-- UPD_ACTIVATE (R666): Command marking a verified image PENDING. -/
  | updActivate (c : Cmd)
  /-- UPD_CONFIRM (R669): Command confirming an image in TRIAL. -/
  | updConfirm (c : Cmd)
  /-- UPD_ABORT (R661): Command emptying a staging slot. -/
  | updAbort (c : Cmd)
  /-- UPD_BITMAP_GET (R664): Command returning a slot's receipt bitmap. -/
  | updBitmapGet (c : Cmd)
  /-- UPD_CFG_WRITE (R671): Command writing a configuration image into the store. -/
  | updCfgWrite (c : Cmd)
  /-- UPD_STATUS_GET (R675): Command returning update status. -/
  | updStatusGet (c : Cmd)
  /-- SEC_STATUS_GET (R676): Command returning vault status. -/
  | secStatusGet (c : Cmd)
  /-- SEC_IDENTITY_GET (R672): Command returning the UID and identity key. -/
  | secIdentityGet (c : Cmd)
  /-- SEC_ATTEST (R672): Command returning a signed attestation report. -/
  | secAttest (c : Cmd)
  /-- SEC_KEY_PROGRAM (R650): Command programming a root-key slot or command key. -/
  | secKeyProgram (c : Cmd)
  /-- SEC_KEY_REVOKE (R651): Command revoking a root-key slot or command key. -/
  | secKeyRevoke (c : Cmd)
  /-- SEC_CTR_ADVANCE (R654): Command raising an anti-rollback counter. -/
  | secCtrAdvance (c : Cmd)
  /-- SEC_LIFECYCLE (R646): Command moving the lifecycle state. -/
  | secLifecycle (c : Cmd)
  /-- SEC_TAMPER_CLR (R673): Command clearing the tamper flag. -/
  | secTamperClr (c : Cmd)
  /-- FEED_LOST (R683): One VMAIN feed leaves range while the other is in range. -/
  | feedLost (feed v : Nat)
  /-- FEED_RETURN (R683): A VMAIN feed returns to range. -/
  | feedReturn (feed v : Nat)
  /-- FEED_SURGE (R682): A surge on a VMAIN feed sets its surge flag. -/
  | feedSurge (feed v : Nat)
  /-- POWER_LOSS (R683): Neither feed in range for 200 µs removes GATE and outputs and takes the module to OFF. -/
  | powerLoss
  /-- ENABLE_FALL (R683): ENABLE falls while power-good holds and the module enters SLEEP. -/
  | enableFall
  /-- VBAK_LOW (R686): VBAK falling below 2.0 V or 1.6 V with VMAIN absent invalidates time or counts a breach. -/
  | vbakLow (mv : Nat)
  /-- PLATE_TEMP_UPDATE (R704): Every 100 ms the plate temperature updates and the hot flags are set or cleared. -/
  | plateTempUpdate (plate die : Int)
  /-- PINMUX_WRITE (R695): A write of GEN_PINMUX reassigns shared pins between instances. -/
  | pinmuxWrite (value : Word)
  /-- CAN_BUS_INTEGRATION (R408): After leaving OFF, after a test pass, or after an error in RESTRICTED, the controller sees 11 consecutive recessive bits and joins the bus. -/
  | canBusIntegration (c : Nat)
  /-- PCIE_CONFIG_WRITE (R582): Host software writes the endpoint's configuration space, setting Bus Master Enable or MSI-X enable or changing Device Control, so held sources reopen their windows and HIF_PCIE_STS changes. -/
  | pcieConfigWrite (master msix fmask : Bool) (mps mrrs : Nat)
  /-- VERIFICATION_END (R665): A running UPD_VERIFY finishes its checks up to 1.5 s after it began and the slot becomes VERIFIED or FAILED. -/
  | verificationEnd
  /-- FIELD_TEST_END (R451): A DIO_TEST finishes up to 20 ms after it began, giving its verdict, raising source 331 and restoring per-group reporting. -/
  | fieldTestEnd (part : Nat)
  /-- CHANNEL_BIST_END (R638): The 1 ms BIST of a GNSS channel released after a correlator parity error ends with a TRANSIENT or LASTING verdict and GEN_VERDICT. -/
  | channelBistEnd (c : Nat) (pass : Bool)
  deriving DecidableEq, Repr

end Sys2Proof
end

