-- ==== Sys2Proof/Decode.lean ====
section
/-!
DEFINITION. Words of the opcode table. The block has no instruction words: its table (spec/opcode_table.json) gives no row any bits, so no word
spells a command.
Log: 5 (DESIGN CHOICE).
-/
namespace Sys2Proof

/-- The command that a word of the table's bits spells: none, for the table gives no row bits. -/
def decodeTableWord (_nbits _w : Nat) : Option Instr := none

end Sys2Proof
end

