-- ==== Sys2Proof/Machine/Crypto.lean ====
section
/-!
DEFINITION. The checks the spec names by their standards: CRC-32C (R11, R154 and others), SHA-256 and SHA-384, HMAC-SHA-256, and the verification
of an ECDSA signature on P-384 (R230, R483, R524, R624, R651, R655, R659). The algorithms are those of FIPS 180-4, FIPS 198-1 and FIPS 186.
Log: 16 (PRESUMED).
-/
namespace Sys2Proof.Machine

/-- CRC-32C of bytes from an initial value. -/
def crc32cFrom (init : Nat) (l : List Byte) : Nat :=
  (l.foldl (fun c b =>
    (List.range 8).foldl (fun c _ => if c % 2 = 1 then c / 2 ^^^ 0x82F63B78 else c / 2) (c ^^^ b.toNat)) init) ^^^ 0xFFFFFFFF

/-- CRC-32C of bytes. -/
def crc32c (l : List Byte) : Nat := crc32cFrom 0xFFFFFFFF l

/-- The number that big-endian bytes spell. -/
def unbe (l : List Byte) : Nat := l.foldl (fun n b => n * 256 + b.toNat) 0

/-- The n big-endian bytes of a number. -/
def be (n v : Nat) : List Byte := (le n v).reverse

/-! ### SHA-2 -/

/-- The round constants of SHA-256. -/
def sha256K : List (BitVec 32) :=
  [0x428a2f98, 0x71374491, 0xb5c0fbcf, 0xe9b5dba5, 0x3956c25b, 0x59f111f1, 0x923f82a4, 0xab1c5ed5]
  ++ [0xd807aa98, 0x12835b01, 0x243185be, 0x550c7dc3, 0x72be5d74, 0x80deb1fe, 0x9bdc06a7, 0xc19bf174]
  ++ [0xe49b69c1, 0xefbe4786, 0xfc19dc6, 0x240ca1cc, 0x2de92c6f, 0x4a7484aa, 0x5cb0a9dc, 0x76f988da]
  ++ [0x983e5152, 0xa831c66d, 0xb00327c8, 0xbf597fc7, 0xc6e00bf3, 0xd5a79147, 0x6ca6351, 0x14292967]
  ++ [0x27b70a85, 0x2e1b2138, 0x4d2c6dfc, 0x53380d13, 0x650a7354, 0x766a0abb, 0x81c2c92e, 0x92722c85]
  ++ [0xa2bfe8a1, 0xa81a664b, 0xc24b8b70, 0xc76c51a3, 0xd192e819, 0xd6990624, 0xf40e3585, 0x106aa070]
  ++ [0x19a4c116, 0x1e376c08, 0x2748774c, 0x34b0bcb5, 0x391c0cb3, 0x4ed8aa4a, 0x5b9cca4f, 0x682e6ff3]
  ++ [0x748f82ee, 0x78a5636f, 0x84c87814, 0x8cc70208, 0x90befffa, 0xa4506ceb, 0xbef9a3f7, 0xc67178f2]

/-- The initial hash value of SHA-256. -/
def sha256H : List (BitVec 32) :=
  [0x6a09e667, 0xbb67ae85, 0x3c6ef372, 0xa54ff53a, 0x510e527f, 0x9b05688c, 0x1f83d9ab, 0x5be0cd19]

/-- The round constants of SHA-512. -/
def sha512K : List (BitVec 64) :=
  [0x428a2f98d728ae22, 0x7137449123ef65cd, 0xb5c0fbcfec4d3b2f, 0xe9b5dba58189dbbc, 0x3956c25bf348b538, 0x59f111f1b605d019, 0x923f82a4af194f9b, 0xab1c5ed5da6d8118]
  ++ [0xd807aa98a3030242, 0x12835b0145706fbe, 0x243185be4ee4b28c, 0x550c7dc3d5ffb4e2, 0x72be5d74f27b896f, 0x80deb1fe3b1696b1, 0x9bdc06a725c71235, 0xc19bf174cf692694]
  ++ [0xe49b69c19ef14ad2, 0xefbe4786384f25e3, 0xfc19dc68b8cd5b5, 0x240ca1cc77ac9c65, 0x2de92c6f592b0275, 0x4a7484aa6ea6e483, 0x5cb0a9dcbd41fbd4, 0x76f988da831153b5]
  ++ [0x983e5152ee66dfab, 0xa831c66d2db43210, 0xb00327c898fb213f, 0xbf597fc7beef0ee4, 0xc6e00bf33da88fc2, 0xd5a79147930aa725, 0x6ca6351e003826f, 0x142929670a0e6e70]
  ++ [0x27b70a8546d22ffc, 0x2e1b21385c26c926, 0x4d2c6dfc5ac42aed, 0x53380d139d95b3df, 0x650a73548baf63de, 0x766a0abb3c77b2a8, 0x81c2c92e47edaee6, 0x92722c851482353b]
  ++ [0xa2bfe8a14cf10364, 0xa81a664bbc423001, 0xc24b8b70d0f89791, 0xc76c51a30654be30, 0xd192e819d6ef5218, 0xd69906245565a910, 0xf40e35855771202a, 0x106aa07032bbd1b8]
  ++ [0x19a4c116b8d2d0c8, 0x1e376c085141ab53, 0x2748774cdf8eeb99, 0x34b0bcb5e19b48a8, 0x391c0cb3c5c95a63, 0x4ed8aa4ae3418acb, 0x5b9cca4f7763e373, 0x682e6ff3d6b2b8a3]
  ++ [0x748f82ee5defb2fc, 0x78a5636f43172f60, 0x84c87814a1f0ab72, 0x8cc702081a6439ec, 0x90befffa23631e28, 0xa4506cebde82bde9, 0xbef9a3f7b2c67915, 0xc67178f2e372532b]
  ++ [0xca273eceea26619c, 0xd186b8c721c0c207, 0xeada7dd6cde0eb1e, 0xf57d4f7fee6ed178, 0x6f067aa72176fba, 0xa637dc5a2c898a6, 0x113f9804bef90dae, 0x1b710b35131c471b]
  ++ [0x28db77f523047d84, 0x32caab7b40c72493, 0x3c9ebe0a15c9bebc, 0x431d67c49c100d4c, 0x4cc5d4becb3e42b6, 0x597f299cfc657e2a, 0x5fcb6fab3ad6faec, 0x6c44198c4a475817]

/-- The initial hash value of SHA-384. -/
def sha384H : List (BitVec 64) :=
  [0xcbbb9d5dc1059ed8, 0x629a292a367cd507, 0x9159015a3070dd17, 0x152fecd8f70e5939, 0x67332667ffc00b31, 0x8eb44a8768581511, 0xdb0c2e0d64f98fa7, 0x47b5481dbefa4fa4]

/-- The rotations of a member of SHA-2: Σ0, Σ1 (three rotations each), σ0, σ1 (two rotations and a shift). -/
structure ShaRot where
  s0 : Nat × Nat × Nat
  s1 : Nat × Nat × Nat
  t0 : Nat × Nat × Nat
  t1 : Nat × Nat × Nat

def rot3 {w : Nat} (r : Nat × Nat × Nat) (x : BitVec w) : BitVec w := x.rotateRight r.1 ^^^ x.rotateRight r.2.1 ^^^ x.rotateRight r.2.2
def rot2 {w : Nat} (r : Nat × Nat × Nat) (x : BitVec w) : BitVec w := x.rotateRight r.1 ^^^ x.rotateRight r.2.1 ^^^ (x >>> r.2.2)

/-- The message schedule, newest word first: n more words. -/
def shaSchedule {w : Nat} (r : ShaRot) : Nat → List (BitVec w) → List (BitVec w)
  | 0, l => l
  | n + 1, l => shaSchedule r n ((rot2 r.t1 (l.getD 1 0) + l.getD 6 0 + rot2 r.t0 (l.getD 14 0) + l.getD 15 0) :: l)

/-- One round on a, b, c, d, e, f, g, h. -/
def shaRound {w : Nat} (r : ShaRot) (v : List (BitVec w)) (kw : BitVec w × BitVec w) : List (BitVec w) :=
  match v with
  | [a, b, c, d, e, f, g, h] =>
    let t1 := h + rot3 r.s1 e + ((e &&& f) ^^^ (~~~e &&& g)) + kw.1 + kw.2
    let t2 := rot3 r.s0 a + ((a &&& b) ^^^ (a &&& c) ^^^ (b &&& c))
    [t1 + t2, a, b, c, d + t1, e, f, g]
  | _ => v

/-- One block of sixteen words. -/
def shaBlock {w : Nat} (r : ShaRot) (k : List (BitVec w)) (h : List (BitVec w)) (blk : List (BitVec w)) : List (BitVec w) :=
  let ws := (shaSchedule r (k.length - 16) blk.reverse).reverse
  List.zipWith (· + ·) h ((k.zip ws).foldl (shaRound r) h)

/-- A list cut into n pieces of m elements. -/
def chunks {α : Type} (m : Nat) : Nat → List α → List (List α)
  | 0, _ => []
  | n + 1, l => l.take m :: chunks m n (l.drop m)

/-- The digest of a message over blocks of 16 words of b bytes. -/
def sha2 {w : Nat} (r : ShaRot) (k h0 : List (BitVec w)) (b : Nat) (msg : List Byte) : List (BitVec w) :=
  let blk := 16 * b
  let n := (msg.length + 1 + 2 * b + blk - 1) / blk
  let pad := msg ++ [0x80] ++ List.replicate (n * blk - msg.length - 1 - 2 * b) 0 ++ be (2 * b) (8 * msg.length)
  (chunks blk n pad).foldl (fun h x => shaBlock r k h ((chunks b 16 x).map fun y => BitVec.ofNat w (unbe y))) h0

/-- SHA-256: 32 bytes. -/
def sha256 (msg : List Byte) : List Byte :=
  (sha2 ⟨(2, 13, 22), (6, 11, 25), (7, 18, 3), (17, 19, 10)⟩ sha256K sha256H 4 msg).flatMap fun x => be 4 x.toNat

/-- SHA-384: 48 bytes. -/
def sha384 (msg : List Byte) : List Byte :=
  ((sha2 ⟨(28, 34, 39), (14, 18, 41), (1, 8, 7), (19, 61, 6)⟩ sha512K sha384H 8 msg).take 6).flatMap fun x => be 8 x.toNat

/-- HMAC-SHA-256 under a key of at most 64 bytes. -/
def hmacSha256 (key msg : List Byte) : List Byte :=
  let k := key ++ List.replicate (64 - key.length) 0
  sha256 (k.map (· ^^^ 0x5C) ++ sha256 (k.map (· ^^^ 0x36) ++ msg))

/-! ### ECDSA on P-384 -/

/-- The field, the coefficient b, the base point and its order. -/
def p384P : Nat := 0xfffffffffffffffffffffffffffffffffffffffffffffffffffffffffffffffeffffffff0000000000000000ffffffff
def p384B : Nat := 0xb3312fa7e23ee7e4988e056be3f82d19181d9c6efe8141120314088f5013875ac656398d8a2ed19d2a85c8edd3ec2aef
def p384G : Nat × Nat :=
  (0xaa87ca22be8b05378eb1c71ef320ad746e1d3b628ba79b9859f741e082542a385502f25dbf55296c3a545e3872760ab7,
   0x3617de4a96262c6f5d9e98bf9292dc29f8f41dbd289a147ce9da3113b5f0b8c00a60b1ce1d7e819d7a431d7c90ea0e5f)
def p384N : Nat := 0xffffffffffffffffffffffffffffffffffffffffffffffffc7634d81f4372ddf581a0db248b0a77aecec196accc52973

/-- a^e mod m over n bits of e. -/
def powMod (m : Nat) : Nat → Nat → Nat → Nat
  | 0, _, _ => 1
  | n + 1, a, e => let r := powMod m n (a * a % m) (e / 2); if e % 2 = 1 then a * r % m else r

/-- The inverse modulo a prime m of 384 bits. -/
def invMod (m a : Nat) : Nat := powMod m 384 (a % m) (m - 2)

/-- The difference modulo p. -/
def subP (a b : Nat) : Nat := (a % p384P + p384P - b % p384P) % p384P

/-- The line of slope l through points with x of a point, and the other x: their sum. -/
def ecLine (l : Nat) (a : Nat × Nat) (x : Nat) : Nat × Nat :=
  let x3 := subP (subP (l * l) a.1) x
  (x3, subP (l * subP a.1 x3) a.2)

/-- The sum of two points; none is the point at infinity. -/
def ecAdd (a b : Option (Nat × Nat)) : Option (Nat × Nat) :=
  match a, b with
  | none, _ => b
  | _, none => a
  | some p, some q =>
    if p.1 = q.1 then
      if (p.2 + q.2) % p384P = 0 then none
      else some (ecLine (subP (3 * p.1 * p.1) 3 * invMod p384P (2 * p.2) % p384P) p q.1)
    else some (ecLine (subP q.2 p.2 * invMod p384P (subP q.1 p.1) % p384P) p q.1)

/-- k times a point over n bits of k. -/
def ecMul : Nat → Nat → Option (Nat × Nat) → Option (Nat × Nat)
  | 0, _, _ => none
  | n + 1, k, a => let r := ecMul n (k / 2) (ecAdd a a); if k % 2 = 1 then ecAdd a r else r

/-- A point of the curve. -/
def ecOn (a : Nat × Nat) : Bool :=
  decide (a.1 < p384P) && decide (a.2 < p384P) && a.2 * a.2 % p384P == (subP (a.1 * a.1 % p384P * a.1) (3 * a.1) + p384B) % p384P

/-- A signature, r then s, each 48 bytes big-endian, over a SHA-384 digest verifies under a public key, X then Y. -/
def ecdsaOk (key digest sig : List Byte) : Bool :=
  let q := (unbe (key.take 48), unbe (key.drop 48))
  let r := unbe (sig.take 48)
  let s := unbe (sig.drop 48)
  if key.length != 96 || sig.length != 96 || r = 0 || s = 0 || p384N ≤ r || p384N ≤ s || !ecOn q then false
  else
    let w := invMod p384N s
    match ecAdd (ecMul 384 (unbe digest * w % p384N) (some p384G)) (ecMul 384 (r * w % p384N) (some q)) with
    | some x => x.1 % p384N == r
    | none => false

end Sys2Proof.Machine
end

