-- ==== Sys2Proof/Machine/RegMap.lean ====
section
/-!
DEFINITION. The register map: the BAR0 offsets, the fields, the access codes of R8 and the reset values, as the
register tables of the chapters give them (R3, R38, R90, R125, R162, R203, R253, R298, R337, R378, R399, R429, R456,
R490, R531, R575, R591, R610, R643, R679, R680, R710). Every bit without a writable code is read-only here, reserved
bits among them (R7).
Log: 100 (DESIGN CHOICE).
-/
namespace Sys2Proof.Machine

/-- One register, or a family of `c0 * count` registers at `base + s0 * i + step * j`, with the masks of its fields by
access code (R8). -/
structure RegDef where
  name : String
  base : Nat
  s0 : Nat
  c0 : Nat
  step : Nat
  count : Nat
  rw : Nat
  rwl : Nat
  rwq : Nat
  w1c : Nat
  wo : Nat
  deriving DecidableEq, Repr

/-- `inFamily base s0 c0 step count off`: off is one of the offsets of the family. -/
def inFamily (base s0 c0 step count off : Nat) : Bool :=
  bif Nat.blt off base then false
  else
    let r := off - base
    let i := bif Nat.beq s0 0 then 0 else r / s0
    let q := bif Nat.beq s0 0 then r else r % s0
    Nat.blt i c0 && (bif Nat.beq step 0 then Nat.beq q 0 else Nat.beq (q % step) 0 && Nat.blt (q / step) count)


/-- Writable registers of the GEN block: masks RW, RWL, RWQ, W1C, WO. -/
def regTabGen : List RegDef := [
  ⟨"GEN_CLK_FAIL", 0x00000044, 0x0, 1, 0x0, 1, 0x0, 0x0, 0x0, 0xfff, 0x0⟩,
  ⟨"GEN_CLK_SUSPECT", 0x00000048, 0x0, 1, 0x0, 1, 0x0, 0x0, 0x0, 0xfff, 0x0⟩,
  ⟨"GEN_CLK_REF", 0x0000004c, 0x0, 1, 0x0, 1, 0x0, 0x3, 0x0, 0x800, 0x0⟩,
  ⟨"GEN_START_CFG", 0x0000008c, 0x0, 1, 0x0, 1, 0x0, 0x3ff, 0x0, 0x0, 0x0⟩,
  ⟨"GEN_PWR_STS", 0x000000c0, 0x0, 1, 0x0, 1, 0x0, 0x0, 0x0, 0xf0, 0x0⟩,
  ⟨"GEN_PINMUX", 0x000000cc, 0x0, 1, 0x0, 1, 0x0, 0x0, 0xff, 0x0, 0x0⟩]

/-- Writable registers of the HIF block: masks RW, RWL, RWQ, W1C, WO. -/
def regTabHif : List RegDef := [
  ⟨"HIF_STS", 0x00010000, 0x0, 1, 0x0, 1, 0x0, 0x0, 0x0, 0x70, 0x0⟩,
  ⟨"HIF_IRQ_STS", 0x00010004, 0x0, 1, 0x0, 1, 0x0, 0x0, 0x0, 0xf0000000, 0x0⟩,
  ⟨"HIF_DB_BASE_LO", 0x00010008, 0x0, 1, 0x0, 1, 0x0, 0x0, 0xfffff000, 0x0, 0x0⟩,
  ⟨"HIF_DB_BASE_HI", 0x0001000c, 0x0, 1, 0x0, 1, 0x0, 0x0, 0xffffffff, 0x0, 0x0⟩,
  ⟨"HIF_SH_BASE_LO", 0x00010010, 0x0, 1, 0x0, 1, 0x0, 0x0, 0xfffff000, 0x0, 0x0⟩,
  ⟨"HIF_SH_BASE_HI", 0x00010014, 0x0, 1, 0x0, 1, 0x0, 0x0, 0xffffffff, 0x0, 0x0⟩,
  ⟨"HIF_POLL", 0x00010018, 0x0, 1, 0x0, 1, 0xffff, 0x0, 0x0, 0x0, 0x0⟩,
  ⟨"HIF_EVT_ROUTEb", 0x00010040, 0x0, 1, 0x4, 17, 0x771, 0x0, 0x0, 0x0, 0x0⟩,
  ⟨"HIF_SQq_BASE_LO", 0x00010100, 0x0, 1, 0x10, 16, 0x0, 0x0, 0xfffff000, 0x0, 0x0⟩,
  ⟨"HIF_SQq_BASE_HI", 0x00010104, 0x0, 1, 0x10, 16, 0x0, 0x0, 0xffffffff, 0x0, 0x0⟩,
  ⟨"HIF_SQq_CFG", 0x00010108, 0x0, 1, 0x10, 16, 0x1, 0x0, 0xf03f0, 0x0, 0x0⟩,
  ⟨"HIF_CQq_BASE_LO", 0x00010200, 0x0, 1, 0x10, 16, 0x0, 0x0, 0xfffff000, 0x0, 0x0⟩,
  ⟨"HIF_CQq_BASE_HI", 0x00010204, 0x0, 1, 0x10, 16, 0x0, 0x0, 0xffffffff, 0x0, 0x0⟩,
  ⟨"HIF_CQq_CFG", 0x00010208, 0x0, 1, 0x10, 16, 0x1, 0x0, 0x1f0, 0x0, 0x0⟩,
  ⟨"HIF_EQe_BASE_LO", 0x00010300, 0x0, 1, 0x10, 8, 0x0, 0x0, 0xfffff000, 0x0, 0x0⟩,
  ⟨"HIF_EQe_BASE_HI", 0x00010304, 0x0, 1, 0x10, 8, 0x0, 0x0, 0xffffffff, 0x0, 0x0⟩,
  ⟨"HIF_EQe_CFG", 0x00010308, 0x0, 1, 0x10, 8, 0x1, 0x0, 0x1f0, 0x0, 0x0⟩,
  ⟨"HIF_STQj_BASE_LO", 0x00010400, 0x0, 1, 0x10, 16, 0x0, 0x0, 0xfffff000, 0x0, 0x0⟩,
  ⟨"HIF_STQj_BASE_HI", 0x00010404, 0x0, 1, 0x10, 16, 0x0, 0x0, 0xffffffff, 0x0, 0x0⟩,
  ⟨"HIF_STQj_CFG", 0x00010408, 0x0, 1, 0x10, 16, 0x1, 0x0, 0xfff01f0, 0x0, 0x0⟩]

/-- Writable registers of the IRQ block: masks RW, RWL, RWQ, W1C, WO. -/
def regTabIrq : List RegDef := [
  ⟨"IRQ_STS", 0x00020000, 0x0, 1, 0x0, 1, 0x0, 0x0, 0x0, 0x3, 0x0⟩,
  ⟨"IRQ_SWR_SETx", 0x00020100, 0x0, 1, 0x4, 3, 0x0, 0x0, 0x0, 0x0, 0xffffffff⟩,
  ⟨"IRQ_SWR_CLRx", 0x00020110, 0x0, 1, 0x4, 3, 0x0, 0x0, 0x0, 0xffffffff, 0x0⟩,
  ⟨"IRQ_GRPg_CFG", 0x00020200, 0x0, 1, 0x10, 14, 0xffffffff, 0x0, 0x0, 0x0, 0x0⟩,
  ⟨"IRQ_SRCs_TGT", 0x00021000, 0x0, 1, 0x4, 512, 0x10f3f, 0x0, 0x0, 0x0, 0x0⟩]

/-- Writable registers of the TIME block: masks RW, RWL, RWQ, W1C, WO. -/
def regTabTime : List RegDef := [
  ⟨"TIME_CTRL", 0x00030000, 0x0, 1, 0x0, 1, 0x0, 0x0, 0x0, 0x0, 0x1⟩,
  ⟨"TIME_STS", 0x00030004, 0x0, 1, 0x0, 1, 0x0, 0x0, 0x0, 0x1e, 0x0⟩,
  ⟨"TIME_INC_LO", 0x0003001c, 0x0, 1, 0x0, 1, 0xffffffff, 0x0, 0x0, 0x0, 0x0⟩,
  ⟨"TIME_INC_HI", 0x00030020, 0x0, 1, 0x0, 1, 0xff, 0x0, 0x0, 0x0, 0x0⟩,
  ⟨"TIME_STEP_NS", 0x00030024, 0x0, 1, 0x0, 1, 0xffffffff, 0x0, 0x0, 0x0, 0x0⟩,
  ⟨"TIME_STEP_S", 0x00030028, 0x0, 1, 0x0, 1, 0xffffffff, 0x0, 0x0, 0x0, 0x0⟩,
  ⟨"TIME_DISC", 0x0003002c, 0x0, 1, 0x0, 1, 0x100, 0x7, 0x0, 0x0, 0x0⟩,
  ⟨"TIME_SLEW", 0x00030030, 0x0, 1, 0x0, 1, 0xffffffff, 0x0, 0x0, 0x0, 0x0⟩,
  ⟨"TIME_HOLD_CFG", 0x00030034, 0x0, 1, 0x0, 1, 0xffffffff, 0x0, 0x0, 0x0, 0x0⟩,
  ⟨"TIME_IRQ_STS", 0x00030040, 0x0, 1, 0x0, 1, 0x0, 0x0, 0x0, 0xffff00ff, 0x0⟩,
  ⟨"TPOk_CTRL", 0x00030100, 0x0, 1, 0x20, 8, 0x7, 0x0, 0x0, 0x0, 0x8⟩,
  ⟨"TPOk_START_NS", 0x00030104, 0x0, 1, 0x20, 8, 0x3fffffff, 0x0, 0x0, 0x0, 0x0⟩,
  ⟨"TPOk_START_SL", 0x00030108, 0x0, 1, 0x20, 8, 0xffffffff, 0x0, 0x0, 0x0, 0x0⟩,
  ⟨"TPOk_START_SH", 0x0003010c, 0x0, 1, 0x20, 8, 0xffff, 0x0, 0x0, 0x0, 0x0⟩,
  ⟨"TPOk_PERIOD", 0x00030110, 0x0, 1, 0x20, 8, 0xffffffff, 0x0, 0x0, 0x0, 0x0⟩,
  ⟨"TPOk_WIDTH", 0x00030114, 0x0, 1, 0x20, 8, 0xffffffff, 0x0, 0x0, 0x0, 0x0⟩,
  ⟨"TPOk_STS", 0x0003011c, 0x0, 1, 0x20, 8, 0x0, 0x0, 0x0, 0x4, 0x0⟩,
  ⟨"CAPk_CTRL", 0x00030200, 0x0, 1, 0x20, 8, 0xff13, 0x0, 0x0, 0x0, 0x0⟩,
  ⟨"CAPk_STS", 0x00030210, 0x0, 1, 0x20, 8, 0x0, 0x0, 0x0, 0x0, 0x80000000⟩,
  ⟨"PTPp_CTRL", 0x00030300, 0x0, 1, 0x20, 2, 0x0, 0xf, 0x0, 0x0, 0x0⟩,
  ⟨"PTPp_RX_LAT", 0x00030304, 0x0, 1, 0x20, 2, 0x0, 0xffffffff, 0x0, 0x0, 0x0⟩,
  ⟨"PTPp_TX_LAT", 0x00030308, 0x0, 1, 0x20, 2, 0x0, 0xffffffff, 0x0, 0x0, 0x0⟩,
  ⟨"PTPp_STS", 0x0003030c, 0x0, 1, 0x20, 2, 0x0, 0x0, 0x0, 0x0, 0x80000000⟩]

/-- Writable registers of the STR block: masks RW, RWL, RWQ, W1C, WO. -/
def regTabStr : List RegDef := [
  ⟨"STR_PL_IRQ_STS", 0x00048004, 0x0, 1, 0x0, 1, 0x0, 0x0, 0x0, 0xffff, 0x0⟩,
  ⟨"STR_TIMING", 0x00040004, 0x0, 1, 0x0, 1, 0x0, 0x3f, 0x0, 0x0, 0x0⟩,
  ⟨"STR_Ss_CFG", 0x00041000, 0x0, 1, 0x100, 48, 0x0, 0x0, 0x3f777, 0x0, 0x0⟩,
  ⟨"STR_Ss_DIV", 0x00041004, 0x0, 1, 0x100, 48, 0x0, 0x0, 0xffffffff, 0x0, 0x0⟩,
  ⟨"STR_Ss_FB_SRC", 0x00041008, 0x0, 1, 0x100, 48, 0x0, 0x0, 0x3f0f7fff, 0x0, 0x0⟩,
  ⟨"STR_Ss_SP_SRC", 0x0004100c, 0x0, 1, 0x100, 48, 0x0, 0x0, 0xff, 0x0, 0x0⟩,
  ⟨"STR_Ss_SINK", 0x00041010, 0x0, 1, 0x100, 48, 0x0, 0x0, 0x3f0f7fff, 0x0, 0x0⟩,
  ⟨"STR_Ss_FB_REF", 0x00041014, 0x0, 1, 0x100, 48, 0x0, 0x0, 0xffffffff, 0x0, 0x0⟩,
  ⟨"STR_Ss_WRAP", 0x00041018, 0x0, 1, 0x100, 48, 0x0, 0x0, 0xffffffff, 0x0, 0x0⟩,
  ⟨"STR_Ss_FB_SCALE", 0x0004101c, 0x0, 1, 0x100, 48, 0x0, 0x0, 0xffffffff, 0x0, 0x0⟩,
  ⟨"STR_Ss_FB_OFF", 0x00041020, 0x0, 1, 0x100, 48, 0x0, 0x0, 0xffffffff, 0x0, 0x0⟩,
  ⟨"STR_Ss_SP_SCALE", 0x00041024, 0x0, 1, 0x100, 48, 0x0, 0x0, 0xffffffff, 0x0, 0x0⟩,
  ⟨"STR_Ss_SP_OFF", 0x00041028, 0x0, 1, 0x100, 48, 0x0, 0x0, 0xffffffff, 0x0, 0x0⟩,
  ⟨"STR_Ss_KP", 0x0004102c, 0x0, 1, 0x100, 48, 0x0, 0x0, 0xffffffff, 0x0, 0x0⟩,
  ⟨"STR_Ss_KI", 0x00041030, 0x0, 1, 0x100, 48, 0x0, 0x0, 0xffffffff, 0x0, 0x0⟩,
  ⟨"STR_Ss_KD", 0x00041034, 0x0, 1, 0x100, 48, 0x0, 0x0, 0xffffffff, 0x0, 0x0⟩,
  ⟨"STR_Ss_TF", 0x00041038, 0x0, 1, 0x100, 48, 0x0, 0x0, 0xffffffff, 0x0, 0x0⟩,
  ⟨"STR_Ss_WB", 0x0004103c, 0x0, 1, 0x100, 48, 0x0, 0x0, 0xffffffff, 0x0, 0x0⟩,
  ⟨"STR_Ss_WC", 0x00041040, 0x0, 1, 0x100, 48, 0x0, 0x0, 0xffffffff, 0x0, 0x0⟩,
  ⟨"STR_Ss_KAW", 0x00041044, 0x0, 1, 0x100, 48, 0x0, 0x0, 0xffffffff, 0x0, 0x0⟩,
  ⟨"STR_Ss_KVFF", 0x00041048, 0x0, 1, 0x100, 48, 0x0, 0x0, 0xffffffff, 0x0, 0x0⟩,
  ⟨"STR_Ss_KAFF", 0x0004104c, 0x0, 1, 0x100, 48, 0x0, 0x0, 0xffffffff, 0x0, 0x0⟩,
  ⟨"STR_Ss_UOFF", 0x00041050, 0x0, 1, 0x100, 48, 0x0, 0x0, 0xffffffff, 0x0, 0x0⟩,
  ⟨"STR_Ss_UMAX", 0x00041054, 0x0, 1, 0x100, 48, 0x0, 0x0, 0xffffffff, 0x0, 0x0⟩,
  ⟨"STR_Ss_UMIN", 0x00041058, 0x0, 1, 0x100, 48, 0x0, 0x0, 0xffffffff, 0x0, 0x0⟩,
  ⟨"STR_Ss_URATE", 0x0004105c, 0x0, 1, 0x100, 48, 0x0, 0x0, 0xffffffff, 0x0, 0x0⟩,
  ⟨"STR_Ss_SPRATE", 0x00041060, 0x0, 1, 0x100, 48, 0x0, 0x0, 0xffffffff, 0x0, 0x0⟩,
  ⟨"STR_Ss_FE_LIM", 0x00041064, 0x0, 1, 0x100, 48, 0x0, 0x0, 0xffffffff, 0x0, 0x0⟩,
  ⟨"STR_Ss_SAFE", 0x00041068, 0x0, 1, 0x100, 48, 0x0, 0x0, 0xffffffff, 0x0, 0x0⟩,
  ⟨"STR_Ss_RAMP", 0x0004106c, 0x0, 1, 0x100, 48, 0x0, 0x0, 0xffffffff, 0x0, 0x0⟩,
  ⟨"STR_Ss_OUT_SCALE", 0x00041070, 0x0, 1, 0x100, 48, 0x0, 0x0, 0xffffffff, 0x0, 0x0⟩,
  ⟨"STR_Ss_TMO", 0x00041074, 0x0, 1, 0x100, 48, 0x0, 0x0, 0xffffffff, 0x0, 0x0⟩,
  ⟨"STR_Ss_LIM", 0x00041078, 0x0, 1, 0x100, 48, 0x0, 0x0, 0xffffff, 0x0, 0x0⟩,
  ⟨"STR_Ss_SPH", 0x0004107c, 0x0, 1, 0x100, 48, 0xffffffff, 0x0, 0x0, 0x0, 0x0⟩,
  ⟨"STR_Ss_EVT", 0x00041084, 0x0, 1, 0x100, 48, 0x0, 0x0, 0x0, 0xff, 0x0⟩,
  ⟨"STR_DRN_IRQ_STS", 0x00044004, 0x0, 1, 0x0, 1, 0x0, 0x0, 0x0, 0xffff, 0x0⟩,
  ⟨"STR_DRN_Ss_CFG", 0x00044100, 0x0, 1, 0x40, 48, 0xc00, 0x0, 0x1ffff380, 0x0, 0x0⟩,
  ⟨"STR_DRN_Ss_ALLOC", 0x00044104, 0x0, 1, 0x40, 48, 0x0, 0x0, 0xffff, 0x0, 0x0⟩,
  ⟨"STR_DRN_Ss_GAIN", 0x00044108, 0x0, 1, 0x40, 48, 0x0, 0x0, 0xffffffff, 0x0, 0x0⟩,
  ⟨"STR_DRN_Ss_LEAD", 0x0004410c, 0x0, 1, 0x40, 48, 0x0, 0x0, 0x3ffff, 0x0, 0x0⟩,
  ⟨"STR_DRN_Ss_Q0", 0x00044110, 0x0, 1, 0x40, 48, 0x0, 0x0, 0xffffffff, 0x0, 0x0⟩,
  ⟨"STR_DRN_Ss_Q1", 0x00044114, 0x0, 1, 0x40, 48, 0x0, 0x0, 0xffffffff, 0x0, 0x0⟩,
  ⟨"STR_DRN_Ss_Q2", 0x00044118, 0x0, 1, 0x40, 48, 0x0, 0x0, 0xffffffff, 0x0, 0x0⟩,
  ⟨"STR_DRN_Ss_QMAX", 0x0004411c, 0x0, 1, 0x40, 48, 0x0, 0x0, 0xffffffff, 0x0, 0x0⟩,
  ⟨"STR_DRN_Ss_DECAY", 0x00044120, 0x0, 1, 0x40, 48, 0x0, 0x0, 0xffffffff, 0x0, 0x0⟩,
  ⟨"STR_DRN_Ss_HPER", 0x00044124, 0x0, 1, 0x40, 48, 0xffffffff, 0x0, 0x0, 0x0, 0x0⟩,
  ⟨"STR_DRN_Ss_STS", 0x00044130, 0x0, 1, 0x40, 48, 0x0, 0x0, 0x0, 0x80, 0x0⟩]

/-- Writable registers of the SLV block: masks RW, RWL, RWQ, W1C, WO. -/
def regTabSlv : List RegDef := [
  ⟨"SLV_STS", 0x00050000, 0x0, 1, 0x0, 1, 0x0, 0x0, 0x0, 0x50, 0x0⟩,
  ⟨"SLV_IRQ_STS", 0x00050004, 0x0, 1, 0x0, 1, 0x0, 0x0, 0x0, 0xffff, 0x0⟩]

/-- Writable registers of the LCH block: masks RW, RWL, RWQ, W1C, WO. -/
def regTabLch : List RegDef := [
  ⟨"LCH_STS", 0x00060000, 0x0, 1, 0x0, 1, 0x0, 0x0, 0x0, 0x2000, 0x0⟩,
  ⟨"LCH_IRQ_STS", 0x00060004, 0x0, 1, 0x0, 1, 0x0, 0x0, 0x0, 0xffff, 0x0⟩,
  ⟨"LCH_Ss_STS", 0x00060424, 0x0, 1, 0x40, 24, 0x0, 0x0, 0x0, 0x4000, 0x0⟩]

/-- Writable registers of the FBK block: masks RW, RWL, RWQ, W1C, WO. -/
def regTabFbk : List RegDef := [
  ⟨"FBK_IRQ_STS0", 0x00070004, 0x0, 1, 0x0, 1, 0x0, 0x0, 0x0, 0xffffffff, 0x0⟩,
  ⟨"FBK_IRQ_STS1", 0x00070008, 0x0, 1, 0x0, 1, 0x0, 0x0, 0x0, 0xffff, 0x0⟩,
  ⟨"FBK_SUP_STS", 0x0007000c, 0x0, 1, 0x0, 1, 0x0, 0x0, 0x0, 0x1fff0000, 0x0⟩,
  ⟨"FBK_CHc_CFG", 0x00070100, 0x0, 1, 0x80, 12, 0xc0001, 0x0, 0x3ff3e, 0x0, 0x0⟩,
  ⟨"FBK_CHc_SSI", 0x00070104, 0x0, 1, 0x80, 12, 0x0, 0x0, 0x7ffffff, 0x0, 0x0⟩,
  ⟨"FBK_CHc_CRC", 0x00070108, 0x0, 1, 0x80, 12, 0x0, 0x0, 0xffffffff, 0x0, 0x0⟩,
  ⟨"FBK_CHc_TMO", 0x0007010c, 0x0, 1, 0x80, 12, 0x0, 0x0, 0xffffffff, 0x0, 0x0⟩,
  ⟨"FBK_CHc_IDX_VAL", 0x00070110, 0x0, 1, 0x80, 12, 0xffffffff, 0x0, 0x0, 0x0, 0x0⟩,
  ⟨"FBK_CHc_IDX_CPR", 0x00070114, 0x0, 1, 0x80, 12, 0xffffffff, 0x0, 0x0, 0x0, 0x0⟩,
  ⟨"FBK_CHc_IDX_EXP", 0x00070118, 0x0, 1, 0x80, 12, 0xffffffff, 0x0, 0x0, 0x0, 0x0⟩,
  ⟨"FBK_CHc_IDX_TOL", 0x0007011c, 0x0, 1, 0x80, 12, 0xffff, 0x0, 0x0, 0x0, 0x0⟩,
  ⟨"FBK_CHc_SCALE", 0x00070120, 0x0, 1, 0x80, 12, 0xffffffff, 0x0, 0x0, 0x0, 0x0⟩,
  ⟨"FBK_CHc_STS", 0x00070150, 0x0, 1, 0x80, 12, 0x0, 0x0, 0x0, 0x170, 0x0⟩,
  ⟨"FBK_EMUe_CFG", 0x00070800, 0x0, 1, 0x10, 4, 0x1, 0x0, 0xfffffff2, 0x0, 0x0⟩,
  ⟨"FBK_EMUe_RATIO", 0x00070804, 0x0, 1, 0x10, 4, 0x0, 0x0, 0xffffffff, 0x0, 0x0⟩,
  ⟨"FBK_EMUe_STS", 0x00070808, 0x0, 1, 0x10, 4, 0x0, 0x0, 0x0, 0x10000, 0x0⟩]

/-- Writable registers of the FIL block: masks RW, RWL, RWQ, W1C, WO. -/
def regTabFil : List RegDef := [
  ⟨"FIL_IRQ_STS", 0x00080004, 0x0, 1, 0x0, 1, 0x0, 0x0, 0x0, 0xffffffff, 0x0⟩,
  ⟨"FIL_ANk_CFG", 0x00080100, 0x0, 1, 0x40, 16, 0x1, 0x0, 0xffff2, 0x0, 0x0⟩,
  ⟨"FIL_ANk_OUT", 0x00080104, 0x0, 1, 0x40, 16, 0x0, 0x0, 0x3fffffff, 0x0, 0x0⟩,
  ⟨"FIL_ANk_DCB", 0x00080108, 0x0, 1, 0x40, 16, 0x2, 0x0, 0x3ff0005, 0x0, 0x0⟩,
  ⟨"FIL_ANk_THR_HI", 0x0008010c, 0x0, 1, 0x40, 16, 0xffffffff, 0x0, 0x0, 0x0, 0x0⟩,
  ⟨"FIL_ANk_THR_LO", 0x00080110, 0x0, 1, 0x40, 16, 0xffffffff, 0x0, 0x0, 0x0, 0x0⟩,
  ⟨"FIL_ANk_HYST", 0x00080114, 0x0, 1, 0x40, 16, 0xffffffff, 0x0, 0x0, 0x0, 0x0⟩,
  ⟨"FIL_ANk_EVT", 0x00080118, 0x0, 1, 0x40, 16, 0x3ff, 0x0, 0x0, 0x0, 0x0⟩,
  ⟨"FIL_ANk_STS", 0x00080124, 0x0, 1, 0x40, 16, 0x0, 0x0, 0x0, 0x40, 0x0⟩,
  ⟨"FIL_SPp_CFG", 0x00080800, 0x0, 1, 0x40, 8, 0x1, 0x0, 0x7fe, 0x0, 0x0⟩,
  ⟨"FIL_SPp_BAUD", 0x00080804, 0x0, 1, 0x40, 8, 0x0, 0x0, 0xfffff, 0x0, 0x0⟩,
  ⟨"FIL_SPp_SYNC", 0x00080808, 0x0, 1, 0x40, 8, 0x0, 0x0, 0xffffffff, 0x0, 0x0⟩,
  ⟨"FIL_SPp_BIN", 0x0008080c, 0x0, 1, 0x40, 8, 0x0, 0x0, 0xfffffff, 0x0, 0x0⟩,
  ⟨"FIL_SPp_CRC", 0x00080810, 0x0, 1, 0x40, 8, 0x0, 0x0, 0xffffffff, 0x0, 0x0⟩,
  ⟨"FIL_SPp_GAP", 0x00080814, 0x0, 1, 0x40, 8, 0xffff0000, 0x0, 0xffff, 0x0, 0x0⟩,
  ⟨"FIL_SPp_STS", 0x00080820, 0x0, 1, 0x40, 8, 0x0, 0x0, 0x0, 0x20000, 0x0⟩]

/-- Writable registers of the CAN block: masks RW, RWL, RWQ, W1C, WO. -/
def regTabCan : List RegDef := [
  ⟨"CAN_IRQ_STS", 0x00090000, 0x0, 1, 0x0, 1, 0x0, 0x0, 0x0, 0xffffffff, 0x0⟩,
  ⟨"CAN_c_CTRL", 0x00091000, 0x1000, 4, 0x0, 1, 0x3, 0x10000, 0xff3c, 0x0, 0x0⟩,
  ⟨"CAN_c_NBT", 0x00091004, 0x1000, 4, 0x0, 1, 0x0, 0x0, 0xfffffc1f, 0x0, 0x0⟩,
  ⟨"CAN_c_DBT", 0x00091008, 0x1000, 4, 0x0, 1, 0x0, 0x0, 0xf1f0f1f, 0x0, 0x0⟩,
  ⟨"CAN_c_TDC", 0x0009100c, 0x1000, 4, 0x0, 1, 0x0, 0x0, 0xff00, 0x0, 0x0⟩,
  ⟨"CAN_c_STS", 0x00091010, 0x1000, 4, 0x0, 1, 0x0, 0x0, 0x0, 0x104000, 0x0⟩,
  ⟨"CAN_c_FIFOq_STS", 0x00091020, 0x1000, 4, 0x4, 2, 0x0, 0x0, 0xff00, 0x0, 0x0⟩,
  ⟨"CAN_c_FLTf_ID", 0x00091100, 0x1000, 4, 0x10, 64, 0x0, 0x0, 0x3fffffff, 0x0, 0x0⟩,
  ⟨"CAN_c_FLTf_MASK", 0x00091104, 0x1000, 4, 0x10, 64, 0x0, 0x0, 0x3fffffff, 0x0, 0x0⟩,
  ⟨"CAN_c_FLTf_ACT", 0x00091108, 0x1000, 4, 0x10, 64, 0x0, 0x0, 0x7f03, 0x0, 0x0⟩]

/-- Writable registers of the DIO block: masks RW, RWL, RWQ, W1C, WO. -/
def regTabDio : List RegDef := [
  ⟨"DIO_IRQ_STS", 0x000a0004, 0x0, 1, 0x0, 1, 0x0, 0x0, 0x0, 0xfffffff0, 0x0⟩,
  ⟨"DIO_DI_EVT", 0x000a0018, 0x0, 1, 0x0, 1, 0x0, 0x0, 0x0, 0xffffffff, 0x0⟩,
  ⟨"DIO_DO_CMD", 0x000a001c, 0x0, 1, 0x0, 1, 0xffff, 0x0, 0x0, 0x0, 0x0⟩,
  ⟨"DIO_DO_UNGATED", 0x000a0028, 0x0, 1, 0x0, 1, 0x0, 0xffff, 0x0, 0x0, 0x0⟩,
  ⟨"DIO_DIi_CFG", 0x000a0100, 0x0, 1, 0x10, 32, 0xd0000, 0x0, 0x3ff27f7f, 0x0, 0x0⟩,
  ⟨"DIO_DIi_STS", 0x000a0104, 0x0, 1, 0x10, 32, 0x0, 0x0, 0x0, 0x80000000, 0x0⟩,
  ⟨"DIO_AOk_CFG", 0x000a0400, 0x0, 1, 0x10, 8, 0x1, 0x0, 0x2, 0x0, 0x0⟩,
  ⟨"DIO_AOk_VAL", 0x000a0404, 0x0, 1, 0x10, 8, 0xffffffff, 0x0, 0x0, 0x0, 0x0⟩,
  ⟨"DIO_AOk_OFF", 0x000a0408, 0x0, 1, 0x10, 8, 0x0, 0x0, 0xffffffff, 0x0, 0x0⟩]

/-- Writable registers of the SAF block: masks RW, RWL, RWQ, W1C, WO. -/
def regTabSaf : List RegDef := [
  ⟨"SAF_IRQ_STS", 0x000b0004, 0x0, 1, 0x0, 1, 0x0, 0x0, 0x0, 0xffff, 0x0⟩]

/-- Writable registers of the GNS block: masks RW, RWL, RWQ, W1C, WO. -/
def regTabGns : List RegDef := [
  ⟨"GNS_CTRL", 0x000c0000, 0x0, 1, 0x0, 1, 0x0, 0x0, 0x0, 0x0, 0x3⟩,
  ⟨"GNS_CFG", 0x000c0008, 0x0, 1, 0x0, 1, 0x0, 0xffff1737, 0x0, 0x0, 0x0⟩,
  ⟨"GNS_ANT_CFG", 0x000c000c, 0x0, 1, 0x0, 1, 0x0, 0x707, 0x0, 0x0, 0x0⟩,
  ⟨"GNS_BASE", 0x000c0014, 0x0, 1, 0x0, 1, 0x0, 0xffff, 0x0, 0x0, 0x0⟩,
  ⟨"GNS_THR", 0x000c001c, 0x0, 1, 0x0, 1, 0x0, 0xffffff, 0x0, 0x0, 0x0⟩,
  ⟨"GNS_SPACING", 0x000c0024, 0x0, 1, 0x0, 1, 0xf, 0x0, 0x0, 0x0, 0x0⟩,
  ⟨"GNS_IRQ_STS", 0x000c002c, 0x0, 1, 0x0, 1, 0x0, 0x0, 0x0, 0xffffffff, 0x0⟩]

/-- Writable registers of the LOG block: masks RW, RWL, RWQ, W1C, WO. -/
def regTabLog : List RegDef := [
  ⟨"LOG_STS", 0x000d0000, 0x0, 1, 0x0, 1, 0x0, 0x0, 0x0, 0x12, 0x0⟩,
  ⟨"LOG_IRQ_STS", 0x000d0004, 0x0, 1, 0x0, 1, 0x0, 0x0, 0x0, 0xffff, 0x0⟩]

/-- Writable registers of the UPD block: masks RW, RWL, RWQ, W1C, WO. -/
def regTabUpd : List RegDef := [
  ⟨"UPD_IRQ_STS", 0x000e0004, 0x0, 1, 0x0, 1, 0x0, 0x0, 0x0, 0xffff, 0x0⟩]

/-- Writable registers of the STK block: masks RW, RWL, RWQ, W1C, WO. -/
def regTabStk : List RegDef := [
  ⟨"STK_STS", 0x000f0000, 0x0, 1, 0x0, 1, 0x0, 0x0, 0x0, 0x1000000, 0x0⟩,
  ⟨"STK_IRQ_STS", 0x000f0004, 0x0, 1, 0x0, 1, 0x0, 0x0, 0x0, 0xffff, 0x0⟩,
  ⟨"STK_BRG", 0x000f000c, 0x0, 1, 0x0, 1, 0x0, 0x0, 0x0, 0x60, 0x0⟩]

/-- Writable registers of the SEC block: masks RW, RWL, RWQ, W1C, WO. -/
def regTabSec : List RegDef := [
  ⟨"SEC_STS", 0x00100000, 0x0, 1, 0x0, 1, 0x0, 0x0, 0x0, 0x2000, 0x0⟩]

/-- The registers of a block of 64 KiB with a field that host software can write. -/
def regTab : Nat → List RegDef
  | 0 => regTabGen
  | 1 => regTabHif
  | 2 => regTabIrq
  | 3 => regTabTime
  | 4 => regTabStr
  | 5 => regTabSlv
  | 6 => regTabLch
  | 7 => regTabFbk
  | 8 => regTabFil
  | 9 => regTabCan
  | 10 => regTabDio
  | 11 => regTabSaf
  | 12 => regTabGns
  | 13 => regTabLog
  | 14 => regTabUpd
  | 15 => regTabStk
  | 16 => regTabSec
  | _ => []

/-- Nonzero reset values of the GEN block: base, s0, c0, step, count, value. -/
def resetTabGen : List (Nat × Nat × Nat × Nat × Nat × Nat) := [
  (0x00000000, 0x0, 1, 0x0, 1, 0x4e5803d4),
  (0x00000004, 0x0, 1, 0x0, 1, 0x4201),
  (0x00000008, 0x0, 1, 0x0, 1, 0x16242030),
  (0x0000000c, 0x0, 1, 0x0, 1, 0x1001018),
  (0x0000004c, 0x0, 1, 0x0, 1, 0x2),
  (0x00000080, 0x0, 1, 0x0, 1, 0x2),
  (0x0000008c, 0x0, 1, 0x0, 1, 0x30f)]

/-- Nonzero reset values of the HIF block: base, s0, c0, step, count, value. -/
def resetTabHif : List (Nat × Nat × Nat × Nat × Nat × Nat) := [
  (0x00010018, 0x0, 1, 0x0, 1, 0x6401),
  (0x00010040, 0x0, 1, 0x4, 17, 0x1),
  (0x00010800, 0x0, 1, 0x40, 2, 0x21)]

/-- Nonzero reset values of the IRQ block: base, s0, c0, step, count, value. -/
def resetTabIrq : List (Nat × Nat × Nat × Nat × Nat × Nat) := [
  (0x00020200, 0x0, 1, 0x10, 16, 0x10001)]

/-- Nonzero reset values of the TIME block: base, s0, c0, step, count, value. DESIGN CHOICE (log 100): TPO0_STS resets with armed set, as
the fields of R91 say, where the map of R90 gives 0 for every output. -/
def resetTabTime : List (Nat × Nat × Nat × Nat × Nat × Nat) := [
  (0x00030020, 0x0, 1, 0x0, 1, 0x4),
  (0x0003002c, 0x0, 1, 0x0, 1, 0x1),
  (0x00030030, 0x0, 1, 0x0, 1, 0x3e800c8),
  (0x00030034, 0x0, 1, 0x0, 1, 0x640a03),
  (0x00030100, 0x0, 1, 0x0, 1, 0x2),
  (0x00030110, 0x0, 1, 0x0, 1, 0x3b9aca00),
  (0x00030114, 0x0, 1, 0x0, 1, 0x5f5e100),
  (0x0003011c, 0x0, 1, 0x0, 1, 0x2),
  (0x00030300, 0x0, 1, 0x20, 2, 0xd)]

/-- Nonzero reset values of the STR block: base, s0, c0, step, count, value. -/
def resetTabStr : List (Nat × Nat × Nat × Nat × Nat × Nat) := [
  (0x00048040, 0x0, 1, 0x0, 1, 0x2580032),
  (0x00048044, 0x0, 1, 0x0, 1, 0xa28),
  (0x00048048, 0x0, 1, 0x0, 1, 0xa0a03),
  (0x0004804c, 0x0, 1, 0x0, 1, 0x1414),
  (0x00048050, 0x0, 1, 0x0, 1, 0xffffff),
  (0x00048054, 0x0, 1, 0x0, 1, 0x3a83126f),
  (0x00048058, 0x0, 1, 0x0, 1, 0x42480000),
  (0x0004805c, 0x0, 1, 0x0, 1, 0x41200000),
  (0x00048060, 0x0, 1, 0x0, 1, 0x47435000),
  (0x00048064, 0x0, 1, 0x0, 1, 0x42c80000),
  (0x00048068, 0x0, 1, 0x0, 1, 0x42c80000),
  (0x0004806c, 0x0, 1, 0x0, 1, 0x47c35000),
  (0x00048070, 0x0, 1, 0x0, 1, 0x41200000),
  (0x00048074, 0x0, 1, 0x0, 1, 0x3f800000),
  (0x00048078, 0x0, 1, 0x0, 1, 0x447a0000),
  (0x0004807c, 0x0, 1, 0x0, 1, 0x461c4000),
  (0x00048080, 0x0, 1, 0x0, 1, 0x3f000000),
  (0x00048084, 0x0, 1, 0x0, 1, 0x3f800000),
  (0x00048088, 0x0, 1, 0x0, 1, 0x40a00000),
  (0x0004808c, 0x0, 1, 0x0, 1, 0x3d4ccccd),
  (0x00048424, 0x0, 1, 0x40, 24, 0x3a83126f),
  (0x00040004, 0x0, 1, 0x0, 1, 0x19),
  (0x00041004, 0x0, 1, 0x100, 48, 0x1),
  (0x00041018, 0x0, 1, 0x100, 48, 0x43b40000),
  (0x0004101c, 0x0, 1, 0x100, 48, 0x3f800000),
  (0x00041024, 0x0, 1, 0x100, 48, 0x3f800000),
  (0x0004103c, 0x0, 1, 0x100, 48, 0x3f800000),
  (0x00041054, 0x0, 1, 0x100, 48, 0x7f800000),
  (0x00041058, 0x0, 1, 0x100, 48, 0xff800000),
  (0x00041064, 0x0, 1, 0x100, 48, 0x7f800000),
  (0x00041070, 0x0, 1, 0x100, 48, 0x3f800000),
  (0x00041074, 0x0, 1, 0x100, 48, 0x6403e8),
  (0x00041078, 0x0, 1, 0x100, 48, 0x140303),
  (0x00044000, 0x0, 1, 0x0, 1, 0x100),
  (0x00044110, 0x0, 1, 0x40, 48, 0x3f800000),
  (0x0004411c, 0x0, 1, 0x40, 48, 0x7f800000),
  (0x00044120, 0x0, 1, 0x40, 48, 0x3f733333),
  (0x00044128, 0x0, 1, 0x40, 48, 0x100000)]

/-- Nonzero reset values of the SLV block: base, s0, c0, step, count, value. -/
def resetTabSlv : List (Nat × Nat × Nat × Nat × Nat × Nat) := [
  (0x00050008, 0x0, 1, 0x0, 1, 0x83c9632),
  (0x0005000c, 0x0, 1, 0x0, 1, 0x3a83126f),
  (0x0005001c, 0x0, 1, 0x0, 1, 0x7fc00000)]

/-- Nonzero reset values of the LCH block: base, s0, c0, step, count, value. -/
def resetTabLch : List (Nat × Nat × Nat × Nat × Nat × Nat) := [
  (0x00060000, 0x0, 1, 0x0, 1, 0x24),
  (0x00060008, 0x0, 1, 0x0, 1, 0x103c0a1e),
  (0x0006000c, 0x0, 1, 0x0, 1, 0x8400dcd),
  (0x00060010, 0x0, 1, 0x0, 1, 0x5cdcd33),
  (0x00060014, 0x0, 1, 0x0, 1, 0x403c0a),
  (0x00060018, 0x0, 1, 0x0, 1, 0xf00),
  (0x0006014c, 0x0, 1, 0x0, 1, 0x240),
  (0x00060420, 0x0, 1, 0x40, 24, 0x3f800000),
  (0x00060428, 0x0, 1, 0x40, 24, 0x8000),
  (0x00060434, 0x0, 1, 0x40, 24, 0x186a0)]

/-- Nonzero reset values of the FBK block: base, s0, c0, step, count, value. -/
def resetTabFbk : List (Nat × Nat × Nat × Nat × Nat × Nat) := [
  (0x00070104, 0x0, 1, 0x80, 12, 0x323e8),
  (0x0007010c, 0x0, 1, 0x80, 12, 0x641401),
  (0x00070120, 0x0, 1, 0x80, 12, 0x3f800000),
  (0x0007013c, 0x0, 1, 0x80, 12, 0x2),
  (0x00070800, 0x0, 1, 0x10, 4, 0x1900),
  (0x00070804, 0x0, 1, 0x10, 4, 0x10001)]

/-- Nonzero reset values of the FIL block: base, s0, c0, step, count, value. -/
def resetTabFil : List (Nat × Nat × Nat × Nat × Nat × Nat) := [
  (0x00080100, 0x0, 1, 0x40, 16, 0x3f40),
  (0x00080104, 0x0, 1, 0x40, 16, 0xa),
  (0x00080108, 0x0, 1, 0x40, 16, 0xa0000),
  (0x0008010c, 0x0, 1, 0x40, 16, 0x7f800000),
  (0x00080110, 0x0, 1, 0x40, 16, 0xff800000),
  (0x00080118, 0x0, 1, 0x40, 16, 0x10001),
  (0x00080800, 0x0, 1, 0x40, 8, 0x200),
  (0x00080804, 0x0, 1, 0x40, 8, 0x12c0)]

/-- Nonzero reset values of the CAN block: base, s0, c0, step, count, value. -/
def resetTabCan : List (Nat × Nat × Nat × Nat × Nat × Nat) := [
  (0x00091000, 0x1000, 4, 0x0, 1, 0x1000),
  (0x00091004, 0x1000, 4, 0x0, 1, 0x3efc7c00),
  (0x00091008, 0x1000, 4, 0x0, 1, 0x30a0300),
  (0x00091010, 0x1000, 4, 0x0, 1, 0x3)]

/-- Nonzero reset values of the DIO block: base, s0, c0, step, count, value. -/
def resetTabDio : List (Nat × Nat × Nat × Nat × Nat × Nat) := [
  (0x000a0100, 0x0, 1, 0x10, 32, 0xa12c20)]

/-- Nonzero reset values of the GNS block: base, s0, c0, step, count, value. -/
def resetTabGns : List (Nat × Nat × Nat × Nat × Nat × Nat) := [
  (0x000c0008, 0x0, 1, 0x0, 1, 0x190a1337),
  (0x000c000c, 0x0, 1, 0x0, 1, 0x303),
  (0x000c0010, 0x0, 1, 0x0, 1, 0x303),
  (0x000c001c, 0x0, 1, 0x0, 1, 0x1e8050),
  (0x000c0024, 0x0, 1, 0x0, 1, 0x3),
  (0x000c0028, 0x0, 1, 0x0, 1, 0xffff)]

/-- Nonzero reset values of the LOG block: base, s0, c0, step, count, value. -/
def resetTabLog : List (Nat × Nat × Nat × Nat × Nat × Nat) := [
  (0x000d0008, 0x0, 1, 0x0, 1, 0x50006441)]

/-- Nonzero reset values of the STK block: base, s0, c0, step, count, value. -/
def resetTabStk : List (Nat × Nat × Nat × Nat × Nat × Nat) := [
  (0x000f0000, 0x0, 1, 0x0, 1, 0x7),
  (0x000f0008, 0x0, 1, 0x0, 1, 0x130803)]

/-- Nonzero reset values of the SEC block: base, s0, c0, step, count, value. -/
def resetTabSec : List (Nat × Nat × Nat × Nat × Nat × Nat) := [
  (0x00100000, 0x0, 1, 0x0, 1, 0x4001)]

/-- The nonzero reset values of a block of 64 KiB. -/
def resetTab : Nat → List (Nat × Nat × Nat × Nat × Nat × Nat)
  | 0 => resetTabGen
  | 1 => resetTabHif
  | 2 => resetTabIrq
  | 3 => resetTabTime
  | 4 => resetTabStr
  | 5 => resetTabSlv
  | 6 => resetTabLch
  | 7 => resetTabFbk
  | 8 => resetTabFil
  | 9 => resetTabCan
  | 10 => resetTabDio
  | 12 => resetTabGns
  | 13 => resetTabLog
  | 15 => resetTabStk
  | 16 => resetTabSec
  | _ => []

/-- The reset value of the register at a BAR0 offset: 0 where the tables list none. -/
def resetOf (off : Nat) : Word :=
  match (resetTab (off / 65536)).find? fun d => inFamily d.1 d.2.1 d.2.2.1 d.2.2.2.1 d.2.2.2.2.1 off with
  | some d => BitVec.ofNat 32 d.2.2.2.2.2
  | none => 0

/-- The register definition that holds an offset. -/
def regAt (off : Nat) : Option RegDef := (regTab (off / 65536)).find? fun d => inFamily d.base d.s0 d.c0 d.step d.count off

/-- family and member code, R3. -/
abbrev Reg.GEN_ID : Nat := 0x00000000
/-- silicon step, R3. -/
abbrev Reg.GEN_STEP : Nat := 0x00000004
/-- resource counts, R3. -/
abbrev Reg.GEN_PARAM0 : Nat := 0x00000008
/-- capacities, R3. -/
abbrev Reg.GEN_PARAM1 : Nat := 0x0000000c
/-- domains within tolerance, R38. -/
abbrev Reg.GEN_CLK_OK : Nat := 0x00000040
/-- domains declared failed, latched, R38. -/
abbrev Reg.GEN_CLK_FAIL : Nat := 0x00000044
/-- domains suspect, latched, R38. -/
abbrev Reg.GEN_CLK_SUSPECT : Nat := 0x00000048
/-- 10 MHz reference selection and status, R38. -/
abbrev Reg.GEN_CLK_REF : Nat := 0x0000004c
/-- cycle number, bits [31:0], R38. -/
abbrev Reg.GEN_CYC_LO : Nat := 0x00000050
/-- cycle number, bits [63:32], R38. -/
abbrev Reg.GEN_CYC_HI : Nat := 0x00000054
/-- t_origin nanoseconds, R38. -/
abbrev Reg.GEN_CYC_ORG_NS : Nat := 0x00000058
/-- t_origin seconds, bits [31:0], R38. -/
abbrev Reg.GEN_CYC_ORG_SL : Nat := 0x0000005c
/-- t_origin seconds, bits [47:32], R38. -/
abbrev Reg.GEN_CYC_ORG_SH : Nat := 0x00000060
/-- step request, R90. -/
abbrev Reg.TIME_CTRL : Nat := 0x00030000
/-- status, R90. -/
abbrev Reg.TIME_STS : Nat := 0x00030004
/-- current nanoseconds; read latches SL, SH and FRAC, R90. -/
abbrev Reg.TIME_NOW_NS : Nat := 0x00030008
/-- seconds, bits [31:0], R90. -/
abbrev Reg.TIME_NOW_SL : Nat := 0x0003000c
/-- seconds, bits [47:32], R90. -/
abbrev Reg.TIME_NOW_SH : Nat := 0x00030010
/-- fraction, R90. -/
abbrev Reg.TIME_NOW_FRAC : Nat := 0x00030014
/-- current short stamp, R90. -/
abbrev Reg.TIME_SHORT : Nat := 0x00030018
/-- increment fraction, R90. -/
abbrev Reg.TIME_INC_LO : Nat := 0x0003001c
/-- increment integer; write commits, R90. -/
abbrev Reg.TIME_INC_HI : Nat := 0x00030020
/-- step nanoseconds, signed, R90. -/
abbrev Reg.TIME_STEP_NS : Nat := 0x00030024
/-- step seconds, signed, R90. -/
abbrev Reg.TIME_STEP_S : Nat := 0x00030028
/-- discipline source, R90. -/
abbrev Reg.TIME_DISC : Nat := 0x0003002c
/-- slew rate and step threshold, R90. -/
abbrev Reg.TIME_SLEW : Nat := 0x00030030
/-- holdover settings, R90. -/
abbrev Reg.TIME_HOLD_CFG : Nat := 0x00030034
/-- holdover error bound, ns, R90. -/
abbrev Reg.TIME_HOLD_BOUND : Nat := 0x00030038
/-- seconds in current or last holdover, R90. -/
abbrev Reg.TIME_HOLD_TIME : Nat := 0x0003003c
/-- interrupt status, R90. -/
abbrev Reg.TIME_IRQ_STS : Nat := 0x00030040
/-- mode, polarity, commit, R90. -/
abbrev Reg.TPOk_CTRL (k : Nat) : Nat := 0x00030100 + 0x20 * k
/-- start nanoseconds, R90. -/
abbrev Reg.TPOk_START_NS (k : Nat) : Nat := 0x00030104 + 0x20 * k
/-- start seconds, bits [31:0], R90. -/
abbrev Reg.TPOk_START_SL (k : Nat) : Nat := 0x00030108 + 0x20 * k
/-- start seconds, bits [47:32], R90. -/
abbrev Reg.TPOk_START_SH (k : Nat) : Nat := 0x0003010c + 0x20 * k
/-- period, ns, R90. -/
abbrev Reg.TPOk_PERIOD (k : Nat) : Nat := 0x00030110 + 0x20 * k
/-- width, ns, R90. -/
abbrev Reg.TPOk_WIDTH (k : Nat) : Nat := 0x00030114 + 0x20 * k
/-- quantisation error of next leading edge, R90. -/
abbrev Reg.TPOk_QERR (k : Nat) : Nat := 0x00030118 + 0x20 * k
/-- status, R90. -/
abbrev Reg.TPOk_STS (k : Nat) : Nat := 0x0003011c + 0x20 * k
/-- capture settings, R90. -/
abbrev Reg.CAPk_CTRL (k : Nat) : Nat := 0x00030200 + 0x20 * k
/-- head entry nanoseconds; read latches, R90. -/
abbrev Reg.CAPk_NS (k : Nat) : Nat := 0x00030204 + 0x20 * k
/-- head entry seconds, bits [31:0], R90. -/
abbrev Reg.CAPk_SL (k : Nat) : Nat := 0x00030208 + 0x20 * k
/-- head entry seconds, bits [47:32]; read removes, R90. -/
abbrev Reg.CAPk_SH (k : Nat) : Nat := 0x0003020c + 0x20 * k
/-- fill level and overflow count, R90. -/
abbrev Reg.CAPk_STS (k : Nat) : Nat := 0x00030210 + 0x20 * k
/-- timestamping settings, R90. -/
abbrev Reg.PTPp_CTRL (p : Nat) : Nat := 0x00030300 + 0x20 * p
/-- ingress latency, signed ns, R90. -/
abbrev Reg.PTPp_RX_LAT (p : Nat) : Nat := 0x00030304 + 0x20 * p
/-- egress latency, signed ns, R90. -/
abbrev Reg.PTPp_TX_LAT (p : Nat) : Nat := 0x00030308 + 0x20 * p
/-- stamp FIFO level and overflow count, R90. -/
abbrev Reg.PTPp_STS (p : Nat) : Nat := 0x0003030c + 0x20 * p
/-- restart request, R125. -/
abbrev Reg.GNS_CTRL : Nat := 0x000c0000
/-- receiver status, R125. -/
abbrev Reg.GNS_STS : Nat := 0x000c0004
/-- systems, bands, rate, masks, R125. -/
abbrev Reg.GNS_CFG : Nat := 0x000c0008
/-- antenna enable and bias, R125. -/
abbrev Reg.GNS_ANT_CFG : Nat := 0x000c000c
/-- antenna states, R125. -/
abbrev Reg.GNS_ANT_STS : Nat := 0x000c0010
/-- baseline length and rejects, R125. -/
abbrev Reg.GNS_BASE : Nat := 0x000c0014
/-- jamming indicators, R125. -/
abbrev Reg.GNS_JI : Nat := 0x000c0018
/-- thresholds and correction age limit, R125. -/
abbrev Reg.GNS_THR : Nat := 0x000c001c
/-- false-signal indicator, R125. -/
abbrev Reg.GNS_FSI : Nat := 0x000c0020
/-- default correlator spacing, R125. -/
abbrev Reg.GNS_SPACING : Nat := 0x000c0024
/-- correction age and ignored frames, R125. -/
abbrev Reg.GNS_RTCM_STS : Nat := 0x000c0028
/-- interrupt status, R125. -/
abbrev Reg.GNS_IRQ_STS : Nat := 0x000c002c
/-- TAI - UTC, R125. -/
abbrev Reg.GNS_LEAP : Nat := 0x000c0030
/-- notch state, R125. -/
abbrev Reg.GNS_NOTCH (i : Nat) : Nat := 0x000c0100 + 0x4 * i
/-- channel state, R125. -/
abbrev Reg.GNS_CHc_STS (c : Nat) : Nat := 0x000c1000 + 0x4 * c
/-- valid flags of all channels, R162. -/
abbrev Reg.FIL_STS : Nat := 0x00080000
/-- interrupt status, R162. -/
abbrev Reg.FIL_IRQ_STS : Nat := 0x00080004
/-- enable, mode, CIC, R162. -/
abbrev Reg.FIL_ANk_CFG (k : Nat) : Nat := 0x00080100 + 0x40 * k
/-- output divider and alignment delay, R162. -/
abbrev Reg.FIL_ANk_OUT (k : Nat) : Nat := 0x00080104 + 0x40 * k
/-- DC blocker, R162. -/
abbrev Reg.FIL_ANk_DCB (k : Nat) : Nat := 0x00080108 + 0x40 * k
/-- upper threshold, FP32 (+infinity), R162. -/
abbrev Reg.FIL_ANk_THR_HI (k : Nat) : Nat := 0x0008010c + 0x40 * k
/-- lower threshold, FP32 (-infinity), R162. -/
abbrev Reg.FIL_ANk_THR_LO (k : Nat) : Nat := 0x00080110 + 0x40 * k
/-- hysteresis, FP32, R162. -/
abbrev Reg.FIL_ANk_HYST (k : Nat) : Nat := 0x00080114 + 0x40 * k
/-- persistence, enables, zone, R162. -/
abbrev Reg.FIL_ANk_EVT (k : Nat) : Nat := 0x00080118 + 0x40 * k
/-- resampler ratio in use, R162. -/
abbrev Reg.FIL_ANk_RATIO (k : Nat) : Nat := 0x0008011c + 0x40 * k
/-- newest output sample, FP32, R162. -/
abbrev Reg.FIL_ANk_VAL (k : Nat) : Nat := 0x00080120 + 0x40 * k
/-- channel status, R162. -/
abbrev Reg.FIL_ANk_STS (k : Nat) : Nat := 0x00080124 + 0x40 * k
/-- CRC of the loaded coefficients; 0 default set, R162. -/
abbrev Reg.FIL_ANk_COEF_CRC (k : Nat) : Nat := 0x00080128 + 0x40 * k
/-- port settings, R162. -/
abbrev Reg.FIL_SPp_CFG (p : Nat) : Nat := 0x00080800 + 0x40 * p
/-- bit rate, R162. -/
abbrev Reg.FIL_SPp_BAUD (p : Nat) : Nat := 0x00080804 + 0x40 * p
/-- sync bytes, R162. -/
abbrev Reg.FIL_SPp_SYNC (p : Nat) : Nat := 0x00080808 + 0x40 * p
/-- binary framing, R162. -/
abbrev Reg.FIL_SPp_BIN (p : Nat) : Nat := 0x0008080c + 0x40 * p
/-- CRC-16 polynomial and initial value, R162. -/
abbrev Reg.FIL_SPp_CRC (p : Nat) : Nat := 0x00080810 + 0x40 * p
/-- gap and silence limits, R162. -/
abbrev Reg.FIL_SPp_GAP (p : Nat) : Nat := 0x00080814 + 0x40 * p
/-- frame and checksum counters, R162. -/
abbrev Reg.FIL_SPp_CNT0 (p : Nat) : Nat := 0x00080818 + 0x40 * p
/-- error counters, R162. -/
abbrev Reg.FIL_SPp_CNT1 (p : Nat) : Nat := 0x0008081c + 0x40 * p
/-- port status, R162. -/
abbrev Reg.FIL_SPp_STS (p : Nat) : Nat := 0x00080820 + 0x40 * p
/-- valid flags of all channels, R203. -/
abbrev Reg.FBK_STS : Nat := 0x00070000
/-- interrupt status, sources 128–159, R203. -/
abbrev Reg.FBK_IRQ_STS0 : Nat := 0x00070004
/-- interrupt status, sources 160–175, R203. -/
abbrev Reg.FBK_IRQ_STS1 : Nat := 0x00070008
/-- supply status, R203. -/
abbrev Reg.FBK_SUP_STS : Nat := 0x0007000c
/-- mode, index, filter, supply, R203. -/
abbrev Reg.FBK_CHc_CFG (c : Nat) : Nat := 0x00070100 + 0x80 * c
/-- SSI frame, R203. -/
abbrev Reg.FBK_CHc_SSI (c : Nat) : Nat := 0x00070104 + 0x80 * c
/-- SSI CRC polynomial and initial value, R203. -/
abbrev Reg.FBK_CHc_CRC (c : Nat) : Nat := 0x00070108 + 0x80 * c
/-- SSI rate and timeout, speed timeout, R203. -/
abbrev Reg.FBK_CHc_TMO (c : Nat) : Nat := 0x0007010c + 0x80 * c
/-- reset value, signed, R203. -/
abbrev Reg.FBK_CHc_IDX_VAL (c : Nat) : Nat := 0x00070110 + 0x80 * c
/-- counts per revolution, R203. -/
abbrev Reg.FBK_CHc_IDX_CPR (c : Nat) : Nat := 0x00070114 + 0x80 * c
/-- expected count, ARMED_ONCE, signed, R203. -/
abbrev Reg.FBK_CHc_IDX_EXP (c : Nat) : Nat := 0x00070118 + 0x80 * c
/-- tolerance, R203. -/
abbrev Reg.FBK_CHc_IDX_TOL (c : Nat) : Nat := 0x0007011c + 0x80 * c
/-- units per count, FP32, R203. -/
abbrev Reg.FBK_CHc_SCALE (c : Nat) : Nat := 0x00070120 + 0x80 * c
/-- position [31:0]; read latches, R203. -/
abbrev Reg.FBK_CHc_POS_LO (c : Nat) : Nat := 0x00070124 + 0x80 * c
/-- position [47:32], R203. -/
abbrev Reg.FBK_CHc_POS_HI (c : Nat) : Nat := 0x00070128 + 0x80 * c
/-- speed, counts/s, FP32, R203. -/
abbrev Reg.FBK_CHc_SPD (c : Nat) : Nat := 0x0007012c + 0x80 * c
/-- sample nanoseconds, R203. -/
abbrev Reg.FBK_CHc_STMP_NS (c : Nat) : Nat := 0x00070130 + 0x80 * c
/-- sample seconds [31:0], R203. -/
abbrev Reg.FBK_CHc_STMP_SL (c : Nat) : Nat := 0x00070134 + 0x80 * c
/-- sample seconds [47:32], R203. -/
abbrev Reg.FBK_CHc_STMP_SH (c : Nat) : Nat := 0x00070138 + 0x80 * c
/-- sample flags, R203. -/
abbrev Reg.FBK_CHc_FLAGS (c : Nat) : Nat := 0x0007013c + 0x80 * c
/-- captured count [31:0]; read latches, R203. -/
abbrev Reg.FBK_CHc_IDX_CAP_LO (c : Nat) : Nat := 0x00070140 + 0x80 * c
/-- captured count [47:32], R203. -/
abbrev Reg.FBK_CHc_IDX_CAP_HI (c : Nat) : Nat := 0x00070144 + 0x80 * c
/-- short stamp of the last index, R203. -/
abbrev Reg.FBK_CHc_IDX_STMP (c : Nat) : Nat := 0x00070148 + 0x80 * c
/-- error counters, R203. -/
abbrev Reg.FBK_CHc_CNT (c : Nat) : Nat := 0x0007014c + 0x80 * c
/-- channel status, R203. -/
abbrev Reg.FBK_CHc_STS (c : Nat) : Nat := 0x00070150 + 0x80 * c
/-- emulator settings, R203. -/
abbrev Reg.FBK_EMUe_CFG (e : Nat) : Nat := 0x00070800 + 0x10 * e
/-- resolution ratio, R203. -/
abbrev Reg.FBK_EMUe_RATIO (e : Nat) : Nat := 0x00070804 + 0x10 * e
/-- emulator status, R203. -/
abbrev Reg.FBK_EMUe_STS (e : Nat) : Nat := 0x00070808 + 0x10 * e
/-- output count, R203. -/
abbrev Reg.FBK_EMUe_POS (e : Nat) : Nat := 0x0007080c + 0x10 * e
/-- steps and status, R253. -/
abbrev Reg.LCH_STS : Nat := 0x00060000
/-- interrupt status, R253. -/
abbrev Reg.LCH_IRQ_STS : Nat := 0x00060004
/-- wait limit, consistency time, reckon limit, R253. -/
abbrev Reg.LCH_CFG : Nat := 0x00060008
/-- innovation and contradiction gates, R253. -/
abbrev Reg.LCH_GATE : Nat := 0x0006000c
/-- score thresholds, R253. -/
abbrev Reg.LCH_TRUST_THR : Nat := 0x00060010
/-- timing-suspect settings, R253. -/
abbrev Reg.LCH_SLIP_CFG : Nat := 0x00060014
/-- optional observer states, R253. -/
abbrev Reg.LCH_STATES : Nat := 0x00060018
/-- version of the loaded weights image, R253. -/
abbrev Reg.LCH_NET_VER : Nat := 0x0006001c
/-- newest closed epoch, [31:0]; read latches HI, R253. -/
abbrev Reg.LCH_EPOCH_LO : Nat := 0x00060020
/-- newest closed epoch, [63:32], R253. -/
abbrev Reg.LCH_EPOCH_HI : Nat := 0x00060024
/-- close lag and wait-limit closes, R253. -/
abbrev Reg.LCH_CLOSE : Nat := 0x00060028
/-- heave period, s, FP32, R253. -/
abbrev Reg.LCH_HPER : Nat := 0x0006002c
/-- datum latitude, [31:0]; read latches the datum, R253. -/
abbrev Reg.LCH_DATUM_LAT_LO : Nat := 0x00060030
/-- datum latitude, [63:32], R253. -/
abbrev Reg.LCH_DATUM_LAT_HI : Nat := 0x00060034
/-- datum longitude, [31:0], R253. -/
abbrev Reg.LCH_DATUM_LON_LO : Nat := 0x00060038
/-- datum longitude, [63:32], R253. -/
abbrev Reg.LCH_DATUM_LON_HI : Nat := 0x0006003c
/-- datum height, signed mm, R253. -/
abbrev Reg.LCH_DATUM_HGT : Nat := 0x00060040
/-- estimate nanoseconds; read latches 0x0006_0104 to 0x0006_014C, R253. -/
abbrev Reg.LCH_OUT_NS : Nat := 0x00060100
/-- estimate seconds, [31:0], R253. -/
abbrev Reg.LCH_OUT_SL : Nat := 0x00060104
/-- estimate seconds, [47:32], R253. -/
abbrev Reg.LCH_OUT_SH : Nat := 0x00060108
/-- north, signed mm, R253. -/
abbrev Reg.LCH_OUT_N : Nat := 0x0006010c
/-- east, signed mm, R253. -/
abbrev Reg.LCH_OUT_E : Nat := 0x00060110
/-- heading, °, FP32, R253. -/
abbrev Reg.LCH_OUT_HDG : Nat := 0x00060114
/-- surge velocity, m/s, FP32, R253. -/
abbrev Reg.LCH_OUT_U : Nat := 0x00060118
/-- sway velocity, m/s, FP32, R253. -/
abbrev Reg.LCH_OUT_V : Nat := 0x0006011c
/-- yaw rate, °/s, FP32, R253. -/
abbrev Reg.LCH_OUT_R : Nat := 0x00060120
/-- bias north, kN, FP32, R253. -/
abbrev Reg.LCH_OUT_BN : Nat := 0x00060124
/-- bias east, kN, FP32, R253. -/
abbrev Reg.LCH_OUT_BE : Nat := 0x00060128
/-- bias yaw, kN·m, FP32, R253. -/
abbrev Reg.LCH_OUT_BPSI : Nat := 0x0006012c
/-- roll, °, FP32, R253. -/
abbrev Reg.LCH_OUT_ROLL : Nat := 0x00060130
/-- pitch, °, FP32, R253. -/
abbrev Reg.LCH_OUT_PITCH : Nat := 0x00060134
/-- heave at the VRP, m up, FP32, R253. -/
abbrev Reg.LCH_OUT_HEAVE : Nat := 0x00060138
/-- horizontal position standard deviation, m, FP32, R253. -/
abbrev Reg.LCH_OUT_SIG_P : Nat := 0x0006013c
/-- heading standard deviation, °, FP32, R253. -/
abbrev Reg.LCH_OUT_SIG_H : Nat := 0x00060140
/-- true wind speed, m/s, FP32, R253. -/
abbrev Reg.LCH_OUT_WSPD : Nat := 0x00060144
/-- true wind direction from, °, FP32, R253. -/
abbrev Reg.LCH_OUT_WDIR : Nat := 0x00060148
/-- validity and steps, R253. -/
abbrev Reg.LCH_OUT_FLAGS : Nat := 0x0006014c
/-- enable, kind, principle, home, source type, R253. -/
abbrev Reg.LCH_Ss_CFG (s : Nat) : Nat := 0x00060400 + 0x40 * s
/-- source indices and decoder, R253. -/
abbrev Reg.LCH_Ss_SRC (s : Nat) : Nat := 0x00060404 + 0x40 * s
/-- latency, µs, R253. -/
abbrev Reg.LCH_Ss_LAT (s : Nat) : Nat := 0x00060408 + 0x40 * s
/-- lever arm forward, signed mm, R253. -/
abbrev Reg.LCH_Ss_LEV_X (s : Nat) : Nat := 0x0006040c + 0x40 * s
/-- lever arm starboard, signed mm, R253. -/
abbrev Reg.LCH_Ss_LEV_Y (s : Nat) : Nat := 0x00060410 + 0x40 * s
/-- lever arm down, signed mm, R253. -/
abbrev Reg.LCH_Ss_LEV_Z (s : Nat) : Nat := 0x00060414 + 0x40 * s
/-- mounting roll and pitch, R253. -/
abbrev Reg.LCH_Ss_MNT0 (s : Nat) : Nat := 0x00060418 + 0x40 * s
/-- mounting yaw, R253. -/
abbrev Reg.LCH_Ss_MNT1 (s : Nat) : Nat := 0x0006041c + 0x40 * s
/-- configured standard deviation, FP32, R253. -/
abbrev Reg.LCH_Ss_SIGMA (s : Nat) : Nat := 0x00060420 + 0x40 * s
/-- stream status, R253. -/
abbrev Reg.LCH_Ss_STS (s : Nat) : Nat := 0x00060424 + 0x40 * s
/-- trust, jump and drift scores, R253. -/
abbrev Reg.LCH_Ss_SCORE (s : Nat) : Nat := 0x00060428 + 0x40 * s
/-- missing and late counters, R253. -/
abbrev Reg.LCH_Ss_CNT0 (s : Nat) : Nat := 0x0006042c + 0x40 * s
/-- slip, gate, outlier and jump counters, R253. -/
abbrev Reg.LCH_Ss_CNT1 (s : Nat) : Nat := 0x00060430 + 0x40 * s
/-- nominal period, µs, R253. -/
abbrev Reg.LCH_Ss_NOMPER (s : Nat) : Nat := 0x00060434 + 0x40 * s
/-- measured period, µs, R253. -/
abbrev Reg.LCH_Ss_MEASPER (s : Nat) : Nat := 0x00060438 + 0x40 * s
/-- mode and status, R298. -/
abbrev Reg.STR_PL_STS : Nat := 0x00048000
/-- interrupt status, R298. -/
abbrev Reg.STR_PL_IRQ_STS : Nat := 0x00048004
/-- lag, R298. -/
abbrev Reg.STR_PL_LAG : Nat := 0x00048008
/-- overrun, skip and fallback counters, R298. -/
abbrev Reg.STR_PL_CNT : Nat := 0x0004800c
/-- last solve, R298. -/
abbrev Reg.STR_PL_SOLVE : Nat := 0x00048010
/-- merit of the last solve, FP32, R298. -/
abbrev Reg.STR_PL_MERIT : Nat := 0x00048014
/-- reference north, stage 0; read latches, R298. -/
abbrev Reg.STR_PL_REF_N : Nat := 0x00048018
/-- reference east, stage 0, R298. -/
abbrev Reg.STR_PL_REF_E : Nat := 0x0004801c
/-- reference heading, °, FP32, R298. -/
abbrev Reg.STR_PL_REF_HDG : Nat := 0x00048020
/-- released surge force, kN, FP32, R298. -/
abbrev Reg.STR_PL_TAU_X : Nat := 0x00048024
/-- released sway force, kN, FP32, R298. -/
abbrev Reg.STR_PL_TAU_Y : Nat := 0x00048028
/-- released yaw moment, kN·m, FP32, R298. -/
abbrev Reg.STR_PL_TAU_N : Nat := 0x0004802c
/-- waypoint queue, R298. -/
abbrev Reg.STR_PL_TRACK_STS : Nat := 0x00048030
/-- model image version, R298. -/
abbrev Reg.STR_PL_MODEL_VER : Nat := 0x00048034
/-- periods held by the model image, R298. -/
abbrev Reg.STR_PL_MODEL_PER : Nat := 0x00048038
/-- DP period and Bracken budget, R298. -/
abbrev Reg.STR_PL_TIMING : Nat := 0x00048040
/-- stages and stage multiplier, R298. -/
abbrev Reg.STR_PL_HORIZON : Nat := 0x00048044
/-- failure handling, manual timeout, R298. -/
abbrev Reg.STR_PL_FAIL_CFG : Nat := 0x00048048
/-- side hysteresis and ROTATING thrust, R298. -/
abbrev Reg.STR_PL_SECTOR : Nat := 0x0004804c
/-- joystick channels, R298. -/
abbrev Reg.STR_PL_JOY : Nat := 0x00048050
/-- acceptance merit, 10⁻³, R298. -/
abbrev Reg.STR_PL_RES_MAX : Nat := 0x00048054
/-- side flip multiplier, 50.0, R298. -/
abbrev Reg.STR_PL_SW_MULT : Nat := 0x00048058
/-- 10.0 per m², R298. -/
abbrev Reg.STR_PL_Q_POS : Nat := 0x0004805c
/-- 5.0 × 10⁴ per rad², R298. -/
abbrev Reg.STR_PL_Q_HDG : Nat := 0x00048060
/-- 100.0, R298. -/
abbrev Reg.STR_PL_Q_U : Nat := 0x00048064
/-- 100.0, R298. -/
abbrev Reg.STR_PL_Q_V : Nat := 0x00048068
/-- 1.0 × 10⁵, R298. -/
abbrev Reg.STR_PL_Q_R : Nat := 0x0004806c
/-- terminal factor, 10.0, R298. -/
abbrev Reg.STR_PL_W_TERM : Nat := 0x00048070
/-- 1.0, R298. -/
abbrev Reg.STR_PL_W_ALLOC : Nat := 0x00048074
/-- 1.0 × 10³ per kW, R298. -/
abbrev Reg.STR_PL_RHO_BUS : Nat := 0x00048078
/-- 1.0 × 10⁴ per m, R298. -/
abbrev Reg.STR_PL_RHO_EXC : Nat := 0x0004807c
/-- 0.5 m/s, R298. -/
abbrev Reg.STR_PL_VMAX : Nat := 0x00048080
/-- 1.0 °/s, R298. -/
abbrev Reg.STR_PL_RMAX : Nat := 0x00048084
/-- excursion half-width, 5.0 m, R298. -/
abbrev Reg.STR_PL_EXC : Nat := 0x00048088
/-- deadband, 0.05, R298. -/
abbrev Reg.STR_PL_JOY_DB : Nat := 0x0004808c
/-- full-deflection surge force, kN, R298. -/
abbrev Reg.STR_PL_JOY_FX : Nat := 0x00048090
/-- full-deflection sway force, kN, R298. -/
abbrev Reg.STR_PL_JOY_FY : Nat := 0x00048094
/-- full-deflection yaw moment, kN·m, R298. -/
abbrev Reg.STR_PL_JOY_FN : Nat := 0x00048098
/-- fed available power, kW, FP32, R298. -/
abbrev Reg.STR_PL_BUSb_AVAIL (b : Nat) : Nat := 0x00048100 + 0x10 * b
/-- effective available power, kW, FP32, R298. -/
abbrev Reg.STR_PL_BUSb_EFF (b : Nat) : Nat := 0x00048104 + 0x10 * b
/-- planned stage-0 power, kW, FP32, R298. -/
abbrev Reg.STR_PL_BUSb_PLAN (b : Nat) : Nat := 0x00048108 + 0x10 * b
/-- generators and slack, R298. -/
abbrev Reg.STR_PL_BUSb_STS (b : Nat) : Nat := 0x0004810c + 0x10 * b
/-- generator settings, R298. -/
abbrev Reg.STR_PL_GENg_CFG (g : Nat) : Nat := 0x00048200 + 0x8 * g
/-- capacity, kW, FP32, R298. -/
abbrev Reg.STR_PL_GENg_CAP (g : Nat) : Nat := 0x00048204 + 0x8 * g
/-- thruster settings, R298. -/
abbrev Reg.STR_PL_THRi_CFG (i : Nat) : Nat := 0x00048400 + 0x40 * i
/-- position forward, signed mm, R298. -/
abbrev Reg.STR_PL_THRi_POS_X (i : Nat) : Nat := 0x00048404 + 0x40 * i
/-- position starboard, signed mm, R298. -/
abbrev Reg.STR_PL_THRi_POS_Y (i : Nat) : Nat := 0x00048408 + 0x40 * i
/-- forward thrust limit, kN, FP32, R298. -/
abbrev Reg.STR_PL_THRi_FMAX (i : Nat) : Nat := 0x0004840c + 0x40 * i
/-- reverse thrust limit, kN, FP32, R298. -/
abbrev Reg.STR_PL_THRi_FREV (i : Nat) : Nat := 0x00048410 + 0x40 * i
/-- thrust rate, kN/s, FP32, R298. -/
abbrev Reg.STR_PL_THRi_RATE (i : Nat) : Nat := 0x00048414 + 0x40 * i
/-- azimuth rate, °/s, FP32, R298. -/
abbrev Reg.STR_PL_THRi_AZR (i : Nat) : Nat := 0x00048418 + 0x40 * i
/-- forbidden sector, or axis, R298. -/
abbrev Reg.STR_PL_THRi_SECTOR (i : Nat) : Nat := 0x0004841c + 0x40 * i
/-- power coefficient, FP32, R298. -/
abbrev Reg.STR_PL_THRi_KAPPA (i : Nat) : Nat := 0x00048420 + 0x40 * i
/-- effort weight r_i, FP32, R298. -/
abbrev Reg.STR_PL_THRi_WEIGHT (i : Nat) : Nat := 0x00048424 + 0x40 * i
/-- rpm sink, R298. -/
abbrev Reg.STR_PL_THRi_SINK0 (i : Nat) : Nat := 0x00048428 + 0x40 * i
/-- pitch sink, R298. -/
abbrev Reg.STR_PL_THRi_SINK1 (i : Nat) : Nat := 0x0004842c + 0x40 * i
/-- azimuth sink, R298. -/
abbrev Reg.STR_PL_THRi_SINK2 (i : Nat) : Nat := 0x00048430 + 0x40 * i
/-- CRC of the loaded table, R298. -/
abbrev Reg.STR_PL_THRi_TABCRC (i : Nat) : Nat := 0x00048434 + 0x40 * i
/-- released thrust, kN, FP32, R298. -/
abbrev Reg.STR_PL_THRi_CMD (i : Nat) : Nat := 0x00048438 + 0x40 * i
/-- released azimuth, °, FP32, R298. -/
abbrev Reg.STR_PL_THRi_AZ (i : Nat) : Nat := 0x0004843c + 0x40 * i
/-- state and progress, R337. -/
abbrev Reg.SLV_STS : Nat := 0x00050000
/-- interrupt status, R337. -/
abbrev Reg.SLV_IRQ_STS : Nat := 0x00050004
/-- iteration, tolerance and pivot settings, R337. -/
abbrev Reg.SLV_CFG : Nat := 0x00050008
/-- interior push, FP32, 1.0 × 10⁻³, R337. -/
abbrev Reg.SLV_PUSH : Nat := 0x0005000c
/-- deadline of the current or last solve, short stamp, R337. -/
abbrev Reg.SLV_DEADLINE : Nat := 0x00050010
/-- budget of the current or last solve, µs, R337. -/
abbrev Reg.SLV_BUDGET : Nat := 0x00050014
/-- status of the last solve; read latches, R337. -/
abbrev Reg.SLV_LAST_STS : Nat := 0x00050018
/-- merit, FP32; quiet NaN when not computed, R337. -/
abbrev Reg.SLV_LAST_MERIT : Nat := 0x0005001c
/-- scaled primal residual, FP32, R337. -/
abbrev Reg.SLV_LAST_RP : Nat := 0x00050020
/-- scaled dual residual, FP32, R337. -/
abbrev Reg.SLV_LAST_RD : Nat := 0x00050024
/-- gap, FP32, R337. -/
abbrev Reg.SLV_LAST_GAP : Nat := 0x00050028
/-- BRK cycles from start to stop, R337. -/
abbrev Reg.SLV_LAST_CYC : Nat := 0x0005002c
/-- pivot replacements, R337. -/
abbrev Reg.SLV_LAST_PIV : Nat := 0x00050030
/-- retained point, R337. -/
abbrev Reg.SLV_RET : Nat := 0x00050034
/-- law solves, R337. -/
abbrev Reg.SLV_CNT_SOLVE : Nat := 0x00050038
/-- DEADLINE, NOITER and NUMERIC endings, R337. -/
abbrev Reg.SLV_CNT_END : Nat := 0x0005003c
/-- rejections and midfact endings, R337. -/
abbrev Reg.SLV_CNT_REJ : Nat := 0x00050040
/-- ECC counters and isolated banks, R337. -/
abbrev Reg.SLV_ECC : Nat := 0x00050044
/-- engine status, R378. -/
abbrev Reg.STR_STS : Nat := 0x00040000
/-- output delay, R378. -/
abbrev Reg.STR_TIMING : Nat := 0x00040004
/-- sources 224–255, R378. -/
abbrev Reg.STR_IRQ_STS0 : Nat := 0x00040008
/-- sources 256–271, R378. -/
abbrev Reg.STR_IRQ_STS1 : Nat := 0x0004000c
/-- bit s: string s CLOSED, s 0–31, R378. -/
abbrev Reg.STR_CLOSED_LO : Nat := 0x00040010
/-- strings 32–47, R378. -/
abbrev Reg.STR_CLOSED_HI : Nat := 0x00040014
/-- bit s: string s in FAULT, s 0–31, R378. -/
abbrev Reg.STR_FAULT_LO : Nat := 0x00040018
/-- strings 32–47, R378. -/
abbrev Reg.STR_FAULT_HI : Nat := 0x0004001c
/-- computation end times, R378. -/
abbrev Reg.STR_LOAD : Nat := 0x00040020
/-- misses of all strings, R378. -/
abbrev Reg.STR_MISS_TOT : Nat := 0x00040024
/-- types, anti-windup, fault action, R378. -/
abbrev Reg.STR_Ss_CFG (s : Nat) : Nat := 0x00041000 + 0x100 * s
/-- divider and phase, R378. -/
abbrev Reg.STR_Ss_DIV (s : Nat) : Nat := 0x00041004 + 0x100 * s
/-- feedback source, R378. -/
abbrev Reg.STR_Ss_FB_SRC (s : Nat) : Nat := 0x00041008 + 0x100 * s
/-- set-point source, R378. -/
abbrev Reg.STR_Ss_SP_SRC (s : Nat) : Nat := 0x0004100c + 0x100 * s
/-- sink, R378. -/
abbrev Reg.STR_Ss_SINK (s : Nat) : Nat := 0x00041010 + 0x100 * s
/-- position reference count, signed, R378. -/
abbrev Reg.STR_Ss_FB_REF (s : Nat) : Nat := 0x00041014 + 0x100 * s
/-- wrap modulus, 360.0, R378. -/
abbrev Reg.STR_Ss_WRAP (s : Nat) : Nat := 0x00041018 + 0x100 * s
/-- feedback scale, 1.0, R378. -/
abbrev Reg.STR_Ss_FB_SCALE (s : Nat) : Nat := 0x0004101c + 0x100 * s
/-- feedback offset, R378. -/
abbrev Reg.STR_Ss_FB_OFF (s : Nat) : Nat := 0x00041020 + 0x100 * s
/-- set-point scale, 1.0, R378. -/
abbrev Reg.STR_Ss_SP_SCALE (s : Nat) : Nat := 0x00041024 + 0x100 * s
/-- set-point offset, R378. -/
abbrev Reg.STR_Ss_SP_OFF (s : Nat) : Nat := 0x00041028 + 0x100 * s
/-- proportional gain, R378. -/
abbrev Reg.STR_Ss_KP (s : Nat) : Nat := 0x0004102c + 0x100 * s
/-- integral gain, per s, R378. -/
abbrev Reg.STR_Ss_KI (s : Nat) : Nat := 0x00041030 + 0x100 * s
/-- derivative gain, s, R378. -/
abbrev Reg.STR_Ss_KD (s : Nat) : Nat := 0x00041034 + 0x100 * s
/-- derivative filter time constant, s, R378. -/
abbrev Reg.STR_Ss_TF (s : Nat) : Nat := 0x00041038 + 0x100 * s
/-- proportional set-point weight, 1.0, R378. -/
abbrev Reg.STR_Ss_WB (s : Nat) : Nat := 0x0004103c + 0x100 * s
/-- derivative set-point weight, R378. -/
abbrev Reg.STR_Ss_WC (s : Nat) : Nat := 0x00041040 + 0x100 * s
/-- back-calculation gain, per s, R378. -/
abbrev Reg.STR_Ss_KAW (s : Nat) : Nat := 0x00041044 + 0x100 * s
/-- velocity feed-forward, R378. -/
abbrev Reg.STR_Ss_KVFF (s : Nat) : Nat := 0x00041048 + 0x100 * s
/-- acceleration feed-forward, R378. -/
abbrev Reg.STR_Ss_KAFF (s : Nat) : Nat := 0x0004104c + 0x100 * s
/-- output offset, R378. -/
abbrev Reg.STR_Ss_UOFF (s : Nat) : Nat := 0x00041050 + 0x100 * s
/-- upper output limit, +infinity, R378. -/
abbrev Reg.STR_Ss_UMAX (s : Nat) : Nat := 0x00041054 + 0x100 * s
/-- lower output limit, -infinity, R378. -/
abbrev Reg.STR_Ss_UMIN (s : Nat) : Nat := 0x00041058 + 0x100 * s
/-- output rate limit, per s; 0 none, R378. -/
abbrev Reg.STR_Ss_URATE (s : Nat) : Nat := 0x0004105c + 0x100 * s
/-- set-point rate limit, per s; 0 none, R378. -/
abbrev Reg.STR_Ss_SPRATE (s : Nat) : Nat := 0x00041060 + 0x100 * s
/-- following-error limit, +infinity, R378. -/
abbrev Reg.STR_Ss_FE_LIM (s : Nat) : Nat := 0x00041064 + 0x100 * s
/-- safe output value, R378. -/
abbrev Reg.STR_Ss_SAFE (s : Nat) : Nat := 0x00041068 + 0x100 * s
/-- RAMPDOWN rate, per s, R378. -/
abbrev Reg.STR_Ss_RAMP (s : Nat) : Nat := 0x0004106c + 0x100 * s
/-- integer CAN sink scale, 1.0, R378. -/
abbrev Reg.STR_Ss_OUT_SCALE (s : Nat) : Nat := 0x00041070 + 0x100 * s
/-- following-error time, feedback age, R378. -/
abbrev Reg.STR_Ss_TMO (s : Nat) : Nat := 0x00041074 + 0x100 * s
/-- miss, feedback and set-point limits, R378. -/
abbrev Reg.STR_Ss_LIM (s : Nat) : Nat := 0x00041078 + 0x100 * s
/-- host set-point, FP32, R378. -/
abbrev Reg.STR_Ss_SPH (s : Nat) : Nat := 0x0004107c + 0x100 * s
/-- state and flags, R378. -/
abbrev Reg.STR_Ss_STS (s : Nat) : Nat := 0x00041080 + 0x100 * s
/-- event bits, R378. -/
abbrev Reg.STR_Ss_EVT (s : Nat) : Nat := 0x00041084 + 0x100 * s
/-- set-point r in use, FP32; read latches, R378. -/
abbrev Reg.STR_Ss_SPV (s : Nat) : Nat := 0x00041088 + 0x100 * s
/-- feedback y, FP32, R378. -/
abbrev Reg.STR_Ss_FBV (s : Nat) : Nat := 0x0004108c + 0x100 * s
/-- error e, FP32, R378. -/
abbrev Reg.STR_Ss_ERRV (s : Nat) : Nat := 0x00041090 + 0x100 * s
/-- output u, FP32, R378. -/
abbrev Reg.STR_Ss_OUT (s : Nat) : Nat := 0x00041094 + 0x100 * s
/-- integrator, FP32, R378. -/
abbrev Reg.STR_Ss_INT (s : Nat) : Nat := 0x00041098 + 0x100 * s
/-- integrator compensation, FP32, R378. -/
abbrev Reg.STR_Ss_INTC (s : Nat) : Nat := 0x0004109c + 0x100 * s
/-- short stamp of the computation's tick, R378. -/
abbrev Reg.STR_Ss_TICK (s : Nat) : Nat := 0x000410a0 + 0x100 * s
/-- miss counters, R378. -/
abbrev Reg.STR_Ss_CNT0 (s : Nat) : Nat := 0x000410a4 + 0x100 * s
/-- event counters, R378. -/
abbrev Reg.STR_Ss_CNT1 (s : Nat) : Nat := 0x000410a8 + 0x100 * s
/-- free pages, R399. -/
abbrev Reg.STR_DRN_STS : Nat := 0x00044000
/-- interrupt status, R399. -/
abbrev Reg.STR_DRN_IRQ_STS : Nat := 0x00044004
/-- ECC counters, R399. -/
abbrev Reg.STR_DRN_ECC : Nat := 0x00044008
/-- bit b: page 32w + b in use, R399. -/
abbrev Reg.STR_DRN_MAPw (w : Nat) : Nat := 0x00044020 + 0x4 * w
/-- table size, mode, actions, period source, R399. -/
abbrev Reg.STR_DRN_Ss_CFG (s : Nat) : Nat := 0x00044100 + 0x40 * s
/-- base page and count, R399. -/
abbrev Reg.STR_DRN_Ss_ALLOC (s : Nat) : Nat := 0x00044104 + 0x40 * s
/-- learning gain, FP32, R399. -/
abbrev Reg.STR_DRN_Ss_GAIN (s : Nat) : Nat := 0x00044108 + 0x40 * s
/-- phase lead, computations, R399. -/
abbrev Reg.STR_DRN_Ss_LEAD (s : Nat) : Nat := 0x0004410c + 0x40 * s
/-- Q-filter centre tap, 1.0, R399. -/
abbrev Reg.STR_DRN_Ss_Q0 (s : Nat) : Nat := 0x00044110 + 0x40 * s
/-- Q-filter first side tap, R399. -/
abbrev Reg.STR_DRN_Ss_Q1 (s : Nat) : Nat := 0x00044114 + 0x40 * s
/-- Q-filter second side tap, R399. -/
abbrev Reg.STR_DRN_Ss_Q2 (s : Nat) : Nat := 0x00044118 + 0x40 * s
/-- limit of, R399. -/
abbrev Reg.STR_DRN_Ss_QMAX (s : Nat) : Nat := 0x0004411c + 0x40 * s
/-- decay factor per pass, 0.95, R399. -/
abbrev Reg.STR_DRN_Ss_DECAY (s : Nat) : Nat := 0x00044120 + 0x40 * s
/-- host period, s, FP32, R399. -/
abbrev Reg.STR_DRN_Ss_HPER (s : Nat) : Nat := 0x00044124 + 0x40 * s
/-- step in use, Q12.20, R399. -/
abbrev Reg.STR_DRN_Ss_STEP (s : Nat) : Nat := 0x00044128 + 0x40 * s
/-- φ, Q12.20; read latches, R399. -/
abbrev Reg.STR_DRN_Ss_PHASE (s : Nat) : Nat := 0x0004412c + 0x40 * s
/-- learner status, R399. -/
abbrev Reg.STR_DRN_Ss_STS (s : Nat) : Nat := 0x00044130 + 0x40 * s
/-- hold and clip counters, R399. -/
abbrev Reg.STR_DRN_Ss_CNT (s : Nat) : Nat := 0x00044134 + 0x40 * s
/-- interrupt status, R429. -/
abbrev Reg.CAN_IRQ_STS : Nat := 0x00090000
/-- mode and options, R429. -/
abbrev Reg.CAN_c_CTRL (c : Nat) : Nat := 0x00091000 + 0x1000 * c
/-- nominal bit timing, 500 kbit/s, R429. -/
abbrev Reg.CAN_c_NBT (c : Nat) : Nat := 0x00091004 + 0x1000 * c
/-- data bit timing, 5 Mbit/s, R429. -/
abbrev Reg.CAN_c_DBT (c : Nat) : Nat := 0x00091008 + 0x1000 * c
/-- delay compensation, R429. -/
abbrev Reg.CAN_c_TDC (c : Nat) : Nat := 0x0009100c + 0x1000 * c
/-- state, R429. -/
abbrev Reg.CAN_c_STS (c : Nat) : Nat := 0x00091010 + 0x1000 * c
/-- error counters, R429. -/
abbrev Reg.CAN_c_ERR (c : Nat) : Nat := 0x00091014 + 0x1000 * c
/-- error type counters, R429. -/
abbrev Reg.CAN_c_CNT0 (c : Nat) : Nat := 0x00091018 + 0x1000 * c
/-- other counters, R429. -/
abbrev Reg.CAN_c_CNT1 (c : Nat) : Nat := 0x0009101c + 0x1000 * c
/-- FIFO q, R429. -/
abbrev Reg.CAN_c_FIFOq_STS (c : Nat) (q : Nat) : Nat := 0x00091020 + 0x1000 * c + 0x4 * q
/-- filter identifier, R429. -/
abbrev Reg.CAN_c_FLTf_ID (c : Nat) (f : Nat) : Nat := 0x00091100 + 0x1000 * c + 0x10 * f
/-- filter mask, R429. -/
abbrev Reg.CAN_c_FLTf_MASK (c : Nat) (f : Nat) : Nat := 0x00091104 + 0x1000 * c + 0x10 * f
/-- filter action, R429. -/
abbrev Reg.CAN_c_FLTf_ACT (c : Nat) (f : Nat) : Nat := 0x00091108 + 0x1000 * c + 0x10 * f
/-- object settings, R429. -/
abbrev Reg.CAN_c_OBJo_CFG (c : Nat) (o : Nat) : Nat := 0x00091800 + 0x1000 * c + 0x10 * o
/-- object identifier, R429. -/
abbrev Reg.CAN_c_OBJo_ID (c : Nat) (o : Nat) : Nat := 0x00091804 + 0x1000 * c + 0x10 * o
/-- short stamp of the last frame, R429. -/
abbrev Reg.CAN_c_OBJo_STMP (c : Nat) (o : Nat) : Nat := 0x00091808 + 0x1000 * c + 0x10 * o
/-- object counters, R429. -/
abbrev Reg.CAN_c_OBJo_CNT (c : Nat) (o : Nat) : Nat := 0x0009180c + 0x1000 * c + 0x10 * o
/-- VFIELD reporting, R456. -/
abbrev Reg.DIO_STS : Nat := 0x000a0000
/-- interrupt status, R456. -/
abbrev Reg.DIO_IRQ_STS : Nat := 0x000a0004
/-- groups 0 and 1, mV, R456. -/
abbrev Reg.DIO_VF_MEAS0 : Nat := 0x000a0008
/-- groups 2 and 3, mV, R456. -/
abbrev Reg.DIO_VF_MEAS1 : Nat := 0x000a000c
/-- filtered input states, R456. -/
abbrev Reg.DIO_DI_STATE : Nat := 0x000a0010
/-- input validity, R456. -/
abbrev Reg.DIO_DI_VALID : Nat := 0x000a0014
/-- latched edges, R456. -/
abbrev Reg.DIO_DI_EVT : Nat := 0x000a0018
/-- commanded output states, R456. -/
abbrev Reg.DIO_DO_CMD : Nat := 0x000a001c
/-- driven output states, R456. -/
abbrev Reg.DIO_DO_STATE : Nat := 0x000a0020
/-- output faults, R456. -/
abbrev Reg.DIO_DO_FLT : Nat := 0x000a0024
/-- outputs exempt from GATE, R456. -/
abbrev Reg.DIO_DO_UNGATED : Nat := 0x000a0028
/-- thresholds, filter, edge, R456. -/
abbrev Reg.DIO_DIi_CFG (i : Nat) : Nat := 0x000a0100 + 0x10 * i
/-- input status and edge count, R456. -/
abbrev Reg.DIO_DIi_STS (i : Nat) : Nat := 0x000a0104 + 0x10 * i
/-- short stamp of the last edge, R456. -/
abbrev Reg.DIO_DIi_STMP (i : Nat) : Nat := 0x000a0108 + 0x10 * i
/-- mode, enable, status, R456. -/
abbrev Reg.DIO_AOk_CFG (k : Nat) : Nat := 0x000a0400 + 0x10 * k
/-- host value, FP32, R456. -/
abbrev Reg.DIO_AOk_VAL (k : Nat) : Nat := 0x000a0404 + 0x10 * k
/-- off value, FP32, R456. -/
abbrev Reg.DIO_AOk_OFF (k : Nat) : Nat := 0x000a0408 + 0x10 * k
/-- value driven, FP32, R456. -/
abbrev Reg.DIO_AOk_OUT (k : Nat) : Nat := 0x000a040c + 0x10 * k
/-- island state and GATE, R490. -/
abbrev Reg.SAF_STS : Nat := 0x000b0000
/-- interrupt status, R490. -/
abbrev Reg.SAF_IRQ_STS : Nat := 0x000b0004
/-- island firmware version, R490. -/
abbrev Reg.SAF_VER : Nat := 0x000b0008
/-- CRC of the accepted configuration, R490. -/
abbrev Reg.SAF_CFG_CRC : Nat := 0x000b000c
/-- CRC of the candidate, R490. -/
abbrev Reg.SAF_CAND_CRC : Nat := 0x000b0010
/-- safety inputs, R490. -/
abbrev Reg.SAF_SI_STS : Nat := 0x000b0014
/-- safety outputs, R490. -/
abbrev Reg.SAF_SO_STS : Nat := 0x000b0018
/-- host demands, R490. -/
abbrev Reg.SAF_DEMAND : Nat := 0x000b001c
/-- connection states, R490. -/
abbrev Reg.SAF_CONN_STS : Nat := 0x000b0020
/-- VSAFE, mV, R490. -/
abbrev Reg.SAF_VSAFE : Nat := 0x000b0024
/-- function f, R490. -/
abbrev Reg.SAF_FNf_STS (f : Nat) : Nat := 0x000b0100 + 0x4 * f
/-- axis a, R490. -/
abbrev Reg.SAF_AXa_STS (a : Nat) : Nat := 0x000b0200 + 0x10 * a
/-- pA, FP32, R490. -/
abbrev Reg.SAF_AXa_POS (a : Nat) : Nat := 0x000b0204 + 0x10 * a
/-- speed, FP32, R490. -/
abbrev Reg.SAF_AXa_SPD (a : Nat) : Nat := 0x000b0208 + 0x10 * a
/-- \, R490. -/
abbrev Reg.SAF_AXa_DIFF (a : Nat) : Nat := 0x000b020c + 0x10 * a
/-- connection counters, R490. -/
abbrev Reg.SAF_CONNk_CNT (k : Nat) : Nat := 0x000b0300 + 0x4 * k
/-- role, position, holder, R531. -/
abbrev Reg.STK_STS : Nat := 0x000f0000
/-- interrupt status, R531. -/
abbrev Reg.STK_IRQ_STS : Nat := 0x000f0004
/-- expected members, pairs, limits, R531. -/
abbrev Reg.STK_CFG : Nat := 0x000f0008
/-- BRIDGE and pair line state, R531. -/
abbrev Reg.STK_BRG : Nat := 0x000f000c
/-- modules present and reachable, R531. -/
abbrev Reg.STK_MEMBERS : Nat := 0x000f0010
/-- LINK_E, R531. -/
abbrev Reg.STK_LINK0_STS : Nat := 0x000f0014
/-- LINK_W, R531. -/
abbrev Reg.STK_LINK1_STS : Nat := 0x000f0018
/-- offset from the master, signed ns, R531. -/
abbrev Reg.STK_TIME_OFS : Nat := 0x000f001c
/-- matched digest comparisons, R531. -/
abbrev Reg.STK_DIG_OK : Nat := 0x000f0020
/-- divergences and uncompared cycles, R531. -/
abbrev Reg.STK_DIG_CNT : Nat := 0x000f0024
/-- short stamp of the last takeover detection, R531. -/
abbrev Reg.STK_TAKE_STMP : Nat := 0x000f0028
/-- last takeover, R531. -/
abbrev Reg.STK_TAKE_INFO : Nat := 0x000f002c
/-- resynchronisation, R531. -/
abbrev Reg.STK_SYNC_STS : Nat := 0x000f0030
/-- own configuration hash, first 4 bytes, R531. -/
abbrev Reg.STK_CFG_HASH : Nat := 0x000f0034
/-- peer controller's hash, first 4 bytes, R531. -/
abbrev Reg.STK_PEER_HASH : Nat := 0x000f0038
/-- shadow format numbers, R531. -/
abbrev Reg.STK_SHADOW_FMT : Nat := 0x000f003c
/-- endpoint status, R575. -/
abbrev Reg.HIF_STS : Nat := 0x00010000
/-- interrupt status, R575. -/
abbrev Reg.HIF_IRQ_STS : Nat := 0x00010004
/-- doorbell page, [31:12], R575. -/
abbrev Reg.HIF_DB_BASE_LO : Nat := 0x00010008
/-- doorbell page, [63:32], R575. -/
abbrev Reg.HIF_DB_BASE_HI : Nat := 0x0001000c
/-- shadow page, [31:12], R575. -/
abbrev Reg.HIF_SH_BASE_LO : Nat := 0x00010010
/-- shadow page, [63:32], R575. -/
abbrev Reg.HIF_SH_BASE_HI : Nat := 0x00010014
/-- poll interval, R575. -/
abbrev Reg.HIF_POLL : Nat := 0x00010018
/-- link parameters, R575. -/
abbrev Reg.HIF_PCIE_STS : Nat := 0x0001001c
/-- commands completed, R575. -/
abbrev Reg.HIF_CMD_CNT : Nat := 0x00010020
/-- error and drop counters, R575. -/
abbrev Reg.HIF_ERR_CNT : Nat := 0x00010024
/-- event routing of block b, R575. -/
abbrev Reg.HIF_EVT_ROUTEb (b : Nat) : Nat := 0x00010040 + 0x4 * b
/-- ring base, [31:12], R575. -/
abbrev Reg.HIF_SQq_BASE_LO (q : Nat) : Nat := 0x00010100 + 0x10 * q
/-- ring base, [63:32], R575. -/
abbrev Reg.HIF_SQq_BASE_HI (q : Nat) : Nat := 0x00010104 + 0x10 * q
/-- enable, size, class, CQ, R575. -/
abbrev Reg.HIF_SQq_CFG (q : Nat) : Nat := 0x00010108 + 0x10 * q
/-- status, R575. -/
abbrev Reg.HIF_SQq_STS (q : Nat) : Nat := 0x0001010c + 0x10 * q
/-- as for SQ, at +0x0 to +0xC, R575. -/
abbrev Reg.HIF_CQq_BASE_LO (q : Nat) : Nat := 0x00010200 + 0x10 * q
/-- as for SQ, at +0x0 to +0xC, R575. -/
abbrev Reg.HIF_CQq_BASE_HI (q : Nat) : Nat := 0x00010204 + 0x10 * q
/-- as for SQ, at +0x0 to +0xC, R575. -/
abbrev Reg.HIF_CQq_CFG (q : Nat) : Nat := 0x00010208 + 0x10 * q
/-- as for SQ, at +0x0 to +0xC, R575. -/
abbrev Reg.HIF_CQq_STS (q : Nat) : Nat := 0x0001020c + 0x10 * q
/-- as for SQ, at +0x0 to +0xC, R575. -/
abbrev Reg.HIF_EQe_BASE_LO (e : Nat) : Nat := 0x00010300 + 0x10 * e
/-- as for SQ, at +0x0 to +0xC, R575. -/
abbrev Reg.HIF_EQe_BASE_HI (e : Nat) : Nat := 0x00010304 + 0x10 * e
/-- as for SQ, at +0x0 to +0xC, R575. -/
abbrev Reg.HIF_EQe_CFG (e : Nat) : Nat := 0x00010308 + 0x10 * e
/-- as for SQ, at +0x0 to +0xC, R575. -/
abbrev Reg.HIF_EQe_STS (e : Nat) : Nat := 0x0001030c + 0x10 * e
/-- as for SQ, at +0x0 to +0xC, R575. -/
abbrev Reg.HIF_STQj_BASE_LO (j : Nat) : Nat := 0x00010400 + 0x10 * j
/-- as for SQ, at +0x0 to +0xC, R575. -/
abbrev Reg.HIF_STQj_BASE_HI (j : Nat) : Nat := 0x00010404 + 0x10 * j
/-- as for SQ, at +0x0 to +0xC, R575. -/
abbrev Reg.HIF_STQj_CFG (j : Nat) : Nat := 0x00010408 + 0x10 * j
/-- as for SQ, at +0x0 to +0xC, R575. -/
abbrev Reg.HIF_STQj_STS (j : Nat) : Nat := 0x0001040c + 0x10 * j
/-- services, R575. -/
abbrev Reg.NETp_CTRL (p : Nat) : Nat := 0x00010800 + 0x40 * p
/-- MAC octets 3–6, R575. -/
abbrev Reg.NETp_MAC_LO (p : Nat) : Nat := 0x00010804 + 0x40 * p
/-- MAC octets 1–2, R575. -/
abbrev Reg.NETp_MAC_HI (p : Nat) : Nat := 0x00010808 + 0x40 * p
/-- IPv4 address, R575. -/
abbrev Reg.NETp_IP (p : Nat) : Nat := 0x0001080c + 0x40 * p
/-- IPv4 mask, R575. -/
abbrev Reg.NETp_MASK (p : Nat) : Nat := 0x00010810 + 0x40 * p
/-- IPv4 gateway, R575. -/
abbrev Reg.NETp_GW (p : Nat) : Nat := 0x00010814 + 0x40 * p
/-- VLAN tag, R575. -/
abbrev Reg.NETp_VLAN (p : Nat) : Nat := 0x00010818 + 0x40 * p
/-- safe frame group, R575. -/
abbrev Reg.NETp_SAFE_DST (p : Nat) : Nat := 0x0001081c + 0x40 * p
/-- maintenance UDP port, R575. -/
abbrev Reg.NETp_MAINT (p : Nat) : Nat := 0x00010820 + 0x40 * p
/-- port status, R575. -/
abbrev Reg.NETp_STS (p : Nat) : Nat := 0x00010824 + 0x40 * p
/-- frames received, R575. -/
abbrev Reg.NETp_RX_CNT (p : Nat) : Nat := 0x00010828 + 0x40 * p
/-- frames sent, R575. -/
abbrev Reg.NETp_TX_CNT (p : Nat) : Nat := 0x0001082c + 0x40 * p
/-- frames dropped, R575. -/
abbrev Reg.NETp_DROP_CNT (p : Nat) : Nat := 0x00010830 + 0x40 * p
/-- controller status, R591. -/
abbrev Reg.IRQ_STS : Nat := 0x00020000
/-- SPURIOUS_AFTER_CLAIM, all targets, R591. -/
abbrev Reg.IRQ_SPUR_TOT : Nat := 0x00020004
/-- deliveries sent, R591. -/
abbrev Reg.IRQ_DELIV_CNT : Nat := 0x00020008
/-- source levels as seen in CORE, R591. -/
abbrev Reg.IRQ_LEVELw (w : Nat) : Nat := 0x00020040 + 0x4 * w
/-- sources PENDING, R591. -/
abbrev Reg.IRQ_PENDw (w : Nat) : Nat := 0x00020080 + 0x4 * w
/-- sources CLAIMED; read marks them looked, R591. -/
abbrev Reg.IRQ_CLAIMEDw (w : Nat) : Nat := 0x000200c0 + 0x4 * w
/-- software-raised levels, set, R591. -/
abbrev Reg.IRQ_SWR_SETx (x : Nat) : Nat := 0x00020100 + 0x4 * x
/-- software-raised levels, clear, R591. -/
abbrev Reg.IRQ_SWR_CLRx (x : Nat) : Nat := 0x00020110 + 0x4 * x
/-- thresholds and repeat, R591. -/
abbrev Reg.IRQ_GRPg_CFG (g : Nat) : Nat := 0x00020200 + 0x10 * g
/-- window state, R591. -/
abbrev Reg.IRQ_GRPg_STS (g : Nat) : Nat := 0x00020204 + 0x10 * g
/-- next unlooked source of vector v, R591. -/
abbrev Reg.IRQ_VECv_CLAIM (v : Nat) : Nat := 0x00020400 + 0x4 * v
/-- SPURIOUS_AFTER_CLAIM of vector v, R591. -/
abbrev Reg.IRQ_VECv_SPUR (v : Nat) : Nat := 0x00020480 + 0x4 * v
/-- SPURIOUS_AFTER_CLAIM of core c, R591. -/
abbrev Reg.IRQ_COREc_SPUR (c : Nat) : Nat := 0x00020500 + 0x4 * c
/-- target, group and enable of source s, R591. -/
abbrev Reg.IRQ_SRCs_TGT (s : Nat) : Nat := 0x00021000 + 0x4 * s
/-- recorder status, R610. -/
abbrev Reg.LOG_STS : Nat := 0x000d0000
/-- interrupt status, R610. -/
abbrev Reg.LOG_IRQ_STS : Nat := 0x000d0004
/-- filter, anchor period, thresholds, R610. -/
abbrev Reg.LOG_CFG : Nat := 0x000d0008
/-- newest committed sequence, [31:0]; read latches, R610. -/
abbrev Reg.LOG_HEAD_LO : Nat := 0x000d000c
/-- [63:32], R610. -/
abbrev Reg.LOG_HEAD_HI : Nat := 0x000d0010
/-- floor, [31:0], R610. -/
abbrev Reg.LOG_FLOOR_LO : Nat := 0x000d0014
/-- [63:32], R610. -/
abbrev Reg.LOG_FLOOR_HI : Nat := 0x000d0018
/-- tail, [31:0], R610. -/
abbrev Reg.LOG_TAIL_LO : Nat := 0x000d001c
/-- [63:32], R610. -/
abbrev Reg.LOG_TAIL_HI : Nat := 0x000d0020
/-- segments in use and retired, R610. -/
abbrev Reg.LOG_USED : Nat := 0x000d0024
/-- write buffer fill, R610. -/
abbrev Reg.LOG_BUF : Nat := 0x000d0028
/-- records dropped, R610. -/
abbrev Reg.LOG_DROP : Nat := 0x000d002c
/-- corrupt and filtered records, R610. -/
abbrev Reg.LOG_CNT : Nat := 0x000d0030
/-- records evicted, R610. -/
abbrev Reg.LOG_EVICT : Nat := 0x000d0034
/-- flash life used, R610. -/
abbrev Reg.LOG_WEAR : Nat := 0x000d0038
/-- commit rate, R610. -/
abbrev Reg.LOG_RATE : Nat := 0x000d003c
/-- module state and start progress, R643. -/
abbrev Reg.GEN_STATE : Nat := 0x00000080
/-- last start, R643. -/
abbrev Reg.GEN_START : Nat := 0x00000084
/-- start durations, R643. -/
abbrev Reg.GEN_START_T : Nat := 0x00000088
/-- start settings, R643. -/
abbrev Reg.GEN_START_CFG : Nat := 0x0000008c
/-- configuration copies and choice, R643. -/
abbrev Reg.GEN_CFG_STS : Nat := 0x00000090
/-- generation in force, [31:0]; read latches, R643. -/
abbrev Reg.GEN_CFG_GEN_LO : Nat := 0x00000094
/-- generation in force, [63:32], R643. -/
abbrev Reg.GEN_CFG_GEN_HI : Nat := 0x00000098
/-- image version in force, R643. -/
abbrev Reg.GEN_CFG_VER : Nat := 0x0000009c
/-- CRC of the image in force, R643. -/
abbrev Reg.GEN_CFG_CRC : Nat := 0x000000a0
/-- fault table, R643. -/
abbrev Reg.GEN_FAULT : Nat := 0x000000a4
/-- DRAM errors and retired pages, R643. -/
abbrev Reg.GEN_DRAM_ECC : Nat := 0x000000a8
/-- update activity, R679. -/
abbrev Reg.UPD_STS : Nat := 0x000e0000
/-- sources 400–415, R679. -/
abbrev Reg.UPD_IRQ_STS : Nat := 0x000e0004
/-- trial state of each kind, R679. -/
abbrev Reg.UPD_TRIAL : Nat := 0x000e0008
/-- copy progress, R679. -/
abbrev Reg.UPD_JOURNAL : Nat := 0x000e000c
/-- MAIN version in force, R679. -/
abbrev Reg.UPD_VER_MAIN : Nat := 0x000e0010
/-- GNSS version in force, R679. -/
abbrev Reg.UPD_VER_GNSS : Nat := 0x000e0014
/-- SAFE version in force, R679. -/
abbrev Reg.UPD_VER_SAFE : Nat := 0x000e0018
/-- MAIN version in the fallback slot, R679. -/
abbrev Reg.UPD_VER_FB : Nat := 0x000e001c
/-- slot state, R679. -/
abbrev Reg.UPD_SLOTn_STS (n : Nat) : Nat := 0x000e0020 + 0x10 * n
/-- total image bytes, R679. -/
abbrev Reg.UPD_SLOTn_SIZE (n : Nat) : Nat := 0x000e0024 + 0x10 * n
/-- bytes received (R664), R679. -/
abbrev Reg.UPD_SLOTn_RCVD (n : Nat) : Nat := 0x000e0028 + 0x10 * n
/-- image version after verification, R679. -/
abbrev Reg.UPD_SLOTn_VER (n : Nat) : Nat := 0x000e002c + 0x10 * n
/-- lifecycle and flags, R680. -/
abbrev Reg.SEC_STS : Nat := 0x00100000
/-- UID, [31:0], R680. -/
abbrev Reg.SEC_UID_LO : Nat := 0x00100004
/-- UID, [63:32], R680. -/
abbrev Reg.SEC_UID_HI : Nat := 0x00100008
/-- keys programmed and revoked, R680. -/
abbrev Reg.SEC_KEYS : Nat := 0x0010000c
/-- kind masks of the root-key slots, R680. -/
abbrev Reg.SEC_ROOT_MASK : Nat := 0x00100010
/-- envelope counters, R680. -/
abbrev Reg.SEC_ENV_CNT : Nat := 0x00100014
/-- counters 4w to 4w + 3, R680. -/
abbrev Reg.SEC_CTRw (w : Nat) : Nat := 0x00100040 + 0x4 * w
/-- feeds, VBAK and temperature flags, R709. -/
abbrev Reg.GEN_PWR_STS : Nat := 0x000000c0
/-- feed voltages, R709. -/
abbrev Reg.GEN_VMAIN : Nat := 0x000000c4
/-- plate and die temperatures, R709. -/
abbrev Reg.GEN_TEMP : Nat := 0x000000c8
/-- shared pin choice, R709. -/
abbrev Reg.GEN_PINMUX : Nat := 0x000000cc

end Sys2Proof.Machine

namespace Sys2Proof

/-- GEN_ID family, R3. -/
def Fld.GEN_ID_family : Fld := ⟨0x00000000, 31, 16⟩
/-- GEN_ID member, R3. -/
def Fld.GEN_ID_member : Fld := ⟨0x00000000, 15, 0⟩
/-- GEN_STEP step_letter, R3. -/
def Fld.GEN_STEP_step_letter : Fld := ⟨0x00000004, 15, 8⟩
/-- GEN_STEP step_number, R3. -/
def Fld.GEN_STEP_step_number : Fld := ⟨0x00000004, 7, 0⟩
/-- GEN_PARAM0 saf_present, R3. -/
def Fld.GEN_PARAM0_saf_present : Fld := ⟨0x00000008, 28, 28⟩
/-- GEN_PARAM0 stack_pos, R3. -/
def Fld.GEN_PARAM0_stack_pos : Fld := ⟨0x00000008, 27, 24⟩
/-- GEN_PARAM0 gnss_ant, R3. -/
def Fld.GEN_PARAM0_gnss_ant : Fld := ⟨0x00000008, 23, 20⟩
/-- GEN_PARAM0 can_ctl, R3. -/
def Fld.GEN_PARAM0_can_ctl : Fld := ⟨0x00000008, 19, 16⟩
/-- GEN_PARAM0 brk_lanes, R3. -/
def Fld.GEN_PARAM0_brk_lanes : Fld := ⟨0x00000008, 15, 8⟩
/-- GEN_PARAM0 strings, R3. -/
def Fld.GEN_PARAM0_strings : Fld := ⟨0x00000008, 7, 0⟩
/-- GEN_PARAM1 drone_pages, R3. -/
def Fld.GEN_PARAM1_drone_pages : Fld := ⟨0x0000000c, 31, 16⟩
/-- GEN_PARAM1 streams, R3. -/
def Fld.GEN_PARAM1_streams : Fld := ⟨0x0000000c, 15, 8⟩
/-- GEN_PARAM1 thrusters, R3. -/
def Fld.GEN_PARAM1_thrusters : Fld := ⟨0x0000000c, 7, 0⟩
/-- GEN_CLK_OK ok, R38. -/
def Fld.GEN_CLK_OK_ok : Fld := ⟨0x00000040, 11, 0⟩
/-- GEN_CLK_FAIL fail, R38. -/
def Fld.GEN_CLK_FAIL_fail : Fld := ⟨0x00000044, 11, 0⟩
/-- GEN_CLK_SUSPECT suspect, R38. -/
def Fld.GEN_CLK_SUSPECT_suspect : Fld := ⟨0x00000048, 11, 0⟩
/-- GEN_CLK_REF ref_lost, R38. -/
def Fld.GEN_CLK_REF_ref_lost : Fld := ⟨0x0000004c, 11, 11⟩
/-- GEN_CLK_REF ref_in_ok, R38. -/
def Fld.GEN_CLK_REF_ref_in_ok : Fld := ⟨0x0000004c, 10, 10⟩
/-- GEN_CLK_REF ocxo_ok, R38. -/
def Fld.GEN_CLK_REF_ocxo_ok : Fld := ⟨0x0000004c, 9, 9⟩
/-- GEN_CLK_REF ref_active, R38. -/
def Fld.GEN_CLK_REF_ref_active : Fld := ⟨0x0000004c, 8, 8⟩
/-- GEN_CLK_REF ref_auto, R38. -/
def Fld.GEN_CLK_REF_ref_auto : Fld := ⟨0x0000004c, 1, 1⟩
/-- GEN_CLK_REF ref_sel, R38. -/
def Fld.GEN_CLK_REF_ref_sel : Fld := ⟨0x0000004c, 0, 0⟩
/-- GEN_CYC_LO cycle_lo, R38. -/
def Fld.GEN_CYC_LO_cycle_lo : Fld := ⟨0x00000050, 31, 0⟩
/-- GEN_CYC_HI cycle_hi, R38. -/
def Fld.GEN_CYC_HI_cycle_hi : Fld := ⟨0x00000054, 31, 0⟩
/-- GEN_CYC_ORG_NS org_ns, R38. -/
def Fld.GEN_CYC_ORG_NS_org_ns : Fld := ⟨0x00000058, 29, 0⟩
/-- GEN_CYC_ORG_SL org_s_lo, R38. -/
def Fld.GEN_CYC_ORG_SL_org_s_lo : Fld := ⟨0x0000005c, 31, 0⟩
/-- GEN_CYC_ORG_SH org_s_hi, R38. -/
def Fld.GEN_CYC_ORG_SH_org_s_hi : Fld := ⟨0x00000060, 15, 0⟩
/-- TIME_CTRL step_go, R91. -/
def Fld.TIME_CTRL_step_go : Fld := ⟨0x00030000, 0, 0⟩
/-- TIME_STS src_eff, R91. -/
def Fld.TIME_STS_src_eff : Fld := ⟨0x00030004, 15, 13⟩
/-- TIME_STS master, R91. -/
def Fld.TIME_STS_master : Fld := ⟨0x00030004, 12, 12⟩
/-- TIME_STS slewing, R91. -/
def Fld.TIME_STS_slewing : Fld := ⟨0x00030004, 11, 11⟩
/-- TIME_STS hold, R91. -/
def Fld.TIME_STS_hold : Fld := ⟨0x00030004, 10, 10⟩
/-- TIME_STS bound_over, R91. -/
def Fld.TIME_STS_bound_over : Fld := ⟨0x00030004, 9, 9⟩
/-- TIME_STS valid, R91. -/
def Fld.TIME_STS_valid : Fld := ⟨0x00030004, 8, 8⟩
/-- TIME_STS host_ignored, R91. -/
def Fld.TIME_STS_host_ignored : Fld := ⟨0x00030004, 4, 4⟩
/-- TIME_STS inc_range, R91. -/
def Fld.TIME_STS_inc_range : Fld := ⟨0x00030004, 3, 3⟩
/-- TIME_STS step_refused, R91. -/
def Fld.TIME_STS_step_refused : Fld := ⟨0x00030004, 2, 2⟩
/-- TIME_STS step_done, R91. -/
def Fld.TIME_STS_step_done : Fld := ⟨0x00030004, 1, 1⟩
/-- TIME_NOW_NS ns, R91. -/
def Fld.TIME_NOW_NS_ns : Fld := ⟨0x00030008, 29, 0⟩
/-- TIME_NOW_SL s_lo, R91. -/
def Fld.TIME_NOW_SL_s_lo : Fld := ⟨0x0003000c, 31, 0⟩
/-- TIME_NOW_SH s_hi, R91. -/
def Fld.TIME_NOW_SH_s_hi : Fld := ⟨0x00030010, 15, 0⟩
/-- TIME_NOW_FRAC frac, R91. -/
def Fld.TIME_NOW_FRAC_frac : Fld := ⟨0x00030014, 31, 0⟩
/-- TIME_SHORT short, R91. -/
def Fld.TIME_SHORT_short : Fld := ⟨0x00030018, 31, 0⟩
/-- TIME_INC_LO inc_frac, R91. -/
def Fld.TIME_INC_LO_inc_frac : Fld := ⟨0x0003001c, 31, 0⟩
/-- TIME_INC_HI inc_int, R91. -/
def Fld.TIME_INC_HI_inc_int : Fld := ⟨0x00030020, 7, 0⟩
/-- TIME_STEP_NS step_ns, R91. -/
def Fld.TIME_STEP_NS_step_ns : Fld := ⟨0x00030024, 31, 0⟩
/-- TIME_STEP_S step_s, R91. -/
def Fld.TIME_STEP_S_step_s : Fld := ⟨0x00030028, 31, 0⟩
/-- TIME_DISC allow_step, R91. -/
def Fld.TIME_DISC_allow_step : Fld := ⟨0x0003002c, 8, 8⟩
/-- TIME_DISC src, R91. -/
def Fld.TIME_DISC_src : Fld := ⟨0x0003002c, 2, 0⟩
/-- TIME_SLEW step_min, R91. -/
def Fld.TIME_SLEW_step_min : Fld := ⟨0x00030030, 31, 16⟩
/-- TIME_SLEW rate, R91. -/
def Fld.TIME_SLEW_rate : Fld := ⟨0x00030030, 15, 0⟩
/-- TIME_HOLD_CFG limit, R91. -/
def Fld.TIME_HOLD_CFG_limit : Fld := ⟨0x00030034, 31, 16⟩
/-- TIME_HOLD_CFG rate_ref, R91. -/
def Fld.TIME_HOLD_CFG_rate_ref : Fld := ⟨0x00030034, 15, 8⟩
/-- TIME_HOLD_CFG entry, R91. -/
def Fld.TIME_HOLD_CFG_entry : Fld := ⟨0x00030034, 7, 0⟩
/-- TIME_HOLD_BOUND bound, R91. -/
def Fld.TIME_HOLD_BOUND_bound : Fld := ⟨0x00030038, 31, 0⟩
/-- TIME_HOLD_TIME t, R91. -/
def Fld.TIME_HOLD_TIME_t : Fld := ⟨0x0003003c, 31, 0⟩
/-- TIME_IRQ_STS irq, R91. -/
def Fld.TIME_IRQ_STS_irq : Fld := ⟨0x00030040, 31, 0⟩
/-- TPOk_CTRL commit, R91. -/
def Fld.TPOk_CTRL_commit (k : Nat) : Fld := ⟨0x00030100 + 0x20 * k, 3, 3⟩
/-- TPOk_CTRL polarity, R91. -/
def Fld.TPOk_CTRL_polarity (k : Nat) : Fld := ⟨0x00030100 + 0x20 * k, 2, 2⟩
/-- TPOk_CTRL mode, R91. -/
def Fld.TPOk_CTRL_mode (k : Nat) : Fld := ⟨0x00030100 + 0x20 * k, 1, 0⟩
/-- TPOk_START_NS ns, R91. -/
def Fld.TPOk_START_NS_ns (k : Nat) : Fld := ⟨0x00030104 + 0x20 * k, 29, 0⟩
/-- TPOk_START_SL s_lo, R91. -/
def Fld.TPOk_START_SL_s_lo (k : Nat) : Fld := ⟨0x00030108 + 0x20 * k, 31, 0⟩
/-- TPOk_START_SH s_hi, R91. -/
def Fld.TPOk_START_SH_s_hi (k : Nat) : Fld := ⟨0x0003010c + 0x20 * k, 15, 0⟩
/-- TPOk_PERIOD period, R91. -/
def Fld.TPOk_PERIOD_period (k : Nat) : Fld := ⟨0x00030110 + 0x20 * k, 31, 0⟩
/-- TPOk_WIDTH width, R91. -/
def Fld.TPOk_WIDTH_width (k : Nat) : Fld := ⟨0x00030114 + 0x20 * k, 31, 0⟩
/-- TPOk_QERR qerr, R91. -/
def Fld.TPOk_QERR_qerr (k : Nat) : Fld := ⟨0x00030118 + 0x20 * k, 12, 0⟩
/-- TPOk_STS skipped, R91. -/
def Fld.TPOk_STS_skipped (k : Nat) : Fld := ⟨0x0003011c + 0x20 * k, 31, 16⟩
/-- TPOk_STS late, R91. -/
def Fld.TPOk_STS_late (k : Nat) : Fld := ⟨0x0003011c + 0x20 * k, 2, 2⟩
/-- TPOk_STS armed, R91. -/
def Fld.TPOk_STS_armed (k : Nat) : Fld := ⟨0x0003011c + 0x20 * k, 1, 1⟩
/-- TPOk_STS active, R91. -/
def Fld.TPOk_STS_active (k : Nat) : Fld := ⟨0x0003011c + 0x20 * k, 0, 0⟩
/-- CAPk_CTRL filt, R91. -/
def Fld.CAPk_CTRL_filt (k : Nat) : Fld := ⟨0x00030200 + 0x20 * k, 15, 8⟩
/-- CAPk_CTRL src, R91. -/
def Fld.CAPk_CTRL_src (k : Nat) : Fld := ⟨0x00030200 + 0x20 * k, 4, 4⟩
/-- CAPk_CTRL edge, R91. -/
def Fld.CAPk_CTRL_edge (k : Nat) : Fld := ⟨0x00030200 + 0x20 * k, 1, 0⟩
/-- CAPk_NS rising, R91. -/
def Fld.CAPk_NS_rising (k : Nat) : Fld := ⟨0x00030204 + 0x20 * k, 31, 31⟩
/-- CAPk_NS present, R91. -/
def Fld.CAPk_NS_present (k : Nat) : Fld := ⟨0x00030204 + 0x20 * k, 30, 30⟩
/-- CAPk_NS ns, R91. -/
def Fld.CAPk_NS_ns (k : Nat) : Fld := ⟨0x00030204 + 0x20 * k, 29, 0⟩
/-- CAPk_SL s_lo, R91. -/
def Fld.CAPk_SL_s_lo (k : Nat) : Fld := ⟨0x00030208 + 0x20 * k, 31, 0⟩
/-- CAPk_SH s_hi, R91. -/
def Fld.CAPk_SH_s_hi (k : Nat) : Fld := ⟨0x0003020c + 0x20 * k, 15, 0⟩
/-- CAPk_STS ovf_clr, R91. -/
def Fld.CAPk_STS_ovf_clr (k : Nat) : Fld := ⟨0x00030210 + 0x20 * k, 31, 31⟩
/-- CAPk_STS level, R91. -/
def Fld.CAPk_STS_level (k : Nat) : Fld := ⟨0x00030210 + 0x20 * k, 20, 16⟩
/-- CAPk_STS ovf, R91. -/
def Fld.CAPk_STS_ovf (k : Nat) : Fld := ⟨0x00030210 + 0x20 * k, 15, 0⟩
/-- PTPp_CTRL udp4, R91. -/
def Fld.PTPp_CTRL_udp4 (p : Nat) : Fld := ⟨0x00030300 + 0x20 * p, 3, 3⟩
/-- PTPp_CTRL l2, R91. -/
def Fld.PTPp_CTRL_l2 (p : Nat) : Fld := ⟨0x00030300 + 0x20 * p, 2, 2⟩
/-- PTPp_CTRL one_step, R91. -/
def Fld.PTPp_CTRL_one_step (p : Nat) : Fld := ⟨0x00030300 + 0x20 * p, 1, 1⟩
/-- PTPp_CTRL en, R91. -/
def Fld.PTPp_CTRL_en (p : Nat) : Fld := ⟨0x00030300 + 0x20 * p, 0, 0⟩
/-- PTPp_RX_LAT rx_lat, R91. -/
def Fld.PTPp_RX_LAT_rx_lat (p : Nat) : Fld := ⟨0x00030304 + 0x20 * p, 31, 0⟩
/-- PTPp_TX_LAT tx_lat, R91. -/
def Fld.PTPp_TX_LAT_tx_lat (p : Nat) : Fld := ⟨0x00030308 + 0x20 * p, 31, 0⟩
/-- PTPp_STS ovf_clr, R91. -/
def Fld.PTPp_STS_ovf_clr (p : Nat) : Fld := ⟨0x0003030c + 0x20 * p, 31, 31⟩
/-- PTPp_STS level, R91. -/
def Fld.PTPp_STS_level (p : Nat) : Fld := ⟨0x0003030c + 0x20 * p, 20, 16⟩
/-- PTPp_STS ovf, R91. -/
def Fld.PTPp_STS_ovf (p : Nat) : Fld := ⟨0x0003030c + 0x20 * p, 15, 0⟩
/-- GNS_CTRL restart, R126. -/
def Fld.GNS_CTRL_restart : Fld := ⟨0x000c0000, 1, 0⟩
/-- GNS_STS sv_used, R126. -/
def Fld.GNS_STS_sv_used : Fld := ⟨0x000c0004, 31, 24⟩
/-- GNS_STS sv_tracked, R126. -/
def Fld.GNS_STS_sv_tracked : Fld := ⟨0x000c0004, 23, 16⟩
/-- GNS_STS sol_a, R126. -/
def Fld.GNS_STS_sol_a : Fld := ⟨0x000c0004, 15, 13⟩
/-- GNS_STS sol_b, R126. -/
def Fld.GNS_STS_sol_b : Fld := ⟨0x000c0004, 12, 10⟩
/-- GNS_STS head, R126. -/
def Fld.GNS_STS_head : Fld := ⟨0x000c0004, 9, 8⟩
/-- GNS_STS notch_full, R126. -/
def Fld.GNS_STS_notch_full : Fld := ⟨0x000c0004, 4, 4⟩
/-- GNS_STS fsi_over, R126. -/
def Fld.GNS_STS_fsi_over : Fld := ⟨0x000c0004, 3, 3⟩
/-- GNS_STS jam_over, R126. -/
def Fld.GNS_STS_jam_over : Fld := ⟨0x000c0004, 2, 2⟩
/-- GNS_STS no_signal, R126. -/
def Fld.GNS_STS_no_signal : Fld := ⟨0x000c0004, 1, 1⟩
/-- GNS_STS valid_time, R126. -/
def Fld.GNS_STS_valid_time : Fld := ⟨0x000c0004, 0, 0⟩
/-- GNS_CFG cn0_mask, R126. -/
def Fld.GNS_CFG_cn0_mask : Fld := ⟨0x000c0008, 31, 24⟩
/-- GNS_CFG elev_mask, R126. -/
def Fld.GNS_CFG_elev_mask : Fld := ⟨0x000c0008, 23, 16⟩
/-- GNS_CFG notch_en, R126. -/
def Fld.GNS_CFG_notch_en : Fld := ⟨0x000c0008, 12, 12⟩
/-- GNS_CFG rate, R126. -/
def Fld.GNS_CFG_rate : Fld := ⟨0x000c0008, 10, 8⟩
/-- GNS_CFG bands, R126. -/
def Fld.GNS_CFG_bands : Fld := ⟨0x000c0008, 5, 4⟩
/-- GNS_CFG sys, R126. -/
def Fld.GNS_CFG_sys : Fld := ⟨0x000c0008, 2, 0⟩
/-- GNS_ANT_CFG bias_5v_b, R126. -/
def Fld.GNS_ANT_CFG_bias_5v_b : Fld := ⟨0x000c000c, 10, 10⟩
/-- GNS_ANT_CFG bias_5v_a, R126. -/
def Fld.GNS_ANT_CFG_bias_5v_a : Fld := ⟨0x000c000c, 2, 2⟩
/-- GNS_ANT_CFG bias_b, R126. -/
def Fld.GNS_ANT_CFG_bias_b : Fld := ⟨0x000c000c, 9, 9⟩
/-- GNS_ANT_CFG bias_a, R126. -/
def Fld.GNS_ANT_CFG_bias_a : Fld := ⟨0x000c000c, 1, 1⟩
/-- GNS_ANT_CFG en_b, R126. -/
def Fld.GNS_ANT_CFG_en_b : Fld := ⟨0x000c000c, 8, 8⟩
/-- GNS_ANT_CFG en_a, R126. -/
def Fld.GNS_ANT_CFG_en_a : Fld := ⟨0x000c000c, 0, 0⟩
/-- GNS_ANT_STS state_b, R126. -/
def Fld.GNS_ANT_STS_state_b : Fld := ⟨0x000c0010, 9, 8⟩
/-- GNS_ANT_STS state_a, R126. -/
def Fld.GNS_ANT_STS_state_a : Fld := ⟨0x000c0010, 1, 0⟩
/-- GNS_BASE rejects, R126. -/
def Fld.GNS_BASE_rejects : Fld := ⟨0x000c0014, 31, 16⟩
/-- GNS_BASE len_mm, R126. -/
def Fld.GNS_BASE_len_mm : Fld := ⟨0x000c0014, 15, 0⟩
/-- GNS_JI ji_b_lo, R126. -/
def Fld.GNS_JI_ji_b_lo : Fld := ⟨0x000c0018, 31, 24⟩
/-- GNS_JI ji_b_up, R126. -/
def Fld.GNS_JI_ji_b_up : Fld := ⟨0x000c0018, 23, 16⟩
/-- GNS_JI ji_a_lo, R126. -/
def Fld.GNS_JI_ji_a_lo : Fld := ⟨0x000c0018, 15, 8⟩
/-- GNS_JI ji_a_up, R126. -/
def Fld.GNS_JI_ji_a_up : Fld := ⟨0x000c0018, 7, 0⟩
/-- GNS_THR rtk_age_max, R126. -/
def Fld.GNS_THR_rtk_age_max : Fld := ⟨0x000c001c, 23, 16⟩
/-- GNS_THR fsi_thr, R126. -/
def Fld.GNS_THR_fsi_thr : Fld := ⟨0x000c001c, 15, 8⟩
/-- GNS_THR ji_thr, R126. -/
def Fld.GNS_THR_ji_thr : Fld := ⟨0x000c001c, 7, 0⟩
/-- GNS_FSI sv_checked, R126. -/
def Fld.GNS_FSI_sv_checked : Fld := ⟨0x000c0020, 15, 8⟩
/-- GNS_FSI fsi, R126. -/
def Fld.GNS_FSI_fsi : Fld := ⟨0x000c0020, 7, 0⟩
/-- GNS_SPACING dflt, R126. -/
def Fld.GNS_SPACING_dflt : Fld := ⟨0x000c0024, 3, 0⟩
/-- GNS_RTCM_STS ignored, R126. -/
def Fld.GNS_RTCM_STS_ignored : Fld := ⟨0x000c0028, 31, 16⟩
/-- GNS_RTCM_STS age, R126. -/
def Fld.GNS_RTCM_STS_age : Fld := ⟨0x000c0028, 15, 0⟩
/-- GNS_IRQ_STS irq, R126. -/
def Fld.GNS_IRQ_STS_irq : Fld := ⟨0x000c002c, 31, 0⟩
/-- GNS_LEAP utc_valid, R126. -/
def Fld.GNS_LEAP_utc_valid : Fld := ⟨0x000c0030, 8, 8⟩
/-- GNS_LEAP tai_utc, R126. -/
def Fld.GNS_LEAP_tai_utc : Fld := ⟨0x000c0030, 7, 0⟩
/-- GNS_NOTCH active, R126. -/
def Fld.GNS_NOTCH_active (i : Nat) : Fld := ⟨0x000c0100 + 0x4 * i, 31, 31⟩
/-- GNS_NOTCH depth, R126. -/
def Fld.GNS_NOTCH_depth (i : Nat) : Fld := ⟨0x000c0100 + 0x4 * i, 23, 16⟩
/-- GNS_NOTCH offset, R126. -/
def Fld.GNS_NOTCH_offset (i : Nat) : Fld := ⟨0x000c0100 + 0x4 * i, 15, 0⟩
/-- GNS_CHc_STS state, R126. -/
def Fld.GNS_CHc_STS_state (c : Nat) : Fld := ⟨0x000c1000 + 0x4 * c, 31, 30⟩
/-- GNS_CHc_STS band, R126. -/
def Fld.GNS_CHc_STS_band (c : Nat) : Fld := ⟨0x000c1000 + 0x4 * c, 29, 29⟩
/-- GNS_CHc_STS sys, R126. -/
def Fld.GNS_CHc_STS_sys (c : Nat) : Fld := ⟨0x000c1000 + 0x4 * c, 28, 27⟩
/-- GNS_CHc_STS sv, R126. -/
def Fld.GNS_CHc_STS_sv (c : Nat) : Fld := ⟨0x000c1000 + 0x4 * c, 26, 21⟩
/-- GNS_CHc_STS spacing, R126. -/
def Fld.GNS_CHc_STS_spacing (c : Nat) : Fld := ⟨0x000c1000 + 0x4 * c, 19, 16⟩
/-- GNS_CHc_STS cn0, R126. -/
def Fld.GNS_CHc_STS_cn0 (c : Nat) : Fld := ⟨0x000c1000 + 0x4 * c, 15, 8⟩
/-- GNS_CHc_STS lock, R126. -/
def Fld.GNS_CHc_STS_lock (c : Nat) : Fld := ⟨0x000c1000 + 0x4 * c, 7, 0⟩
/-- FIL_STS an_valid, R163. -/
def Fld.FIL_STS_an_valid : Fld := ⟨0x00080000, 15, 0⟩
/-- FIL_IRQ_STS irq, R163. -/
def Fld.FIL_IRQ_STS_irq : Fld := ⟨0x00080004, 31, 0⟩
/-- FIL_ANk_CFG cic_r, R163. -/
def Fld.FIL_ANk_CFG_cic_r (k : Nat) : Fld := ⟨0x00080100 + 0x40 * k, 19, 8⟩
/-- FIL_ANk_CFG cic_m, R163. -/
def Fld.FIL_ANk_CFG_cic_m (k : Nat) : Fld := ⟨0x00080100 + 0x40 * k, 7, 7⟩
/-- FIL_ANk_CFG cic_n, R163. -/
def Fld.FIL_ANk_CFG_cic_n (k : Nat) : Fld := ⟨0x00080100 + 0x40 * k, 6, 4⟩
/-- FIL_ANk_CFG mode, R163. -/
def Fld.FIL_ANk_CFG_mode (k : Nat) : Fld := ⟨0x00080100 + 0x40 * k, 1, 1⟩
/-- FIL_ANk_CFG en, R163. -/
def Fld.FIL_ANk_CFG_en (k : Nat) : Fld := ⟨0x00080100 + 0x40 * k, 0, 0⟩
/-- FIL_ANk_OUT dly_frac, R163. -/
def Fld.FIL_ANk_OUT_dly_frac (k : Nat) : Fld := ⟨0x00080104 + 0x40 * k, 29, 24⟩
/-- FIL_ANk_OUT dly_int, R163. -/
def Fld.FIL_ANk_OUT_dly_int (k : Nat) : Fld := ⟨0x00080104 + 0x40 * k, 23, 16⟩
/-- FIL_ANk_OUT out_div, R163. -/
def Fld.FIL_ANk_OUT_out_div (k : Nat) : Fld := ⟨0x00080104 + 0x40 * k, 15, 0⟩
/-- FIL_ANk_DCB fc, R163. -/
def Fld.FIL_ANk_DCB_fc (k : Nat) : Fld := ⟨0x00080108 + 0x40 * k, 25, 16⟩
/-- FIL_ANk_DCB nx650_init, R163. -/
def Fld.FIL_ANk_DCB_nx650_init (k : Nat) : Fld := ⟨0x00080108 + 0x40 * k, 2, 2⟩
/-- FIL_ANk_DCB freeze, R163. -/
def Fld.FIL_ANk_DCB_freeze (k : Nat) : Fld := ⟨0x00080108 + 0x40 * k, 1, 1⟩
/-- FIL_ANk_DCB en, R163. -/
def Fld.FIL_ANk_DCB_en (k : Nat) : Fld := ⟨0x00080108 + 0x40 * k, 0, 0⟩
/-- FIL_ANk_THR_HI thr_hi, R163. -/
def Fld.FIL_ANk_THR_HI_thr_hi (k : Nat) : Fld := ⟨0x0008010c + 0x40 * k, 31, 0⟩
/-- FIL_ANk_THR_LO thr_lo, R163. -/
def Fld.FIL_ANk_THR_LO_thr_lo (k : Nat) : Fld := ⟨0x00080110 + 0x40 * k, 31, 0⟩
/-- FIL_ANk_HYST hyst, R163. -/
def Fld.FIL_ANk_HYST_hyst (k : Nat) : Fld := ⟨0x00080114 + 0x40 * k, 31, 0⟩
/-- FIL_ANk_EVT zone, R163. -/
def Fld.FIL_ANk_EVT_zone (k : Nat) : Fld := ⟨0x00080118 + 0x40 * k, 17, 16⟩
/-- FIL_ANk_EVT en_lo, R163. -/
def Fld.FIL_ANk_EVT_en_lo (k : Nat) : Fld := ⟨0x00080118 + 0x40 * k, 9, 9⟩
/-- FIL_ANk_EVT en_hi, R163. -/
def Fld.FIL_ANk_EVT_en_hi (k : Nat) : Fld := ⟨0x00080118 + 0x40 * k, 8, 8⟩
/-- FIL_ANk_EVT persist, R163. -/
def Fld.FIL_ANk_EVT_persist (k : Nat) : Fld := ⟨0x00080118 + 0x40 * k, 7, 0⟩
/-- FIL_ANk_RATIO ratio, R163. -/
def Fld.FIL_ANk_RATIO_ratio (k : Nat) : Fld := ⟨0x0008011c + 0x40 * k, 31, 0⟩
/-- FIL_ANk_VAL val, R163. -/
def Fld.FIL_ANk_VAL_val (k : Nat) : Fld := ⟨0x00080120 + 0x40 * k, 31, 0⟩
/-- FIL_ANk_STS skipped, R163. -/
def Fld.FIL_ANk_STS_skipped (k : Nat) : Fld := ⟨0x00080124 + 0x40 * k, 31, 16⟩
/-- FIL_ANk_STS cfg_err, R163. -/
def Fld.FIL_ANk_STS_cfg_err (k : Nat) : Fld := ⟨0x00080124 + 0x40 * k, 6, 6⟩
/-- FIL_ANk_STS unlock, R163. -/
def Fld.FIL_ANk_STS_unlock (k : Nat) : Fld := ⟨0x00080124 + 0x40 * k, 5, 5⟩
/-- FIL_ANk_STS prot, R163. -/
def Fld.FIL_ANk_STS_prot (k : Nat) : Fld := ⟨0x00080124 + 0x40 * k, 4, 4⟩
/-- FIL_ANk_STS open, R163. -/
def Fld.FIL_ANk_STS_open (k : Nat) : Fld := ⟨0x00080124 + 0x40 * k, 3, 3⟩
/-- FIL_ANk_STS ovr, R163. -/
def Fld.FIL_ANk_STS_ovr (k : Nat) : Fld := ⟨0x00080124 + 0x40 * k, 2, 2⟩
/-- FIL_ANk_STS dcb_frozen, R163. -/
def Fld.FIL_ANk_STS_dcb_frozen (k : Nat) : Fld := ⟨0x00080124 + 0x40 * k, 1, 1⟩
/-- FIL_ANk_STS valid, R163. -/
def Fld.FIL_ANk_STS_valid (k : Nat) : Fld := ⟨0x00080124 + 0x40 * k, 0, 0⟩
/-- FIL_ANk_COEF_CRC crc, R163. -/
def Fld.FIL_ANk_COEF_CRC_crc (k : Nat) : Fld := ⟨0x00080128 + 0x40 * k, 31, 0⟩
/-- FIL_SPp_CFG bad_deliver, R163. -/
def Fld.FIL_SPp_CFG_bad_deliver (p : Nat) : Fld := ⟨0x00080800 + 0x40 * p, 10, 10⟩
/-- FIL_SPp_CFG cs_req, R163. -/
def Fld.FIL_SPp_CFG_cs_req (p : Nat) : Fld := ⟨0x00080800 + 0x40 * p, 9, 9⟩
/-- FIL_SPp_CFG stop, R163. -/
def Fld.FIL_SPp_CFG_stop (p : Nat) : Fld := ⟨0x00080800 + 0x40 * p, 8, 8⟩
/-- FIL_SPp_CFG parity, R163. -/
def Fld.FIL_SPp_CFG_parity (p : Nat) : Fld := ⟨0x00080800 + 0x40 * p, 7, 6⟩
/-- FIL_SPp_CFG bits7, R163. -/
def Fld.FIL_SPp_CFG_bits7 (p : Nat) : Fld := ⟨0x00080800 + 0x40 * p, 5, 5⟩
/-- FIL_SPp_CFG frame, R163. -/
def Fld.FIL_SPp_CFG_frame (p : Nat) : Fld := ⟨0x00080800 + 0x40 * p, 4, 3⟩
/-- FIL_SPp_CFG term, R163. -/
def Fld.FIL_SPp_CFG_term (p : Nat) : Fld := ⟨0x00080800 + 0x40 * p, 2, 2⟩
/-- FIL_SPp_CFG phy, R163. -/
def Fld.FIL_SPp_CFG_phy (p : Nat) : Fld := ⟨0x00080800 + 0x40 * p, 1, 1⟩
/-- FIL_SPp_CFG en, R163. -/
def Fld.FIL_SPp_CFG_en (p : Nat) : Fld := ⟨0x00080800 + 0x40 * p, 0, 0⟩
/-- FIL_SPp_BAUD baud, R163. -/
def Fld.FIL_SPp_BAUD_baud (p : Nat) : Fld := ⟨0x00080804 + 0x40 * p, 19, 0⟩
/-- FIL_SPp_SYNC sync, R163. -/
def Fld.FIL_SPp_SYNC_sync (p : Nat) : Fld := ⟨0x00080808 + 0x40 * p, 31, 0⟩
/-- FIL_SPp_BIN len_adj, R163. -/
def Fld.FIL_SPp_BIN_len_adj (p : Nat) : Fld := ⟨0x0008080c + 0x40 * p, 27, 16⟩
/-- FIL_SPp_BIN len_off, R163. -/
def Fld.FIL_SPp_BIN_len_off (p : Nat) : Fld := ⟨0x0008080c + 0x40 * p, 15, 8⟩
/-- FIL_SPp_BIN crc, R163. -/
def Fld.FIL_SPp_BIN_crc (p : Nat) : Fld := ⟨0x0008080c + 0x40 * p, 7, 6⟩
/-- FIL_SPp_BIN crc_from, R163. -/
def Fld.FIL_SPp_BIN_crc_from (p : Nat) : Fld := ⟨0x0008080c + 0x40 * p, 5, 5⟩
/-- FIL_SPp_BIN crc_be, R163. -/
def Fld.FIL_SPp_BIN_crc_be (p : Nat) : Fld := ⟨0x0008080c + 0x40 * p, 4, 4⟩
/-- FIL_SPp_BIN len_w, R163. -/
def Fld.FIL_SPp_BIN_len_w (p : Nat) : Fld := ⟨0x0008080c + 0x40 * p, 3, 2⟩
/-- FIL_SPp_BIN sync_len, R163. -/
def Fld.FIL_SPp_BIN_sync_len (p : Nat) : Fld := ⟨0x0008080c + 0x40 * p, 1, 0⟩
/-- FIL_SPp_CRC init, R163. -/
def Fld.FIL_SPp_CRC_init (p : Nat) : Fld := ⟨0x00080810 + 0x40 * p, 31, 16⟩
/-- FIL_SPp_CRC poly, R163. -/
def Fld.FIL_SPp_CRC_poly (p : Nat) : Fld := ⟨0x00080810 + 0x40 * p, 15, 0⟩
/-- FIL_SPp_GAP silent, R163. -/
def Fld.FIL_SPp_GAP_silent (p : Nat) : Fld := ⟨0x00080814 + 0x40 * p, 31, 16⟩
/-- FIL_SPp_GAP gap_max, R163. -/
def Fld.FIL_SPp_GAP_gap_max (p : Nat) : Fld := ⟨0x00080814 + 0x40 * p, 15, 0⟩
/-- FIL_SPp_CNT0 frames, R163. -/
def Fld.FIL_SPp_CNT0_frames (p : Nat) : Fld := ⟨0x00080818 + 0x40 * p, 31, 16⟩
/-- FIL_SPp_CNT0 cs_err, R163. -/
def Fld.FIL_SPp_CNT0_cs_err (p : Nat) : Fld := ⟨0x00080818 + 0x40 * p, 15, 0⟩
/-- FIL_SPp_CNT1 uart_err, R163. -/
def Fld.FIL_SPp_CNT1_uart_err (p : Nat) : Fld := ⟨0x0008081c + 0x40 * p, 31, 24⟩
/-- FIL_SPp_CNT1 ovf, R163. -/
def Fld.FIL_SPp_CNT1_ovf (p : Nat) : Fld := ⟨0x0008081c + 0x40 * p, 23, 16⟩
/-- FIL_SPp_CNT1 trunc, R163. -/
def Fld.FIL_SPp_CNT1_trunc (p : Nat) : Fld := ⟨0x0008081c + 0x40 * p, 15, 8⟩
/-- FIL_SPp_CNT1 len_err, R163. -/
def Fld.FIL_SPp_CNT1_len_err (p : Nat) : Fld := ⟨0x0008081c + 0x40 * p, 7, 0⟩
/-- FIL_SPp_STS tx_busy, R163. -/
def Fld.FIL_SPp_STS_tx_busy (p : Nat) : Fld := ⟨0x00080820 + 0x40 * p, 18, 18⟩
/-- FIL_SPp_STS brk, R163. -/
def Fld.FIL_SPp_STS_brk (p : Nat) : Fld := ⟨0x00080820 + 0x40 * p, 17, 17⟩
/-- FIL_SPp_STS silent, R163. -/
def Fld.FIL_SPp_STS_silent (p : Nat) : Fld := ⟨0x00080820 + 0x40 * p, 16, 16⟩
/-- FIL_SPp_STS level, R163. -/
def Fld.FIL_SPp_STS_level (p : Nat) : Fld := ⟨0x00080820 + 0x40 * p, 14, 0⟩
/-- FBK_STS valid, R204. -/
def Fld.FBK_STS_valid : Fld := ⟨0x00070000, 11, 0⟩
/-- FBK_IRQ_STS0 irq, R204. -/
def Fld.FBK_IRQ_STS0_irq : Fld := ⟨0x00070004, 31, 0⟩
/-- FBK_IRQ_STS1 irq, R204. -/
def Fld.FBK_IRQ_STS1_irq : Fld := ⟨0x00070008, 15, 0⟩
/-- FBK_SUP_STS budget, R204. -/
def Fld.FBK_SUP_STS_budget : Fld := ⟨0x0007000c, 28, 28⟩
/-- FBK_SUP_STS sup_fault, R204. -/
def Fld.FBK_SUP_STS_sup_fault : Fld := ⟨0x0007000c, 27, 16⟩
/-- FBK_SUP_STS sup_ok, R204. -/
def Fld.FBK_SUP_STS_sup_ok : Fld := ⟨0x0007000c, 11, 0⟩
/-- FBK_CHc_CFG sup_12v, R204. -/
def Fld.FBK_CHc_CFG_sup_12v (c : Nat) : Fld := ⟨0x00070100 + 0x80 * c, 19, 19⟩
/-- FBK_CHc_CFG sup_en, R204. -/
def Fld.FBK_CHc_CFG_sup_en (c : Nat) : Fld := ⟨0x00070100 + 0x80 * c, 18, 18⟩
/-- FBK_CHc_CFG hall_v, R204. -/
def Fld.FBK_CHc_CFG_hall_v (c : Nat) : Fld := ⟨0x00070100 + 0x80 * c, 17, 16⟩
/-- FBK_CHc_CFG idx_chk, R204. -/
def Fld.FBK_CHc_CFG_idx_chk (c : Nat) : Fld := ⟨0x00070100 + 0x80 * c, 15, 15⟩
/-- FBK_CHc_CFG idx_gate, R204. -/
def Fld.FBK_CHc_CFG_idx_gate (c : Nat) : Fld := ⟨0x00070100 + 0x80 * c, 14, 14⟩
/-- FBK_CHc_CFG idx_mode, R204. -/
def Fld.FBK_CHc_CFG_idx_mode (c : Nat) : Fld := ⟨0x00070100 + 0x80 * c, 13, 12⟩
/-- FBK_CHc_CFG filt, R204. -/
def Fld.FBK_CHc_CFG_filt (c : Nat) : Fld := ⟨0x00070100 + 0x80 * c, 11, 8⟩
/-- FBK_CHc_CFG ssi_ext, R204. -/
def Fld.FBK_CHc_CFG_ssi_ext (c : Nat) : Fld := ⟨0x00070100 + 0x80 * c, 5, 5⟩
/-- FBK_CHc_CFG invert, R204. -/
def Fld.FBK_CHc_CFG_invert (c : Nat) : Fld := ⟨0x00070100 + 0x80 * c, 4, 4⟩
/-- FBK_CHc_CFG mode, R204. -/
def Fld.FBK_CHc_CFG_mode (c : Nat) : Fld := ⟨0x00070100 + 0x80 * c, 3, 1⟩
/-- FBK_CHc_CFG en, R204. -/
def Fld.FBK_CHc_CFG_en (c : Nat) : Fld := ⟨0x00070100 + 0x80 * c, 0, 0⟩
/-- FBK_CHc_SSI crc_inv, R204. -/
def Fld.FBK_CHc_SSI_crc_inv (c : Nat) : Fld := ⟨0x00070104 + 0x80 * c, 26, 26⟩
/-- FBK_CHc_SSI crc_w, R204. -/
def Fld.FBK_CHc_SSI_crc_w (c : Nat) : Fld := ⟨0x00070104 + 0x80 * c, 25, 24⟩
/-- FBK_CHc_SSI err_pol, R204. -/
def Fld.FBK_CHc_SSI_err_pol (c : Nat) : Fld := ⟨0x00070104 + 0x80 * c, 23, 23⟩
/-- FBK_CHc_SSI err_en, R204. -/
def Fld.FBK_CHc_SSI_err_en (c : Nat) : Fld := ⟨0x00070104 + 0x80 * c, 22, 22⟩
/-- FBK_CHc_SSI lead, R204. -/
def Fld.FBK_CHc_SSI_lead (c : Nat) : Fld := ⟨0x00070104 + 0x80 * c, 21, 20⟩
/-- FBK_CHc_SSI gray, R204. -/
def Fld.FBK_CHc_SSI_gray (c : Nat) : Fld := ⟨0x00070104 + 0x80 * c, 19, 19⟩
/-- FBK_CHc_SSI bits, R204. -/
def Fld.FBK_CHc_SSI_bits (c : Nat) : Fld := ⟨0x00070104 + 0x80 * c, 18, 13⟩
/-- FBK_CHc_SSI per, R204. -/
def Fld.FBK_CHc_SSI_per (c : Nat) : Fld := ⟨0x00070104 + 0x80 * c, 12, 0⟩
/-- FBK_CHc_CRC init, R204. -/
def Fld.FBK_CHc_CRC_init (c : Nat) : Fld := ⟨0x00070108 + 0x80 * c, 31, 16⟩
/-- FBK_CHc_CRC poly, R204. -/
def Fld.FBK_CHc_CRC_poly (c : Nat) : Fld := ⟨0x00070108 + 0x80 * c, 15, 0⟩
/-- FBK_CHc_TMO spd_tmo, R204. -/
def Fld.FBK_CHc_TMO_spd_tmo (c : Nat) : Fld := ⟨0x0007010c + 0x80 * c, 31, 16⟩
/-- FBK_CHc_TMO ssi_tmo, R204. -/
def Fld.FBK_CHc_TMO_ssi_tmo (c : Nat) : Fld := ⟨0x0007010c + 0x80 * c, 15, 8⟩
/-- FBK_CHc_TMO every, R204. -/
def Fld.FBK_CHc_TMO_every (c : Nat) : Fld := ⟨0x0007010c + 0x80 * c, 7, 0⟩
/-- FBK_CHc_IDX_VAL idx_val, R204. -/
def Fld.FBK_CHc_IDX_VAL_idx_val (c : Nat) : Fld := ⟨0x00070110 + 0x80 * c, 31, 0⟩
/-- FBK_CHc_IDX_CPR cpr, R204. -/
def Fld.FBK_CHc_IDX_CPR_cpr (c : Nat) : Fld := ⟨0x00070114 + 0x80 * c, 31, 0⟩
/-- FBK_CHc_IDX_EXP idx_exp, R204. -/
def Fld.FBK_CHc_IDX_EXP_idx_exp (c : Nat) : Fld := ⟨0x00070118 + 0x80 * c, 31, 0⟩
/-- FBK_CHc_IDX_TOL tol, R204. -/
def Fld.FBK_CHc_IDX_TOL_tol (c : Nat) : Fld := ⟨0x0007011c + 0x80 * c, 15, 0⟩
/-- FBK_CHc_SCALE scale, R204. -/
def Fld.FBK_CHc_SCALE_scale (c : Nat) : Fld := ⟨0x00070120 + 0x80 * c, 31, 0⟩
/-- FBK_CHc_POS_LO pos_lo, R204. -/
def Fld.FBK_CHc_POS_LO_pos_lo (c : Nat) : Fld := ⟨0x00070124 + 0x80 * c, 31, 0⟩
/-- FBK_CHc_POS_HI pos_hi, R204. -/
def Fld.FBK_CHc_POS_HI_pos_hi (c : Nat) : Fld := ⟨0x00070128 + 0x80 * c, 15, 0⟩
/-- FBK_CHc_SPD spd, R204. -/
def Fld.FBK_CHc_SPD_spd (c : Nat) : Fld := ⟨0x0007012c + 0x80 * c, 31, 0⟩
/-- FBK_CHc_STMP_NS ns, R204. -/
def Fld.FBK_CHc_STMP_NS_ns (c : Nat) : Fld := ⟨0x00070130 + 0x80 * c, 29, 0⟩
/-- FBK_CHc_STMP_SL s_lo, R204. -/
def Fld.FBK_CHc_STMP_SL_s_lo (c : Nat) : Fld := ⟨0x00070134 + 0x80 * c, 31, 0⟩
/-- FBK_CHc_STMP_SH s_hi, R204. -/
def Fld.FBK_CHc_STMP_SH_s_hi (c : Nat) : Fld := ⟨0x00070138 + 0x80 * c, 15, 0⟩
/-- FBK_CHc_FLAGS ssi_fail, R204. -/
def Fld.FBK_CHc_FLAGS_ssi_fail (c : Nat) : Fld := ⟨0x0007013c + 0x80 * c, 5, 5⟩
/-- FBK_CHc_FLAGS idx_seen, R204. -/
def Fld.FBK_CHc_FLAGS_idx_seen (c : Nat) : Fld := ⟨0x0007013c + 0x80 * c, 4, 4⟩
/-- FBK_CHc_FLAGS dir, R204. -/
def Fld.FBK_CHc_FLAGS_dir (c : Nat) : Fld := ⟨0x0007013c + 0x80 * c, 3, 3⟩
/-- FBK_CHc_FLAGS lowconf, R204. -/
def Fld.FBK_CHc_FLAGS_lowconf (c : Nat) : Fld := ⟨0x0007013c + 0x80 * c, 2, 2⟩
/-- FBK_CHc_FLAGS still, R204. -/
def Fld.FBK_CHc_FLAGS_still (c : Nat) : Fld := ⟨0x0007013c + 0x80 * c, 1, 1⟩
/-- FBK_CHc_FLAGS valid, R204. -/
def Fld.FBK_CHc_FLAGS_valid (c : Nat) : Fld := ⟨0x0007013c + 0x80 * c, 0, 0⟩
/-- FBK_CHc_IDX_CAP_LO cap_lo, R204. -/
def Fld.FBK_CHc_IDX_CAP_LO_cap_lo (c : Nat) : Fld := ⟨0x00070140 + 0x80 * c, 31, 0⟩
/-- FBK_CHc_IDX_CAP_HI cap_hi, R204. -/
def Fld.FBK_CHc_IDX_CAP_HI_cap_hi (c : Nat) : Fld := ⟨0x00070144 + 0x80 * c, 15, 0⟩
/-- FBK_CHc_IDX_STMP stmp, R204. -/
def Fld.FBK_CHc_IDX_STMP_stmp (c : Nat) : Fld := ⟨0x00070148 + 0x80 * c, 31, 0⟩
/-- FBK_CHc_CNT slips, R204. -/
def Fld.FBK_CHc_CNT_slips (c : Nat) : Fld := ⟨0x0007014c + 0x80 * c, 31, 24⟩
/-- FBK_CHc_CNT ssi_tmo, R204. -/
def Fld.FBK_CHc_CNT_ssi_tmo (c : Nat) : Fld := ⟨0x0007014c + 0x80 * c, 23, 16⟩
/-- FBK_CHc_CNT ssi_crc, R204. -/
def Fld.FBK_CHc_CNT_ssi_crc (c : Nat) : Fld := ⟨0x0007014c + 0x80 * c, 15, 8⟩
/-- FBK_CHc_CNT seq_err, R204. -/
def Fld.FBK_CHc_CNT_seq_err (c : Nat) : Fld := ⟨0x0007014c + 0x80 * c, 7, 0⟩
/-- FBK_CHc_STS cfg_err, R204. -/
def Fld.FBK_CHc_STS_cfg_err (c : Nat) : Fld := ⟨0x00070150 + 0x80 * c, 8, 8⟩
/-- FBK_CHc_STS isolated, R204. -/
def Fld.FBK_CHc_STS_isolated (c : Nat) : Fld := ⟨0x00070150 + 0x80 * c, 7, 7⟩
/-- FBK_CHc_STS errbit, R204. -/
def Fld.FBK_CHc_STS_errbit (c : Nat) : Fld := ⟨0x00070150 + 0x80 * c, 6, 6⟩
/-- FBK_CHc_STS seq_flag, R204. -/
def Fld.FBK_CHc_STS_seq_flag (c : Nat) : Fld := ⟨0x00070150 + 0x80 * c, 5, 5⟩
/-- FBK_CHc_STS slip, R204. -/
def Fld.FBK_CHc_STS_slip (c : Nat) : Fld := ⟨0x00070150 + 0x80 * c, 4, 4⟩
/-- FBK_CHc_STS hall_err, R204. -/
def Fld.FBK_CHc_STS_hall_err (c : Nat) : Fld := ⟨0x00070150 + 0x80 * c, 3, 3⟩
/-- FBK_CHc_STS line_err, R204. -/
def Fld.FBK_CHc_STS_line_err (c : Nat) : Fld := ⟨0x00070150 + 0x80 * c, 2, 2⟩
/-- FBK_CHc_STS sup_fault, R204. -/
def Fld.FBK_CHc_STS_sup_fault (c : Nat) : Fld := ⟨0x00070150 + 0x80 * c, 1, 1⟩
/-- FBK_CHc_STS armed, R204. -/
def Fld.FBK_CHc_STS_armed (c : Nat) : Fld := ⟨0x00070150 + 0x80 * c, 0, 0⟩
/-- FBK_EMUe_CFG zper, R204. -/
def Fld.FBK_EMUe_CFG_zper (e : Nat) : Fld := ⟨0x00070800 + 0x10 * e, 31, 16⟩
/-- FBK_EMUe_CFG emu_min, R204. -/
def Fld.FBK_EMUe_CFG_emu_min (e : Nat) : Fld := ⟨0x00070800 + 0x10 * e, 15, 8⟩
/-- FBK_EMUe_CFG src, R204. -/
def Fld.FBK_EMUe_CFG_src (e : Nat) : Fld := ⟨0x00070800 + 0x10 * e, 7, 4⟩
/-- FBK_EMUe_CFG invert, R204. -/
def Fld.FBK_EMUe_CFG_invert (e : Nat) : Fld := ⟨0x00070800 + 0x10 * e, 1, 1⟩
/-- FBK_EMUe_CFG en, R204. -/
def Fld.FBK_EMUe_CFG_en (e : Nat) : Fld := ⟨0x00070800 + 0x10 * e, 0, 0⟩
/-- FBK_EMUe_RATIO den, R204. -/
def Fld.FBK_EMUe_RATIO_den (e : Nat) : Fld := ⟨0x00070804 + 0x10 * e, 31, 16⟩
/-- FBK_EMUe_RATIO num, R204. -/
def Fld.FBK_EMUe_RATIO_num (e : Nat) : Fld := ⟨0x00070804 + 0x10 * e, 15, 0⟩
/-- FBK_EMUe_STS hold, R204. -/
def Fld.FBK_EMUe_STS_hold (e : Nat) : Fld := ⟨0x00070808 + 0x10 * e, 17, 17⟩
/-- FBK_EMUe_STS lost, R204. -/
def Fld.FBK_EMUe_STS_lost (e : Nat) : Fld := ⟨0x00070808 + 0x10 * e, 16, 16⟩
/-- FBK_EMUe_STS backlog, R204. -/
def Fld.FBK_EMUe_STS_backlog (e : Nat) : Fld := ⟨0x00070808 + 0x10 * e, 15, 0⟩
/-- FBK_EMUe_POS pos, R204. -/
def Fld.FBK_EMUe_POS_pos (e : Nat) : Fld := ⟨0x0007080c + 0x10 * e, 31, 0⟩
/-- LCH_STS principles, R254. -/
def Fld.LCH_STS_principles : Fld := ⟨0x00060000, 28, 26⟩
/-- LCH_STS head_healthy, R254. -/
def Fld.LCH_STS_head_healthy : Fld := ⟨0x00060000, 25, 21⟩
/-- LCH_STS pos_healthy, R254. -/
def Fld.LCH_STS_pos_healthy : Fld := ⟨0x00060000, 20, 16⟩
/-- LCH_STS obs_fault, R254. -/
def Fld.LCH_STS_obs_fault : Fld := ⟨0x00060000, 13, 13⟩
/-- LCH_STS hper_valid, R254. -/
def Fld.LCH_STS_hper_valid : Fld := ⟨0x00060000, 12, 12⟩
/-- LCH_STS net_loaded, R254. -/
def Fld.LCH_STS_net_loaded : Fld := ⟨0x00060000, 11, 11⟩
/-- LCH_STS far, R254. -/
def Fld.LCH_STS_far : Fld := ⟨0x00060000, 10, 10⟩
/-- LCH_STS att_none, R254. -/
def Fld.LCH_STS_att_none : Fld := ⟨0x00060000, 9, 9⟩
/-- LCH_STS designated, R254. -/
def Fld.LCH_STS_designated : Fld := ⟨0x00060000, 8, 8⟩
/-- LCH_STS hcontradict, R254. -/
def Fld.LCH_STS_hcontradict : Fld := ⟨0x00060000, 7, 7⟩
/-- LCH_STS contradict, R254. -/
def Fld.LCH_STS_contradict : Fld := ⟨0x00060000, 6, 6⟩
/-- LCH_STS hstep, R254. -/
def Fld.LCH_STS_hstep : Fld := ⟨0x00060000, 5, 4⟩
/-- LCH_STS pstep, R254. -/
def Fld.LCH_STS_pstep : Fld := ⟨0x00060000, 2, 0⟩
/-- LCH_IRQ_STS irq, R254. -/
def Fld.LCH_IRQ_STS_irq : Fld := ⟨0x00060004, 15, 0⟩
/-- LCH_CFG trust_en, R254. -/
def Fld.LCH_CFG_trust_en : Fld := ⟨0x00060008, 28, 28⟩
/-- LCH_CFG reckon, R254. -/
def Fld.LCH_CFG_reckon : Fld := ⟨0x00060008, 27, 16⟩
/-- LCH_CFG up_time, R254. -/
def Fld.LCH_CFG_up_time : Fld := ⟨0x00060008, 15, 8⟩
/-- LCH_CFG wait, R254. -/
def Fld.LCH_CFG_wait : Fld := ⟨0x00060008, 7, 0⟩
/-- LCH_GATE cpersist, R254. -/
def Fld.LCH_GATE_cpersist : Fld := ⟨0x0006000c, 31, 24⟩
/-- LCH_GATE cgate, R254. -/
def Fld.LCH_GATE_cgate : Fld := ⟨0x0006000c, 23, 16⟩
/-- LCH_GATE igate, R254. -/
def Fld.LCH_GATE_igate : Fld := ⟨0x0006000c, 15, 0⟩
/-- LCH_TRUST_THR jump_hold, R254. -/
def Fld.LCH_TRUST_THR_jump_hold : Fld := ⟨0x00060010, 31, 24⟩
/-- LCH_TRUST_THR drift_thr, R254. -/
def Fld.LCH_TRUST_THR_drift_thr : Fld := ⟨0x00060010, 23, 16⟩
/-- LCH_TRUST_THR jump_thr, R254. -/
def Fld.LCH_TRUST_THR_jump_thr : Fld := ⟨0x00060010, 15, 8⟩
/-- LCH_TRUST_THR trust_min, R254. -/
def Fld.LCH_TRUST_THR_trust_min : Fld := ⟨0x00060010, 7, 0⟩
/-- LCH_SLIP_CFG ts_cap, R254. -/
def Fld.LCH_SLIP_CFG_ts_cap : Fld := ⟨0x00060014, 23, 16⟩
/-- LCH_SLIP_CFG ts_clear, R254. -/
def Fld.LCH_SLIP_CFG_ts_clear : Fld := ⟨0x00060014, 15, 8⟩
/-- LCH_SLIP_CFG ts_window, R254. -/
def Fld.LCH_SLIP_CFG_ts_window : Fld := ⟨0x00060014, 7, 0⟩
/-- LCH_STATES n_states, R254. -/
def Fld.LCH_STATES_n_states : Fld := ⟨0x00060018, 12, 8⟩
/-- LCH_STATES wp_en, R254. -/
def Fld.LCH_STATES_wp_en : Fld := ⟨0x00060018, 4, 4⟩
/-- LCH_STATES off_en, R254. -/
def Fld.LCH_STATES_off_en : Fld := ⟨0x00060018, 3, 0⟩
/-- LCH_NET_VER version, R254. -/
def Fld.LCH_NET_VER_version : Fld := ⟨0x0006001c, 31, 0⟩
/-- LCH_EPOCH_LO ep_lo, R254. -/
def Fld.LCH_EPOCH_LO_ep_lo : Fld := ⟨0x00060020, 31, 0⟩
/-- LCH_EPOCH_HI ep_hi, R254. -/
def Fld.LCH_EPOCH_HI_ep_hi : Fld := ⟨0x00060024, 31, 0⟩
/-- LCH_CLOSE wait_closes, R254. -/
def Fld.LCH_CLOSE_wait_closes : Fld := ⟨0x00060028, 31, 16⟩
/-- LCH_CLOSE lag, R254. -/
def Fld.LCH_CLOSE_lag : Fld := ⟨0x00060028, 15, 0⟩
/-- LCH_HPER hper, R254. -/
def Fld.LCH_HPER_hper : Fld := ⟨0x0006002c, 31, 0⟩
/-- LCH_DATUM_LAT_LO lat, R254. -/
def Fld.LCH_DATUM_LAT_LO_lat : Fld := ⟨0x00060030, 31, 0⟩
/-- LCH_DATUM_LAT_HI lat, R254. -/
def Fld.LCH_DATUM_LAT_HI_lat : Fld := ⟨0x00060034, 31, 0⟩
/-- LCH_DATUM_LON_LO lon, R254. -/
def Fld.LCH_DATUM_LON_LO_lon : Fld := ⟨0x00060038, 31, 0⟩
/-- LCH_DATUM_LON_HI lon, R254. -/
def Fld.LCH_DATUM_LON_HI_lon : Fld := ⟨0x0006003c, 31, 0⟩
/-- LCH_DATUM_HGT hgt, R254. -/
def Fld.LCH_DATUM_HGT_hgt : Fld := ⟨0x00060040, 31, 0⟩
/-- LCH_OUT_NS ns, R254. -/
def Fld.LCH_OUT_NS_ns : Fld := ⟨0x00060100, 29, 0⟩
/-- LCH_OUT_SL s_lo, R254. -/
def Fld.LCH_OUT_SL_s_lo : Fld := ⟨0x00060104, 31, 0⟩
/-- LCH_OUT_SH s_hi, R254. -/
def Fld.LCH_OUT_SH_s_hi : Fld := ⟨0x00060108, 15, 0⟩
/-- LCH_OUT_N pos, R254. -/
def Fld.LCH_OUT_N_pos : Fld := ⟨0x0006010c, 31, 0⟩
/-- LCH_OUT_E pos, R254. -/
def Fld.LCH_OUT_E_pos : Fld := ⟨0x00060110, 31, 0⟩
/-- LCH_OUT_HDG val, R254. -/
def Fld.LCH_OUT_HDG_val : Fld := ⟨0x00060114, 31, 0⟩
/-- LCH_OUT_U val, R254. -/
def Fld.LCH_OUT_U_val : Fld := ⟨0x00060118, 31, 0⟩
/-- LCH_OUT_V val, R254. -/
def Fld.LCH_OUT_V_val : Fld := ⟨0x0006011c, 31, 0⟩
/-- LCH_OUT_R val, R254. -/
def Fld.LCH_OUT_R_val : Fld := ⟨0x00060120, 31, 0⟩
/-- LCH_OUT_BN val, R254. -/
def Fld.LCH_OUT_BN_val : Fld := ⟨0x00060124, 31, 0⟩
/-- LCH_OUT_BE val, R254. -/
def Fld.LCH_OUT_BE_val : Fld := ⟨0x00060128, 31, 0⟩
/-- LCH_OUT_BPSI val, R254. -/
def Fld.LCH_OUT_BPSI_val : Fld := ⟨0x0006012c, 31, 0⟩
/-- LCH_OUT_ROLL val, R254. -/
def Fld.LCH_OUT_ROLL_val : Fld := ⟨0x00060130, 31, 0⟩
/-- LCH_OUT_PITCH val, R254. -/
def Fld.LCH_OUT_PITCH_val : Fld := ⟨0x00060134, 31, 0⟩
/-- LCH_OUT_HEAVE val, R254. -/
def Fld.LCH_OUT_HEAVE_val : Fld := ⟨0x00060138, 31, 0⟩
/-- LCH_OUT_SIG_P val, R254. -/
def Fld.LCH_OUT_SIG_P_val : Fld := ⟨0x0006013c, 31, 0⟩
/-- LCH_OUT_SIG_H val, R254. -/
def Fld.LCH_OUT_SIG_H_val : Fld := ⟨0x00060140, 31, 0⟩
/-- LCH_OUT_WSPD val, R254. -/
def Fld.LCH_OUT_WSPD_val : Fld := ⟨0x00060144, 31, 0⟩
/-- LCH_OUT_WDIR val, R254. -/
def Fld.LCH_OUT_WDIR_val : Fld := ⟨0x00060148, 31, 0⟩
/-- LCH_OUT_FLAGS hstep, R254. -/
def Fld.LCH_OUT_FLAGS_hstep : Fld := ⟨0x0006014c, 9, 8⟩
/-- LCH_OUT_FLAGS pstep, R254. -/
def Fld.LCH_OUT_FLAGS_pstep : Fld := ⟨0x0006014c, 6, 4⟩
/-- LCH_OUT_FLAGS wind_valid, R254. -/
def Fld.LCH_OUT_FLAGS_wind_valid : Fld := ⟨0x0006014c, 3, 3⟩
/-- LCH_OUT_FLAGS att_valid, R254. -/
def Fld.LCH_OUT_FLAGS_att_valid : Fld := ⟨0x0006014c, 2, 2⟩
/-- LCH_OUT_FLAGS hdg_valid, R254. -/
def Fld.LCH_OUT_FLAGS_hdg_valid : Fld := ⟨0x0006014c, 1, 1⟩
/-- LCH_OUT_FLAGS pos_valid, R254. -/
def Fld.LCH_OUT_FLAGS_pos_valid : Fld := ⟨0x0006014c, 0, 0⟩
/-- LCH_Ss_CFG off_state, R254. -/
def Fld.LCH_Ss_CFG_off_state (s : Nat) : Fld := ⟨0x00060400 + 0x40 * s, 18, 16⟩
/-- LCH_Ss_CFG src_type, R254. -/
def Fld.LCH_Ss_CFG_src_type (s : Nat) : Fld := ⟨0x00060400 + 0x40 * s, 14, 12⟩
/-- LCH_Ss_CFG home, R254. -/
def Fld.LCH_Ss_CFG_home (s : Nat) : Fld := ⟨0x00060400 + 0x40 * s, 10, 8⟩
/-- LCH_Ss_CFG relative, R254. -/
def Fld.LCH_Ss_CFG_relative (s : Nat) : Fld := ⟨0x00060400 + 0x40 * s, 7, 7⟩
/-- LCH_Ss_CFG principle, R254. -/
def Fld.LCH_Ss_CFG_principle (s : Nat) : Fld := ⟨0x00060400 + 0x40 * s, 6, 4⟩
/-- LCH_Ss_CFG kind, R254. -/
def Fld.LCH_Ss_CFG_kind (s : Nat) : Fld := ⟨0x00060400 + 0x40 * s, 3, 1⟩
/-- LCH_Ss_CFG en, R254. -/
def Fld.LCH_Ss_CFG_en (s : Nat) : Fld := ⟨0x00060400 + 0x40 * s, 0, 0⟩
/-- LCH_Ss_SRC decoder, R254. -/
def Fld.LCH_Ss_SRC_decoder (s : Nat) : Fld := ⟨0x00060404 + 0x40 * s, 31, 24⟩
/-- LCH_Ss_SRC index3, R254. -/
def Fld.LCH_Ss_SRC_index3 (s : Nat) : Fld := ⟨0x00060404 + 0x40 * s, 23, 16⟩
/-- LCH_Ss_SRC index2, R254. -/
def Fld.LCH_Ss_SRC_index2 (s : Nat) : Fld := ⟨0x00060404 + 0x40 * s, 15, 8⟩
/-- LCH_Ss_SRC index, R254. -/
def Fld.LCH_Ss_SRC_index (s : Nat) : Fld := ⟨0x00060404 + 0x40 * s, 7, 0⟩
/-- LCH_Ss_LAT lat, R254. -/
def Fld.LCH_Ss_LAT_lat (s : Nat) : Fld := ⟨0x00060408 + 0x40 * s, 31, 0⟩
/-- LCH_Ss_LEV_X lev, R254. -/
def Fld.LCH_Ss_LEV_X_lev (s : Nat) : Fld := ⟨0x0006040c + 0x40 * s, 31, 0⟩
/-- LCH_Ss_LEV_Y lev, R254. -/
def Fld.LCH_Ss_LEV_Y_lev (s : Nat) : Fld := ⟨0x00060410 + 0x40 * s, 31, 0⟩
/-- LCH_Ss_LEV_Z lev, R254. -/
def Fld.LCH_Ss_LEV_Z_lev (s : Nat) : Fld := ⟨0x00060414 + 0x40 * s, 31, 0⟩
/-- LCH_Ss_MNT0 pitch, R254. -/
def Fld.LCH_Ss_MNT0_pitch (s : Nat) : Fld := ⟨0x00060418 + 0x40 * s, 31, 16⟩
/-- LCH_Ss_MNT0 roll, R254. -/
def Fld.LCH_Ss_MNT0_roll (s : Nat) : Fld := ⟨0x00060418 + 0x40 * s, 15, 0⟩
/-- LCH_Ss_MNT1 yaw, R254. -/
def Fld.LCH_Ss_MNT1_yaw (s : Nat) : Fld := ⟨0x0006041c + 0x40 * s, 15, 0⟩
/-- LCH_Ss_SIGMA sigma, R254. -/
def Fld.LCH_Ss_SIGMA_sigma (s : Nat) : Fld := ⟨0x00060420 + 0x40 * s, 31, 0⟩
/-- LCH_Ss_STS quality, R254. -/
def Fld.LCH_Ss_STS_quality (s : Nat) : Fld := ⟨0x00060424 + 0x40 * s, 23, 16⟩
/-- LCH_Ss_STS slip, R254. -/
def Fld.LCH_Ss_STS_slip (s : Nat) : Fld := ⟨0x00060424 + 0x40 * s, 14, 14⟩
/-- LCH_Ss_STS stale, R254. -/
def Fld.LCH_Ss_STS_stale (s : Nat) : Fld := ⟨0x00060424 + 0x40 * s, 13, 13⟩
/-- LCH_Ss_STS qual0, R254. -/
def Fld.LCH_Ss_STS_qual0 (s : Nat) : Fld := ⟨0x00060424 + 0x40 * s, 12, 12⟩
/-- LCH_Ss_STS anchored, R254. -/
def Fld.LCH_Ss_STS_anchored (s : Nat) : Fld := ⟨0x00060424 + 0x40 * s, 11, 11⟩
/-- LCH_Ss_STS gated, R254. -/
def Fld.LCH_Ss_STS_gated (s : Nat) : Fld := ⟨0x00060424 + 0x40 * s, 10, 10⟩
/-- LCH_Ss_STS drift, R254. -/
def Fld.LCH_Ss_STS_drift (s : Nat) : Fld := ⟨0x00060424 + 0x40 * s, 9, 9⟩
/-- LCH_Ss_STS jump, R254. -/
def Fld.LCH_Ss_STS_jump (s : Nat) : Fld := ⟨0x00060424 + 0x40 * s, 8, 8⟩
/-- LCH_Ss_STS timing_suspect, R254. -/
def Fld.LCH_Ss_STS_timing_suspect (s : Nat) : Fld := ⟨0x00060424 + 0x40 * s, 7, 7⟩
/-- LCH_Ss_STS excluded, R254. -/
def Fld.LCH_Ss_STS_excluded (s : Nat) : Fld := ⟨0x00060424 + 0x40 * s, 6, 6⟩
/-- LCH_Ss_STS designated, R254. -/
def Fld.LCH_Ss_STS_designated (s : Nat) : Fld := ⟨0x00060424 + 0x40 * s, 5, 5⟩
/-- LCH_Ss_STS outlier, R254. -/
def Fld.LCH_Ss_STS_outlier (s : Nat) : Fld := ⟨0x00060424 + 0x40 * s, 4, 4⟩
/-- LCH_Ss_STS rejected, R254. -/
def Fld.LCH_Ss_STS_rejected (s : Nat) : Fld := ⟨0x00060424 + 0x40 * s, 3, 3⟩
/-- LCH_Ss_STS suspect, R254. -/
def Fld.LCH_Ss_STS_suspect (s : Nat) : Fld := ⟨0x00060424 + 0x40 * s, 2, 2⟩
/-- LCH_Ss_STS missing, R254. -/
def Fld.LCH_Ss_STS_missing (s : Nat) : Fld := ⟨0x00060424 + 0x40 * s, 1, 1⟩
/-- LCH_Ss_STS healthy, R254. -/
def Fld.LCH_Ss_STS_healthy (s : Nat) : Fld := ⟨0x00060424 + 0x40 * s, 0, 0⟩
/-- LCH_Ss_SCORE drift, R254. -/
def Fld.LCH_Ss_SCORE_drift (s : Nat) : Fld := ⟨0x00060428 + 0x40 * s, 31, 24⟩
/-- LCH_Ss_SCORE jump, R254. -/
def Fld.LCH_Ss_SCORE_jump (s : Nat) : Fld := ⟨0x00060428 + 0x40 * s, 23, 16⟩
/-- LCH_Ss_SCORE trust, R254. -/
def Fld.LCH_Ss_SCORE_trust (s : Nat) : Fld := ⟨0x00060428 + 0x40 * s, 15, 0⟩
/-- LCH_Ss_CNT0 late, R254. -/
def Fld.LCH_Ss_CNT0_late (s : Nat) : Fld := ⟨0x0006042c + 0x40 * s, 31, 16⟩
/-- LCH_Ss_CNT0 missing, R254. -/
def Fld.LCH_Ss_CNT0_missing (s : Nat) : Fld := ⟨0x0006042c + 0x40 * s, 15, 0⟩
/-- LCH_Ss_CNT1 jumps, R254. -/
def Fld.LCH_Ss_CNT1_jumps (s : Nat) : Fld := ⟨0x00060430 + 0x40 * s, 31, 24⟩
/-- LCH_Ss_CNT1 outliers, R254. -/
def Fld.LCH_Ss_CNT1_outliers (s : Nat) : Fld := ⟨0x00060430 + 0x40 * s, 23, 16⟩
/-- LCH_Ss_CNT1 gated, R254. -/
def Fld.LCH_Ss_CNT1_gated (s : Nat) : Fld := ⟨0x00060430 + 0x40 * s, 15, 8⟩
/-- LCH_Ss_CNT1 slips, R254. -/
def Fld.LCH_Ss_CNT1_slips (s : Nat) : Fld := ⟨0x00060430 + 0x40 * s, 7, 0⟩
/-- LCH_Ss_NOMPER nomper, R254. -/
def Fld.LCH_Ss_NOMPER_nomper (s : Nat) : Fld := ⟨0x00060434 + 0x40 * s, 31, 0⟩
/-- LCH_Ss_MEASPER measper, R254. -/
def Fld.LCH_Ss_MEASPER_measper (s : Nat) : Fld := ⟨0x00060438 + 0x40 * s, 31, 0⟩
/-- STR_PL_STS reason, R299. -/
def Fld.STR_PL_STS_reason : Fld := ⟨0x00048000, 19, 16⟩
/-- STR_PL_STS joy_invalid, R299. -/
def Fld.STR_PL_STS_joy_invalid : Fld := ⟨0x00048000, 13, 13⟩
/-- STR_PL_STS manual_stale, R299. -/
def Fld.STR_PL_STS_manual_stale : Fld := ⟨0x00048000, 12, 12⟩
/-- STR_PL_STS slack_exc, R299. -/
def Fld.STR_PL_STS_slack_exc : Fld := ⟨0x00048000, 11, 11⟩
/-- STR_PL_STS slack_bus, R299. -/
def Fld.STR_PL_STS_slack_bus : Fld := ⟨0x00048000, 10, 10⟩
/-- STR_PL_STS rotating, R299. -/
def Fld.STR_PL_STS_rotating : Fld := ⟨0x00048000, 9, 9⟩
/-- STR_PL_STS trip, R299. -/
def Fld.STR_PL_STS_trip : Fld := ⟨0x00048000, 8, 8⟩
/-- STR_PL_STS skip, R299. -/
def Fld.STR_PL_STS_skip : Fld := ⟨0x00048000, 7, 7⟩
/-- STR_PL_STS continuation, R299. -/
def Fld.STR_PL_STS_continuation : Fld := ⟨0x00048000, 6, 6⟩
/-- STR_PL_STS fallback, R299. -/
def Fld.STR_PL_STS_fallback : Fld := ⟨0x00048000, 5, 5⟩
/-- STR_PL_STS catchup, R299. -/
def Fld.STR_PL_STS_catchup : Fld := ⟨0x00048000, 4, 4⟩
/-- STR_PL_STS auto_head, R299. -/
def Fld.STR_PL_STS_auto_head : Fld := ⟨0x00048000, 3, 3⟩
/-- STR_PL_STS mode, R299. -/
def Fld.STR_PL_STS_mode : Fld := ⟨0x00048000, 2, 0⟩
/-- STR_PL_IRQ_STS irq, R299. -/
def Fld.STR_PL_IRQ_STS_irq : Fld := ⟨0x00048004, 15, 0⟩
/-- STR_PL_LAG releases, R299. -/
def Fld.STR_PL_LAG_releases : Fld := ⟨0x00048008, 31, 24⟩
/-- STR_PL_LAG lag, R299. -/
def Fld.STR_PL_LAG_lag : Fld := ⟨0x00048008, 23, 0⟩
/-- STR_PL_CNT fallbacks, R299. -/
def Fld.STR_PL_CNT_fallbacks : Fld := ⟨0x0004800c, 31, 24⟩
/-- STR_PL_CNT skips, R299. -/
def Fld.STR_PL_CNT_skips : Fld := ⟨0x0004800c, 23, 16⟩
/-- STR_PL_CNT overruns, R299. -/
def Fld.STR_PL_CNT_overruns : Fld := ⟨0x0004800c, 15, 0⟩
/-- STR_PL_SOLVE fails, R299. -/
def Fld.STR_PL_SOLVE_fails : Fld := ⟨0x00048010, 23, 16⟩
/-- STR_PL_SOLVE iter, R299. -/
def Fld.STR_PL_SOLVE_iter : Fld := ⟨0x00048010, 15, 8⟩
/-- STR_PL_SOLVE accepted, R299. -/
def Fld.STR_PL_SOLVE_accepted : Fld := ⟨0x00048010, 4, 4⟩
/-- STR_PL_SOLVE status, R299. -/
def Fld.STR_PL_SOLVE_status : Fld := ⟨0x00048010, 3, 0⟩
/-- STR_PL_MERIT merit, R299. -/
def Fld.STR_PL_MERIT_merit : Fld := ⟨0x00048014, 31, 0⟩
/-- STR_PL_REF_N ref, R299. -/
def Fld.STR_PL_REF_N_ref : Fld := ⟨0x00048018, 31, 0⟩
/-- STR_PL_REF_E ref, R299. -/
def Fld.STR_PL_REF_E_ref : Fld := ⟨0x0004801c, 31, 0⟩
/-- STR_PL_REF_HDG val, R299. -/
def Fld.STR_PL_REF_HDG_val : Fld := ⟨0x00048020, 31, 0⟩
/-- STR_PL_TAU_X val, R299. -/
def Fld.STR_PL_TAU_X_val : Fld := ⟨0x00048024, 31, 0⟩
/-- STR_PL_TAU_Y val, R299. -/
def Fld.STR_PL_TAU_Y_val : Fld := ⟨0x00048028, 31, 0⟩
/-- STR_PL_TAU_N val, R299. -/
def Fld.STR_PL_TAU_N_val : Fld := ⟨0x0004802c, 31, 0⟩
/-- STR_PL_TRACK_STS at_final, R299. -/
def Fld.STR_PL_TRACK_STS_at_final : Fld := ⟨0x00048030, 16, 16⟩
/-- STR_PL_TRACK_STS index, R299. -/
def Fld.STR_PL_TRACK_STS_index : Fld := ⟨0x00048030, 12, 8⟩
/-- STR_PL_TRACK_STS queued, R299. -/
def Fld.STR_PL_TRACK_STS_queued : Fld := ⟨0x00048030, 4, 0⟩
/-- STR_PL_MODEL_VER version, R299. -/
def Fld.STR_PL_MODEL_VER_version : Fld := ⟨0x00048034, 31, 0⟩
/-- STR_PL_MODEL_PER per, R299. -/
def Fld.STR_PL_MODEL_PER_per : Fld := ⟨0x00048038, 31, 0⟩
/-- STR_PL_TIMING budget, R299. -/
def Fld.STR_PL_TIMING_budget : Fld := ⟨0x00048040, 31, 16⟩
/-- STR_PL_TIMING period, R299. -/
def Fld.STR_PL_TIMING_period : Fld := ⟨0x00048040, 7, 0⟩
/-- STR_PL_HORIZON m_s, R299. -/
def Fld.STR_PL_HORIZON_m_s : Fld := ⟨0x00048044, 15, 8⟩
/-- STR_PL_HORIZON stages, R299. -/
def Fld.STR_PL_HORIZON_stages : Fld := ⟨0x00048044, 7, 0⟩
/-- STR_PL_FAIL_CFG manual_tmo, R299. -/
def Fld.STR_PL_FAIL_CFG_manual_tmo : Fld := ⟨0x00048048, 23, 16⟩
/-- STR_PL_FAIL_CFG recover, R299. -/
def Fld.STR_PL_FAIL_CFG_recover : Fld := ⟨0x00048048, 15, 8⟩
/-- STR_PL_FAIL_CFG fail_max, R299. -/
def Fld.STR_PL_FAIL_CFG_fail_max : Fld := ⟨0x00048048, 7, 0⟩
/-- STR_PL_SECTOR rot_f, R299. -/
def Fld.STR_PL_SECTOR_rot_f : Fld := ⟨0x0004804c, 15, 8⟩
/-- STR_PL_SECTOR sw_hold, R299. -/
def Fld.STR_PL_SECTOR_sw_hold : Fld := ⟨0x0004804c, 7, 0⟩
/-- STR_PL_JOY ch_n, R299. -/
def Fld.STR_PL_JOY_ch_n : Fld := ⟨0x00048050, 23, 16⟩
/-- STR_PL_JOY ch_y, R299. -/
def Fld.STR_PL_JOY_ch_y : Fld := ⟨0x00048050, 15, 8⟩
/-- STR_PL_JOY ch_x, R299. -/
def Fld.STR_PL_JOY_ch_x : Fld := ⟨0x00048050, 7, 0⟩
/-- STR_PL_RES_MAX val, R299. -/
def Fld.STR_PL_RES_MAX_val : Fld := ⟨0x00048054, 31, 0⟩
/-- STR_PL_SW_MULT val, R299. -/
def Fld.STR_PL_SW_MULT_val : Fld := ⟨0x00048058, 31, 0⟩
/-- STR_PL_Q_POS val, R299. -/
def Fld.STR_PL_Q_POS_val : Fld := ⟨0x0004805c, 31, 0⟩
/-- STR_PL_Q_HDG val, R299. -/
def Fld.STR_PL_Q_HDG_val : Fld := ⟨0x00048060, 31, 0⟩
/-- STR_PL_Q_U val, R299. -/
def Fld.STR_PL_Q_U_val : Fld := ⟨0x00048064, 31, 0⟩
/-- STR_PL_Q_V val, R299. -/
def Fld.STR_PL_Q_V_val : Fld := ⟨0x00048068, 31, 0⟩
/-- STR_PL_Q_R val, R299. -/
def Fld.STR_PL_Q_R_val : Fld := ⟨0x0004806c, 31, 0⟩
/-- STR_PL_W_TERM val, R299. -/
def Fld.STR_PL_W_TERM_val : Fld := ⟨0x00048070, 31, 0⟩
/-- STR_PL_W_ALLOC val, R299. -/
def Fld.STR_PL_W_ALLOC_val : Fld := ⟨0x00048074, 31, 0⟩
/-- STR_PL_RHO_BUS val, R299. -/
def Fld.STR_PL_RHO_BUS_val : Fld := ⟨0x00048078, 31, 0⟩
/-- STR_PL_RHO_EXC val, R299. -/
def Fld.STR_PL_RHO_EXC_val : Fld := ⟨0x0004807c, 31, 0⟩
/-- STR_PL_VMAX val, R299. -/
def Fld.STR_PL_VMAX_val : Fld := ⟨0x00048080, 31, 0⟩
/-- STR_PL_RMAX val, R299. -/
def Fld.STR_PL_RMAX_val : Fld := ⟨0x00048084, 31, 0⟩
/-- STR_PL_EXC val, R299. -/
def Fld.STR_PL_EXC_val : Fld := ⟨0x00048088, 31, 0⟩
/-- STR_PL_JOY_DB val, R299. -/
def Fld.STR_PL_JOY_DB_val : Fld := ⟨0x0004808c, 31, 0⟩
/-- STR_PL_JOY_FX val, R299. -/
def Fld.STR_PL_JOY_FX_val : Fld := ⟨0x00048090, 31, 0⟩
/-- STR_PL_JOY_FY val, R299. -/
def Fld.STR_PL_JOY_FY_val : Fld := ⟨0x00048094, 31, 0⟩
/-- STR_PL_JOY_FN val, R299. -/
def Fld.STR_PL_JOY_FN_val : Fld := ⟨0x00048098, 31, 0⟩
/-- STR_PL_BUSb_AVAIL kw, R299. -/
def Fld.STR_PL_BUSb_AVAIL_kw (b : Nat) : Fld := ⟨0x00048100 + 0x10 * b, 31, 0⟩
/-- STR_PL_BUSb_EFF kw, R299. -/
def Fld.STR_PL_BUSb_EFF_kw (b : Nat) : Fld := ⟨0x00048104 + 0x10 * b, 31, 0⟩
/-- STR_PL_BUSb_PLAN kw, R299. -/
def Fld.STR_PL_BUSb_PLAN_kw (b : Nat) : Fld := ⟨0x00048108 + 0x10 * b, 31, 0⟩
/-- STR_PL_BUSb_STS slack, R299. -/
def Fld.STR_PL_BUSb_STS_slack (b : Nat) : Fld := ⟨0x0004810c + 0x10 * b, 16, 16⟩
/-- STR_PL_BUSb_STS tripped, R299. -/
def Fld.STR_PL_BUSb_STS_tripped (b : Nat) : Fld := ⟨0x0004810c + 0x10 * b, 15, 8⟩
/-- STR_PL_BUSb_STS online, R299. -/
def Fld.STR_PL_BUSb_STS_online (b : Nat) : Fld := ⟨0x0004810c + 0x10 * b, 7, 0⟩
/-- STR_PL_GENg_CFG tripped, R299. -/
def Fld.STR_PL_GENg_CFG_tripped (g : Nat) : Fld := ⟨0x00048200 + 0x8 * g, 17, 17⟩
/-- STR_PL_GENg_CFG online, R299. -/
def Fld.STR_PL_GENg_CFG_online (g : Nat) : Fld := ⟨0x00048200 + 0x8 * g, 16, 16⟩
/-- STR_PL_GENg_CFG trip_en, R299. -/
def Fld.STR_PL_GENg_CFG_trip_en (g : Nat) : Fld := ⟨0x00048200 + 0x8 * g, 9, 9⟩
/-- STR_PL_GENg_CFG trip_in, R299. -/
def Fld.STR_PL_GENg_CFG_trip_in (g : Nat) : Fld := ⟨0x00048200 + 0x8 * g, 8, 4⟩
/-- STR_PL_GENg_CFG bus, R299. -/
def Fld.STR_PL_GENg_CFG_bus (g : Nat) : Fld := ⟨0x00048200 + 0x8 * g, 2, 1⟩
/-- STR_PL_GENg_CFG en, R299. -/
def Fld.STR_PL_GENg_CFG_en (g : Nat) : Fld := ⟨0x00048200 + 0x8 * g, 0, 0⟩
/-- STR_PL_GENg_CAP cap, R299. -/
def Fld.STR_PL_GENg_CAP_cap (g : Nat) : Fld := ⟨0x00048204 + 0x8 * g, 31, 0⟩
/-- STR_PL_THRi_CFG unavail, R299. -/
def Fld.STR_PL_THRi_CFG_unavail (i : Nat) : Fld := ⟨0x00048400 + 0x40 * i, 11, 11⟩
/-- STR_PL_THRi_CFG az_fb, R299. -/
def Fld.STR_PL_THRi_CFG_az_fb (i : Nat) : Fld := ⟨0x00048400 + 0x40 * i, 10, 10⟩
/-- STR_PL_THRi_CFG rotating, R299. -/
def Fld.STR_PL_THRi_CFG_rotating (i : Nat) : Fld := ⟨0x00048400 + 0x40 * i, 9, 9⟩
/-- STR_PL_THRi_CFG side, R299. -/
def Fld.STR_PL_THRi_CFG_side (i : Nat) : Fld := ⟨0x00048400 + 0x40 * i, 8, 8⟩
/-- STR_PL_THRi_CFG az_cont, R299. -/
def Fld.STR_PL_THRi_CFG_az_cont (i : Nat) : Fld := ⟨0x00048400 + 0x40 * i, 7, 7⟩
/-- STR_PL_THRi_CFG sector_en, R299. -/
def Fld.STR_PL_THRi_CFG_sector_en (i : Nat) : Fld := ⟨0x00048400 + 0x40 * i, 6, 6⟩
/-- STR_PL_THRi_CFG poly, R299. -/
def Fld.STR_PL_THRi_CFG_poly (i : Nat) : Fld := ⟨0x00048400 + 0x40 * i, 5, 4⟩
/-- STR_PL_THRi_CFG bus, R299. -/
def Fld.STR_PL_THRi_CFG_bus (i : Nat) : Fld := ⟨0x00048400 + 0x40 * i, 3, 2⟩
/-- STR_PL_THRi_CFG type, R299. -/
def Fld.STR_PL_THRi_CFG_type (i : Nat) : Fld := ⟨0x00048400 + 0x40 * i, 1, 1⟩
/-- STR_PL_THRi_CFG en, R299. -/
def Fld.STR_PL_THRi_CFG_en (i : Nat) : Fld := ⟨0x00048400 + 0x40 * i, 0, 0⟩
/-- STR_PL_THRi_POS_X pos, R299. -/
def Fld.STR_PL_THRi_POS_X_pos (i : Nat) : Fld := ⟨0x00048404 + 0x40 * i, 31, 0⟩
/-- STR_PL_THRi_POS_Y pos, R299. -/
def Fld.STR_PL_THRi_POS_Y_pos (i : Nat) : Fld := ⟨0x00048408 + 0x40 * i, 31, 0⟩
/-- STR_PL_THRi_FMAX val, R299. -/
def Fld.STR_PL_THRi_FMAX_val (i : Nat) : Fld := ⟨0x0004840c + 0x40 * i, 31, 0⟩
/-- STR_PL_THRi_FREV val, R299. -/
def Fld.STR_PL_THRi_FREV_val (i : Nat) : Fld := ⟨0x00048410 + 0x40 * i, 31, 0⟩
/-- STR_PL_THRi_RATE val, R299. -/
def Fld.STR_PL_THRi_RATE_val (i : Nat) : Fld := ⟨0x00048414 + 0x40 * i, 31, 0⟩
/-- STR_PL_THRi_AZR val, R299. -/
def Fld.STR_PL_THRi_AZR_val (i : Nat) : Fld := ⟨0x00048418 + 0x40 * i, 31, 0⟩
/-- STR_PL_THRi_SECTOR a2, R299. -/
def Fld.STR_PL_THRi_SECTOR_a2 (i : Nat) : Fld := ⟨0x0004841c + 0x40 * i, 31, 16⟩
/-- STR_PL_THRi_SECTOR a1, R299. -/
def Fld.STR_PL_THRi_SECTOR_a1 (i : Nat) : Fld := ⟨0x0004841c + 0x40 * i, 15, 0⟩
/-- STR_PL_THRi_KAPPA val, R299. -/
def Fld.STR_PL_THRi_KAPPA_val (i : Nat) : Fld := ⟨0x00048420 + 0x40 * i, 31, 0⟩
/-- STR_PL_THRi_WEIGHT val, R299. -/
def Fld.STR_PL_THRi_WEIGHT_val (i : Nat) : Fld := ⟨0x00048424 + 0x40 * i, 31, 0⟩
/-- STR_PL_THRi_SINK0 sink, R299. -/
def Fld.STR_PL_THRi_SINK0_sink (i : Nat) : Fld := ⟨0x00048428 + 0x40 * i, 31, 0⟩
/-- STR_PL_THRi_SINK1 sink, R299. -/
def Fld.STR_PL_THRi_SINK1_sink (i : Nat) : Fld := ⟨0x0004842c + 0x40 * i, 31, 0⟩
/-- STR_PL_THRi_SINK2 sink, R299. -/
def Fld.STR_PL_THRi_SINK2_sink (i : Nat) : Fld := ⟨0x00048430 + 0x40 * i, 31, 0⟩
/-- STR_PL_THRi_TABCRC crc, R299. -/
def Fld.STR_PL_THRi_TABCRC_crc (i : Nat) : Fld := ⟨0x00048434 + 0x40 * i, 31, 0⟩
/-- STR_PL_THRi_CMD val, R299. -/
def Fld.STR_PL_THRi_CMD_val (i : Nat) : Fld := ⟨0x00048438 + 0x40 * i, 31, 0⟩
/-- STR_PL_THRi_AZ val, R299. -/
def Fld.STR_PL_THRi_AZ_val (i : Nat) : Fld := ⟨0x0004843c + 0x40 * i, 31, 0⟩
/-- SLV_STS iter, R338. -/
def Fld.SLV_STS_iter : Fld := ⟨0x00050000, 23, 16⟩
/-- SLV_STS scale_exp, R338. -/
def Fld.SLV_STS_scale_exp : Fld := ⟨0x00050000, 15, 12⟩
/-- SLV_STS bank_testing, R338. -/
def Fld.SLV_STS_bank_testing : Fld := ⟨0x00050000, 11, 11⟩
/-- SLV_STS test_bank, R338. -/
def Fld.SLV_STS_test_bank : Fld := ⟨0x00050000, 10, 8⟩
/-- SLV_STS selftest_fail, R338. -/
def Fld.SLV_STS_selftest_fail : Fld := ⟨0x00050000, 6, 6⟩
/-- SLV_STS selftest_ok, R338. -/
def Fld.SLV_STS_selftest_ok : Fld := ⟨0x00050000, 5, 5⟩
/-- SLV_STS pace_lost, R338. -/
def Fld.SLV_STS_pace_lost : Fld := ⟨0x00050000, 4, 4⟩
/-- SLV_STS paced, R338. -/
def Fld.SLV_STS_paced : Fld := ⟨0x00050000, 3, 3⟩
/-- SLV_STS host_pending, R338. -/
def Fld.SLV_STS_host_pending : Fld := ⟨0x00050000, 2, 2⟩
/-- SLV_STS state, R338. -/
def Fld.SLV_STS_state : Fld := ⟨0x00050000, 1, 0⟩
/-- SLV_IRQ_STS irq, R338. -/
def Fld.SLV_IRQ_STS_irq : Fld := ⟨0x00050004, 15, 0⟩
/-- SLV_CFG piv_max, R338. -/
def Fld.SLV_CFG_piv_max : Fld := ⟨0x00050008, 31, 24⟩
/-- SLV_CFG rej_max, R338. -/
def Fld.SLV_CFG_rej_max : Fld := ⟨0x00050008, 23, 20⟩
/-- SLV_CFG piv_thr, R338. -/
def Fld.SLV_CFG_piv_thr : Fld := ⟨0x00050008, 19, 16⟩
/-- SLV_CFG delta_reg, R338. -/
def Fld.SLV_CFG_delta_reg : Fld := ⟨0x00050008, 15, 12⟩
/-- SLV_CFG tol, R338. -/
def Fld.SLV_CFG_tol : Fld := ⟨0x00050008, 11, 8⟩
/-- SLV_CFG max_iter, R338. -/
def Fld.SLV_CFG_max_iter : Fld := ⟨0x00050008, 7, 0⟩
/-- SLV_PUSH push, R338. -/
def Fld.SLV_PUSH_push : Fld := ⟨0x0005000c, 31, 0⟩
/-- SLV_DEADLINE deadline, R338. -/
def Fld.SLV_DEADLINE_deadline : Fld := ⟨0x00050010, 31, 0⟩
/-- SLV_BUDGET budget, R338. -/
def Fld.SLV_BUDGET_budget : Fld := ⟨0x00050014, 23, 0⟩
/-- SLV_LAST_STS rejected, R338. -/
def Fld.SLV_LAST_STS_rejected : Fld := ⟨0x00050018, 31, 24⟩
/-- SLV_LAST_STS iter, R338. -/
def Fld.SLV_LAST_STS_iter : Fld := ⟨0x00050018, 23, 16⟩
/-- SLV_LAST_STS fmt_err, R338. -/
def Fld.SLV_LAST_STS_fmt_err : Fld := ⟨0x00050018, 14, 14⟩
/-- SLV_LAST_STS source, R338. -/
def Fld.SLV_LAST_STS_source : Fld := ⟨0x00050018, 13, 12⟩
/-- SLV_LAST_STS paced, R338. -/
def Fld.SLV_LAST_STS_paced : Fld := ⟨0x00050018, 11, 11⟩
/-- SLV_LAST_STS reg_up, R338. -/
def Fld.SLV_LAST_STS_reg_up : Fld := ⟨0x00050018, 10, 10⟩
/-- SLV_LAST_STS cancel, R338. -/
def Fld.SLV_LAST_STS_cancel : Fld := ⟨0x00050018, 9, 9⟩
/-- SLV_LAST_STS warm_miss, R338. -/
def Fld.SLV_LAST_STS_warm_miss : Fld := ⟨0x00050018, 8, 8⟩
/-- SLV_LAST_STS ecc, R338. -/
def Fld.SLV_LAST_STS_ecc : Fld := ⟨0x00050018, 7, 7⟩
/-- SLV_LAST_STS preempt, R338. -/
def Fld.SLV_LAST_STS_preempt : Fld := ⟨0x00050018, 6, 6⟩
/-- SLV_LAST_STS midfact, R338. -/
def Fld.SLV_LAST_STS_midfact : Fld := ⟨0x00050018, 5, 5⟩
/-- SLV_LAST_STS merit_valid, R338. -/
def Fld.SLV_LAST_STS_merit_valid : Fld := ⟨0x00050018, 4, 4⟩
/-- SLV_LAST_STS status, R338. -/
def Fld.SLV_LAST_STS_status : Fld := ⟨0x00050018, 3, 0⟩
/-- SLV_LAST_MERIT val, R338. -/
def Fld.SLV_LAST_MERIT_val : Fld := ⟨0x0005001c, 31, 0⟩
/-- SLV_LAST_RP val, R338. -/
def Fld.SLV_LAST_RP_val : Fld := ⟨0x00050020, 31, 0⟩
/-- SLV_LAST_RD val, R338. -/
def Fld.SLV_LAST_RD_val : Fld := ⟨0x00050024, 31, 0⟩
/-- SLV_LAST_GAP val, R338. -/
def Fld.SLV_LAST_GAP_val : Fld := ⟨0x00050028, 31, 0⟩
/-- SLV_LAST_CYC cycles, R338. -/
def Fld.SLV_LAST_CYC_cycles : Fld := ⟨0x0005002c, 31, 0⟩
/-- SLV_LAST_PIV scale_exp, R338. -/
def Fld.SLV_LAST_PIV_scale_exp : Fld := ⟨0x00050030, 27, 24⟩
/-- SLV_LAST_PIV iter_max, R338. -/
def Fld.SLV_LAST_PIV_iter_max : Fld := ⟨0x00050030, 23, 16⟩
/-- SLV_LAST_PIV total, R338. -/
def Fld.SLV_LAST_PIV_total : Fld := ⟨0x00050030, 15, 0⟩
/-- SLV_RET valid, R338. -/
def Fld.SLV_RET_valid : Fld := ⟨0x00050034, 31, 31⟩
/-- SLV_RET age, R338. -/
def Fld.SLV_RET_age : Fld := ⟨0x00050034, 7, 0⟩
/-- SLV_CNT_SOLVE solves, R338. -/
def Fld.SLV_CNT_SOLVE_solves : Fld := ⟨0x00050038, 31, 0⟩
/-- SLV_CNT_END numeric, R338. -/
def Fld.SLV_CNT_END_numeric : Fld := ⟨0x0005003c, 31, 24⟩
/-- SLV_CNT_END noiter, R338. -/
def Fld.SLV_CNT_END_noiter : Fld := ⟨0x0005003c, 23, 16⟩
/-- SLV_CNT_END deadline, R338. -/
def Fld.SLV_CNT_END_deadline : Fld := ⟨0x0005003c, 15, 0⟩
/-- SLV_CNT_REJ midfact, R338. -/
def Fld.SLV_CNT_REJ_midfact : Fld := ⟨0x00050040, 31, 16⟩
/-- SLV_CNT_REJ rejected, R338. -/
def Fld.SLV_CNT_REJ_rejected : Fld := ⟨0x00050040, 15, 0⟩
/-- SLV_ECC isolated, R338. -/
def Fld.SLV_ECC_isolated : Fld := ⟨0x00050044, 23, 16⟩
/-- SLV_ECC ue, R338. -/
def Fld.SLV_ECC_ue : Fld := ⟨0x00050044, 15, 8⟩
/-- SLV_ECC ce, R338. -/
def Fld.SLV_ECC_ce : Fld := ⟨0x00050044, 7, 0⟩
/-- STR_STS slow_tick, R379. -/
def Fld.STR_STS_slow_tick : Fld := ⟨0x00040000, 16, 16⟩
/-- STR_STS gate, R379. -/
def Fld.STR_STS_gate : Fld := ⟨0x00040000, 15, 15⟩
/-- STR_STS shadow, R379. -/
def Fld.STR_STS_shadow : Fld := ⟨0x00040000, 14, 14⟩
/-- STR_TIMING out_dly, R379. -/
def Fld.STR_TIMING_out_dly : Fld := ⟨0x00040004, 5, 0⟩
/-- STR_IRQ_STS0 irq, R379. -/
def Fld.STR_IRQ_STS0_irq : Fld := ⟨0x00040008, 31, 0⟩
/-- STR_IRQ_STS1 irq, R379. -/
def Fld.STR_IRQ_STS1_irq : Fld := ⟨0x0004000c, 15, 0⟩
/-- STR_CLOSED_LO map, R379. -/
def Fld.STR_CLOSED_LO_map : Fld := ⟨0x00040010, 31, 0⟩
/-- STR_FAULT_LO map, R379. -/
def Fld.STR_FAULT_LO_map : Fld := ⟨0x00040018, 31, 0⟩
/-- STR_CLOSED_HI map, R379. -/
def Fld.STR_CLOSED_HI_map : Fld := ⟨0x00040014, 15, 0⟩
/-- STR_FAULT_HI map, R379. -/
def Fld.STR_FAULT_HI_map : Fld := ⟨0x0004001c, 15, 0⟩
/-- STR_LOAD peak, R379. -/
def Fld.STR_LOAD_peak : Fld := ⟨0x00040020, 31, 16⟩
/-- STR_LOAD last, R379. -/
def Fld.STR_LOAD_last : Fld := ⟨0x00040020, 15, 0⟩
/-- STR_MISS_TOT misses, R379. -/
def Fld.STR_MISS_TOT_misses : Fld := ⟨0x00040024, 31, 0⟩
/-- STR_Ss_CFG drone_en, R379. -/
def Fld.STR_Ss_CFG_drone_en (s : Nat) : Fld := ⟨0x00041000 + 0x100 * s, 17, 17⟩
/-- STR_Ss_CFG wrap_en, R379. -/
def Fld.STR_Ss_CFG_wrap_en (s : Nat) : Fld := ⟨0x00041000 + 0x100 * s, 16, 16⟩
/-- STR_Ss_CFG fault_act, R379. -/
def Fld.STR_Ss_CFG_fault_act (s : Nat) : Fld := ⟨0x00041000 + 0x100 * s, 15, 14⟩
/-- STR_Ss_CFG aw, R379. -/
def Fld.STR_Ss_CFG_aw (s : Nat) : Fld := ⟨0x00041000 + 0x100 * s, 13, 12⟩
/-- STR_Ss_CFG sink_type, R379. -/
def Fld.STR_Ss_CFG_sink_type (s : Nat) : Fld := ⟨0x00041000 + 0x100 * s, 10, 8⟩
/-- STR_Ss_CFG fb_type, R379. -/
def Fld.STR_Ss_CFG_fb_type (s : Nat) : Fld := ⟨0x00041000 + 0x100 * s, 6, 4⟩
/-- STR_Ss_CFG sp_type, R379. -/
def Fld.STR_Ss_CFG_sp_type (s : Nat) : Fld := ⟨0x00041000 + 0x100 * s, 2, 0⟩
/-- STR_Ss_DIV phase, R379. -/
def Fld.STR_Ss_DIV_phase (s : Nat) : Fld := ⟨0x00041004 + 0x100 * s, 31, 16⟩
/-- STR_Ss_DIV div, R379. -/
def Fld.STR_Ss_DIV_div (s : Nat) : Fld := ⟨0x00041004 + 0x100 * s, 15, 0⟩
/-- STR_Ss_FB_SRC offset, R379. -/
def Fld.STR_Ss_FB_SRC_offset (s : Nat) : Fld := ⟨0x00041008 + 0x100 * s, 29, 24⟩
/-- STR_Ss_SINK offset, R379. -/
def Fld.STR_Ss_SINK_offset (s : Nat) : Fld := ⟨0x00041010 + 0x100 * s, 29, 24⟩
/-- STR_Ss_FB_SRC enc, R379. -/
def Fld.STR_Ss_FB_SRC_enc (s : Nat) : Fld := ⟨0x00041008 + 0x100 * s, 19, 16⟩
/-- STR_Ss_SINK enc, R379. -/
def Fld.STR_Ss_SINK_enc (s : Nat) : Fld := ⟨0x00041010 + 0x100 * s, 19, 16⟩
/-- STR_Ss_FB_SRC object, R379. -/
def Fld.STR_Ss_FB_SRC_object (s : Nat) : Fld := ⟨0x00041008 + 0x100 * s, 14, 8⟩
/-- STR_Ss_SINK object, R379. -/
def Fld.STR_Ss_SINK_object (s : Nat) : Fld := ⟨0x00041010 + 0x100 * s, 14, 8⟩
/-- STR_Ss_FB_SRC index, R379. -/
def Fld.STR_Ss_FB_SRC_index (s : Nat) : Fld := ⟨0x00041008 + 0x100 * s, 7, 0⟩
/-- STR_Ss_SINK index, R379. -/
def Fld.STR_Ss_SINK_index (s : Nat) : Fld := ⟨0x00041010 + 0x100 * s, 7, 0⟩
/-- STR_Ss_SP_SRC index, R379. -/
def Fld.STR_Ss_SP_SRC_index (s : Nat) : Fld := ⟨0x0004100c + 0x100 * s, 7, 0⟩
/-- STR_Ss_FB_REF ref, R379. -/
def Fld.STR_Ss_FB_REF_ref (s : Nat) : Fld := ⟨0x00041014 + 0x100 * s, 31, 0⟩
/-- STR_Ss_WRAP wrap, R379. -/
def Fld.STR_Ss_WRAP_wrap (s : Nat) : Fld := ⟨0x00041018 + 0x100 * s, 31, 0⟩
/-- STR_Ss_FB_SCALE val, R379. -/
def Fld.STR_Ss_FB_SCALE_val (s : Nat) : Fld := ⟨0x0004101c + 0x100 * s, 31, 0⟩
/-- STR_Ss_FB_OFF val, R379. -/
def Fld.STR_Ss_FB_OFF_val (s : Nat) : Fld := ⟨0x00041020 + 0x100 * s, 31, 0⟩
/-- STR_Ss_SP_SCALE val, R379. -/
def Fld.STR_Ss_SP_SCALE_val (s : Nat) : Fld := ⟨0x00041024 + 0x100 * s, 31, 0⟩
/-- STR_Ss_SP_OFF val, R379. -/
def Fld.STR_Ss_SP_OFF_val (s : Nat) : Fld := ⟨0x00041028 + 0x100 * s, 31, 0⟩
/-- STR_Ss_KP val, R379. -/
def Fld.STR_Ss_KP_val (s : Nat) : Fld := ⟨0x0004102c + 0x100 * s, 31, 0⟩
/-- STR_Ss_KI val, R379. -/
def Fld.STR_Ss_KI_val (s : Nat) : Fld := ⟨0x00041030 + 0x100 * s, 31, 0⟩
/-- STR_Ss_KD val, R379. -/
def Fld.STR_Ss_KD_val (s : Nat) : Fld := ⟨0x00041034 + 0x100 * s, 31, 0⟩
/-- STR_Ss_TF val, R379. -/
def Fld.STR_Ss_TF_val (s : Nat) : Fld := ⟨0x00041038 + 0x100 * s, 31, 0⟩
/-- STR_Ss_WB val, R379. -/
def Fld.STR_Ss_WB_val (s : Nat) : Fld := ⟨0x0004103c + 0x100 * s, 31, 0⟩
/-- STR_Ss_WC val, R379. -/
def Fld.STR_Ss_WC_val (s : Nat) : Fld := ⟨0x00041040 + 0x100 * s, 31, 0⟩
/-- STR_Ss_KAW val, R379. -/
def Fld.STR_Ss_KAW_val (s : Nat) : Fld := ⟨0x00041044 + 0x100 * s, 31, 0⟩
/-- STR_Ss_KVFF val, R379. -/
def Fld.STR_Ss_KVFF_val (s : Nat) : Fld := ⟨0x00041048 + 0x100 * s, 31, 0⟩
/-- STR_Ss_KAFF val, R379. -/
def Fld.STR_Ss_KAFF_val (s : Nat) : Fld := ⟨0x0004104c + 0x100 * s, 31, 0⟩
/-- STR_Ss_UOFF val, R379. -/
def Fld.STR_Ss_UOFF_val (s : Nat) : Fld := ⟨0x00041050 + 0x100 * s, 31, 0⟩
/-- STR_Ss_UMAX val, R379. -/
def Fld.STR_Ss_UMAX_val (s : Nat) : Fld := ⟨0x00041054 + 0x100 * s, 31, 0⟩
/-- STR_Ss_UMIN val, R379. -/
def Fld.STR_Ss_UMIN_val (s : Nat) : Fld := ⟨0x00041058 + 0x100 * s, 31, 0⟩
/-- STR_Ss_URATE val, R379. -/
def Fld.STR_Ss_URATE_val (s : Nat) : Fld := ⟨0x0004105c + 0x100 * s, 31, 0⟩
/-- STR_Ss_SPRATE val, R379. -/
def Fld.STR_Ss_SPRATE_val (s : Nat) : Fld := ⟨0x00041060 + 0x100 * s, 31, 0⟩
/-- STR_Ss_FE_LIM val, R379. -/
def Fld.STR_Ss_FE_LIM_val (s : Nat) : Fld := ⟨0x00041064 + 0x100 * s, 31, 0⟩
/-- STR_Ss_SAFE val, R379. -/
def Fld.STR_Ss_SAFE_val (s : Nat) : Fld := ⟨0x00041068 + 0x100 * s, 31, 0⟩
/-- STR_Ss_RAMP val, R379. -/
def Fld.STR_Ss_RAMP_val (s : Nat) : Fld := ⟨0x0004106c + 0x100 * s, 31, 0⟩
/-- STR_Ss_OUT_SCALE val, R379. -/
def Fld.STR_Ss_OUT_SCALE_val (s : Nat) : Fld := ⟨0x00041070 + 0x100 * s, 31, 0⟩
/-- STR_Ss_TMO fb_age, R379. -/
def Fld.STR_Ss_TMO_fb_age (s : Nat) : Fld := ⟨0x00041074 + 0x100 * s, 31, 16⟩
/-- STR_Ss_TMO fe_time, R379. -/
def Fld.STR_Ss_TMO_fe_time (s : Nat) : Fld := ⟨0x00041074 + 0x100 * s, 15, 0⟩
/-- STR_Ss_LIM sp_lim, R379. -/
def Fld.STR_Ss_LIM_sp_lim (s : Nat) : Fld := ⟨0x00041078 + 0x100 * s, 23, 16⟩
/-- STR_Ss_LIM fb_lim, R379. -/
def Fld.STR_Ss_LIM_fb_lim (s : Nat) : Fld := ⟨0x00041078 + 0x100 * s, 15, 8⟩
/-- STR_Ss_LIM miss_lim, R379. -/
def Fld.STR_Ss_LIM_miss_lim (s : Nat) : Fld := ⟨0x00041078 + 0x100 * s, 7, 0⟩
/-- STR_Ss_SPH sph, R379. -/
def Fld.STR_Ss_SPH_sph (s : Nat) : Fld := ⟨0x0004107c + 0x100 * s, 31, 0⟩
/-- STR_Ss_STS slow_tick, R379. -/
def Fld.STR_Ss_STS_slow_tick (s : Nat) : Fld := ⟨0x00041080 + 0x100 * s, 16, 16⟩
/-- STR_Ss_STS shadow, R379. -/
def Fld.STR_Ss_STS_shadow (s : Nat) : Fld := ⟨0x00041080 + 0x100 * s, 15, 15⟩
/-- STR_Ss_STS fe_run, R379. -/
def Fld.STR_Ss_STS_fe_run (s : Nat) : Fld := ⟨0x00041080 + 0x100 * s, 14, 14⟩
/-- STR_Ss_STS sp_hold, R379. -/
def Fld.STR_Ss_STS_sp_hold (s : Nat) : Fld := ⟨0x00041080 + 0x100 * s, 13, 13⟩
/-- STR_Ss_STS fb_miss, R379. -/
def Fld.STR_Ss_STS_fb_miss (s : Nat) : Fld := ⟨0x00041080 + 0x100 * s, 12, 12⟩
/-- STR_Ss_STS gate_hold, R379. -/
def Fld.STR_Ss_STS_gate_hold (s : Nat) : Fld := ⟨0x00041080 + 0x100 * s, 11, 11⟩
/-- STR_Ss_STS was_sat, R379. -/
def Fld.STR_Ss_STS_was_sat (s : Nat) : Fld := ⟨0x00041080 + 0x100 * s, 9, 9⟩
/-- STR_Ss_STS sat, R379. -/
def Fld.STR_Ss_STS_sat (s : Nat) : Fld := ⟨0x00041080 + 0x100 * s, 8, 8⟩
/-- STR_Ss_STS cause, R379. -/
def Fld.STR_Ss_STS_cause (s : Nat) : Fld := ⟨0x00041080 + 0x100 * s, 7, 4⟩
/-- STR_Ss_STS state, R379. -/
def Fld.STR_Ss_STS_state (s : Nat) : Fld := ⟨0x00041080 + 0x100 * s, 2, 0⟩
/-- STR_Ss_EVT sp_hold, R379. -/
def Fld.STR_Ss_EVT_sp_hold (s : Nat) : Fld := ⟨0x00041084 + 0x100 * s, 7, 7⟩
/-- STR_Ss_EVT fb_miss, R379. -/
def Fld.STR_Ss_EVT_fb_miss (s : Nat) : Fld := ⟨0x00041084 + 0x100 * s, 6, 6⟩
/-- STR_Ss_EVT shadow_fault, R379. -/
def Fld.STR_Ss_EVT_shadow_fault (s : Nat) : Fld := ⟨0x00041084 + 0x100 * s, 5, 5⟩
/-- STR_Ss_EVT sp_late, R379. -/
def Fld.STR_Ss_EVT_sp_late (s : Nat) : Fld := ⟨0x00041084 + 0x100 * s, 4, 4⟩
/-- STR_Ss_EVT shadow_dev, R379. -/
def Fld.STR_Ss_EVT_shadow_dev (s : Nat) : Fld := ⟨0x00041084 + 0x100 * s, 3, 3⟩
/-- STR_Ss_EVT reseed, R379. -/
def Fld.STR_Ss_EVT_reseed (s : Nat) : Fld := ⟨0x00041084 + 0x100 * s, 2, 2⟩
/-- STR_Ss_EVT miss, R379. -/
def Fld.STR_Ss_EVT_miss (s : Nat) : Fld := ⟨0x00041084 + 0x100 * s, 1, 1⟩
/-- STR_Ss_EVT state, R379. -/
def Fld.STR_Ss_EVT_state (s : Nat) : Fld := ⟨0x00041084 + 0x100 * s, 0, 0⟩
/-- STR_Ss_SPV val, R379. -/
def Fld.STR_Ss_SPV_val (s : Nat) : Fld := ⟨0x00041088 + 0x100 * s, 31, 0⟩
/-- STR_Ss_FBV val, R379. -/
def Fld.STR_Ss_FBV_val (s : Nat) : Fld := ⟨0x0004108c + 0x100 * s, 31, 0⟩
/-- STR_Ss_ERRV val, R379. -/
def Fld.STR_Ss_ERRV_val (s : Nat) : Fld := ⟨0x00041090 + 0x100 * s, 31, 0⟩
/-- STR_Ss_OUT val, R379. -/
def Fld.STR_Ss_OUT_val (s : Nat) : Fld := ⟨0x00041094 + 0x100 * s, 31, 0⟩
/-- STR_Ss_INT val, R379. -/
def Fld.STR_Ss_INT_val (s : Nat) : Fld := ⟨0x00041098 + 0x100 * s, 31, 0⟩
/-- STR_Ss_INTC val, R379. -/
def Fld.STR_Ss_INTC_val (s : Nat) : Fld := ⟨0x0004109c + 0x100 * s, 31, 0⟩
/-- STR_Ss_TICK tick, R379. -/
def Fld.STR_Ss_TICK_tick (s : Nat) : Fld := ⟨0x000410a0 + 0x100 * s, 31, 0⟩
/-- STR_Ss_CNT0 fb_miss, R379. -/
def Fld.STR_Ss_CNT0_fb_miss (s : Nat) : Fld := ⟨0x000410a4 + 0x100 * s, 31, 16⟩
/-- STR_Ss_CNT0 miss, R379. -/
def Fld.STR_Ss_CNT0_miss (s : Nat) : Fld := ⟨0x000410a4 + 0x100 * s, 15, 0⟩
/-- STR_Ss_CNT1 reseed, R379. -/
def Fld.STR_Ss_CNT1_reseed (s : Nat) : Fld := ⟨0x000410a8 + 0x100 * s, 31, 24⟩
/-- STR_Ss_CNT1 dev, R379. -/
def Fld.STR_Ss_CNT1_dev (s : Nat) : Fld := ⟨0x000410a8 + 0x100 * s, 23, 16⟩
/-- STR_Ss_CNT1 sp_late, R379. -/
def Fld.STR_Ss_CNT1_sp_late (s : Nat) : Fld := ⟨0x000410a8 + 0x100 * s, 15, 8⟩
/-- STR_Ss_CNT1 faults, R379. -/
def Fld.STR_Ss_CNT1_faults (s : Nat) : Fld := ⟨0x000410a8 + 0x100 * s, 7, 0⟩
/-- STR_DRN_STS free_pages, R400. -/
def Fld.STR_DRN_STS_free_pages : Fld := ⟨0x00044000, 8, 0⟩
/-- STR_DRN_IRQ_STS irq, R400. -/
def Fld.STR_DRN_IRQ_STS_irq : Fld := ⟨0x00044004, 15, 0⟩
/-- STR_DRN_ECC ue, R400. -/
def Fld.STR_DRN_ECC_ue : Fld := ⟨0x00044008, 15, 8⟩
/-- STR_DRN_ECC ce, R400. -/
def Fld.STR_DRN_ECC_ce : Fld := ⟨0x00044008, 7, 0⟩
/-- STR_DRN_MAPw map, R400. -/
def Fld.STR_DRN_MAPw_map (w : Nat) : Fld := ⟨0x00044020 + 0x4 * w, 31, 0⟩
/-- STR_DRN_Ss_CFG nt, R400. -/
def Fld.STR_DRN_Ss_CFG_nt (s : Nat) : Fld := ⟨0x00044100 + 0x40 * s, 28, 16⟩
/-- STR_DRN_Ss_CFG act_fault, R400. -/
def Fld.STR_DRN_Ss_CFG_act_fault (s : Nat) : Fld := ⟨0x00044100 + 0x40 * s, 15, 14⟩
/-- STR_DRN_Ss_CFG act_open, R400. -/
def Fld.STR_DRN_Ss_CFG_act_open (s : Nat) : Fld := ⟨0x00044100 + 0x40 * s, 13, 12⟩
/-- STR_DRN_Ss_CFG mode, R400. -/
def Fld.STR_DRN_Ss_CFG_mode (s : Nat) : Fld := ⟨0x00044100 + 0x40 * s, 11, 10⟩
/-- STR_DRN_Ss_CFG qtaps, R400. -/
def Fld.STR_DRN_Ss_CFG_qtaps (s : Nat) : Fld := ⟨0x00044100 + 0x40 * s, 9, 9⟩
/-- STR_DRN_Ss_CFG follow, R400. -/
def Fld.STR_DRN_Ss_CFG_follow (s : Nat) : Fld := ⟨0x00044100 + 0x40 * s, 8, 8⟩
/-- STR_DRN_Ss_CFG per_src, R400. -/
def Fld.STR_DRN_Ss_CFG_per_src (s : Nat) : Fld := ⟨0x00044100 + 0x40 * s, 7, 7⟩
/-- STR_DRN_Ss_ALLOC count, R400. -/
def Fld.STR_DRN_Ss_ALLOC_count (s : Nat) : Fld := ⟨0x00044104 + 0x40 * s, 15, 8⟩
/-- STR_DRN_Ss_ALLOC base, R400. -/
def Fld.STR_DRN_Ss_ALLOC_base (s : Nat) : Fld := ⟨0x00044104 + 0x40 * s, 7, 0⟩
/-- STR_DRN_Ss_GAIN gain, R400. -/
def Fld.STR_DRN_Ss_GAIN_gain (s : Nat) : Fld := ⟨0x00044108 + 0x40 * s, 31, 0⟩
/-- STR_DRN_Ss_LEAD lead_int, R400. -/
def Fld.STR_DRN_Ss_LEAD_lead_int (s : Nat) : Fld := ⟨0x0004410c + 0x40 * s, 17, 6⟩
/-- STR_DRN_Ss_LEAD lead_frac, R400. -/
def Fld.STR_DRN_Ss_LEAD_lead_frac (s : Nat) : Fld := ⟨0x0004410c + 0x40 * s, 5, 0⟩
/-- STR_DRN_Ss_Q0 tap, R400. -/
def Fld.STR_DRN_Ss_Q0_tap (s : Nat) : Fld := ⟨0x00044110 + 0x40 * s, 31, 0⟩
/-- STR_DRN_Ss_Q1 tap, R400. -/
def Fld.STR_DRN_Ss_Q1_tap (s : Nat) : Fld := ⟨0x00044114 + 0x40 * s, 31, 0⟩
/-- STR_DRN_Ss_Q2 tap, R400. -/
def Fld.STR_DRN_Ss_Q2_tap (s : Nat) : Fld := ⟨0x00044118 + 0x40 * s, 31, 0⟩
/-- STR_DRN_Ss_QMAX qmax, R400. -/
def Fld.STR_DRN_Ss_QMAX_qmax (s : Nat) : Fld := ⟨0x0004411c + 0x40 * s, 31, 0⟩
/-- STR_DRN_Ss_DECAY decay, R400. -/
def Fld.STR_DRN_Ss_DECAY_decay (s : Nat) : Fld := ⟨0x00044120 + 0x40 * s, 31, 0⟩
/-- STR_DRN_Ss_HPER hper, R400. -/
def Fld.STR_DRN_Ss_HPER_hper (s : Nat) : Fld := ⟨0x00044124 + 0x40 * s, 31, 0⟩
/-- STR_DRN_Ss_STEP step, R400. -/
def Fld.STR_DRN_Ss_STEP_step (s : Nat) : Fld := ⟨0x00044128 + 0x40 * s, 31, 0⟩
/-- STR_DRN_Ss_PHASE phi, R400. -/
def Fld.STR_DRN_Ss_PHASE_phi (s : Nat) : Fld := ⟨0x0004412c + 0x40 * s, 31, 0⟩
/-- STR_DRN_Ss_STS passes, R400. -/
def Fld.STR_DRN_Ss_STS_passes (s : Nat) : Fld := ⟨0x00044130 + 0x40 * s, 31, 16⟩
/-- STR_DRN_Ss_STS restored, R400. -/
def Fld.STR_DRN_Ss_STS_restored (s : Nat) : Fld := ⟨0x00044130 + 0x40 * s, 7, 7⟩
/-- STR_DRN_Ss_STS per_hold, R400. -/
def Fld.STR_DRN_Ss_STS_per_hold (s : Nat) : Fld := ⟨0x00044130 + 0x40 * s, 6, 6⟩
/-- STR_DRN_Ss_STS q_clip, R400. -/
def Fld.STR_DRN_Ss_STS_q_clip (s : Nat) : Fld := ⟨0x00044130 + 0x40 * s, 5, 5⟩
/-- STR_DRN_Ss_STS lead_clip, R400. -/
def Fld.STR_DRN_Ss_STS_lead_clip (s : Nat) : Fld := ⟨0x00044130 + 0x40 * s, 4, 4⟩
/-- STR_DRN_Ss_STS learning, R400. -/
def Fld.STR_DRN_Ss_STS_learning (s : Nat) : Fld := ⟨0x00044130 + 0x40 * s, 3, 3⟩
/-- STR_DRN_Ss_STS decaying, R400. -/
def Fld.STR_DRN_Ss_STS_decaying (s : Nat) : Fld := ⟨0x00044130 + 0x40 * s, 2, 2⟩
/-- STR_DRN_Ss_STS alloc_ok, R400. -/
def Fld.STR_DRN_Ss_STS_alloc_ok (s : Nat) : Fld := ⟨0x00044130 + 0x40 * s, 0, 0⟩
/-- STR_DRN_Ss_CNT holds, R400. -/
def Fld.STR_DRN_Ss_CNT_holds (s : Nat) : Fld := ⟨0x00044134 + 0x40 * s, 31, 16⟩
/-- STR_DRN_Ss_CNT clips, R400. -/
def Fld.STR_DRN_Ss_CNT_clips (s : Nat) : Fld := ⟨0x00044134 + 0x40 * s, 15, 0⟩
/-- CAN_IRQ_STS irq, R430. -/
def Fld.CAN_IRQ_STS_irq : Fld := ⟨0x00090000, 31, 0⟩
/-- CAN_c_CTRL saf_res, R430. -/
def Fld.CAN_c_CTRL_saf_res (c : Nat) : Fld := ⟨0x00091000 + 0x1000 * c, 16, 16⟩
/-- CAN_c_CTRL burst_n, R430. -/
def Fld.CAN_c_CTRL_burst_n (c : Nat) : Fld := ⟨0x00091000 + 0x1000 * c, 15, 8⟩
/-- CAN_c_CTRL nomatch, R430. -/
def Fld.CAN_c_CTRL_nomatch (c : Nat) : Fld := ⟨0x00091000 + 0x1000 * c, 5, 4⟩
/-- CAN_c_CTRL auto_rec, R430. -/
def Fld.CAN_c_CTRL_auto_rec (c : Nat) : Fld := ⟨0x00091000 + 0x1000 * c, 3, 3⟩
/-- CAN_c_CTRL fd_en, R430. -/
def Fld.CAN_c_CTRL_fd_en (c : Nat) : Fld := ⟨0x00091000 + 0x1000 * c, 2, 2⟩
/-- CAN_c_CTRL mode, R430. -/
def Fld.CAN_c_CTRL_mode (c : Nat) : Fld := ⟨0x00091000 + 0x1000 * c, 1, 0⟩
/-- CAN_c_NBT nsjw, R430. -/
def Fld.CAN_c_NBT_nsjw (c : Nat) : Fld := ⟨0x00091004 + 0x1000 * c, 31, 25⟩
/-- CAN_c_NBT ntseg1, R430. -/
def Fld.CAN_c_NBT_ntseg1 (c : Nat) : Fld := ⟨0x00091004 + 0x1000 * c, 24, 17⟩
/-- CAN_c_NBT ntseg2, R430. -/
def Fld.CAN_c_NBT_ntseg2 (c : Nat) : Fld := ⟨0x00091004 + 0x1000 * c, 16, 10⟩
/-- CAN_c_NBT nbrp, R430. -/
def Fld.CAN_c_NBT_nbrp (c : Nat) : Fld := ⟨0x00091004 + 0x1000 * c, 4, 0⟩
/-- CAN_c_DBT dsjw, R430. -/
def Fld.CAN_c_DBT_dsjw (c : Nat) : Fld := ⟨0x00091008 + 0x1000 * c, 27, 24⟩
/-- CAN_c_DBT dtseg1, R430. -/
def Fld.CAN_c_DBT_dtseg1 (c : Nat) : Fld := ⟨0x00091008 + 0x1000 * c, 20, 16⟩
/-- CAN_c_DBT dtseg2, R430. -/
def Fld.CAN_c_DBT_dtseg2 (c : Nat) : Fld := ⟨0x00091008 + 0x1000 * c, 11, 8⟩
/-- CAN_c_DBT dbrp, R430. -/
def Fld.CAN_c_DBT_dbrp (c : Nat) : Fld := ⟨0x00091008 + 0x1000 * c, 4, 0⟩
/-- CAN_c_TDC tdcv, R430. -/
def Fld.CAN_c_TDC_tdcv (c : Nat) : Fld := ⟨0x0009100c + 0x1000 * c, 23, 16⟩
/-- CAN_c_TDC tdc_en, R430. -/
def Fld.CAN_c_TDC_tdc_en (c : Nat) : Fld := ⟨0x0009100c + 0x1000 * c, 15, 15⟩
/-- CAN_c_TDC tdco, R430. -/
def Fld.CAN_c_TDC_tdco (c : Nat) : Fld := ⟨0x0009100c + 0x1000 * c, 14, 8⟩
/-- CAN_c_STS cfg_err, R430. -/
def Fld.CAN_c_STS_cfg_err (c : Nat) : Fld := ⟨0x00091010 + 0x1000 * c, 20, 20⟩
/-- CAN_c_STS lec_data, R430. -/
def Fld.CAN_c_STS_lec_data (c : Nat) : Fld := ⟨0x00091010 + 0x1000 * c, 19, 19⟩
/-- CAN_c_STS lec, R430. -/
def Fld.CAN_c_STS_lec (c : Nat) : Fld := ⟨0x00091010 + 0x1000 * c, 18, 16⟩
/-- CAN_c_STS tdc_fail, R430. -/
def Fld.CAN_c_STS_tdc_fail (c : Nat) : Fld := ⟨0x00091010 + 0x1000 * c, 14, 14⟩
/-- CAN_c_STS testing, R430. -/
def Fld.CAN_c_STS_testing (c : Nat) : Fld := ⟨0x00091010 + 0x1000 * c, 13, 13⟩
/-- CAN_c_STS isolated, R430. -/
def Fld.CAN_c_STS_isolated (c : Nat) : Fld := ⟨0x00091010 + 0x1000 * c, 12, 12⟩
/-- CAN_c_STS rec_seq, R430. -/
def Fld.CAN_c_STS_rec_seq (c : Nat) : Fld := ⟨0x00091010 + 0x1000 * c, 11, 4⟩
/-- CAN_c_STS recovering, R430. -/
def Fld.CAN_c_STS_recovering (c : Nat) : Fld := ⟨0x00091010 + 0x1000 * c, 3, 3⟩
/-- CAN_c_STS rec_wait, R430. -/
def Fld.CAN_c_STS_rec_wait (c : Nat) : Fld := ⟨0x00091010 + 0x1000 * c, 2, 2⟩
/-- CAN_c_STS state, R430. -/
def Fld.CAN_c_STS_state (c : Nat) : Fld := ⟨0x00091010 + 0x1000 * c, 1, 0⟩
/-- CAN_c_ERR rp, R430. -/
def Fld.CAN_c_ERR_rp (c : Nat) : Fld := ⟨0x00091014 + 0x1000 * c, 15, 15⟩
/-- CAN_c_ERR rec, R430. -/
def Fld.CAN_c_ERR_rec (c : Nat) : Fld := ⟨0x00091014 + 0x1000 * c, 14, 8⟩
/-- CAN_c_ERR tec, R430. -/
def Fld.CAN_c_ERR_tec (c : Nat) : Fld := ⟨0x00091014 + 0x1000 * c, 7, 0⟩
/-- CAN_c_CNT0 crc, R430. -/
def Fld.CAN_c_CNT0_crc (c : Nat) : Fld := ⟨0x00091018 + 0x1000 * c, 31, 24⟩
/-- CAN_c_CNT0 form, R430. -/
def Fld.CAN_c_CNT0_form (c : Nat) : Fld := ⟨0x00091018 + 0x1000 * c, 23, 16⟩
/-- CAN_c_CNT0 stuff, R430. -/
def Fld.CAN_c_CNT0_stuff (c : Nat) : Fld := ⟨0x00091018 + 0x1000 * c, 15, 8⟩
/-- CAN_c_CNT0 bit, R430. -/
def Fld.CAN_c_CNT0_bit (c : Nat) : Fld := ⟨0x00091018 + 0x1000 * c, 7, 0⟩
/-- CAN_c_CNT1 arb_lost, R430. -/
def Fld.CAN_c_CNT1_arb_lost (c : Nat) : Fld := ⟨0x0009101c + 0x1000 * c, 31, 16⟩
/-- CAN_c_CNT1 busoff, R430. -/
def Fld.CAN_c_CNT1_busoff (c : Nat) : Fld := ⟨0x0009101c + 0x1000 * c, 15, 12⟩
/-- CAN_c_CNT1 misroute, R430. -/
def Fld.CAN_c_CNT1_misroute (c : Nat) : Fld := ⟨0x0009101c + 0x1000 * c, 11, 8⟩
/-- CAN_c_CNT1 ack, R430. -/
def Fld.CAN_c_CNT1_ack (c : Nat) : Fld := ⟨0x0009101c + 0x1000 * c, 7, 0⟩
/-- CAN_c_FIFOq_STS ovf, R430. -/
def Fld.CAN_c_FIFOq_STS_ovf (c : Nat) (q : Nat) : Fld := ⟨0x00091020 + 0x1000 * c + 0x4 * q, 31, 24⟩
/-- CAN_c_FIFOq_STS bound, R430. -/
def Fld.CAN_c_FIFOq_STS_bound (c : Nat) (q : Nat) : Fld := ⟨0x00091020 + 0x1000 * c + 0x4 * q, 16, 16⟩
/-- CAN_c_FIFOq_STS ovw, R430. -/
def Fld.CAN_c_FIFOq_STS_ovw (c : Nat) (q : Nat) : Fld := ⟨0x00091020 + 0x1000 * c + 0x4 * q, 15, 15⟩
/-- CAN_c_FIFOq_STS wm, R430. -/
def Fld.CAN_c_FIFOq_STS_wm (c : Nat) (q : Nat) : Fld := ⟨0x00091020 + 0x1000 * c + 0x4 * q, 14, 8⟩
/-- CAN_c_FIFOq_STS level, R430. -/
def Fld.CAN_c_FIFOq_STS_level (c : Nat) (q : Nat) : Fld := ⟨0x00091020 + 0x1000 * c + 0x4 * q, 6, 0⟩
/-- CAN_c_FLTf_ID ide, R430. -/
def Fld.CAN_c_FLTf_ID_ide (c : Nat) (f : Nat) : Fld := ⟨0x00091100 + 0x1000 * c + 0x10 * f, 29, 29⟩
/-- CAN_c_FLTf_ID id, R430. -/
def Fld.CAN_c_FLTf_ID_id (c : Nat) (f : Nat) : Fld := ⟨0x00091100 + 0x1000 * c + 0x10 * f, 28, 0⟩
/-- CAN_c_FLTf_MASK ide_chk, R430. -/
def Fld.CAN_c_FLTf_MASK_ide_chk (c : Nat) (f : Nat) : Fld := ⟨0x00091104 + 0x1000 * c + 0x10 * f, 29, 29⟩
/-- CAN_c_FLTf_MASK mask, R430. -/
def Fld.CAN_c_FLTf_MASK_mask (c : Nat) (f : Nat) : Fld := ⟨0x00091104 + 0x1000 * c + 0x10 * f, 28, 0⟩
/-- CAN_c_FLTf_ACT object, R430. -/
def Fld.CAN_c_FLTf_ACT_object (c : Nat) (f : Nat) : Fld := ⟨0x00091108 + 0x1000 * c + 0x10 * f, 14, 8⟩
/-- CAN_c_FLTf_ACT act, R430. -/
def Fld.CAN_c_FLTf_ACT_act (c : Nat) (f : Nat) : Fld := ⟨0x00091108 + 0x1000 * c + 0x10 * f, 1, 0⟩
/-- CAN_c_OBJo_CFG tt_late, R430. -/
def Fld.CAN_c_OBJo_CFG_tt_late (c : Nat) (o : Nat) : Fld := ⟨0x00091800 + 0x1000 * c + 0x10 * o, 31, 16⟩
/-- CAN_c_OBJo_CFG owner, R430. -/
def Fld.CAN_c_OBJo_CFG_owner (c : Nat) (o : Nat) : Fld := ⟨0x00091800 + 0x1000 * c + 0x10 * o, 15, 15⟩
/-- CAN_c_OBJo_CFG new, R430. -/
def Fld.CAN_c_OBJo_CFG_new (c : Nat) (o : Nat) : Fld := ⟨0x00091800 + 0x1000 * c + 0x10 * o, 14, 14⟩
/-- CAN_c_OBJo_CFG pending, R430. -/
def Fld.CAN_c_OBJo_CFG_pending (c : Nat) (o : Nat) : Fld := ⟨0x00091800 + 0x1000 * c + 0x10 * o, 13, 13⟩
/-- CAN_c_OBJo_CFG irq, R430. -/
def Fld.CAN_c_OBJo_CFG_irq (c : Nat) (o : Nat) : Fld := ⟨0x00091800 + 0x1000 * c + 0x10 * o, 12, 12⟩
/-- CAN_c_OBJo_CFG dlc, R430. -/
def Fld.CAN_c_OBJo_CFG_dlc (c : Nat) (o : Nat) : Fld := ⟨0x00091800 + 0x1000 * c + 0x10 * o, 11, 8⟩
/-- CAN_c_OBJo_CFG tt_en, R430. -/
def Fld.CAN_c_OBJo_CFG_tt_en (c : Nat) (o : Nat) : Fld := ⟨0x00091800 + 0x1000 * c + 0x10 * o, 7, 7⟩
/-- CAN_c_OBJo_CFG single_shot, R430. -/
def Fld.CAN_c_OBJo_CFG_single_shot (c : Nat) (o : Nat) : Fld := ⟨0x00091800 + 0x1000 * c + 0x10 * o, 6, 6⟩
/-- CAN_c_OBJo_CFG gated, R430. -/
def Fld.CAN_c_OBJo_CFG_gated (c : Nat) (o : Nat) : Fld := ⟨0x00091800 + 0x1000 * c + 0x10 * o, 5, 5⟩
/-- CAN_c_OBJo_CFG rtr, R430. -/
def Fld.CAN_c_OBJo_CFG_rtr (c : Nat) (o : Nat) : Fld := ⟨0x00091800 + 0x1000 * c + 0x10 * o, 4, 4⟩
/-- CAN_c_OBJo_CFG brs, R430. -/
def Fld.CAN_c_OBJo_CFG_brs (c : Nat) (o : Nat) : Fld := ⟨0x00091800 + 0x1000 * c + 0x10 * o, 3, 3⟩
/-- CAN_c_OBJo_CFG fdf, R430. -/
def Fld.CAN_c_OBJo_CFG_fdf (c : Nat) (o : Nat) : Fld := ⟨0x00091800 + 0x1000 * c + 0x10 * o, 2, 2⟩
/-- CAN_c_OBJo_CFG dir, R430. -/
def Fld.CAN_c_OBJo_CFG_dir (c : Nat) (o : Nat) : Fld := ⟨0x00091800 + 0x1000 * c + 0x10 * o, 1, 1⟩
/-- CAN_c_OBJo_CFG en, R430. -/
def Fld.CAN_c_OBJo_CFG_en (c : Nat) (o : Nat) : Fld := ⟨0x00091800 + 0x1000 * c + 0x10 * o, 0, 0⟩
/-- CAN_c_OBJo_ID ide, R430. -/
def Fld.CAN_c_OBJo_ID_ide (c : Nat) (o : Nat) : Fld := ⟨0x00091804 + 0x1000 * c + 0x10 * o, 29, 29⟩
/-- CAN_c_OBJo_ID id, R430. -/
def Fld.CAN_c_OBJo_ID_id (c : Nat) (o : Nat) : Fld := ⟨0x00091804 + 0x1000 * c + 0x10 * o, 28, 0⟩
/-- CAN_c_OBJo_STMP stmp, R430. -/
def Fld.CAN_c_OBJo_STMP_stmp (c : Nat) (o : Nat) : Fld := ⟨0x00091808 + 0x1000 * c + 0x10 * o, 31, 0⟩
/-- CAN_c_OBJo_CNT late_ovw, R430. -/
def Fld.CAN_c_OBJo_CNT_late_ovw (c : Nat) (o : Nat) : Fld := ⟨0x0009180c + 0x1000 * c + 0x10 * o, 31, 24⟩
/-- CAN_c_OBJo_CNT retries, R430. -/
def Fld.CAN_c_OBJo_CNT_retries (c : Nat) (o : Nat) : Fld := ⟨0x0009180c + 0x1000 * c + 0x10 * o, 23, 16⟩
/-- CAN_c_OBJo_CNT frames, R430. -/
def Fld.CAN_c_OBJo_CNT_frames (c : Nat) (o : Nat) : Fld := ⟨0x0009180c + 0x1000 * c + 0x10 * o, 15, 0⟩
/-- DIO_STS testing, R457. -/
def Fld.DIO_STS_testing : Fld := ⟨0x000a0000, 14, 14⟩
/-- DIO_STS per_group, R457. -/
def Fld.DIO_STS_per_group : Fld := ⟨0x000a0000, 13, 13⟩
/-- DIO_STS vf_common, R457. -/
def Fld.DIO_STS_vf_common : Fld := ⟨0x000a0000, 12, 12⟩
/-- DIO_STS vf_missing, R457. -/
def Fld.DIO_STS_vf_missing : Fld := ⟨0x000a0000, 11, 8⟩
/-- DIO_STS vf_off, R457. -/
def Fld.DIO_STS_vf_off : Fld := ⟨0x000a0000, 7, 4⟩
/-- DIO_STS vf_warn, R457. -/
def Fld.DIO_STS_vf_warn : Fld := ⟨0x000a0000, 3, 0⟩
/-- DIO_IRQ_STS irq, R457. -/
def Fld.DIO_IRQ_STS_irq : Fld := ⟨0x000a0004, 31, 0⟩
/-- DIO_VF_MEAS0 mv_hi, R457. -/
def Fld.DIO_VF_MEAS0_mv_hi : Fld := ⟨0x000a0008, 31, 16⟩
/-- DIO_VF_MEAS0 mv_lo, R457. -/
def Fld.DIO_VF_MEAS0_mv_lo : Fld := ⟨0x000a0008, 15, 0⟩
/-- DIO_VF_MEAS1 mv_hi, R457. -/
def Fld.DIO_VF_MEAS1_mv_hi : Fld := ⟨0x000a000c, 31, 16⟩
/-- DIO_VF_MEAS1 mv_lo, R457. -/
def Fld.DIO_VF_MEAS1_mv_lo : Fld := ⟨0x000a000c, 15, 0⟩
/-- DIO_DI_STATE state, R457. -/
def Fld.DIO_DI_STATE_state : Fld := ⟨0x000a0010, 31, 0⟩
/-- DIO_DI_VALID valid, R457. -/
def Fld.DIO_DI_VALID_valid : Fld := ⟨0x000a0014, 31, 0⟩
/-- DIO_DI_EVT evt, R457. -/
def Fld.DIO_DI_EVT_evt : Fld := ⟨0x000a0018, 31, 0⟩
/-- DIO_DO_CMD cmd, R457. -/
def Fld.DIO_DO_CMD_cmd : Fld := ⟨0x000a001c, 15, 0⟩
/-- DIO_DO_STATE state, R457. -/
def Fld.DIO_DO_STATE_state : Fld := ⟨0x000a0020, 15, 0⟩
/-- DIO_DO_FLT flt, R457. -/
def Fld.DIO_DO_FLT_flt : Fld := ⟨0x000a0024, 15, 0⟩
/-- DIO_DO_UNGATED ungated, R457. -/
def Fld.DIO_DO_UNGATED_ungated : Fld := ⟨0x000a0028, 15, 0⟩
/-- DIO_DIi_CFG limit, R457. -/
def Fld.DIO_DIi_CFG_limit (i : Nat) : Fld := ⟨0x000a0100 + 0x10 * i, 29, 20⟩
/-- DIO_DIi_CFG edge, R457. -/
def Fld.DIO_DIi_CFG_edge (i : Nat) : Fld := ⟨0x000a0100 + 0x10 * i, 19, 18⟩
/-- DIO_DIi_CFG invert, R457. -/
def Fld.DIO_DIi_CFG_invert (i : Nat) : Fld := ⟨0x000a0100 + 0x10 * i, 17, 17⟩
/-- DIO_DIi_CFG en, R457. -/
def Fld.DIO_DIi_CFG_en (i : Nat) : Fld := ⟨0x000a0100 + 0x10 * i, 16, 16⟩
/-- DIO_DIi_CFG thr_on, R457. -/
def Fld.DIO_DIi_CFG_thr_on (i : Nat) : Fld := ⟨0x000a0100 + 0x10 * i, 14, 8⟩
/-- DIO_DIi_CFG thr_off, R457. -/
def Fld.DIO_DIi_CFG_thr_off (i : Nat) : Fld := ⟨0x000a0100 + 0x10 * i, 6, 0⟩
/-- DIO_DIi_STS cfg_err, R457. -/
def Fld.DIO_DIi_STS_cfg_err (i : Nat) : Fld := ⟨0x000a0104 + 0x10 * i, 31, 31⟩
/-- DIO_DIi_STS valid, R457. -/
def Fld.DIO_DIi_STS_valid (i : Nat) : Fld := ⟨0x000a0104 + 0x10 * i, 30, 30⟩
/-- DIO_DIi_STS state, R457. -/
def Fld.DIO_DIi_STS_state (i : Nat) : Fld := ⟨0x000a0104 + 0x10 * i, 29, 29⟩
/-- DIO_DIi_STS edges, R457. -/
def Fld.DIO_DIi_STS_edges (i : Nat) : Fld := ⟨0x000a0104 + 0x10 * i, 15, 0⟩
/-- DIO_DIi_STMP stmp, R457. -/
def Fld.DIO_DIi_STMP_stmp (i : Nat) : Fld := ⟨0x000a0108 + 0x10 * i, 31, 0⟩
/-- DIO_AOk_CFG clip, R457. -/
def Fld.DIO_AOk_CFG_clip (k : Nat) : Fld := ⟨0x000a0400 + 0x10 * k, 11, 11⟩
/-- DIO_AOk_CFG flt, R457. -/
def Fld.DIO_AOk_CFG_flt (k : Nat) : Fld := ⟨0x000a0400 + 0x10 * k, 10, 10⟩
/-- DIO_AOk_CFG claimed, R457. -/
def Fld.DIO_AOk_CFG_claimed (k : Nat) : Fld := ⟨0x000a0400 + 0x10 * k, 9, 9⟩
/-- DIO_AOk_CFG live, R457. -/
def Fld.DIO_AOk_CFG_live (k : Nat) : Fld := ⟨0x000a0400 + 0x10 * k, 8, 8⟩
/-- DIO_AOk_CFG mode, R457. -/
def Fld.DIO_AOk_CFG_mode (k : Nat) : Fld := ⟨0x000a0400 + 0x10 * k, 1, 1⟩
/-- DIO_AOk_CFG en, R457. -/
def Fld.DIO_AOk_CFG_en (k : Nat) : Fld := ⟨0x000a0400 + 0x10 * k, 0, 0⟩
/-- DIO_AOk_VAL val, R457. -/
def Fld.DIO_AOk_VAL_val (k : Nat) : Fld := ⟨0x000a0404 + 0x10 * k, 31, 0⟩
/-- DIO_AOk_OFF off, R457. -/
def Fld.DIO_AOk_OFF_off (k : Nat) : Fld := ⟨0x000a0408 + 0x10 * k, 31, 0⟩
/-- DIO_AOk_OUT out, R457. -/
def Fld.DIO_AOk_OUT_out (k : Nat) : Fld := ⟨0x000a040c + 0x10 * k, 31, 0⟩
/-- SAF_STS resets, R491. -/
def Fld.SAF_STS_resets : Fld := ⟨0x000b0000, 31, 16⟩
/-- SAF_STS vsafe_low, R491. -/
def Fld.SAF_STS_vsafe_low : Fld := ⟨0x000b0000, 10, 10⟩
/-- SAF_STS cfg_none, R491. -/
def Fld.SAF_STS_cfg_none : Fld := ⟨0x000b0000, 9, 9⟩
/-- SAF_STS cfg_cand, R491. -/
def Fld.SAF_STS_cfg_cand : Fld := ⟨0x000b0000, 8, 8⟩
/-- SAF_STS hb_ok, R491. -/
def Fld.SAF_STS_hb_ok : Fld := ⟨0x000b0000, 7, 7⟩
/-- SAF_STS bridge_ok, R491. -/
def Fld.SAF_STS_bridge_ok : Fld := ⟨0x000b0000, 6, 6⟩
/-- SAF_STS permit, R491. -/
def Fld.SAF_STS_permit : Fld := ⟨0x000b0000, 5, 5⟩
/-- SAF_STS gate, R491. -/
def Fld.SAF_STS_gate : Fld := ⟨0x000b0000, 4, 4⟩
/-- SAF_STS state, R491. -/
def Fld.SAF_STS_state : Fld := ⟨0x000b0000, 1, 0⟩
/-- SAF_IRQ_STS irq, R491. -/
def Fld.SAF_IRQ_STS_irq : Fld := ⟨0x000b0004, 15, 0⟩
/-- SAF_VER ver, R491. -/
def Fld.SAF_VER_ver : Fld := ⟨0x000b0008, 31, 0⟩
/-- SAF_CFG_CRC crc, R491. -/
def Fld.SAF_CFG_CRC_crc : Fld := ⟨0x000b000c, 31, 0⟩
/-- SAF_CAND_CRC crc, R491. -/
def Fld.SAF_CAND_CRC_crc : Fld := ⟨0x000b0010, 31, 0⟩
/-- SAF_SI_STS si, R491. -/
def Fld.SAF_SI_STS_si (n : Nat) : Fld := ⟨0x000b0014, 4 * n + 3, 4 * n⟩
/-- SAF_SO_STS so, R491. -/
def Fld.SAF_SO_STS_so (n : Nat) : Fld := ⟨0x000b0018, 8 * n + 7, 8 * n⟩
/-- SAF_DEMAND host, R491. -/
def Fld.SAF_DEMAND_host : Fld := ⟨0x000b001c, 15, 0⟩
/-- SAF_CONN_STS state, R491. -/
def Fld.SAF_CONN_STS_state (k : Nat) : Fld := ⟨0x000b0020, 2 * k + 1, 2 * k⟩
/-- SAF_VSAFE mv, R491. -/
def Fld.SAF_VSAFE_mv : Fld := ⟨0x000b0024, 15, 0⟩
/-- SAF_FNf_STS cause, R491. -/
def Fld.SAF_FNf_STS_cause (f : Nat) : Fld := ⟨0x000b0100 + 0x4 * f, 19, 16⟩
/-- SAF_FNf_STS axis, R491. -/
def Fld.SAF_FNf_STS_axis (f : Nat) : Fld := ⟨0x000b0100 + 0x4 * f, 14, 12⟩
/-- SAF_FNf_STS type, R491. -/
def Fld.SAF_FNf_STS_type (f : Nat) : Fld := ⟨0x000b0100 + 0x4 * f, 10, 8⟩
/-- SAF_FNf_STS early, R491. -/
def Fld.SAF_FNf_STS_early (f : Nat) : Fld := ⟨0x000b0100 + 0x4 * f, 5, 5⟩
/-- SAF_FNf_STS host_demand, R491. -/
def Fld.SAF_FNf_STS_host_demand (f : Nat) : Fld := ⟨0x000b0100 + 0x4 * f, 4, 4⟩
/-- SAF_FNf_STS demand, R491. -/
def Fld.SAF_FNf_STS_demand (f : Nat) : Fld := ⟨0x000b0100 + 0x4 * f, 3, 3⟩
/-- SAF_FNf_STS state, R491. -/
def Fld.SAF_FNf_STS_state (f : Nat) : Fld := ⟨0x000b0100 + 0x4 * f, 2, 0⟩
/-- SAF_AXa_STS b_ok, R491. -/
def Fld.SAF_AXa_STS_b_ok (a : Nat) : Fld := ⟨0x000b0200 + 0x10 * a, 3, 3⟩
/-- SAF_AXa_STS a_ok, R491. -/
def Fld.SAF_AXa_STS_a_ok (a : Nat) : Fld := ⟨0x000b0200 + 0x10 * a, 2, 2⟩
/-- SAF_AXa_STS fault, R491. -/
def Fld.SAF_AXa_STS_fault (a : Nat) : Fld := ⟨0x000b0200 + 0x10 * a, 1, 1⟩
/-- SAF_AXa_STS cfg, R491. -/
def Fld.SAF_AXa_STS_cfg (a : Nat) : Fld := ⟨0x000b0200 + 0x10 * a, 0, 0⟩
/-- SAF_AXa_POS val, R491. -/
def Fld.SAF_AXa_POS_val (a : Nat) : Fld := ⟨0x000b0204 + 0x10 * a, 31, 0⟩
/-- SAF_AXa_SPD val, R491. -/
def Fld.SAF_AXa_SPD_val (a : Nat) : Fld := ⟨0x000b0208 + 0x10 * a, 31, 0⟩
/-- SAF_AXa_DIFF val, R491. -/
def Fld.SAF_AXa_DIFF_val (a : Nat) : Fld := ⟨0x000b020c + 0x10 * a, 31, 0⟩
/-- SAF_CONNk_CNT mismatch, R491. -/
def Fld.SAF_CONNk_CNT_mismatch (k : Nat) : Fld := ⟨0x000b0300 + 0x4 * k, 31, 24⟩
/-- SAF_CONNk_CNT missing, R491. -/
def Fld.SAF_CONNk_CNT_missing (k : Nat) : Fld := ⟨0x000b0300 + 0x4 * k, 23, 16⟩
/-- SAF_CONNk_CNT seq_err, R491. -/
def Fld.SAF_CONNk_CNT_seq_err (k : Nat) : Fld := ⟨0x000b0300 + 0x4 * k, 15, 8⟩
/-- SAF_CONNk_CNT crc_err, R491. -/
def Fld.SAF_CONNk_CNT_crc_err (k : Nat) : Fld := ⟨0x000b0300 + 0x4 * k, 7, 0⟩
/-- STK_STS strap_chg, R532. -/
def Fld.STK_STS_strap_chg : Fld := ⟨0x000f0000, 24, 24⟩
/-- STK_STS sync_phase, R532. -/
def Fld.STK_STS_sync_phase : Fld := ⟨0x000f0000, 23, 20⟩
/-- STK_STS iso_cause, R532. -/
def Fld.STK_STS_iso_cause : Fld := ⟨0x000f0000, 19, 16⟩
/-- STK_STS xprimary, R532. -/
def Fld.STK_STS_xprimary : Fld := ⟨0x000f0000, 15, 15⟩
/-- STK_STS shadowing, R532. -/
def Fld.STK_STS_shadowing : Fld := ⟨0x000f0000, 14, 14⟩
/-- STK_STS peer_ok, R532. -/
def Fld.STK_STS_peer_ok : Fld := ⟨0x000f0000, 13, 13⟩
/-- STK_STS holder_valid, R532. -/
def Fld.STK_STS_holder_valid : Fld := ⟨0x000f0000, 12, 12⟩
/-- STK_STS holder, R532. -/
def Fld.STK_STS_holder : Fld := ⟨0x000f0000, 11, 9⟩
/-- STK_STS master, R532. -/
def Fld.STK_STS_master : Fld := ⟨0x000f0000, 8, 8⟩
/-- STK_STS strap_bad, R532. -/
def Fld.STK_STS_strap_bad : Fld := ⟨0x000f0000, 7, 7⟩
/-- STK_STS pos, R532. -/
def Fld.STK_STS_pos : Fld := ⟨0x000f0000, 6, 4⟩
/-- STK_STS role, R532. -/
def Fld.STK_STS_role : Fld := ⟨0x000f0000, 2, 0⟩
/-- STK_IRQ_STS irq, R532. -/
def Fld.STK_IRQ_STS_irq : Fld := ⟨0x000f0004, 15, 0⟩
/-- STK_CFG auto_rejoin, R532. -/
def Fld.STK_CFG_auto_rejoin : Fld := ⟨0x000f0008, 20, 20⟩
/-- STK_CFG div_max, R532. -/
def Fld.STK_CFG_div_max : Fld := ⟨0x000f0008, 19, 16⟩
/-- STK_CFG xb_hold, R532. -/
def Fld.STK_CFG_xb_hold : Fld := ⟨0x000f0008, 15, 8⟩
/-- STK_CFG pair45, R532. -/
def Fld.STK_CFG_pair45 : Fld := ⟨0x000f0008, 7, 7⟩
/-- STK_CFG pair23, R532. -/
def Fld.STK_CFG_pair23 : Fld := ⟨0x000f0008, 6, 6⟩
/-- STK_CFG expect, R532. -/
def Fld.STK_CFG_expect : Fld := ⟨0x000f0008, 5, 0⟩
/-- STK_BRG backoffs, R532. -/
def Fld.STK_BRG_backoffs : Fld := ⟨0x000f000c, 31, 16⟩
/-- STK_BRG brg1_low, R532. -/
def Fld.STK_BRG_brg1_low : Fld := ⟨0x000f000c, 9, 9⟩
/-- STK_BRG brg0_low, R532. -/
def Fld.STK_BRG_brg0_low : Fld := ⟨0x000f000c, 8, 8⟩
/-- STK_BRG pair_cond, R532. -/
def Fld.STK_BRG_pair_cond : Fld := ⟨0x000f000c, 7, 7⟩
/-- STK_BRG stuck_peer, R532. -/
def Fld.STK_BRG_stuck_peer : Fld := ⟨0x000f000c, 6, 6⟩
/-- STK_BRG stuck_own, R532. -/
def Fld.STK_BRG_stuck_own : Fld := ⟨0x000f000c, 5, 5⟩
/-- STK_BRG claiming, R532. -/
def Fld.STK_BRG_claiming : Fld := ⟨0x000f000c, 4, 4⟩
/-- STK_BRG cond, R532. -/
def Fld.STK_BRG_cond : Fld := ⟨0x000f000c, 3, 3⟩
/-- STK_BRG peer_rd, R532. -/
def Fld.STK_BRG_peer_rd : Fld := ⟨0x000f000c, 2, 2⟩
/-- STK_BRG own_rd, R532. -/
def Fld.STK_BRG_own_rd : Fld := ⟨0x000f000c, 1, 1⟩
/-- STK_BRG own_drv, R532. -/
def Fld.STK_BRG_own_drv : Fld := ⟨0x000f000c, 0, 0⟩
/-- STK_MEMBERS unexpected, R532. -/
def Fld.STK_MEMBERS_unexpected : Fld := ⟨0x000f0010, 21, 16⟩
/-- STK_MEMBERS two_path, R532. -/
def Fld.STK_MEMBERS_two_path : Fld := ⟨0x000f0010, 13, 8⟩
/-- STK_MEMBERS present, R532. -/
def Fld.STK_MEMBERS_present : Fld := ⟨0x000f0010, 5, 0⟩
/-- STK_LINK0_STS crc_err, R532. -/
def Fld.STK_LINK0_STS_crc_err : Fld := ⟨0x000f0014, 31, 16⟩
/-- STK_LINK1_STS crc_err, R532. -/
def Fld.STK_LINK1_STS_crc_err : Fld := ⟨0x000f0018, 31, 16⟩
/-- STK_LINK0_STS downs, R532. -/
def Fld.STK_LINK0_STS_downs : Fld := ⟨0x000f0014, 15, 8⟩
/-- STK_LINK1_STS downs, R532. -/
def Fld.STK_LINK1_STS_downs : Fld := ⟨0x000f0018, 15, 8⟩
/-- STK_LINK0_STS nb_valid, R532. -/
def Fld.STK_LINK0_STS_nb_valid : Fld := ⟨0x000f0014, 4, 4⟩
/-- STK_LINK1_STS nb_valid, R532. -/
def Fld.STK_LINK1_STS_nb_valid : Fld := ⟨0x000f0018, 4, 4⟩
/-- STK_LINK0_STS nb_pos, R532. -/
def Fld.STK_LINK0_STS_nb_pos : Fld := ⟨0x000f0014, 3, 1⟩
/-- STK_LINK1_STS nb_pos, R532. -/
def Fld.STK_LINK1_STS_nb_pos : Fld := ⟨0x000f0018, 3, 1⟩
/-- STK_LINK0_STS up, R532. -/
def Fld.STK_LINK0_STS_up : Fld := ⟨0x000f0014, 0, 0⟩
/-- STK_LINK1_STS up, R532. -/
def Fld.STK_LINK1_STS_up : Fld := ⟨0x000f0018, 0, 0⟩
/-- STK_TIME_OFS ofs, R532. -/
def Fld.STK_TIME_OFS_ofs : Fld := ⟨0x000f001c, 31, 0⟩
/-- STK_DIG_OK matched, R532. -/
def Fld.STK_DIG_OK_matched : Fld := ⟨0x000f0020, 31, 0⟩
/-- STK_DIG_CNT diverged, R532. -/
def Fld.STK_DIG_CNT_diverged : Fld := ⟨0x000f0024, 31, 24⟩
/-- STK_DIG_CNT window, R532. -/
def Fld.STK_DIG_CNT_window : Fld := ⟨0x000f0024, 23, 16⟩
/-- STK_DIG_CNT uncompared, R532. -/
def Fld.STK_DIG_CNT_uncompared : Fld := ⟨0x000f0024, 15, 0⟩
/-- STK_TAKE_STMP stmp, R532. -/
def Fld.STK_TAKE_STMP_stmp : Fld := ⟨0x000f0028, 31, 0⟩
/-- STK_TAKE_INFO gate_us, R532. -/
def Fld.STK_TAKE_INFO_gate_us : Fld := ⟨0x000f002c, 31, 16⟩
/-- STK_TAKE_INFO count, R532. -/
def Fld.STK_TAKE_INFO_count : Fld := ⟨0x000f002c, 15, 8⟩
/-- STK_TAKE_INFO cause, R532. -/
def Fld.STK_TAKE_INFO_cause : Fld := ⟨0x000f002c, 3, 0⟩
/-- STK_SYNC_STS dur_ms, R532. -/
def Fld.STK_SYNC_STS_dur_ms : Fld := ⟨0x000f0030, 31, 16⟩
/-- STK_SYNC_STS attempts, R532. -/
def Fld.STK_SYNC_STS_attempts : Fld := ⟨0x000f0030, 15, 8⟩
/-- STK_SYNC_STS cause, R532. -/
def Fld.STK_SYNC_STS_cause : Fld := ⟨0x000f0030, 7, 4⟩
/-- STK_SYNC_STS phase, R532. -/
def Fld.STK_SYNC_STS_phase : Fld := ⟨0x000f0030, 3, 0⟩
/-- STK_CFG_HASH hash, R532. -/
def Fld.STK_CFG_HASH_hash : Fld := ⟨0x000f0034, 31, 0⟩
/-- STK_PEER_HASH hash, R532. -/
def Fld.STK_PEER_HASH_hash : Fld := ⟨0x000f0038, 31, 0⟩
/-- STK_SHADOW_FMT peer, R532. -/
def Fld.STK_SHADOW_FMT_peer : Fld := ⟨0x000f003c, 31, 16⟩
/-- STK_SHADOW_FMT own, R532. -/
def Fld.STK_SHADOW_FMT_own : Fld := ⟨0x000f003c, 15, 0⟩
/-- HIF_STS host_rd_err, R576. -/
def Fld.HIF_STS_host_rd_err : Fld := ⟨0x00010000, 6, 6⟩
/-- HIF_STS bad_access, R576. -/
def Fld.HIF_STS_bad_access : Fld := ⟨0x00010000, 5, 5⟩
/-- HIF_STS flr, R576. -/
def Fld.HIF_STS_flr : Fld := ⟨0x00010000, 4, 4⟩
/-- HIF_STS pages_ok, R576. -/
def Fld.HIF_STS_pages_ok : Fld := ⟨0x00010000, 3, 3⟩
/-- HIF_STS msix_en, R576. -/
def Fld.HIF_STS_msix_en : Fld := ⟨0x00010000, 2, 2⟩
/-- HIF_STS bus_master, R576. -/
def Fld.HIF_STS_bus_master : Fld := ⟨0x00010000, 1, 1⟩
/-- HIF_STS link_up, R576. -/
def Fld.HIF_STS_link_up : Fld := ⟨0x00010000, 0, 0⟩
/-- HIF_IRQ_STS irq_evt, R576. -/
def Fld.HIF_IRQ_STS_irq_evt : Fld := ⟨0x00010004, 31, 28⟩
/-- HIF_IRQ_STS irq_lvl, R576. -/
def Fld.HIF_IRQ_STS_irq_lvl : Fld := ⟨0x00010004, 27, 0⟩
/-- HIF_DB_BASE_LO base, R576. -/
def Fld.HIF_DB_BASE_LO_base : Fld := ⟨0x00010008, 31, 12⟩
/-- HIF_SH_BASE_LO base, R576. -/
def Fld.HIF_SH_BASE_LO_base : Fld := ⟨0x00010010, 31, 12⟩
/-- HIF_DB_BASE_HI base, R576. -/
def Fld.HIF_DB_BASE_HI_base : Fld := ⟨0x0001000c, 31, 0⟩
/-- HIF_SH_BASE_HI base, R576. -/
def Fld.HIF_SH_BASE_HI_base : Fld := ⟨0x00010014, 31, 0⟩
/-- HIF_POLL cur, R576. -/
def Fld.HIF_POLL_cur : Fld := ⟨0x00010018, 23, 16⟩
/-- HIF_POLL poll_max, R576. -/
def Fld.HIF_POLL_poll_max : Fld := ⟨0x00010018, 15, 8⟩
/-- HIF_POLL poll_min, R576. -/
def Fld.HIF_POLL_poll_min : Fld := ⟨0x00010018, 7, 0⟩
/-- HIF_PCIE_STS mrrs, R576. -/
def Fld.HIF_PCIE_STS_mrrs : Fld := ⟨0x0001001c, 15, 12⟩
/-- HIF_PCIE_STS mps, R576. -/
def Fld.HIF_PCIE_STS_mps : Fld := ⟨0x0001001c, 11, 8⟩
/-- HIF_PCIE_STS width, R576. -/
def Fld.HIF_PCIE_STS_width : Fld := ⟨0x0001001c, 7, 4⟩
/-- HIF_PCIE_STS speed, R576. -/
def Fld.HIF_PCIE_STS_speed : Fld := ⟨0x0001001c, 3, 0⟩
/-- HIF_CMD_CNT done, R576. -/
def Fld.HIF_CMD_CNT_done : Fld := ⟨0x00010020, 31, 0⟩
/-- HIF_ERR_CNT q_err, R576. -/
def Fld.HIF_ERR_CNT_q_err : Fld := ⟨0x00010024, 31, 24⟩
/-- HIF_ERR_CNT rd_err, R576. -/
def Fld.HIF_ERR_CNT_rd_err : Fld := ⟨0x00010024, 23, 16⟩
/-- HIF_ERR_CNT eq_drop, R576. -/
def Fld.HIF_ERR_CNT_eq_drop : Fld := ⟨0x00010024, 15, 8⟩
/-- HIF_ERR_CNT stq_drop, R576. -/
def Fld.HIF_ERR_CNT_stq_drop : Fld := ⟨0x00010024, 7, 0⟩
/-- HIF_EVT_ROUTEb min_sev, R576. -/
def Fld.HIF_EVT_ROUTEb_min_sev (b : Nat) : Fld := ⟨0x00010040 + 0x4 * b, 10, 8⟩
/-- HIF_EVT_ROUTEb eq, R576. -/
def Fld.HIF_EVT_ROUTEb_eq (b : Nat) : Fld := ⟨0x00010040 + 0x4 * b, 6, 4⟩
/-- HIF_EVT_ROUTEb en, R576. -/
def Fld.HIF_EVT_ROUTEb_en (b : Nat) : Fld := ⟨0x00010040 + 0x4 * b, 0, 0⟩
/-- HIF_SQq_BASE_LO base, R576. -/
def Fld.HIF_SQq_BASE_LO_base (q : Nat) : Fld := ⟨0x00010100 + 0x10 * q, 31, 12⟩
/-- HIF_CQq_BASE_LO base, R576. -/
def Fld.HIF_CQq_BASE_LO_base (q : Nat) : Fld := ⟨0x00010200 + 0x10 * q, 31, 12⟩
/-- HIF_EQe_BASE_LO base, R576. -/
def Fld.HIF_EQe_BASE_LO_base (e : Nat) : Fld := ⟨0x00010300 + 0x10 * e, 31, 12⟩
/-- HIF_STQj_BASE_LO base, R576. -/
def Fld.HIF_STQj_BASE_LO_base (j : Nat) : Fld := ⟨0x00010400 + 0x10 * j, 31, 12⟩
/-- HIF_SQq_BASE_HI base, R576. -/
def Fld.HIF_SQq_BASE_HI_base (q : Nat) : Fld := ⟨0x00010104 + 0x10 * q, 31, 0⟩
/-- HIF_CQq_BASE_HI base, R576. -/
def Fld.HIF_CQq_BASE_HI_base (q : Nat) : Fld := ⟨0x00010204 + 0x10 * q, 31, 0⟩
/-- HIF_EQe_BASE_HI base, R576. -/
def Fld.HIF_EQe_BASE_HI_base (e : Nat) : Fld := ⟨0x00010304 + 0x10 * e, 31, 0⟩
/-- HIF_STQj_BASE_HI base, R576. -/
def Fld.HIF_STQj_BASE_HI_base (j : Nat) : Fld := ⟨0x00010404 + 0x10 * j, 31, 0⟩
/-- HIF_SQq_CFG cq, R576. -/
def Fld.HIF_SQq_CFG_cq (q : Nat) : Fld := ⟨0x00010108 + 0x10 * q, 19, 16⟩
/-- HIF_SQq_CFG prio, R576. -/
def Fld.HIF_SQq_CFG_prio (q : Nat) : Fld := ⟨0x00010108 + 0x10 * q, 9, 9⟩
/-- HIF_SQq_CFG k, R576. -/
def Fld.HIF_SQq_CFG_k (q : Nat) : Fld := ⟨0x00010108 + 0x10 * q, 8, 4⟩
/-- HIF_SQq_CFG en, R576. -/
def Fld.HIF_SQq_CFG_en (q : Nat) : Fld := ⟨0x00010108 + 0x10 * q, 0, 0⟩
/-- HIF_CQq_CFG k, R576. -/
def Fld.HIF_CQq_CFG_k (q : Nat) : Fld := ⟨0x00010208 + 0x10 * q, 8, 4⟩
/-- HIF_EQe_CFG k, R576. -/
def Fld.HIF_EQe_CFG_k (e : Nat) : Fld := ⟨0x00010308 + 0x10 * e, 8, 4⟩
/-- HIF_CQq_CFG en, R576. -/
def Fld.HIF_CQq_CFG_en (q : Nat) : Fld := ⟨0x00010208 + 0x10 * q, 0, 0⟩
/-- HIF_EQe_CFG en, R576. -/
def Fld.HIF_EQe_CFG_en (e : Nat) : Fld := ⟨0x00010308 + 0x10 * e, 0, 0⟩
/-- HIF_STQj_CFG wm, R576. -/
def Fld.HIF_STQj_CFG_wm (j : Nat) : Fld := ⟨0x00010408 + 0x10 * j, 27, 24⟩
/-- HIF_STQj_CFG age, R576. -/
def Fld.HIF_STQj_CFG_age (j : Nat) : Fld := ⟨0x00010408 + 0x10 * j, 23, 16⟩
/-- HIF_STQj_CFG k, R576. -/
def Fld.HIF_STQj_CFG_k (j : Nat) : Fld := ⟨0x00010408 + 0x10 * j, 8, 4⟩
/-- HIF_STQj_CFG en, R576. -/
def Fld.HIF_STQj_CFG_en (j : Nat) : Fld := ⟨0x00010408 + 0x10 * j, 0, 0⟩
/-- HIF_SQq_STS info, R576. -/
def Fld.HIF_SQq_STS_info (q : Nat) : Fld := ⟨0x0001010c + 0x10 * q, 31, 24⟩
/-- HIF_CQq_STS info, R576. -/
def Fld.HIF_CQq_STS_info (q : Nat) : Fld := ⟨0x0001020c + 0x10 * q, 31, 24⟩
/-- HIF_EQe_STS info, R576. -/
def Fld.HIF_EQe_STS_info (e : Nat) : Fld := ⟨0x0001030c + 0x10 * e, 31, 24⟩
/-- HIF_STQj_STS info, R576. -/
def Fld.HIF_STQj_STS_info (j : Nat) : Fld := ⟨0x0001040c + 0x10 * j, 31, 24⟩
/-- HIF_SQq_STS code, R576. -/
def Fld.HIF_SQq_STS_code (q : Nat) : Fld := ⟨0x0001010c + 0x10 * q, 23, 20⟩
/-- HIF_CQq_STS code, R576. -/
def Fld.HIF_CQq_STS_code (q : Nat) : Fld := ⟨0x0001020c + 0x10 * q, 23, 20⟩
/-- HIF_EQe_STS code, R576. -/
def Fld.HIF_EQe_STS_code (e : Nat) : Fld := ⟨0x0001030c + 0x10 * e, 23, 20⟩
/-- HIF_STQj_STS code, R576. -/
def Fld.HIF_STQj_STS_code (j : Nat) : Fld := ⟨0x0001040c + 0x10 * j, 23, 20⟩
/-- HIF_SQq_STS err, R576. -/
def Fld.HIF_SQq_STS_err (q : Nat) : Fld := ⟨0x0001010c + 0x10 * q, 19, 19⟩
/-- HIF_CQq_STS err, R576. -/
def Fld.HIF_CQq_STS_err (q : Nat) : Fld := ⟨0x0001020c + 0x10 * q, 19, 19⟩
/-- HIF_EQe_STS err, R576. -/
def Fld.HIF_EQe_STS_err (e : Nat) : Fld := ⟨0x0001030c + 0x10 * e, 19, 19⟩
/-- HIF_STQj_STS err, R576. -/
def Fld.HIF_STQj_STS_err (j : Nat) : Fld := ⟨0x0001040c + 0x10 * j, 19, 19⟩
/-- HIF_SQq_STS stall, R576. -/
def Fld.HIF_SQq_STS_stall (q : Nat) : Fld := ⟨0x0001010c + 0x10 * q, 18, 18⟩
/-- HIF_CQq_STS stall, R576. -/
def Fld.HIF_CQq_STS_stall (q : Nat) : Fld := ⟨0x0001020c + 0x10 * q, 18, 18⟩
/-- HIF_EQe_STS stall, R576. -/
def Fld.HIF_EQe_STS_stall (e : Nat) : Fld := ⟨0x0001030c + 0x10 * e, 18, 18⟩
/-- HIF_STQj_STS stall, R576. -/
def Fld.HIF_STQj_STS_stall (j : Nat) : Fld := ⟨0x0001040c + 0x10 * j, 18, 18⟩
/-- HIF_SQq_STS busy, R576. -/
def Fld.HIF_SQq_STS_busy (q : Nat) : Fld := ⟨0x0001010c + 0x10 * q, 17, 17⟩
/-- HIF_CQq_STS busy, R576. -/
def Fld.HIF_CQq_STS_busy (q : Nat) : Fld := ⟨0x0001020c + 0x10 * q, 17, 17⟩
/-- HIF_EQe_STS busy, R576. -/
def Fld.HIF_EQe_STS_busy (e : Nat) : Fld := ⟨0x0001030c + 0x10 * e, 17, 17⟩
/-- HIF_STQj_STS busy, R576. -/
def Fld.HIF_STQj_STS_busy (j : Nat) : Fld := ⟨0x0001040c + 0x10 * j, 17, 17⟩
/-- HIF_SQq_STS phase, R576. -/
def Fld.HIF_SQq_STS_phase (q : Nat) : Fld := ⟨0x0001010c + 0x10 * q, 16, 16⟩
/-- HIF_CQq_STS phase, R576. -/
def Fld.HIF_CQq_STS_phase (q : Nat) : Fld := ⟨0x0001020c + 0x10 * q, 16, 16⟩
/-- HIF_EQe_STS phase, R576. -/
def Fld.HIF_EQe_STS_phase (e : Nat) : Fld := ⟨0x0001030c + 0x10 * e, 16, 16⟩
/-- HIF_STQj_STS phase, R576. -/
def Fld.HIF_STQj_STS_phase (j : Nat) : Fld := ⟨0x0001040c + 0x10 * j, 16, 16⟩
/-- HIF_SQq_STS index, R576. -/
def Fld.HIF_SQq_STS_index (q : Nat) : Fld := ⟨0x0001010c + 0x10 * q, 15, 0⟩
/-- HIF_CQq_STS index, R576. -/
def Fld.HIF_CQq_STS_index (q : Nat) : Fld := ⟨0x0001020c + 0x10 * q, 15, 0⟩
/-- HIF_EQe_STS index, R576. -/
def Fld.HIF_EQe_STS_index (e : Nat) : Fld := ⟨0x0001030c + 0x10 * e, 15, 0⟩
/-- HIF_STQj_STS index, R576. -/
def Fld.HIF_STQj_STS_index (j : Nat) : Fld := ⟨0x0001040c + 0x10 * j, 15, 0⟩
/-- NETp_CTRL icmp, R576. -/
def Fld.NETp_CTRL_icmp (p : Nat) : Fld := ⟨0x00010800 + 0x40 * p, 5, 5⟩
/-- NETp_CTRL maint, R576. -/
def Fld.NETp_CTRL_maint (p : Nat) : Fld := ⟨0x00010800 + 0x40 * p, 4, 4⟩
/-- NETp_CTRL safe, R576. -/
def Fld.NETp_CTRL_safe (p : Nat) : Fld := ⟨0x00010800 + 0x40 * p, 3, 3⟩
/-- NETp_CTRL n450, R576. -/
def Fld.NETp_CTRL_n450 (p : Nat) : Fld := ⟨0x00010800 + 0x40 * p, 2, 2⟩
/-- NETp_CTRL ptp, R576. -/
def Fld.NETp_CTRL_ptp (p : Nat) : Fld := ⟨0x00010800 + 0x40 * p, 1, 1⟩
/-- NETp_CTRL en, R576. -/
def Fld.NETp_CTRL_en (p : Nat) : Fld := ⟨0x00010800 + 0x40 * p, 0, 0⟩
/-- NETp_MAC_LO mac_lo, R576. -/
def Fld.NETp_MAC_LO_mac_lo (p : Nat) : Fld := ⟨0x00010804 + 0x40 * p, 31, 0⟩
/-- NETp_MAC_HI mac_hi, R576. -/
def Fld.NETp_MAC_HI_mac_hi (p : Nat) : Fld := ⟨0x00010808 + 0x40 * p, 15, 0⟩
/-- NETp_IP addr, R576. -/
def Fld.NETp_IP_addr (p : Nat) : Fld := ⟨0x0001080c + 0x40 * p, 31, 0⟩
/-- NETp_MASK addr, R576. -/
def Fld.NETp_MASK_addr (p : Nat) : Fld := ⟨0x00010810 + 0x40 * p, 31, 0⟩
/-- NETp_GW addr, R576. -/
def Fld.NETp_GW_addr (p : Nat) : Fld := ⟨0x00010814 + 0x40 * p, 31, 0⟩
/-- NETp_SAFE_DST addr, R576. -/
def Fld.NETp_SAFE_DST_addr (p : Nat) : Fld := ⟨0x0001081c + 0x40 * p, 31, 0⟩
/-- NETp_VLAN vlan_en, R576. -/
def Fld.NETp_VLAN_vlan_en (p : Nat) : Fld := ⟨0x00010818 + 0x40 * p, 15, 15⟩
/-- NETp_VLAN pcp, R576. -/
def Fld.NETp_VLAN_pcp (p : Nat) : Fld := ⟨0x00010818 + 0x40 * p, 14, 12⟩
/-- NETp_VLAN vid, R576. -/
def Fld.NETp_VLAN_vid (p : Nat) : Fld := ⟨0x00010818 + 0x40 * p, 11, 0⟩
/-- NETp_MAINT port, R576. -/
def Fld.NETp_MAINT_port (p : Nat) : Fld := ⟨0x00010820 + 0x40 * p, 15, 0⟩
/-- NETp_STS joined, R576. -/
def Fld.NETp_STS_joined (p : Nat) : Fld := ⟨0x00010824 + 0x40 * p, 31, 16⟩
/-- NETp_STS ip_ok, R576. -/
def Fld.NETp_STS_ip_ok (p : Nat) : Fld := ⟨0x00010824 + 0x40 * p, 1, 1⟩
/-- NETp_STS link, R576. -/
def Fld.NETp_STS_link (p : Nat) : Fld := ⟨0x00010824 + 0x40 * p, 0, 0⟩
/-- NETp_RX_CNT frames, R576. -/
def Fld.NETp_RX_CNT_frames (p : Nat) : Fld := ⟨0x00010828 + 0x40 * p, 31, 0⟩
/-- NETp_TX_CNT frames, R576. -/
def Fld.NETp_TX_CNT_frames (p : Nat) : Fld := ⟨0x0001082c + 0x40 * p, 31, 0⟩
/-- NETp_DROP_CNT fcs, R576. -/
def Fld.NETp_DROP_CNT_fcs (p : Nat) : Fld := ⟨0x00010830 + 0x40 * p, 31, 24⟩
/-- NETp_DROP_CNT no_buf, R576. -/
def Fld.NETp_DROP_CNT_no_buf (p : Nat) : Fld := ⟨0x00010830 + 0x40 * p, 23, 16⟩
/-- NETp_DROP_CNT n450_rej, R576. -/
def Fld.NETp_DROP_CNT_n450_rej (p : Nat) : Fld := ⟨0x00010830 + 0x40 * p, 15, 8⟩
/-- NETp_DROP_CNT other, R576. -/
def Fld.NETp_DROP_CNT_other (p : Nat) : Fld := ⟨0x00010830 + 0x40 * p, 7, 0⟩
/-- IRQ_STS lost_msg, R592. -/
def Fld.IRQ_STS_lost_msg : Fld := ⟨0x00020000, 1, 1⟩
/-- IRQ_STS bad_tgt, R592. -/
def Fld.IRQ_STS_bad_tgt : Fld := ⟨0x00020000, 0, 0⟩
/-- IRQ_SPUR_TOT spurious_after_claim, R592. -/
def Fld.IRQ_SPUR_TOT_spurious_after_claim : Fld := ⟨0x00020004, 31, 0⟩
/-- IRQ_DELIV_CNT deliveries, R592. -/
def Fld.IRQ_DELIV_CNT_deliveries : Fld := ⟨0x00020008, 31, 0⟩
/-- IRQ_LEVELw level, R592. -/
def Fld.IRQ_LEVELw_level (w : Nat) : Fld := ⟨0x00020040 + 0x4 * w, 31, 0⟩
/-- IRQ_PENDw pend, R592. -/
def Fld.IRQ_PENDw_pend (w : Nat) : Fld := ⟨0x00020080 + 0x4 * w, 31, 0⟩
/-- IRQ_CLAIMEDw claimed, R592. -/
def Fld.IRQ_CLAIMEDw_claimed (w : Nat) : Fld := ⟨0x000200c0 + 0x4 * w, 31, 0⟩
/-- IRQ_SWR_SETx swr, R592. -/
def Fld.IRQ_SWR_SETx_swr (x : Nat) : Fld := ⟨0x00020100 + 0x4 * x, 31, 0⟩
/-- IRQ_SWR_CLRx swr, R592. -/
def Fld.IRQ_SWR_CLRx_swr (x : Nat) : Fld := ⟨0x00020110 + 0x4 * x, 31, 0⟩
/-- IRQ_GRPg_CFG repeat, R592. -/
def Fld.IRQ_GRPg_CFG_repeat (g : Nat) : Fld := ⟨0x00020200 + 0x10 * g, 31, 24⟩
/-- IRQ_GRPg_CFG count_thr, R592. -/
def Fld.IRQ_GRPg_CFG_count_thr (g : Nat) : Fld := ⟨0x00020200 + 0x10 * g, 23, 16⟩
/-- IRQ_GRPg_CFG time_thr, R592. -/
def Fld.IRQ_GRPg_CFG_time_thr (g : Nat) : Fld := ⟨0x00020200 + 0x10 * g, 15, 0⟩
/-- IRQ_GRPg_STS open, R592. -/
def Fld.IRQ_GRPg_STS_open (g : Nat) : Fld := ⟨0x00020204 + 0x10 * g, 31, 31⟩
/-- IRQ_GRPg_STS count, R592. -/
def Fld.IRQ_GRPg_STS_count (g : Nat) : Fld := ⟨0x00020204 + 0x10 * g, 23, 16⟩
/-- IRQ_GRPg_STS elapsed, R592. -/
def Fld.IRQ_GRPg_STS_elapsed (g : Nat) : Fld := ⟨0x00020204 + 0x10 * g, 15, 0⟩
/-- IRQ_VECv_CLAIM valid, R592. -/
def Fld.IRQ_VECv_CLAIM_valid (v : Nat) : Fld := ⟨0x00020400 + 0x4 * v, 31, 31⟩
/-- IRQ_VECv_CLAIM source, R592. -/
def Fld.IRQ_VECv_CLAIM_source (v : Nat) : Fld := ⟨0x00020400 + 0x4 * v, 8, 0⟩
/-- IRQ_VECv_SPUR count, R592. -/
def Fld.IRQ_VECv_SPUR_count (v : Nat) : Fld := ⟨0x00020480 + 0x4 * v, 15, 0⟩
/-- IRQ_COREc_SPUR count, R592. -/
def Fld.IRQ_COREc_SPUR_count (c : Nat) : Fld := ⟨0x00020500 + 0x4 * c, 15, 0⟩
/-- IRQ_SRCs_TGT stg, R592. -/
def Fld.IRQ_SRCs_TGT_stg (s : Nat) : Fld := ⟨0x00021000 + 0x4 * s, 31, 31⟩
/-- IRQ_SRCs_TGT fw, R592. -/
def Fld.IRQ_SRCs_TGT_fw (s : Nat) : Fld := ⟨0x00021000 + 0x4 * s, 17, 17⟩
/-- IRQ_SRCs_TGT en, R592. -/
def Fld.IRQ_SRCs_TGT_en (s : Nat) : Fld := ⟨0x00021000 + 0x4 * s, 16, 16⟩
/-- IRQ_SRCs_TGT grp, R592. -/
def Fld.IRQ_SRCs_TGT_grp (s : Nat) : Fld := ⟨0x00021000 + 0x4 * s, 11, 8⟩
/-- IRQ_SRCs_TGT kind, R592. -/
def Fld.IRQ_SRCs_TGT_kind (s : Nat) : Fld := ⟨0x00021000 + 0x4 * s, 5, 5⟩
/-- IRQ_SRCs_TGT num, R592. -/
def Fld.IRQ_SRCs_TGT_num (s : Nat) : Fld := ⟨0x00021000 + 0x4 * s, 4, 0⟩
/-- LOG_STS erasing, R611. -/
def Fld.LOG_STS_erasing : Fld := ⟨0x000d0000, 6, 6⟩
/-- LOG_STS wear_over, R611. -/
def Fld.LOG_STS_wear_over : Fld := ⟨0x000d0000, 5, 5⟩
/-- LOG_STS flash_err, R611. -/
def Fld.LOG_STS_flash_err : Fld := ⟨0x000d0000, 4, 4⟩
/-- LOG_STS buf_high, R611. -/
def Fld.LOG_STS_buf_high : Fld := ⟨0x000d0000, 3, 3⟩
/-- LOG_STS full, R611. -/
def Fld.LOG_STS_full : Fld := ⟨0x000d0000, 2, 2⟩
/-- LOG_STS dropped, R611. -/
def Fld.LOG_STS_dropped : Fld := ⟨0x000d0000, 1, 1⟩
/-- LOG_STS ready, R611. -/
def Fld.LOG_STS_ready : Fld := ⟨0x000d0000, 0, 0⟩
/-- LOG_IRQ_STS irq, R611. -/
def Fld.LOG_IRQ_STS_irq : Fld := ⟨0x000d0004, 15, 0⟩
/-- LOG_CFG wear_thr, R611. -/
def Fld.LOG_CFG_wear_thr : Fld := ⟨0x000d0008, 31, 24⟩
/-- LOG_CFG anchor_ms, R611. -/
def Fld.LOG_CFG_anchor_ms : Fld := ⟨0x000d0008, 19, 8⟩
/-- LOG_CFG irq_sev, R611. -/
def Fld.LOG_CFG_irq_sev : Fld := ⟨0x000d0008, 6, 4⟩
/-- LOG_CFG min_sev, R611. -/
def Fld.LOG_CFG_min_sev : Fld := ⟨0x000d0008, 2, 0⟩
/-- LOG_HEAD_LO seq, R611. -/
def Fld.LOG_HEAD_LO_seq : Fld := ⟨0x000d000c, 31, 0⟩
/-- LOG_HEAD_HI seq, R611. -/
def Fld.LOG_HEAD_HI_seq : Fld := ⟨0x000d0010, 31, 0⟩
/-- LOG_FLOOR_LO seq, R611. -/
def Fld.LOG_FLOOR_LO_seq : Fld := ⟨0x000d0014, 31, 0⟩
/-- LOG_FLOOR_HI seq, R611. -/
def Fld.LOG_FLOOR_HI_seq : Fld := ⟨0x000d0018, 31, 0⟩
/-- LOG_TAIL_LO seq, R611. -/
def Fld.LOG_TAIL_LO_seq : Fld := ⟨0x000d001c, 31, 0⟩
/-- LOG_TAIL_HI seq, R611. -/
def Fld.LOG_TAIL_HI_seq : Fld := ⟨0x000d0020, 31, 0⟩
/-- LOG_USED retired, R611. -/
def Fld.LOG_USED_retired : Fld := ⟨0x000d0024, 31, 16⟩
/-- LOG_USED used, R611. -/
def Fld.LOG_USED_used : Fld := ⟨0x000d0024, 15, 0⟩
/-- LOG_BUF peak, R611. -/
def Fld.LOG_BUF_peak : Fld := ⟨0x000d0028, 31, 16⟩
/-- LOG_BUF fill, R611. -/
def Fld.LOG_BUF_fill : Fld := ⟨0x000d0028, 15, 0⟩
/-- LOG_DROP dropped, R611. -/
def Fld.LOG_DROP_dropped : Fld := ⟨0x000d002c, 31, 0⟩
/-- LOG_CNT corrupt, R611. -/
def Fld.LOG_CNT_corrupt : Fld := ⟨0x000d0030, 31, 16⟩
/-- LOG_CNT filtered, R611. -/
def Fld.LOG_CNT_filtered : Fld := ⟨0x000d0030, 15, 0⟩
/-- LOG_EVICT evicted, R611. -/
def Fld.LOG_EVICT_evicted : Fld := ⟨0x000d0034, 31, 0⟩
/-- LOG_WEAR life, R611. -/
def Fld.LOG_WEAR_life : Fld := ⟨0x000d0038, 7, 0⟩
/-- LOG_RATE rate, R611. -/
def Fld.LOG_RATE_rate : Fld := ⟨0x000d003c, 31, 0⟩
/-- GEN_STATE maint_cause, R644. -/
def Fld.GEN_STATE_maint_cause : Fld := ⟨0x00000080, 19, 16⟩
/-- GEN_STATE halt_cause, R644. -/
def Fld.GEN_STATE_halt_cause : Fld := ⟨0x00000080, 15, 12⟩
/-- GEN_STATE maint_pin, R644. -/
def Fld.GEN_STATE_maint_pin : Fld := ⟨0x00000080, 10, 10⟩
/-- GEN_STATE cfg_default, R644. -/
def Fld.GEN_STATE_cfg_default : Fld := ⟨0x00000080, 9, 9⟩
/-- GEN_STATE cfg_stop, R644. -/
def Fld.GEN_STATE_cfg_stop : Fld := ⟨0x00000080, 8, 8⟩
/-- GEN_STATE step, R644. -/
def Fld.GEN_STATE_step : Fld := ⟨0x00000080, 7, 4⟩
/-- GEN_STATE state, R644. -/
def Fld.GEN_STATE_state : Fld := ⟨0x00000080, 2, 0⟩
/-- GEN_START copied, R644. -/
def Fld.GEN_START_copied : Fld := ⟨0x00000084, 16, 16⟩
/-- GEN_START retained, R644. -/
def Fld.GEN_START_retained : Fld := ⟨0x00000084, 15, 15⟩
/-- GEN_START boot_rom, R644. -/
def Fld.GEN_START_boot_rom : Fld := ⟨0x00000084, 14, 14⟩
/-- GEN_START fallback, R644. -/
def Fld.GEN_START_fallback : Fld := ⟨0x00000084, 13, 13⟩
/-- GEN_START warm, R644. -/
def Fld.GEN_START_warm : Fld := ⟨0x00000084, 12, 12⟩
/-- GEN_START cause, R644. -/
def Fld.GEN_START_cause : Fld := ⟨0x00000084, 11, 8⟩
/-- GEN_START attempts, R644. -/
def Fld.GEN_START_attempts : Fld := ⟨0x00000084, 7, 0⟩
/-- GEN_START_T svc_ms, R644. -/
def Fld.GEN_START_T_svc_ms : Fld := ⟨0x00000088, 31, 16⟩
/-- GEN_START_T fh_ms, R644. -/
def Fld.GEN_START_T_fh_ms : Fld := ⟨0x00000088, 15, 0⟩
/-- GEN_START_CFG warm_ok, R644. -/
def Fld.GEN_START_CFG_warm_ok : Fld := ⟨0x0000008c, 9, 9⟩
/-- GEN_START_CFG fh_dense, R644. -/
def Fld.GEN_START_CFG_fh_dense : Fld := ⟨0x0000008c, 8, 8⟩
/-- GEN_START_CFG conv_max, R644. -/
def Fld.GEN_START_CFG_conv_max : Fld := ⟨0x0000008c, 7, 0⟩
/-- GEN_CFG_STS repaired, R644. -/
def Fld.GEN_CFG_STS_repaired : Fld := ⟨0x00000090, 14, 14⟩
/-- GEN_CFG_STS split, R644. -/
def Fld.GEN_CFG_STS_split : Fld := ⟨0x00000090, 13, 13⟩
/-- GEN_CFG_STS rule, R644. -/
def Fld.GEN_CFG_STS_rule : Fld := ⟨0x00000090, 12, 10⟩
/-- GEN_CFG_STS chosen, R644. -/
def Fld.GEN_CFG_STS_chosen : Fld := ⟨0x00000090, 9, 8⟩
/-- GEN_CFG_STS copy_c, R644. -/
def Fld.GEN_CFG_STS_copy_c : Fld := ⟨0x00000090, 5, 4⟩
/-- GEN_CFG_STS copy_b, R644. -/
def Fld.GEN_CFG_STS_copy_b : Fld := ⟨0x00000090, 3, 2⟩
/-- GEN_CFG_STS copy_a, R644. -/
def Fld.GEN_CFG_STS_copy_a : Fld := ⟨0x00000090, 1, 0⟩
/-- GEN_CFG_GEN_LO gen, R644. -/
def Fld.GEN_CFG_GEN_LO_gen : Fld := ⟨0x00000094, 31, 0⟩
/-- GEN_CFG_GEN_HI gen, R644. -/
def Fld.GEN_CFG_GEN_HI_gen : Fld := ⟨0x00000098, 31, 0⟩
/-- GEN_CFG_VER version, R644. -/
def Fld.GEN_CFG_VER_version : Fld := ⟨0x0000009c, 31, 0⟩
/-- GEN_CFG_CRC crc, R644. -/
def Fld.GEN_CFG_CRC_crc : Fld := ⟨0x000000a0, 31, 0⟩
/-- GEN_FAULT entries, R644. -/
def Fld.GEN_FAULT_entries : Fld := ⟨0x000000a4, 15, 8⟩
/-- GEN_FAULT lasting, R644. -/
def Fld.GEN_FAULT_lasting : Fld := ⟨0x000000a4, 7, 0⟩
/-- GEN_DRAM_ECC retired, R644. -/
def Fld.GEN_DRAM_ECC_retired : Fld := ⟨0x000000a8, 31, 16⟩
/-- GEN_DRAM_ECC ue, R644. -/
def Fld.GEN_DRAM_ECC_ue : Fld := ⟨0x000000a8, 15, 8⟩
/-- GEN_DRAM_ECC ce, R644. -/
def Fld.GEN_DRAM_ECC_ce : Fld := ⟨0x000000a8, 7, 0⟩
/-- UPD_STS hash_cache, R679. -/
def Fld.UPD_STS_hash_cache : Fld := ⟨0x000e0000, 5, 5⟩
/-- UPD_STS fb_ok, R679. -/
def Fld.UPD_STS_fb_ok : Fld := ⟨0x000e0000, 4, 4⟩
/-- UPD_STS backup, R679. -/
def Fld.UPD_STS_backup : Fld := ⟨0x000e0000, 3, 3⟩
/-- UPD_STS rolling_back, R679. -/
def Fld.UPD_STS_rolling_back : Fld := ⟨0x000e0000, 2, 2⟩
/-- UPD_STS copying, R679. -/
def Fld.UPD_STS_copying : Fld := ⟨0x000e0000, 1, 1⟩
/-- UPD_STS pending, R679. -/
def Fld.UPD_STS_pending : Fld := ⟨0x000e0000, 0, 0⟩
/-- UPD_IRQ_STS irq, R679. -/
def Fld.UPD_IRQ_STS_irq : Fld := ⟨0x000e0004, 15, 0⟩
/-- UPD_TRIAL safe_trial, R679. -/
def Fld.UPD_TRIAL_safe_trial : Fld := ⟨0x000e0008, 18, 18⟩
/-- UPD_TRIAL gnss_trial, R679. -/
def Fld.UPD_TRIAL_gnss_trial : Fld := ⟨0x000e0008, 17, 17⟩
/-- UPD_TRIAL main_trial, R679. -/
def Fld.UPD_TRIAL_main_trial : Fld := ⟨0x000e0008, 16, 16⟩
/-- UPD_TRIAL safe_cnt, R679. -/
def Fld.UPD_TRIAL_safe_cnt : Fld := ⟨0x000e0008, 11, 8⟩
/-- UPD_TRIAL gnss_cnt, R679. -/
def Fld.UPD_TRIAL_gnss_cnt : Fld := ⟨0x000e0008, 7, 4⟩
/-- UPD_TRIAL main_cnt, R679. -/
def Fld.UPD_TRIAL_main_cnt : Fld := ⟨0x000e0008, 3, 0⟩
/-- UPD_JOURNAL op, R679. -/
def Fld.UPD_JOURNAL_op : Fld := ⟨0x000e000c, 31, 24⟩
/-- UPD_JOURNAL kind, R679. -/
def Fld.UPD_JOURNAL_kind : Fld := ⟨0x000e000c, 23, 16⟩
/-- UPD_JOURNAL units, R679. -/
def Fld.UPD_JOURNAL_units : Fld := ⟨0x000e000c, 15, 8⟩
/-- UPD_JOURNAL done, R679. -/
def Fld.UPD_JOURNAL_done : Fld := ⟨0x000e000c, 7, 0⟩
/-- UPD_VER_MAIN version, R679. -/
def Fld.UPD_VER_MAIN_version : Fld := ⟨0x000e0010, 31, 0⟩
/-- UPD_VER_GNSS version, R679. -/
def Fld.UPD_VER_GNSS_version : Fld := ⟨0x000e0014, 31, 0⟩
/-- UPD_VER_SAFE version, R679. -/
def Fld.UPD_VER_SAFE_version : Fld := ⟨0x000e0018, 31, 0⟩
/-- UPD_VER_FB version, R679. -/
def Fld.UPD_VER_FB_version : Fld := ⟨0x000e001c, 31, 0⟩
/-- UPD_SLOTn_STS err, R679. -/
def Fld.UPD_SLOTn_STS_err (n : Nat) : Fld := ⟨0x000e0020 + 0x10 * n, 23, 16⟩
/-- UPD_SLOTn_STS kind, R679. -/
def Fld.UPD_SLOTn_STS_kind (n : Nat) : Fld := ⟨0x000e0020 + 0x10 * n, 11, 8⟩
/-- UPD_SLOTn_STS rollback_low, R679. -/
def Fld.UPD_SLOTn_STS_rollback_low (n : Nat) : Fld := ⟨0x000e0020 + 0x10 * n, 3, 3⟩
/-- UPD_SLOTn_STS state, R679. -/
def Fld.UPD_SLOTn_STS_state (n : Nat) : Fld := ⟨0x000e0020 + 0x10 * n, 2, 0⟩
/-- UPD_SLOTn_SIZE size, R679. -/
def Fld.UPD_SLOTn_SIZE_size (n : Nat) : Fld := ⟨0x000e0024 + 0x10 * n, 31, 0⟩
/-- UPD_SLOTn_RCVD rcvd, R679. -/
def Fld.UPD_SLOTn_RCVD_rcvd (n : Nat) : Fld := ⟨0x000e0028 + 0x10 * n, 31, 0⟩
/-- UPD_SLOTn_VER version, R679. -/
def Fld.UPD_SLOTn_VER_version (n : Nat) : Fld := ⟨0x000e002c + 0x10 * n, 31, 0⟩
/-- SEC_STS tamper, R680. -/
def Fld.SEC_STS_tamper : Fld := ⟨0x00100000, 15, 15⟩
/-- SEC_STS debug_en, R680. -/
def Fld.SEC_STS_debug_en : Fld := ⟨0x00100000, 14, 14⟩
/-- SEC_STS otp_err, R680. -/
def Fld.SEC_STS_otp_err : Fld := ⟨0x00100000, 13, 13⟩
/-- SEC_STS partial, R680. -/
def Fld.SEC_STS_partial : Fld := ⟨0x00100000, 12, 12⟩
/-- SEC_STS lifecycle, R680. -/
def Fld.SEC_STS_lifecycle : Fld := ⟨0x00100000, 1, 0⟩
/-- SEC_UID_LO uid, R680. -/
def Fld.SEC_UID_LO_uid : Fld := ⟨0x00100004, 31, 0⟩
/-- SEC_UID_HI uid, R680. -/
def Fld.SEC_UID_HI_uid : Fld := ⟨0x00100008, 31, 0⟩
/-- SEC_KEYS cmd_revoked, R680. -/
def Fld.SEC_KEYS_cmd_revoked : Fld := ⟨0x0010000c, 31, 24⟩
/-- SEC_KEYS cmd_prog, R680. -/
def Fld.SEC_KEYS_cmd_prog : Fld := ⟨0x0010000c, 23, 16⟩
/-- SEC_KEYS root_revoked, R680. -/
def Fld.SEC_KEYS_root_revoked : Fld := ⟨0x0010000c, 11, 8⟩
/-- SEC_KEYS root_prog, R680. -/
def Fld.SEC_KEYS_root_prog : Fld := ⟨0x0010000c, 3, 0⟩
/-- SEC_ROOT_MASK mask, R680. -/
def Fld.SEC_ROOT_MASK_mask : Fld := ⟨0x00100010, 15, 0⟩
/-- SEC_ENV_CNT auth_fail, R680. -/
def Fld.SEC_ENV_CNT_auth_fail : Fld := ⟨0x00100014, 31, 16⟩
/-- SEC_ENV_CNT accepted, R680. -/
def Fld.SEC_ENV_CNT_accepted : Fld := ⟨0x00100014, 15, 0⟩
/-- SEC_CTRw ctr, R680. -/
def Fld.SEC_CTRw_ctr (w : Nat) (b : Nat) : Fld := ⟨0x00100040 + 0x4 * w, 8 * b + 7, 8 * b⟩
/-- GEN_PWR_STS vbak, R710. -/
def Fld.GEN_PWR_STS_vbak : Fld := ⟨0x000000c0, 31, 20⟩
/-- GEN_PWR_STS hot_alarm, R710. -/
def Fld.GEN_PWR_STS_hot_alarm : Fld := ⟨0x000000c0, 11, 11⟩
/-- GEN_PWR_STS hot, R710. -/
def Fld.GEN_PWR_STS_hot : Fld := ⟨0x000000c0, 10, 10⟩
/-- GEN_PWR_STS vbak_low, R710. -/
def Fld.GEN_PWR_STS_vbak_low : Fld := ⟨0x000000c0, 9, 9⟩
/-- GEN_PWR_STS b_surge, R710. -/
def Fld.GEN_PWR_STS_b_surge : Fld := ⟨0x000000c0, 7, 7⟩
/-- GEN_PWR_STS a_surge, R710. -/
def Fld.GEN_PWR_STS_a_surge : Fld := ⟨0x000000c0, 6, 6⟩
/-- GEN_PWR_STS b_lost, R710. -/
def Fld.GEN_PWR_STS_b_lost : Fld := ⟨0x000000c0, 5, 5⟩
/-- GEN_PWR_STS a_lost, R710. -/
def Fld.GEN_PWR_STS_a_lost : Fld := ⟨0x000000c0, 4, 4⟩
/-- GEN_PWR_STS b_supplying, R710. -/
def Fld.GEN_PWR_STS_b_supplying : Fld := ⟨0x000000c0, 3, 3⟩
/-- GEN_PWR_STS a_supplying, R710. -/
def Fld.GEN_PWR_STS_a_supplying : Fld := ⟨0x000000c0, 2, 2⟩
/-- GEN_PWR_STS b_ok, R710. -/
def Fld.GEN_PWR_STS_b_ok : Fld := ⟨0x000000c0, 1, 1⟩
/-- GEN_PWR_STS a_ok, R710. -/
def Fld.GEN_PWR_STS_a_ok : Fld := ⟨0x000000c0, 0, 0⟩
/-- GEN_VMAIN vmain_b, R710. -/
def Fld.GEN_VMAIN_vmain_b : Fld := ⟨0x000000c4, 31, 16⟩
/-- GEN_VMAIN vmain_a, R710. -/
def Fld.GEN_VMAIN_vmain_a : Fld := ⟨0x000000c4, 15, 0⟩
/-- GEN_TEMP die, R710. -/
def Fld.GEN_TEMP_die : Fld := ⟨0x000000c8, 31, 16⟩
/-- GEN_TEMP plate, R710. -/
def Fld.GEN_TEMP_plate : Fld := ⟨0x000000c8, 15, 0⟩
/-- GEN_PINMUX dbg, R710. -/
def Fld.GEN_PINMUX_dbg : Fld := ⟨0x000000cc, 8, 8⟩
/-- GEN_PINMUX emu_sel, R710. -/
def Fld.GEN_PINMUX_emu_sel : Fld := ⟨0x000000cc, 7, 4⟩
/-- GEN_PINMUX sp_sel, R710. -/
def Fld.GEN_PINMUX_sp_sel : Fld := ⟨0x000000cc, 3, 0⟩

end Sys2Proof
end

