-- ==== Sys2Proof/Config.lean ====
section
/-!
DEFINITION. The open values of the spec: constants without a body, of which nothing can be proved.
Log: 7 (DESIGN CHOICE), 8 (DESIGN CHOICE), 9 (DESIGN CHOICE), 10 (DESIGN CHOICE), 11 (DESIGN CHOICE).
-/
namespace Sys2Proof.Config

/-- A value the spec leaves open, taken afresh each time it is needed: the State's counter numbers the uses. -/
opaque freeValue : Nat → Word

/-- The binary64 sine of an angle in degrees: no rule states how the result is rounded. -/
opaque sinDeg : BitVec 64 → BitVec 64

/-- The binary64 cosine of an angle in degrees. -/
opaque cosDeg : BitVec 64 → BitVec 64

/-- The binary64 angle in degrees of the vector with the given y and x. -/
opaque atan2Deg : BitVec 64 → BitVec 64 → BitVec 64

/-- The binary32 exponential (R227). -/
opaque exp32 : Word → Word

/-- The solution of ẋ = f(x) after a time in ns from a start (R26, R233, R264): the equations are the spec's, but no rule states how the units
discretise them. -/
opaque solve : (List (BitVec 64) → List (BitVec 64)) → Nat → List (BitVec 64) → List (BitVec 64)

/-- The transition matrix of ẋ = f(x) over a time in ns about a state, by which a covariance is carried (R233): no rule states how it is formed. -/
opaque transition : (List (BitVec 64) → List (BitVec 64)) → Nat → List (BitVec 64) → List (List (BitVec 64))

/-- The process noise that intensities on the states of ẋ = f(x) add to a covariance over a time in ns (R233): no rule states its
discretisation. -/
opaque processNoise : (List (BitVec 64) → List (BitVec 64)) → List (BitVec 64) → Nat → List (BitVec 64) → List (List (BitVec 64))

/-- The covariance the observer starts from (R238, R248): no rule states it. -/
opaque observerStart : List Byte → Nat → List (List (BitVec 64))

/-- The factory calibration of an analogue channel in a mode, gain and offset (R127): no rule gives its values. -/
opaque anCal : Nat → Nat → Word × Word

/-- Whether the DC blocker's factor for a corner and an output divider is the FP32 value above a = exp(−2π × fc × P) or the one below (R140): no
rule gives its rounding. -/
opaque dcbUp : Nat → Nat → Bool

/-- What analogue output k drives when its value calls for an off value that is a NaN (R446, R449): no rule gives it. -/
opaque aoNanOff : Nat → Word

/-- The fixed order in which Bracken's lanes take the products of a sum (R300, R303): at each step which of the products left, and the lane. No rule
states it. -/
opaque laneOrder : List (BitVec 64 × BitVec 64) → Nat → Nat × Nat

/-- The order in which a unit adds binary64 values: at each step which two of the values left are added. No rule states it. -/
opaque sumOrder64 : List (BitVec 64) → Nat → Nat × Nat

/-- The order in which a unit adds binary32 values. -/
opaque sumOrder32 : List (BitVec 32) → Nat → Nat × Nat

/-- The wind force on the vessel from the fused wind's speed and direction and the heading (R233): no rule states it. -/
opaque windForce : Word → Word → BitVec 64 → List (BitVec 64)

/-- The inverse of a 3 × 3 matrix as the units form it (R233, R634): no rule states how it is rounded. -/
opaque inv3 : List (List (BitVec 64)) → List (List (BitVec 64))

/-- The 16 bytes of an entry of the island's fault log (R487), from its event code (0: an empty entry), instance, detail and powered
seconds: no rule gives the layout. -/
opaque safLogEntry : Nat → Nat → Nat → Nat → BitVec 128

/-- The 16 ASCII bytes of the module's serial number (R563): no rule gives them. -/
opaque serial : BitVec 128

/-- A byte of a recorder segment that no whole stored record holds, before the end of what was written there: what remains of an evicted
or a partial record (R599, R601). No rule gives it. -/
opaque flashByte : Nat → Nat → BitVec 8

/-- The 160 bytes of an attestation report (R672), from what it holds: no rule gives the layout. -/
opaque attestReport : List (BitVec 8) → BitVec 1280

/-- The device identity key's signature over a report (R672): the key never leaves the vault. -/
opaque identitySign : BitVec 1280 → BitVec 768

end Sys2Proof.Config
end

