-- ==== Sys2Proof/Machine/State.lean ====
section
/-!
DEFINITION. The state of the module as plain data: the timebase and the vault, the BAR0 register file, and for each
block what its chapter gives it beyond its registers. A register's value lives in the register file and nowhere else;
the structures below hold only what no register shows.
Log: 4 (DEDUCED), 5 (DESIGN CHOICE), 6 (DESIGN CHOICE), 12 (DESIGN CHOICE), 13 (DESIGN CHOICE), 14 (DESIGN CHOICE), 15 (DESIGN CHOICE), 84 (DEDUCED), 87 (PRESUMED), 111 (DESIGN CHOICE), 117 (DEDUCED), 121 (DESIGN CHOICE).
-/
namespace Sys2Proof.Machine

/-- The timebase counter (R50): 48-bit seconds, nanoseconds below 10⁹, fraction in 2⁻³² ns, and the committed
increment in units of 2⁻³² ns (R54: 8.32). -/
structure Timebase where
  sec : Nat
  ns : Nat
  frac : Nat
  inc : Nat
  deriving DecidableEq, Repr

/-- One thing that left the module at a pin, a link or a port: what the outside sees. `what` names it, `idx` its pin,
port or instance, `val` its level or number, `bytes` a frame or message. -/
structure Out where
  what : String
  idx : Nat
  val : Int
  bytes : List Byte
  deriving DecidableEq, Repr

/-! ### The DP grid (chapter 01) -/

/-- The cycle grid (R15, R17): whether it runs, whether its first boundary is still to come, the cycle number at t_origin, the period
in force in ms, the instant of the next boundary, an epoch's instant with its number (R212), and the newest 200 ms boundary that
has fired (R631). The cycle number is GEN_CYC and
t_origin is GEN_CYC_ORG. -/
structure Grid where
  running : Bool
  first : Bool
  anchor : Nat
  periodMs : Nat
  next : Nat
  e0 : Nat
  j0 : Nat
  fh : Option Nat
  deriving DecidableEq, Repr

/-- No cycle runs; the period is that of FIDDLEHEAD (R631). -/
def Grid.reset : Grid := ⟨false, false, 0, 200, 0, 0, 0, none⟩

/-! ### Timebase and DP cycle (chapters 01 and 02) -/

/-- The settings of a timed pulse output (R65). -/
structure TpoSet where
  mode : Nat
  polarity : Nat
  start : Nat
  period : Nat
  width : Nat
  deriving DecidableEq, Repr

/-- A timed pulse output beyond its registers: the settings in force, settings committed during a pulse (R67), a
disarm waiting for the trailing edge (R87), the index of the next grid edge, the last leading-edge target emitted, and
the trailing-edge target of the pulse in progress. Instants are nanoseconds of the timebase. -/
structure Tpo where
  cur : TpoSet
  pend : Option TpoSet
  disarm : Bool
  next : Option Nat
  last : Option Nat
  trail : Option Nat
  deriving DecidableEq, Repr

/-- A captured edge (R72): its stamp, and whether it was rising. -/
structure CapEdge where
  at_ : Stamp
  rising : Bool
  deriving DecidableEq, Repr

/-- An egress stamp (R78), keyed by messageType and sequenceId. -/
structure EgressStamp where
  msgType : Nat
  seqId : Nat
  at_ : Stamp
  deriving DecidableEq, Repr

/-- A command waiting for an instant at which it completes. -/
structure Waiting where
  op : Nat
  cmd : Cmd
  deriving DecidableEq, Repr

/-- The TIME block beyond its registers: the accepted step that waits for the boundary, in nanoseconds (R58), the
commands that complete with it, the outputs, captures and egress stamps, the last valid measurement and the instant at
which the source became effective (R82), the start of the present run of valid measurements (R85), the servo's
offset uncertainty (R83), the reported PPS edge (R114, R115), the staged increment fraction (R54), the increments
committed with their instants, newest first (R82), whether a master is followed (R79), the AON counter with its
validity (R51, R52), the offset last measured (R85), an increment of the servo that waits for its commit window (R115), and whether
TIME runs from the main PLL (R37). -/
structure TimeSt where
  step : Option Int
  stepCmds : List Waiting
  tpo : List Tpo
  cap : List (List CapEdge)
  ptp : List (List EgressStamp)
  lastMeas : Nat
  srcSince : Nat
  runSince : Option Nat
  e0 : Option Nat
  ppsReported : Option Nat
  incLo : Nat
  incHist : List (Nat × Nat)
  following : Bool
  aon : Nat
  aonValid : Bool
  lastOff : Int
  incDue : Option Nat
  onPll : Bool
  deriving DecidableEq, Repr

/-- Consecutive windows out of tolerance of one domain against its two monitors, windows seen (R35, R36), and the powered TIME cycles at which the newest
one ended. -/
structure ClkMon where
  both : Nat
  one : Nat
  seen : Nat
  at_ : Option Nat
  deriving DecidableEq, Repr

/-- No window seen. -/
def ClkMon.reset : ClkMon := ⟨0, 0, 0, none⟩

/-- A timed pulse output at reset: OFF, but TPO0 in the PPS role (R71). -/
def Tpo.reset (k : Nat) : Tpo :=
  let z : TpoSet := if k = 0 then ⟨2, 0, 0, 1000000000, 100000000⟩ else ⟨0, 0, 0, 0, 0⟩
  ⟨z, none, false, none, none, none⟩

/-- The TIME block at reset. -/
def TimeSt.reset : TimeSt :=
  ⟨none, [], (List.range 8).map Tpo.reset, List.replicate 8 [], [[], []], 0, 0, none, none, none, 0, [], false, 0, false, 0, none, false⟩
/-! ### GNSS (chapter 03) -/

/-- The navigation data a receiver keeps (R100): the second at which its newest ephemerides were decoded, whether an almanac
is held, the last position, and the second at which it was kept. -/
structure NavData where
  eph : Option Nat
  alm : Bool
  pos : Option (Int × Int × Int)
  at_ : Nat
  deriving DecidableEq, Repr

/-- The GNSS block beyond its registers: stored spacings by channel (R97); excluded satellites (R98); the images of a
GNS_CFG_SET that wait for the next epoch (R122); the runs of indicators at or above ji_thr, and of all below ji_thr − 8
(R102); epochs at or above and below fsi_thr (R104); the instant of the newest correction and whether its age was reported
(R109); the instant of the last code lock; GNS_AID; the observable stream; the navigation data and its
copies in retained DRAM and MRAM, with the instant of the last copy (R100); the start in use (1 HOT, 2 WARM, 3 COLD); the
power of the interferer each notch holds (R101); channels under BIST and channels taken out of use (R638);
whether the baseband has no verified image (R616); by channel the instant since which its C/N0 lies below cn0_mask (R98); the narrowband
interferers in each band of each antenna (R101); and the newest solution epoch (R105). -/
structure Gns where
  spacing : List (Option Nat)
  excluded : List (Nat × Nat)
  staged : Option (Word × Word × Word × Word)
  jiHigh : List (Option Nat)
  jiLow : Option Nat
  fsiHigh : Nat
  fsiLow : Nat
  corrAt : Option Nat
  ageTold : Bool
  lastLock : Nat
  aid : Option (Int × Int × Int × Nat)
  obs : Option (Nat × Nat)
  nav : NavData
  navDram : Option NavData
  navMram : Option NavData
  navCopied : Nat
  start : Nat
  notch : List Nat
  bist : List Nat
  bad : List Nat
  stopped : Bool
  cn0Low : List (Option Nat)
  narrow : List Nat
  epochAt : Option Nat
  deriving DecidableEq, Repr

/-- A receiver that holds nothing. -/
def Gns.reset : Gns :=
  ⟨List.replicate 96 none, [], none, List.replicate 4 none, none, 0, 0, none, false, 0, none, none,
   ⟨none, false, none, 0⟩, none, none, 0, 3, List.replicate 16 0, [], [], false,
   List.replicate 96 none, List.replicate 4 0, none⟩


/-! ### Analogue chains and serial ports (chapter 04) -/

/-- An analogue chain beyond its registers: the CIC's integrators, comb histories (newest first) and decimation count
(R130), the last 32 calibrated inputs and the FIR's outputs, newest first, with the inputs since enabling (R132, R133), the
coefficients loaded (none: the default set, R133, R137), the delay line of output samples, newest first, with whether their
filters were filled (R139, R142), the next grid instant in ns (R134, R143), the place of the value it asks for among the FIR's outputs, in 2^-24
input samples (R137), steps that take effect once the samples already due are out (R143), when the protection last opened the shunt,
in TIME cycles (R142), the DC blocker's e and whether the next valid sample sets it (R141), the
present threshold run: its target zone, length and first stamp (R144, R146), the stream with its decimation
(R147), and the instant of the newest sample. -/
structure AnSt where
  integ : List (BitVec 64)
  comb : List (List (BitVec 64))
  count : Nat
  inp : List Word
  fir : List Word
  have_ : Nat
  coef : Option (List Byte)
  line : List (Word × Bool)
  nextGrid : Option Nat
  pos : Nat
  moves : List (Nat × Nat)
  protAt : Nat
  dcE : Word
  dcInit : Bool
  runTo : Option Nat
  run : Nat
  runAt : Nat
  stream : Option (Nat × Nat)
  streamCount : Nat
  lastAt : Nat
  deriving DecidableEq, Repr

def AnSt.reset : AnSt :=
  ⟨List.replicate 5 0, List.replicate 5 [0, 0], 0, [], [], 0, none, [], none, 0, [], 0, 0, true, none, 0, 0, none, 0, 0⟩

/-- A received frame in a port's FIFO (R154): its arrival stamp, its bytes, whether it is binary, and the NOCS and BADCS
flags (R151). -/
structure Frame where
  at_ : Stamp
  bytes : List Byte
  binary : Bool
  nocs : Bool
  badcs : Bool
  deriving DecidableEq, Repr

/-- A serial port beyond its registers: the bytes of the frame in progress with their stamps (R150, R153), whether a
sentence is open, the FIFO, the FIL_SER_SEND in progress with its first start bit, whether counters have moved since the last FIL_SP_ERR
(R157), the stream with its BADCS choice (R154); and, in TIME cycles, when the newest frame was delivered or the port enabled (R155), the newest
character ended (R150, R153), the last FIL_SP_ERR was posted, and the transmission ends (R156). -/
structure SpSt where
  open_ : Bool
  buf : List (Byte × Stamp)
  fifo : List Frame
  sending : Option (Cmd × Stamp)
  errMoved : Bool
  stream : Option (Nat × Bool)
  frameAt : Nat
  charAt : Nat
  errAt : Option Nat
  txEnd : Nat
  deriving DecidableEq, Repr

def SpSt.reset : SpSt := ⟨false, [], [], none, false, none, 0, 0, none, 0⟩

/-- The FIL block beyond its registers. -/
structure Fil where
  an : List AnSt
  sp : List SpSt
  deriving DecidableEq, Repr

def Fil.reset : Fil := ⟨List.replicate 16 AnSt.reset, List.replicate 8 SpSt.reset⟩

/-! ### Feedback channels (chapter 05) -/

/-- A feedback channel beyond its registers: the accepted line levels, the last valid hall code, the 48-bit count, the
speed estimator (R188: instants in ns), whether an index came since enabling and since the last sample, whether the last
count rose, the SSI frame in progress (its request edge), the last valid word with its stamp, the frame result waiting for
the next base tick, the failed line tests (instants), the pairs that fell below amplitude, the last FBK_SSI_FAIL, a line
test due or ordered, the stream with its decimation, and since when, in TIME cycles, the supply is off by a fault or for a change of its
voltage (R197). -/
structure FbCh where
  a : Bool
  b : Bool
  z : Bool
  hall : Nat
  count : Nat
  still : Bool
  lowconf : Bool
  neg : Bool
  speed : Word
  refT : Int
  refC : Nat
  lastT : Int
  lastC : Nat
  indexed : Bool
  idxSeen : Bool
  req : Option Nat
  lastWord : Option (Nat × Nat)
  posSince : Nat
  result : Option (Bool × Nat)
  failTests : List Nat
  lowPairs : Nat
  failPost : Option Nat
  testDue : Bool
  testCmd : Option Cmd
  stream : Option (Nat × Nat)
  streamCount : Nat
  supAt : Option Nat
  deriving DecidableEq, Repr

/-- One item of an emulator's backlog: signed counts, or an index pulse in order (R194, R195). -/
inductive EmuItem where
  | counts (n : Int)
  | index
  deriving DecidableEq, Repr

/-- An encoder emulator beyond its registers: the remainder of R193, the backlog, its place in the quadrature sequence, the rate in
counts per second that a string sets (R192) with the instant up to which its counts were sent and their fraction, whether Z is high (R195), and when
the newest count went out, in TIME cycles (R194). At output count 0 A and B are high (log 110). -/
structure Emu where
  rem : Int
  queue : List EmuItem
  state : Nat
  rate : Word
  at_ : Nat
  frac : Int
  z : Bool
  lastOut : Option Nat
  deriving DecidableEq, Repr

def Emu.reset : Emu := ⟨0, [], 2, 0, 0, 0, false, none⟩

/-- The FBK block beyond its registers. -/
structure Fbk where
  ch : List FbCh
  emu : List Emu
  deriving DecidableEq, Repr

def FbCh.reset : FbCh :=
  ⟨false, false, false, 0, 0, true, false, false, 0, 0, 0, 0, 0, false, false, none, none, 0, none, [], 0, none, false,
   none, none, 0, none⟩

def Fbk.reset : Fbk := ⟨List.replicate 12 FbCh.reset, List.replicate 4 Emu.reset⟩
/-! ### Lichen (chapter 06) -/

/-- A slot beyond its registers: its samples, newest first; the stamps of the last 65 for MEASPER; the binary
descriptor (R210); the anchored target in mm (R223); epochs since it was enabled; its features of the last epochs, newest
first (R226, R227); the innovation before; missing epochs among the last 64; the instants of its slips; the last epoch with
a high jump score (R228); the measurement time of the newest sample used (R218); and the runs of closes that R244 and R245
count: as outlier, within cgate, and the instant since which it has stayed near. -/
structure LchSlot where
  samples : List LchSample
  stamps : List Nat
  desc : List Byte
  anchor : Option (Int × Int)
  epochs : Nat
  feats : List (List Word)
  innov : List (BitVec 64)
  missed : List Bool
  slips : List Nat
  jumpAt : Option Nat
  used : Option Nat
  outRun : Nat
  inRun : Nat
  nearSince : Option Nat
  deriving DecidableEq, Repr

/-- Lichen beyond its registers: the slots; the weights image in force (R230); commands accepted and waiting, each with
the epoch at whose close it takes effect, its opcode and itself (R211, R250), an accepted weights image's data among them; the number of the next epoch; the observer's state vector and covariance and
whether position and heading are initialised (R232, R238); closes held at or above each step (R242); the start of L3 and of
H2; per kind the pair judged, as a mask of slots, with the closes it has differed (R243), the instant since which a SUSPECT pair is near
(R245), and the pair in contradiction of R246, as a mask, 0 for none; the fused motion rates and history (R225, R235); the heave crossings (R236); the stream of R249;
the fused heading of the close before (R244), and the active's epoch assignments that wait (R41): epoch, and slot and measurement time of each sample. -/
structure Lch where
  slots : List LchSlot
  weights : List Byte
  pend : List (Nat × Nat × Cmd)
  next : Nat
  x : List (BitVec 64)
  p : List (List (BitVec 64))
  hasPos : Bool
  hasHdg : Bool
  heldP : List Nat
  heldH : List Nat
  l3 : Nat
  h2 : Nat
  pairRun : List (Nat × Nat)
  pairNear : List (Option Nat)
  contra : List Nat
  rates : List Word
  history : List (Nat × Word × Word)
  heaveLow : Bool
  crossings : List Nat
  stream : Option (Nat × Nat × Nat)
  streamCount : Nat
  prevHdg : BitVec 64
  assign : List (Nat × List (Nat × Nat))
  deriving DecidableEq, Repr

def LchSlot.reset : LchSlot := ⟨[], [], [], none, 0, [], [], [], [], none, none, 0, 0, none⟩

/-- Lichen at reset: no reference, the steps L4 and H2 (R248). -/
def Lch.reset : Lch :=
  ⟨List.replicate 24 LchSlot.reset, [], [], 0, [], [], false, false, [0, 0, 0], [0, 0], 0, 0, List.replicate 4 (0, 0),
   [none, none, none, none], [0, 0, 0, 0], [0, 0, 0], [], false, [], none, 0, 0, []⟩

/-! ### Positioning law (chapter 07) -/

/-- A reference pose and its velocity in the plane: north and east in m, heading in degrees, and their rates per second. -/
structure PlRef where
  n : BitVec 64
  e : BitVec 64
  h : BitVec 64
  vn : BitVec 64
  ve : BitVec 64
  r : BitVec 64
  deriving DecidableEq, Repr

/-- A waypoint of PL_TRACK (R294): north and east in mm, heading in 10⁻³ degree, speed in mm/s, yaw rate in 10⁻² degree/s. -/
structure Waypoint where
  n : Int
  e : Int
  hdg : Nat
  speed : Nat
  rate : Nat
  deriving DecidableEq, Repr

/-- The set-points of one thruster (R279 to R281): thrust, rpm, pitch and azimuth, FP32; none where nothing is sent. -/
structure ThrSet where
  thrust : Word
  rpm : Option Word
  pitch : Option Word
  az : Option Word
  deriving DecidableEq, Repr

/-- What a cycle leaves for its record (R27, R516, R594): its number, the digest and whether one was formed, the Bracken status (255:
none used), the accepted flag, lag in µs, merit, flags (0 catchup, 1 UNSHADOWED, 2 fallback, 3 continuation, 4 skip, 5 mismatch),
mode, steps, whether the record is committed, and the instant of its release. -/
structure CycleRec where
  num : Nat
  digest : Nat
  formed : Bool
  status : Nat
  accepted : Bool
  lag : Nat
  merit : Word
  flags : Nat
  mode : Nat
  steps : Nat
  done : Bool
  at_ : Nat
  deriving DecidableEq, Repr

/-- A dispatched cycle that the next boundary has overtaken before its release (R287, R289): the release instant, whether it waits for a base tick and
whether a standby knows it from the active's announcement, the boundary and the planned lag, the stage that was late, its record, the
set-points staged, and the generators that had tripped. -/
structure PlOver where
  at_ : Nat
  due : Bool
  known : Bool
  t0 : Nat
  plan : Nat
  late : Nat
  cyc : CycleRec
  sets : List (Nat × ThrSet)
  tripped : List Nat
  deriving DecidableEq, Repr

/-- The law beyond its registers. Commands waiting, each with the number of the cycle at whose boundary it applies, 0 for the next boundary, and
with whether this module completes it (R257); the stored
set-point (north and east in mm, heading in 10⁻³ degree), and the heading to which AUTOHEAD and JOY turn (R256, R260); the force held fixed in
the plane (R258); the waypoints, the one approached
first, and how many came before it; the reference, its instant, and whether it starts anew at the estimate; the loaded tables and
model image; the estimate taken at the boundary (north, east, heading, u, v, r, three biases, three wind forces). The thrusters and
buses that have variables (R275), the last accepted solution stage by stage (heading, then forces) and the cycles since it, accepted
solves in a row, the force to dispatch, the demand of the reduced law, its integrators (R632) and the force DENSE gave it. Per thruster the run of
R272, the causes for which it is unavailable, as a mask, and the one that ended last (R296); the staged and the released set-points; per generator the factor and set-points of its trip set (R284), the
generators whose set the next base tick applies and those tripped since assembly; manual values, the instant of the last feed, and whether
NONE still has to release zero thrust. The stage of the cycle (0 none, 1 boundary, 2 assembled, 3 solved, 4 dispatched, 5 released), its
number, boundary, planned release, planned lag and h_0, the late stage if any, the lag of the last release, whether the release waits for a
base tick, whether a boundary passed before dispatch, releases since the first late one, a DENSE solve awaited, the timing that waits (R17),
remote set-points that wait (instant, string, value), the release the active announced, the record of the cycle, and the peer's digest: cycle,
digest, UNSHADOWED; the joystick axes that are not valid; the record of a cycle released after the boundary that followed it; the cycle that
waits for such a release; and the states of strings at other positions as they were reported, by 64 × position + string (R282). -/
structure Pl where
  pend : List (Nat × Nat × Cmd × Bool)
  setN : Int
  setE : Int
  setH : Nat
  autoH : Nat
  held : Option (BitVec 64 × BitVec 64)
  way : List Waypoint
  reached : Nat
  ref : PlRef
  refAt : Nat
  fresh : Bool
  tables : List (List Byte)
  model : List Byte
  est : List (BitVec 64)
  vars : List Nat
  buses : List Nat
  hist : List (List (BitVec 64))
  age : Nat
  okRun : Nat
  force : List (BitVec 64)
  demand : List (BitVec 64)
  integ : List (BitVec 64)
  redF : List (BitVec 64)
  swRun : List Nat
  lost : List Nat
  ended : List Nat
  thr : List ThrSet
  rel : List ThrSet
  trips : List (Option (Word × List (Nat × ThrSet)))
  tripDue : List Nat
  tripped : List Nat
  manual : List ThrSet
  manualAt : Nat
  zeroDue : Bool
  stage : Nat
  num : Nat
  t0 : Nat
  planned : Nat
  plan : Nat
  h0 : Nat
  late : Option Nat
  lag : Nat
  due : Bool
  waits : Bool
  taken : Nat
  dense : Bool
  timing : Option Word
  remote : List (Nat × Nat × Word)
  announced : Option (Nat × Nat)
  cyc : CycleRec
  peer : Option (Nat × Nat × Bool)
  joyBad : Nat
  tail : Option CycleRec
  ahead : Option PlOver
  far : List (Nat × Nat)
  deriving DecidableEq, Repr

def PlRef.reset : PlRef := ⟨0, 0, 0, 0, 0, 0⟩
def ThrSet.reset : ThrSet := ⟨0, none, none, none⟩
def CycleRec.reset : CycleRec := ⟨0, 0, false, 255, false, 0, 0x7FC00000, 0, 0, 0, true, 0⟩

/-- The law at reset: NONE, nothing loaded, queued or staged. -/
def Pl.reset : Pl :=
  ⟨[], 0, 0, 0, 0, none, [], 0, PlRef.reset, 0, false, List.replicate 24 [], [], [], [], [], [], 0, 0, [], [], [0, 0, 0], [],
   List.replicate 24 0, List.replicate 24 0, List.replicate 24 0, List.replicate 24 ThrSet.reset, List.replicate 24 ThrSet.reset, List.replicate 8 none,
   [], [], List.replicate 24 ThrSet.reset, 0, false, 0, 0, 0, 0, 0, 0, none, 0, false, false, 0, false, none, [], none,
   CycleRec.reset, none, 0, none, none, []⟩
/-! ### Bracken (chapter 08) -/

/-- A stage of a problem (R305): H, g, G, h, F and c; a DENSE problem has one, without F and c. -/
structure QpStage where
  h : List (List (BitVec 64))
  g : List (BitVec 64)
  gm : List (List (BitVec 64))
  hv : List (BitVec 64)
  f : List (List (BitVec 64))
  c : List (BitVec 64)
  deriving DecidableEq, Repr

/-- A problem (R304, R305, R308): whether DENSE, nx, x_init (b for DENSE), A, the stages, warm_src, shift, max_iter, the tolerance
code, whether multipliers are returned, and the given point. -/
structure Qp where
  dense : Bool
  nx : Nat
  xi : List (BitVec 64)
  a : List (List (BitVec 64))
  st : List QpStage
  warm : Nat
  shift : Nat
  maxIter : Nat
  tol : Nat
  ret : Bool
  given : List (BitVec 64)
  deriving DecidableEq, Repr

/-- A point: z, t, λ and y, stage by stage. -/
structure QpPt where
  z : List (List (BitVec 64))
  t : List (List (BitVec 64))
  l : List (List (BitVec 64))
  y : List (List (BitVec 64))
  deriving DecidableEq, Repr

/-- What phase E gives: scaled primal and dual residual, gap, merit and objective. -/
structure QpEval where
  rp : BitVec 64
  rd : BitVec 64
  gap : BitVec 64
  merit : BitVec 64
  obj : BitVec 64
  deriving DecidableEq, Repr

/-- A problem submitted (R312): its source (0 law, 1 host), whether it is the positioning law's own (paced on a STANDBY, R314),
the problem, its deadline as a short stamp, for the host its command, and its time limit in µs. -/
structure QpJob where
  src : Nat
  own : Bool
  qp : Qp
  deadline : Option Nat
  cmd : Option Cmd
  limit : Nat
  deriving DecidableEq, Repr

/-- A solve in progress: its problem, the present point in the scaled rows, the improvements so far (iterations completed, point,
evaluation; newest first, iterate 0 last), iterations, rejections and those in a row, the scale exponent, pivots replaced and the most
in one iteration, the flags of SLV_LAST_STS[14:4], the start, the stop in BRK cycles, the status it has ended with, and the active's
marks and summary (R314): the last mark, its instant, and status, iterations and flags. No improvement listed: nothing can be read. -/
structure QpRun where
  job : QpJob
  pt : QpPt
  bests : List (Nat × QpPt × Option QpEval)
  k : Nat
  rejected : Nat
  rejRun : Nat
  s : Nat
  piv : Nat
  pivMax : Nat
  flags : Nat
  start : Nat
  stop : Nat
  ended : Option Nat
  mark : Nat
  heard : Nat
  summary : Option (Nat × Nat × Nat)
  deriving DecidableEq, Repr

/-- The result the law judges (R277, R311): status, merit, flags, and the point in the rows of the descriptor. -/
structure QpResult where
  status : Nat
  merit : Option (BitVec 64)
  flags : Nat
  pt : QpPt
  deriving DecidableEq, Repr

/-- Bracken beyond its registers: the solve in progress, law problems and a host problem that wait, the self-test and bank test
that a command or a start ordered, the banks to march-test (R330), and the retained point with the dimensions it belongs to (R320). -/
structure Slv where
  run : Option QpRun
  law : List QpJob
  host : Option QpJob
  selfTest : Option (Option Cmd)
  bankTest : List (Nat × Option Cmd)
  kept : Option (List Nat × QpPt)
  deriving DecidableEq, Repr

def Slv.reset : Slv := ⟨none, [], none, none, [], none⟩

/-! ### Strings and Drone (chapters 09 and 10) -/

/-- A change that waits for its application tick (R340): the instant of that tick, the opcode (1 for a register write, whose
offset and value are the parameters), the command, whether this module completes it, whether its checks have been made, and
the strings of this module that have still to apply it. -/
structure StrJob where
  at_ : Nat
  op : Nat
  cmd : Cmd
  own : Bool
  open_ : Bool
  left : List Nat
  deriving DecidableEq, Repr

/-- One computation kept for the shadow (R371): its tick, INT + INTC, D and u. -/
structure StrHist where
  at_ : Nat
  int_ : Word
  d : Word
  u : Word
  deriving DecidableEq, Repr

/-- A RAMPDOWN (R362, R365): its target, whether STOP began it, and the first fault recorded during it. -/
structure StrRamp where
  target : Word
  stop : Bool
  fault : Option Nat
  deriving DecidableEq, Repr

/-- A string beyond its registers: the tick of its last completed computation since it was enabled, the _prev values of R352,
D and the held output, the LAW set-point, the following-error time in ns, the runs of misses, missing feedbacks and missing
set-points, the instant of the last STR_MISS with the misses since, the ramp, the last 16 computations, the instant of its
ENABLE, the value its sink takes at the output instant, the state and cause that follow there, a release of its sink (some
false: from the next base tick), a close at this tick, the computations since the last streamed one. -/
structure StrSt where
  done : Option Nat
  rP : Word
  edP : Word
  rdP : Word
  dP : Word
  uP : Word
  law : Word
  feT : Nat
  missRun : Nat
  fbRun : Nat
  spRun : Nat
  missAt : Option Nat
  missN : Nat
  ramp : Option StrRamp
  hist : List StrHist
  enAt : Nat
  fresh : Option Word
  endAs : Option (Nat × Nat)
  rel : Option Bool
  closing : Bool
  streamCount : Nat
  deriving DecidableEq, Repr

/-- A learner beyond its registers: its table, the step that the newest computation uses (R386),
the entry of the last decay, the string state its table was last treated for (R390), the entries committed since the last
shadow record (R394), the copy in retained DRAM: table, φ and step (R393), and an uncorrectable error whose tick does not learn (R392). -/
structure DrnSt where
  table : List Word
  used : Nat
  i0 : Option Nat
  seen : Nat
  commits : List (Nat × Word)
  copy : Option (List Word × Nat × Nat)
  ecc : Bool
  deriving DecidableEq, Repr

/-- The STR block beyond its registers: strings, learners, changes that wait, the stream (queue, mask, every n-th), the strings
that missed the output instant of the newest tick, that tick, the output instant its sinks still wait for, and Drone pages found
bad (R638). -/
structure Str where
  st : List StrSt
  drn : List DrnSt
  jobs : List StrJob
  stream : Option (Nat × Nat × Nat)
  missed : List Nat
  tick : Option Nat
  out : Option Nat
  badPages : List Nat
  testPages : List Nat
  deriving DecidableEq, Repr

def StrSt.reset : StrSt :=
  ⟨none, 0, 0, 0, 0, 0, 0, 0, 0, 0, 0, none, 0, none, [], 0, none, none, none, false, 0⟩

def DrnSt.reset : DrnSt := ⟨[], 1048576, none, 0, [], none, false⟩

/-- Every string IDLE, no page allocated (R363, R393). -/
def Str.reset : Str := ⟨List.replicate 48 StrSt.reset, List.replicate 48 DrnSt.reset, [], none, [], none, none, [], []⟩

/-! ### CAN controllers (chapter 11) -/

/-- A message object beyond its registers (R409, R410): the payload buffer, the DLC of the frame requested, the
time-triggered target it waits for and the one in force (R413), the open CAN_TX, the retries of the present frame, the
record of the newest frame received with its instant, for a source's age. -/
structure CanObj where
  payload : List Byte
  dlc : Nat
  target : Option Nat
  due : Option Nat
  tx : Option Cmd
  retries : Nat
  frame : List Byte
  at_ : Option Nat
  deriving DecidableEq, Repr

/-- The frame in flight (R410): its object, its record from the start-of-frame bit, whether it was cancelled (R415), and
whether the object became pending again meanwhile (R411). -/
structure CanFlight where
  obj : Nat
  frame : List Byte
  cancel : Bool
  again : Bool
  deriving DecidableEq, Repr

/-- A controller beyond its registers: the mode in force (R408), whether it has joined the bus, the error counters at full
width, the frame in flight, the objects, the FIFOs with their bound queues, the instant of the last CAN_FIFO_OVF and the
losses since, the instants of errors within the burst window and of failed loopback tests (R423), the CAN_CTRL_ACT
that ordered the running test, whether the LASTING verdict still waits for the host to set OFF (R423), and the powered TIME cycle
in which the counting of a recovery began (R422). -/
structure CanCtl where
  mode : Nat
  joined : Bool
  tec : Nat
  rec_ : Nat
  flight : Option CanFlight
  obj : List CanObj
  fifo : List (List (List Byte))
  bound : List (Option Nat)
  ovfAt : List (Option Nat)
  ovfLost : List Nat
  errs : List Nat
  fails : List Nat
  testCmd : Option Cmd
  barred : Bool
  recAt : Nat
  deriving DecidableEq, Repr

def CanObj.reset : CanObj := ⟨List.replicate 64 0, 0, none, none, none, 0, [], none⟩

def CanCtl.reset : CanCtl :=
  ⟨0, false, 0, 0, none, List.replicate 128 CanObj.reset, [[], []], [none, none], [none, none], [0, 0], [], [], none, false, 0⟩

/-! ### Field inputs and outputs (chapter 12) -/

/-- A supply group beyond its registers (R434, R435, R437, R451): its level (0 OK, 1 WARN, 2 OFF, 3 MISSING), its latch, the
measurements in a row at 19 V or more and below 18, 14 and 5 V, the measurements since it became OK, and whether its last
field test failed. -/
structure VGroup where
  level : Nat
  latch : Bool
  okRun : Nat
  warnRun : Nat
  offRun : Nat
  missRun : Nat
  okFor : Nat
  bad : Bool
  deriving DecidableEq, Repr

/-- A digital input beyond its registers: the comparator, the filter counter (R439), whether it waits for its group, is
validating or is valid (R437: 0 stopped, 1 waiting, 2 validating, 3 valid), and the samples since its restart. -/
structure DiSt where
  comp : Bool
  cnt : Nat
  phase : Nat
  n : Nat
  deriving DecidableEq, Repr

/-- The DIO block beyond its registers: groups and inputs; the DIO_DO_SET and DIO_AO_SET that wait, with their base ticks
(output 16 stands for the digital outputs, 17 + k for an AO); what the newest base tick took for each output, when it may be driven (R442,
R445); the value a string drives on its AO and the outputs it released (R357, R447); re-armed groups told at the next output
instant, before and after the base tick; the stream; the field test that runs, with its group; and the powered TIME cycles of the last
measurement of the groups and the last sample of the inputs (R433, R439). -/
structure Dio where
  grp : List VGroup
  di : List DiSt
  sets : List (Nat × Nat × Nat × Word)
  doTick : List (Option Bool)
  aoTick : List (Option Word)
  aoStr : List (Option Word)
  aoFree : List Bool
  rearm : Nat
  rearmTick : Nat
  stream : Option (Nat × Word)
  test : Option (Nat × Cmd)
  vfAt : Option Nat
  diAt : Option Nat
  deriving DecidableEq, Repr

/-- A group starts in MISSING with its latch set (R434, R450). -/
def VGroup.reset : VGroup := ⟨3, true, 0, 0, 0, 0, 0, false⟩

/-- Inputs are enabled at reset and wait for their groups (R437, R457). -/
def Dio.reset : Dio :=
  ⟨List.replicate 4 VGroup.reset, List.replicate 32 ⟨false, 0, 1, 0⟩, [], List.replicate 16 none, List.replicate 8 none,
   List.replicate 8 none, List.replicate 8 false, 0, 0, none, none, none, none⟩


/-! ### Host interface (chapter 15) -/

/-- What a queue entry carries: a completion (R552), an event (R555) or a stream record (R558). -/
inductive Entry where
  | completion (status cid sq op sqIndex written stamp : Nat) (result data : List Byte)
  | event (sev code seq : Nat) (at_ : Stamp) (payload : List Byte)
  | stream (kind source flags seq : Nat) (body : List Byte)
  deriving DecidableEq, Repr

/-- One entry or record held in a ring, with the slots it takes and the instant it was written. -/
structure Held where
  slots : Nat
  at_ : Stamp
  entry : Entry
  deriving DecidableEq, Repr

/-- A queue (R537 to R540). `mod_` and `host` are the module's and the host's index with the phase above it, that is
numbers modulo 2^(k+1). `held` lists what is not consumed, oldest first; `seq` numbers events or records; `dropped`
and `droppedSlots` wait for HIF_DROP or a GAP record (R557, R560); `reserved` counts CQ entries reserved for commands in
progress (R549). -/
structure Ring where
  mod_ : Nat
  host : Nat
  seq : Nat
  dropped : Nat
  droppedSlots : Nat
  reserved : Nat
  held : List Held
  deriving DecidableEq, Repr

/-- A fetched command that is not complete (R549, R550); `dead` once its completion is to be discarded (R536). -/
structure Prog where
  sq : Nat
  cid : Nat
  op : Nat
  index : Nat
  cq : Nat
  fence : Bool
  dead : Bool
  deriving DecidableEq, Repr

/-- An IEC 61162-450 group of a port (R567). -/
structure Group450 where
  addr : Nat
  udp : Nat
  filter : List Byte
  accepted : Nat
  deriving DecidableEq, Repr

/-- The host interface beyond its registers: the queues, the commands in progress, the IEC 61162-450 groups and the PTP parameters of each
port, the instant of each port's last NET_REJECT, the requests in progress of the maintenance service by port and source address, and its powered second with
the requests taken in it, whether the HIF clock failed since the link was last up (R37), the powered TIME cycles at which the doorbell page was last
read (R544), and for each priority class the submission queue whose turn it is with the commands taken in it (R549). -/
structure Hif where
  sq : List Ring
  cq : List Ring
  eq : List Ring
  stq : List Ring
  prog : List Prog
  groups : List (List Group450)
  ptp : List (List Byte)
  rejectAt : List (Option Nat)
  maintBusy : List (Nat × Nat)
  maintCount : List (Nat × Nat)
  lost : Bool
  polled : Nat
  turn : List (Nat × Nat)
  deriving DecidableEq, Repr

/-- No queue enabled, nothing in progress (R536, R575). -/
def Hif.reset : Hif :=
  let r : Ring := ⟨0, 0, 0, 0, 0, 0, []⟩
  let g : List Group450 := List.replicate 16 ⟨0, 0, [], 0⟩
  ⟨List.replicate 16 r, List.replicate 16 r, List.replicate 8 r, List.replicate 16 r, [], [g, g], [[], []],
   [none, none], [], [(0, 0), (0, 0)], false, 0, [(15, 8), (15, 8)]⟩

/-! ### Interrupt controller (chapter 16) -/

/-- A delivery target (R579): host vector (`core = false`) or application core. -/
structure Target where
  core : Bool
  num : Nat
  deriving DecidableEq, Repr

/-- The interrupt controller beyond its registers: levels, PENDING and CLAIMED are the bits of IRQ_LEVELw, IRQ_PENDw
and IRQ_CLAIMEDw. `owner` is the target of a claimed source's latest delivery, `looked` the claimed sources looked at
(R584), `staged` the word in force of a source whose register shows a staged change (R587), `masked` the vectors masked in
the MSI-X table and `funcMask` its function mask, `heldMsg` the messages held under R582 with the sources they cover, `lost` the groups that open
a window once MSI-X works again, and `opened` the powered TIME cycles at which open windows opened; `sent` those
of the latest delivery of each claimed source. -/
structure Irq where
  owner : List (Nat × Target)
  looked : List Nat
  staged : List (Nat × Word)
  masked : List Nat
  funcMask : Bool
  heldMsg : List (Nat × List Nat)
  lost : List Nat
  opened : List (Nat × Nat)
  sent : List (Nat × Nat)
  deriving DecidableEq, Repr

/-- Every source disabled and unclaimed (R590); every vector masked, as the MSI-X table resets. -/
def Irq.reset : Irq := ⟨[], [], [], List.range 32, false, [], [], [], []⟩

/-! ### Peat recorder (chapter 17) -/

/-- A Peat record (R593): severity, source, type and payload; `cmd` is the LOG_WRITE that completes at its commit. -/
structure PeatRec where
  sev : Nat
  src : Nat
  typ : Nat
  payload : List Byte
  cmd : Option Cmd
  deriving DecidableEq, Repr

/-- A stored record: its sequence number, its place in flash, and whether its CRC still checks (R604). -/
structure Stored where
  seq : Nat
  body : PeatRec
  seg : Nat
  off : Nat
  good : Bool
  deriving DecidableEq, Repr

/-- The recorder beyond its registers: the DRAM write buffer (oldest first), the stored records (ascending sequence),
the next sequence number, the floor, whether eviction has occurred since the last erase, the write position, drops not yet told by severity (R600), the retired segments,
LOG_FLUSH commands waiting with the number of records they wait for and the powered TIME cycle of their arrival, the LOG_ERASE that runs, whether the buffer was empty at the last reset or power-down, and the
bytes committed in each powered second of the last 24 h, and the powered TIME cycle of the latest periodic anchor. -/
structure Peat where
  buffer : List PeatRec
  stored : List Stored
  next : Nat
  floor : Nat
  full : Bool
  seg : Nat
  off : Nat
  dropSev : List Nat
  retired : List Nat
  flush : List (Cmd × Nat × Nat)
  erase : Option Cmd
  emptyAtReset : Bool
  rate : List (Nat × Nat)
  anchorAt : Nat
  deriving DecidableEq, Repr

/-- A new recorder: no record stored, the first record will be numbered 1 (R595). -/
def Peat.reset : Peat := ⟨[], [], 1, 1, false, 0, 0, List.replicate 8 0, [], [], none, true, [], 0⟩

/-! ### Fault table (chapter 18) -/

/-- An entry of the fault table (R637): class (in the order of R638: 0 DRAM correctable, 1 DRAM uncorrectable, 2 Bracken, 3 Drone,
4 encoder, 5 GNSS, 6 CAN, 7 field, 8 flash), instance, address, count, the powered seconds of its newest errors, newest first, and
whether its verdict is LASTING. -/
structure FaultEntry where
  cls : Nat
  inst : Nat
  addr : Nat
  count : Nat
  at_ : List Nat
  lasting : Bool
  deriving DecidableEq, Repr

/-- What the string state retained in DRAM holds of a string (R46, R363): its state, INT, INTC and output. -/
structure StrKept where
  state : Nat
  int_ : Word
  intc : Word
  u : Word
  deriving DecidableEq, Repr

/-- Starting and power beyond the registers: a reset that waits (cold or warm, cause) and when it is due, RST_N held, self-checks failed at this start and
whether one passed, whether the self-check runs, the powered TIME cycles at the beginning of the start, the instant FIDDLEHEAD was entered,
whether Lichen resumed; the start-attempt counter in MRAM (R617), AON time-keeping invalid with its reason (R686), the retained string
state (R363), verdicts not yet written (R639), runs of plate measurements above and below the thresholds (R704), whether ENABLE is
high, power-good, the ms that step 6 of this start took, and in powered TIME cycles the instant from which neither feed has been in range and that of
the newest plate measurement. -/
structure Boot where
  restart : Option (Bool × Nat)
  restartAt : Nat
  held : Bool
  fails : Nat
  checkOk : Bool
  checking : Bool
  t0 : Nat
  fhAt : Nat
  resumed : Bool
  attempts : Nat
  vbakLow : Bool
  breach : Bool
  strKept : List StrKept
  verdicts : List PeatRec
  hotRun : Nat
  alarmRun : Nat
  coolRun : Nat
  calmRun : Nat
  enable : Bool
  good : Bool
  copyMs : Nat
  offAt : Option Nat
  plateAt : Option Nat
  deriving DecidableEq, Repr

def Boot.reset : Boot :=
  ⟨none, 0, false, 0, false, false, 0, 0, false, 0, false, false, [], [], 0, 0, 0, 0, false, false, 0, none, none⟩

/-! ### Vault and update (chapter 19) -/

/-- A root-key slot (R649, R650): public key (X, Y, 96 bytes; empty: none), kind mask, SHA-384 of the key (empty: not written), revoked. -/
structure RootSlot where
  key : List Byte
  mask : Nat
  hash : List Byte
  revoked : Bool
  deriving DecidableEq, Repr

/-- The vault's one-time-programmable memory (R647, R649): the two fuses of OPEN, SEALED and RETIRED, the root-key slots, the command
keys (empty: not programmed) with their revoked bits, the 64 counters, the UID, the MAC address of port 1, and the identity key's public key with
its manufacturing signature. -/
structure Vault where
  fuses : List (Bool × Bool)
  roots : List RootSlot
  cmds : List (List Byte × Bool)
  ctr : List Nat
  uid : Nat
  mac : Nat
  idKey : List Byte
  idSig : List Byte
  deriving DecidableEq, Repr

def RootSlot.reset : RootSlot := ⟨[], 0, [], false⟩

/-- A vault in OPEN without keys: what manufacture and commissioning write is not stated. -/
def Vault.reset : Vault :=
  ⟨[(true, true), (false, false), (false, false)], List.replicate 4 RootSlot.reset, List.replicate 8 ([], false), List.replicate 64 0, 0, 0,
   [], []⟩

/-- The lifecycle (R645, R647): the highest state whose two fuses are both blown. -/
def Vault.life (v : Vault) : Nat :=
  if v.fuses.getD 2 (false, false) = (true, true) then 3
  else if v.fuses.getD 1 (false, false) = (true, true) then 2
  else if v.fuses.getD 0 (false, false) = (true, true) then 1 else 0

/-- A firmware image in a section (R658, R659): its version, its shadow format, its root-key slot, whether it advances its counter, its MiB units, and the SHA-384
of its manifest. -/
structure Image where
  version : Nat
  fmt : Nat
  key : Nat
  advance : Bool
  units : Nat
  hash : List Byte
  deriving DecidableEq, Repr

/-- The image of manufacture. -/
def Image.factory : Image := ⟨0, 0, 0, false, 0, []⟩

/-- A staging slot (R661) beyond its registers: the 512-byte units received, by number, and the verified image. -/
structure Slot where
  units : List (Nat × List Byte)
  image : Option Image
  deriving DecidableEq, Repr

/-- Field update beyond its registers: the staging slots, the UPD_VERIFY that run (slot, command), oldest first, the images in force and the fallback or previous
images of MAIN, SAFE and GNSS, backups that wait, the configuration copies A, B and C in MRAM, the configuration image in force, the last counter accepted of
each command key (R656), and the window of envelope failures: count, key index and opcode of the first, and the
powered TIME cycle at which it opened. -/
structure Upd where
  slots : List Slot
  verify : List (Nat × Cmd)
  active : List (Option Image)
  fallback : List (Option Image)
  backup : List Nat
  copies : List (List Byte)
  config : List Byte
  envCtr : List Nat
  window : Option (Nat × Nat × Nat × Nat)
  deriving DecidableEq, Repr

/-- Nothing staged, empty configuration copies; every section holds the image of manufacture, of version 0. -/
def Upd.reset : Upd :=
  ⟨List.replicate 2 ⟨[], none⟩, [], List.replicate 3 (some Image.factory), List.replicate 3 (some Image.factory), [], [[], [], []], [], List.replicate 8 0, none⟩

/-! ### Safety island (chapter 13) -/

/-- A channel of a safety input: its level at the last sample outside its own test window with the cycles it has been stable, the level taken (R464),
and findings of R463 in the period in progress and the one before. -/
structure SafChan where
  raw : Bool
  run : Nat
  taken : Option Bool
  cur : Bool
  prev : Bool
  deriving DecidableEq, Repr

/-- A safety input: its channels, its faults, its value, whether a demand has been seen since the value was 1 and both channels
showed it together (R464), and the cycles the channels have disagreed. -/
structure SafIn where
  a : SafChan
  b : SafChan
  pulse : Bool
  disc : Bool
  value : Bool
  dem : Bool
  both : Bool
  apart : Nat
  deriving DecidableEq, Repr

/-- A safety output: on, its faults, the mirror as last taken, the cycles left for the mirror to follow a switching (R467), the
cycles above 2.5 A (R468). -/
structure SafOut where
  on : Bool
  edm : Bool
  test : Bool
  overload : Bool
  mirror : Bool
  wait : Option Nat
  hot : Nat
  deriving DecidableEq, Repr

/-- An axis: the counts of its taps, offset B, positions A of the last 16 cycles (newest first), pA, pB, speed and difference, its
flags, and the cycles beyond the tolerance (R470). -/
structure SafAx where
  ca : Int
  cb : Int
  offB : Word
  hist : List Word
  pa : Word
  pb : Word
  spd : Word
  diff : Word
  okA : Bool
  okB : Bool
  fault : Bool
  apart : Nat
  deriving DecidableEq, Repr

/-- A function: state, cause, early flag, demanded or active now, whether its demand was present at or after entry to STOPPED,
cycles in SS1_RAMP, cycles still, v0, and for a monitor the cycles in violation and p0. -/
structure SafFn where
  state : Nat
  cause : Nat
  early : Bool
  dem : Bool
  seen : Bool
  t : Nat
  still : Nat
  v0 : Word
  viol : Nat
  p0 : Word
  deriving DecidableEq, Repr

/-- A copy of a safe frame that waits for its pair (R479): sequence, letter, bytes 8 to 27, and the instant it came. -/
structure SafCopy where
  seq : Nat
  letter : Nat
  body : List Byte
  at_ : Nat
  deriving DecidableEq, Repr

/-- A safe connection: its state (R491), the sequence it sends, the last accepted one with its letters, waiting copies, the
remote bits and position, the instant of each letter's last valid copy, letters lost, the counters of SAF_CONNk_CNT: crc_err,
seq_err, missing, mismatch, the instant of the last acceptance, at first that of the configuration, and that at which its newest frame left;
instants are powered ns. -/
structure SafConn where
  state : Nat
  out : Nat
  last : Option Nat
  taken : List Nat
  held : List SafCopy
  bits : Nat
  pos : Option Word
  heard : List (Option Nat)
  lost : List Bool
  cnt : List Nat
  acc : Nat
  sent : Option Nat
  deriving DecidableEq, Repr

/-- An entry of the island's fault log: event code, instance, detail, and the powered seconds. -/
structure SafLog where
  code : Nat
  inst : Nat
  what : Nat
  at_ : Nat
  deriving DecidableEq, Repr

/-- The island (R458 to R491): state (0 BOOT, 1 TEST, 2 RUN, 3 SAFE), firmware version, the cycle within the 40 ms period of the
test pulses and whether a full period counts, inputs, outputs, axes, functions, connections, the accepted image and the candidate,
host demands, cycles since the last application heartbeat, the permit, VSAFE in mV, cycles below 16 V and whether it is low,
accepted resets, the reset source's level with the cycles it has been high (none: no rising edge) and low, a rejected reset waiting for its
low time, failed clock domains, the fault log (newest first), a running SAF_OUT_TEST: output, command, and the sides tested with the failed
ones; and the island's copies of the vault's root keys and of counters 2 and 4 (R652). -/
structure Saf where
  state : Nat
  ver : Word
  cyc : Nat
  full : Bool
  si : List SafIn
  so : List SafOut
  ax : List SafAx
  fn : List SafFn
  conn : List SafConn
  cfg : Option (List Byte)
  cand : Option (List Byte)
  host : Nat
  hb : Nat
  permit : Bool
  mv : Nat
  lowRun : Nat
  low : Bool
  resets : Nat
  srcHigh : Bool
  high : Option Nat
  srcLow : Nat
  barred : Bool
  clk : Nat
  log : List SafLog
  test : Option (Nat × Cmd × List Nat × Bool)
  keys : List RootSlot
  ctr2 : Nat
  ctr4 : Nat
  deriving DecidableEq, Repr

def SafChan.reset : SafChan := ⟨false, 0, none, false, false⟩
def SafIn.reset : SafIn := ⟨SafChan.reset, SafChan.reset, false, false, false, false, false, 0⟩
def SafOut.reset : SafOut := ⟨false, false, false, false, false, none, 0⟩
def SafAx.reset : SafAx := ⟨0, 0, 0, [], 0, 0, 0, 0, false, false, false, 0⟩
def SafFn.reset : SafFn := ⟨3, 0, false, false, false, 0, 0, 0, 0, 0⟩
def SafConn.reset : SafConn := ⟨0, 0, none, [], [], 0, none, [none, none], [false, false], [0, 0, 0, 0], 0, none⟩

/-- The island before it boots: BOOT, no accepted configuration, no heartbeat heard, the reset source unknown. -/
def Saf.reset : Saf :=
  ⟨0, 0, 0, false, List.replicate 8 SafIn.reset, List.replicate 4 SafOut.reset, List.replicate 8 SafAx.reset,
   List.replicate 16 SafFn.reset, List.replicate 16 SafConn.reset, none, none, 0, 13, false, 0, 0, false, 0, true, none, 0, false, 0,
   [], none, [], 0, 0⟩

/-! ### Stack (chapter 14) -/

/-- What is known of the module at a position: misses in a row, whether it is present, the ports it is heard on, the instant of its
newest heartbeat and what that carried (R513): cycle, role, module state, flags, hash bytes, shadow format; and the instant from which it
has been heard in this role without a loss, that from which its heartbeats have reported its line released, and the whole millisecond of its
newest miss. Instants here and in the stack's own fields are powered ns, but for the detection of a takeover, which is one of the timebase. -/
structure Peer where
  miss : Nat
  present : Bool
  ports : List Nat
  at_ : Nat
  cycle : Nat
  role : Nat
  state : Nat
  flags : Nat
  hash : List Byte
  fmt : Nat
  since : Nat
  freeFor : Option Nat
  missed : Option Nat
  deriving DecidableEq, Repr

/-- A resynchronisation in progress on a SYNCING unit (R524 to R526): the instant it began, the commit cycle named, the items received,
whether it is committed, and the digests matched since. -/
structure SyncIn where
  start : Nat
  commit : Option Nat
  lch : Option SyncLch
  pl : Option SyncPl
  strs : List (Nat × SyncStr)
  done : Bool
  matched : Nat
  deriving DecidableEq, Repr

/-- The stack beyond its registers: line hold timer running, the takeover cause and detection instant of a
claim, the instant of a takeover whose outputs are not live yet, whether the 200 ms of listening are over with the role unresolved,
whether a heartbeat of an ACTIVE controller arrived since FIDDLEHEAD, the modules known, the last accepted sequence by
source and class, own sequence by class, the instants of divergences, consecutive UNSHADOWED cycles, own digest waiting
for comparison (cycle, digest, UNSHADOWED), outcomes of the last comparisons (newest first), the resynchronisation here and the commit
cycle offered to a SYNCING peer with whether the late items left, a switchover: cycle, command, and whether an isolation follows;
STK_CFG of the next start, link tests: port, command, CRC errors and instant at its start; cable delays in ns, CRC errors of the present second, the instant the ring was joined,
whether the first master time was adopted, the own shadow format, the instant of the newest own heartbeat (R505), that at which the holder became
holder, and that at which its line was released (R510, R511); the instants from which BRG_0, BRG_1 and PBR_IN have read what they read and that at
which the own line was last driven (R506 to R510); the whole milliseconds of the newest own heartbeat and beacon; and for each port the CRC
errors of the last second and the instant it went down (R495). -/
structure Stk where
  hold : Bool
  take : Option (Nat × Nat)
  live : Option (Nat × Nat)
  waits : Bool
  heard : Bool
  peers : List Peer
  seqIn : List (Nat × Nat)
  seqOut : List Nat
  diverged : List Nat
  unsh : Nat
  recent : List Bool
  sync : Option SyncIn
  offer : Option (Nat × Bool)
  switch : Option (Nat × Option (Nat × Cmd) × Bool)
  grant : Option Nat
  cfgNext : Option Word
  test : List (Nat × Cmd × Nat × Nat)
  delay : List Nat
  errs : List Nat
  joined : Option Nat
  aligned : Bool
  fmt : Nat
  sentAt : Nat
  heldAt : Nat
  freeAt : Option Nat
  lineAt : List Nat
  drvAt : Nat
  sentMs : Option Nat
  beaconMs : Option Nat
  errAt : List (List Nat)
  downAt : List (Option Nat)
  deriving DecidableEq, Repr

def Peer.reset : Peer := ⟨0, false, [], 0, 0, 7, 0, 0, [], 0, 0, none, none⟩

/-- Nothing heard, nothing driven. -/
def Stk.reset : Stk :=
  ⟨false, none, none, false, false, List.replicate 6 Peer.reset, [], [0, 0, 0, 0], [], 0, [], none, none, none, none, none, [], [0, 0],
   [0, 0], none, false, 0, 0, 0, none, [0, 0, 0], 0, none, none, [[], []], [none, none]⟩


/-! ### The whole state -/

/-- Everything outside the timebase and the vault. -/
structure Mach where
  regs : List (Nat × Word)
  latch : List (Nat × Word)
  freeCount : Nat
  out : List Out
  hif : Hif
  irq : Irq
  peat : Peat
  time : TimeSt
  clk : List ClkMon
  grid : Grid
  gns : Gns
  lch : Lch
  fil : Fil
  fbk : Fbk
  can : List CanCtl
  dio : Dio
  pl : Pl
  slv : Slv
  str : Str
  faults : List FaultEntry
  saf : Saf
  stk : Stk
  boot : Boot
  fw : Upd
  deriving DecidableEq, Repr

/-- The timebase, the vault, and the TIME cycles the module has been powered (R637). -/
structure Env where
  time : Timebase
  vault : Vault
  powered : Nat
  deriving DecidableEq, Repr

/-- The module: the commands that wait, first in first out; the timebase and the vault; and the rest. -/
structure State where
  pending : List Instr
  env : Env
  m : Mach
  deriving DecidableEq, Repr

/-- Why a step stops with a fault. -/
inductive Fault where
  /-- Raised by a meaning whose operand names an instance (a channel, a port, a string …) that the module does not have
  (R2, R5: the register tables give each block's instances). No such command can reach the hardware. Safe. -/
  | noInstance
  deriving DecidableEq, Repr

/-- Why a step is refused. -/
inductive Refusal where
  /-- Raised by a dispatch arm whose command has no meaning yet. Safe. -/
  | notModelled (mnemonic : String)
  deriving DecidableEq, Repr

/-- The timebase before its first start: zero, at the nominal increment of 4.0 ns (R51, R54). -/
def Timebase.reset : Timebase := ⟨0, 0, 0, 0x400000000⟩

/-- Everything outside the timebase and the vault, at reset. -/
def Mach.reset : Mach :=
  ⟨[], [], 0, [], Hif.reset, Irq.reset, Peat.reset, TimeSt.reset, List.replicate 12 ClkMon.reset,
   Grid.reset, Gns.reset, Lch.reset, Fil.reset, Fbk.reset, List.replicate 4 CanCtl.reset,
   Dio.reset, Pl.reset, Slv.reset, Str.reset, [],
   Saf.reset, Stk.reset, Boot.reset, Upd.reset⟩

/-- The module right after reset: every register at the reset value of its table, nothing waiting. -/
def State.reset : State := ⟨[], ⟨Timebase.reset, Vault.reset, 0⟩, Mach.reset⟩

end Sys2Proof.Machine
end

