-- ==== Sys2Proof/Machine/Flags.lean ====
section
/-!
DEFINITION. The register file, and the fields, flags and counters of its registers (R7, R8).
-/
namespace Sys2Proof.Machine

/-! ### The register file -/

/-- The listed value at an offset. -/
def cellGet : List (Nat × Word) → Nat → Option Word
  | [], _ => none
  | (a, v) :: l, off => if a = off then some v else cellGet l off

/-- Listing of a value under an offset that is not listed, offsets rising. -/
def cellPut (off : Nat) (v : Word) : List (Nat × Word) → List (Nat × Word)
  | [] => [(off, v)]
  | (a, w) :: l =>
    if off < a then (off, v) :: (a, w) :: l else (a, w) :: cellPut off v l

/-- Removal of an offset. -/
def cellDel (off : Nat) : List (Nat × Word) → List (Nat × Word)
  | [] => []
  | (a, w) :: l => if a = off then cellDel off l else (a, w) :: cellDel off l

/-- The stored value of a register: an unlisted register holds its reset value. -/
def regGet (l : List (Nat × Word)) (off : Nat) : Word := (cellGet l off).getD (resetOf off)

/-- Storing into a register; a register at its reset value is not listed. -/
def regPut (l : List (Nat × Word)) (off : Nat) (v : Word) : List (Nat × Word) :=
  if v = resetOf off then cellDel off l else cellPut off v (cellDel off l)

/-- The canonical form of the register file: offsets strictly rising and no value equal to its reset value. -/
def regsWf : List (Nat × Word) → Bool
  | [] => true
  | [(a, v)] => v != resetOf a
  | (a, v) :: (b, w) :: l => decide (a < b) && v != resetOf a && regsWf ((b, w) :: l)

/-- The stored word of a register. -/
def Mach.rd (m : Mach) (off : Nat) : Word := regGet m.regs off

/-- The module's own write of a whole register, whatever the access codes for the host. -/
def Mach.wr (m : Mach) (off : Nat) (v : Word) : Mach := { m with regs := regPut m.regs off v }

/-- The width of a field. -/
def fldWidth (f : Fld) : Nat := f.hi + 1 - f.lo

/-- A field of a word. -/
def fldGet (f : Fld) (w : Word) : Nat := w.toNat / 2 ^ f.lo % 2 ^ fldWidth f

/-- A word with one field replaced. -/
def fldPut (f : Fld) (w : Word) (v : Nat) : Word :=
  BitVec.ofNat 32
    (w.toNat / 2 ^ (f.hi + 1) * 2 ^ (f.hi + 1) + v % 2 ^ fldWidth f * 2 ^ f.lo + w.toNat % 2 ^ f.lo)

/-- The value of a field. -/
def Mach.g (m : Mach) (f : Fld) : Nat := fldGet f (m.rd f.off)

/-- The module's own write of one field. -/
def Mach.s (m : Mach) (f : Fld) (v : Nat) : Mach := m.wr f.off (fldPut f (m.rd f.off) v)

/-- A field read as a flag. -/
def Mach.b (m : Mach) (f : Fld) : Bool := m.g f != 0

/-- A flag written. -/
def Mach.sb (m : Mach) (f : Fld) (v : Bool) : Mach := m.s f (if v then 1 else 0)

/-- A saturating counter field raised by n. -/
def Mach.addSat (m : Mach) (f : Fld) (n : Nat) : Mach :=
  m.s f (if m.g f + n < 2 ^ fldWidth f then m.g f + n else 2 ^ fldWidth f - 1)

/-- A saturating counter field counts once. -/
def Mach.up (m : Mach) (f : Fld) : Mach := m.addSat f 1

/-- A wrapping counter field counts once. -/
def Mach.upWrap (m : Mach) (f : Fld) : Mach := m.s f (m.g f + 1)

/-- Bit i of the register at an offset. -/
def Mach.bit (m : Mach) (off i : Nat) : Bool := m.g ⟨off, i, i⟩ != 0

/-- The module's own write of bit i of the register at an offset. -/
def Mach.setBit (m : Mach) (off i : Nat) (v : Bool) : Mach := m.sb ⟨off, i, i⟩ v

/-- A signed field. -/
def Mach.gi (m : Mach) (f : Fld) : Int := toSigned (fldWidth f) (m.g f)

/-- A 64-bit number held in two registers, low word first. -/
def Mach.rd64 (m : Mach) (lo hi : Nat) : Nat := (m.rd lo).toNat + 2 ^ 32 * (m.rd hi).toNat

/-- Storing a 64-bit number in two registers. -/
def Mach.wr64 (m : Mach) (lo hi n : Nat) : Mach :=
  (m.wr lo (BitVec.ofNat 32 n)).wr hi (BitVec.ofNat 32 (n / 2 ^ 32))

end Sys2Proof.Machine
end

