-- ==== Sys2Proof/Machine/Operands.lean ====
section
/-!
DEFINITION. The operands of a command: its parameter bytes, its data buffer, its lengths and the bytes its envelope covers (R551, R553, R655).
-/
namespace Sys2Proof

/-- Parameter byte i of a command. -/
def Cmd.u8 (c : Cmd) (i : Nat) : Nat := (c.params.getD i 0).toNat

/-- n parameter bytes from byte i, little-endian. -/
def Cmd.un (c : Cmd) (i n : Nat) : Nat := unle ((c.params.drop i).take n) % 2 ^ (8 * n)

def Cmd.u16 (c : Cmd) (i : Nat) : Nat := c.un i 2
def Cmd.u32 (c : Cmd) (i : Nat) : Nat := c.un i 4

/-- A 32-bit little-endian word of the data buffer. -/
def Cmd.d32 (c : Cmd) (i : Nat) : Nat := unle ((c.data.drop i).take 4)

/-- A little-endian number of n bytes of the data buffer. -/
def Cmd.dn (c : Cmd) (i n : Nat) : Nat := unle ((c.data.drop i).take n)

/-- The command came by a maintenance datagram (R569). -/
def Cmd.isMaint (c : Cmd) : Bool := match c.path with | .maint _ _ => true | _ => false

/-- The SQ of a command. -/
def Cmd.sq (c : Cmd) : Nat := match c.path with | .queue q => q | _ => 0

/-- The lengths of an entry fail their check of R553, or that of R569. -/
def Cmd.lenBad (c : Cmd) : Bool :=
  decide (c.bufLen < c.dataLen) || decide (16777216 < c.bufLen)
    || (if c.isMaint then decide (1024 < c.bufLen) else c.bufLen != 0 && c.bufAddr == 0)

/-- The bytes an envelope's tag covers (R655). -/
def Cmd.tagged (c : Cmd) (op : Nat) : List Byte :=
  c.env.take 32 ++ le 1 op ++ le 4 c.dataLen ++ (c.params ++ List.replicate (44 - c.params.length) 0) ++ c.data

end Sys2Proof
end

