-- ==== Sys2Proof/Machine/Ops.lean ====
section
/-!
DEFINITION. The named operations every meaning is written over: the module's own writes beyond single registers, what
leaves the module, Peat's write buffer, the event and stream queues, completions, and the forms a meaning's answer takes.
Log: 2 (DESIGN CHOICE), 4 (DEDUCED), 6 (DESIGN CHOICE), 7 (DESIGN CHOICE), 16 (PRESUMED), 44 (DEDUCED), 46 (DEDUCED), 91 (DEDUCED), 92 (DEDUCED), 122 (DEDUCED).
-/
namespace Sys2Proof.Machine

/-! ### Blocks of registers -/

/-- The registers of a block in a status command's data buffer: n words from an offset, little-endian. -/
def Mach.words (m : Mach) (off : Nat) : Nat → List Byte
  | 0 => []
  | n + 1 => le 4 (m.rd off).toNat ++ m.words (off + 4) n

/-- The module shadows the active controller: as STANDBY, and as SYNCING from the commit (R525). -/
def Mach.shadows (m : Mach) : Bool :=
  m.g .STK_STS_role == 1 || (m.g .STK_STS_role == 2 && (match m.stk.sync with | some x => x.done | none => false))

/-! ### Lists -/

/-- Element i of a list, or a default. -/
def nth {α : Type} (d : α) (l : List α) (i : Nat) : α := l.getD i d

/-- A list with element i changed. -/
def upd {α : Type} : List α → Nat → (α → α) → List α
  | [], _, _ => []
  | a :: l, 0, f => f a :: l
  | a :: l, i + 1, f => a :: upd l i f

/-- The value listed for a key. -/
def assoc {β : Type} (d : β) : List (Nat × β) → Nat → β
  | [], _ => d
  | (a, v) :: l, k => if a = k then v else assoc d l k

/-- A key's value set; keys stay rising. -/
def setAssoc {β : Type} (k : Nat) (v : β) : List (Nat × β) → List (Nat × β)
  | [] => [(k, v)]
  | (a, w) :: l => if k < a then (k, v) :: (a, w) :: l else if k = a then (k, v) :: l else (a, w) :: setAssoc k v l

/-- A key removed. -/
def delAssoc {β : Type} (k : Nat) (l : List (Nat × β)) : List (Nat × β) := l.filter fun p => p.1 != k

/-- A clock domain that fails (R36): out of tolerance against both of its monitors in three windows. -/
def Mach.clkFailed (m : Mach) (d : Nat) : Bool := decide (3 ≤ (nth ClkMon.reset m.clk d).both)

/-- `iter n f x`: f applied at 0, 1, … n − 1 in turn. -/
def iter {α : Type} (n : Nat) (f : Nat → α → α) (x : α) : α := (List.range n).foldl (fun a i => f i a) x

/-! ### Time -/

/-- The timebase as a long stamp. -/
def Timebase.now (t : Timebase) : Stamp := ⟨t.sec, t.ns⟩

/-- The timebase in nanoseconds. -/
def Timebase.nowNs (t : Timebase) : Nat := t.sec * 1000000000 + t.ns

/-- The instant as nanoseconds. -/
def Env.ns (e : Env) : Nat := e.time.nowNs

/-- The instant as a long stamp. -/
def Env.now (e : Env) : Stamp := e.time.now

/-! ### What leaves the module -/

/-- Something leaves the module at a pin, a link or a port. -/
def Mach.emit (m : Mach) (what : String) (idx : Nat) (val : Int) (bytes : List Byte := []) : Mach :=
  { m with out := ⟨what, idx, val, bytes⟩ :: m.out }

/-- The VLAN tag of a frame that a port sends (R565, R568): priority pcp for safe and PTP frames, 0 for others. -/
def Mach.netTag (m : Mach) (p : Nat) (prio : Bool) : List Byte :=
  if m.b (.NETp_VLAN_vlan_en p) then le 2 0x0081 ++ (le 2 ((if prio then m.g (.NETp_VLAN_pcp p) else 0) * 8192 + m.g (.NETp_VLAN_vid p))).reverse else []

/-- A frame leaves an Ethernet port that is enabled and up. -/
def Mach.netSend (m : Mach) (what : String) (p : Nat) (val : Int) (bytes : List Byte) : Mach :=
  if m.b (.NETp_CTRL_en p) && m.b (.NETp_STS_link p) then (m.upWrap (.NETp_TX_CNT_frames p)).emit what p val bytes else m

/-- The class of a link frame's type (R497). -/
def linkClass (typ : Nat) : Nat := match typ with | 1 => 0 | 0xC => 0 | 2 => 2 | 7 => 2 | 0xA => 3 | _ => 1

/-- A frame leaves out of each Onauc port that is up (R496, R497): header, payload and CRC-32C; `val` is the destination mask. -/
def Mach.linkSend (m : Mach) (typ dest : Nat) (p : List Byte) : Mach :=
  let up0 := m.b .STK_LINK0_STS_up
  let up1 := m.b .STK_LINK1_STS_up
  if !up0 && !up1 then m
  else
    let cl := linkClass typ
    let q := m.stk.seqOut
    let f := le 1 typ ++ le 1 (m.g .STK_STS_pos) ++ le 1 dest ++ le 1 cl ++ le 2 (q.getD cl 0) ++ le 2 p.length ++ le 8 0 ++ p
    let f' := f ++ le 4 (crc32c f)
    let m1 := { m with stk := { m.stk with seqOut := q.set cl ((q.getD cl 0 + 1) % 65536) } }
    let m2 := if up0 then m1.emit "LINK" 0 dest f' else m1
    if up1 then m2.emit "LINK" 1 dest f' else m2

/-- The next free value: an open value of the spec, never a number of the model's choosing. -/
def Mach.free (m : Mach) : Word × Mach := (Config.freeValue m.freeCount, { m with freeCount := m.freeCount + 1 })

/-! ### Peat's write buffer (R593, R597, R598) -/

/-- The bytes a record takes (R593). -/
def recSize (r : PeatRec) : Nat := 20 + r.payload.length

/-- The bytes the write buffer holds. -/
def bufFill (l : List PeatRec) : Nat := (l.map recSize).sum

/-- The size of the write buffer (R46). -/
def bufSize : Nat := 268435456

/-- LOG_BUF and buf_high follow the fill of the write buffer (R598, R609 bit 4). -/
def Mach.bufSync (m : Mach) : Mach :=
  let fill := bufFill m.peat.buffer
  let high := decide (fill * 4 > bufSize * 3)
  let m1 := if high != m.b .LOG_STS_buf_high then (m.sb .LOG_STS_buf_high high).setBit Reg.LOG_IRQ_STS 4 true else m
  let mib := fill / 1048576
  (m1.s .LOG_BUF_fill mib).s .LOG_BUF_peak (max (m1.g .LOG_BUF_peak) mib)

/-- A record is dropped at entry or at commit (R598, R600). -/
def Mach.peatDrop (m : Mach) (sev : Nat) : Mach :=
  let m1 := ((m.up .LOG_DROP_dropped).sb .LOG_STS_dropped true).setBit Reg.LOG_IRQ_STS 1 true
  { m1 with peat := { m1.peat with dropSev := upd m1.peat.dropSev sev (· + 1) } }

/-- The record types of the recorder itself (R594). -/
def typAnchor : Nat := 0xF001
def typDropped : Nat := 0xF002
def typCycle : Nat := 0xF003
def typStart : Nat := 0xF004
def typIgnored : Nat := 0xF005

/-- A record is filtered (R598): below min_sev, and not an anchor (R596). -/
def Mach.peatFiltered (m : Mach) (r : PeatRec) : Bool := decide (r.sev < m.g .LOG_CFG_min_sev) && r.typ != typAnchor

/-- A record would be dropped at entry (R598). -/
def Mach.peatFull (m : Mach) (r : PeatRec) : Bool :=
  (m.b .LOG_STS_buf_high && decide (r.sev ≤ 2)) || decide (bufSize < bufFill m.peat.buffer + recSize r)

/-- A record enters the write buffer (R597, R598). -/
def Mach.record (m : Mach) (r : PeatRec) : Mach :=
  if m.peatFiltered r then m.up .LOG_CNT_filtered
  else if m.peatFull r then m.peatDrop r.sev
  else { m with peat := { m.peat with buffer := m.peat.buffer ++ [r] } }.bufSync

/-- A payload padded with 0 to a whole word; an empty payload is one zero word (R594). -/
def padWord (p : List Byte) : List Byte :=
  if p.isEmpty then le 4 0 else p ++ List.replicate ((4 - p.length % 4) % 4) 0

/-- The anchor flags of R596. -/
def anchorBefore : Nat := 8
def anchorAfter : Nat := 16
def anchorStart : Nat := 32

/-- A TIME_ANCHOR enters the buffer (R596): it maps its own sequence number to the instant. -/
def Mach.anchor (m : Mach) (e : Env) (flags : Nat) : Mach :=
  let bits := (if m.b .TIME_STS_valid then 1 else 0) + (if m.b .TIME_STS_hold then 2 else 0)
    + (if m.b .GEN_CLK_REF_ref_lost then 4 else 0) + flags
  m.record ⟨1, 0x11, typAnchor, le 6 e.now.sec ++ le 2 0 ++ le 4 e.now.ns ++ le 4 (m.g .TIME_HOLD_BOUND_bound)
    ++ le 1 bits ++ le 1 (m.g .TIME_STS_src_eff) ++ le 2 0 ++ le 4 e.now.short, none⟩

/-! ### Queues (R537 to R548) -/

/-- The queue types of HIF_Q_ERR and HIF_DROP (R573). -/
inductive QType where
  | sq | cq | eq | stq
  deriving DecidableEq, Repr

/-- The code of a queue type (R573). -/
def QType.code : QType → Nat
  | .sq => 0 | .cq => 1 | .eq => 2 | .stq => 3

/-- The number of queues of a type (R537). -/
def QType.count : QType → Nat
  | .eq => 8 | _ => 16

/-- The offset of a queue's BASE_LO register; BASE_HI, CFG and STS follow (R575). -/
def QType.base (t : QType) (n : Nat) : Nat :=
  (match t with | .sq => 0x00010100 | .cq => 0x00010200 | .eq => 0x00010300 | .stq => 0x00010400) + 0x10 * n

def qCfg (t : QType) (n : Nat) : Nat := t.base n + 8
def qSts (t : QType) (n : Nat) : Nat := t.base n + 12
def qEn (t : QType) (n : Nat) : Fld := ⟨qCfg t n, 0, 0⟩
def qK (t : QType) (n : Nat) : Fld := ⟨qCfg t n, 8, 4⟩
def qInfo (t : QType) (n : Nat) : Fld := ⟨qSts t n, 31, 24⟩
def qCode (t : QType) (n : Nat) : Fld := ⟨qSts t n, 23, 20⟩
def qErr (t : QType) (n : Nat) : Fld := ⟨qSts t n, 19, 19⟩
def qStall (t : QType) (n : Nat) : Fld := ⟨qSts t n, 18, 18⟩
def qBusy (t : QType) (n : Nat) : Fld := ⟨qSts t n, 17, 17⟩
def qPos (t : QType) (n : Nat) : Fld := ⟨qSts t n, 16, 0⟩

/-- An empty ring: both indices 0 with phase 0 (R540). -/
def Ring.empty : Ring := ⟨0, 0, 0, 0, 0, 0, []⟩

/-- The rings of a type. -/
def Hif.rings (h : Hif) : QType → List Ring
  | .sq => h.sq | .cq => h.cq | .eq => h.eq | .stq => h.stq

/-- One queue. -/
def Mach.ring (m : Mach) (t : QType) (n : Nat) : Ring := nth Ring.empty (m.hif.rings t) n

/-- 2^k of a queue. -/
def Mach.ringSize (m : Mach) (t : QType) (n : Nat) : Nat := 2 ^ m.g (qK t n)

/-- Storing a queue; STS shows the module's index and its phase (R576). -/
def Mach.setRing (m : Mach) (t : QType) (n : Nat) (r : Ring) : Mach :=
  let h := m.hif
  let h' : Hif := match t with
    | .sq => { h with sq := upd h.sq n fun _ => r }
    | .cq => { h with cq := upd h.cq n fun _ => r }
    | .eq => { h with eq := upd h.eq n fun _ => r }
    | .stq => { h with stq := upd h.stq n fun _ => r }
  let size := m.ringSize t n
  { m with hif := h' }.s (qPos t n) (r.mod_ % size + r.mod_ / size % 2 * 65536)

/-- The entries between a producer and a consumer index (R540), both numbers modulo 2^(k+1). -/
def ringCount (size prod cons : Nat) : Nat := (prod + 2 * size - cons % (2 * size)) % (2 * size)

/-- The entries or slots a CQ, EQ or STQ holds. -/
def Mach.ringUsed (m : Mach) (t : QType) (n : Nat) : Nat :=
  ringCount (m.ringSize t n) (m.ring t n).mod_ (m.ring t n).host

/-- A queue that takes entries: enabled and not stopped by an error (R543, R548). -/
def Mach.ringOpen (m : Mach) (t : QType) (n : Nat) : Bool := m.b (qEn t n) && !m.b (qErr t n)

/-! ### Writes of host memory (R538, R539, R546, R547) -/

/-- Bytes written in host memory at a bus address. -/
def Mach.hostStore (m : Mach) (addr : Nat) (b : List Byte) : Mach := m.emit "MEM" addr b.length b

/-- Bytes filled up with 0 to a length. -/
def padTo (n : Nat) (b : List Byte) : List Byte := b ++ List.replicate (n - b.length) 0

/-- The bytes of a CQ entry (R552), of the one or two entries of an event (R555), or of the slots of a stream record (R558), with a phase tag. -/
def Held.bytes (h : Held) (tag : Nat) : List Byte :=
  match h.entry with
  | .completion st cid sq op index written stamp res _ =>
    padTo 32 (le 1 tag ++ le 1 st ++ le 2 cid ++ le 1 sq ++ le 1 op ++ le 2 index ++ le 4 written ++ le 4 stamp ++ res)
  | .event sev code seq at_ p =>
    let two := h.slots = 2
    le 1 (if two then tag + 2 else tag) ++ le 1 sev ++ le 2 code ++ le 2 seq ++ le 6 at_.sec ++ le 4 at_.ns ++ padTo 16 (p.take 16)
      ++ if two then le 4 0 ++ padTo 28 (p.drop 16) else []
  | .stream kind source flags seq body =>
    padTo (32 * h.slots) (le 1 tag ++ le 1 kind ++ le 1 h.slots ++ le 1 source ++ le 2 flags ++ le 2 body.length ++ le 4 seq ++ le 4 0 ++ body)

/-- The bus address of an entry or slot of a ring (R541). -/
def Mach.slotAddr (m : Mach) (t : QType) (n i : Nat) : Nat :=
  m.rd64 (t.base n) (t.base n + 4) + (if t = .sq then 64 else 32) * (i % m.ringSize t n)

/-- The phase tag of what is written at a producer index: the inverse of its phase (R547). -/
def Mach.phaseTag (m : Mach) (t : QType) (n i : Nat) : Nat := 1 - i / m.ringSize t n % 2

/-- An entry, event or record is written at a producer index: its later slots, then the first with the phase tag (R546). -/
def Mach.storeHeld (m : Mach) (t : QType) (n i : Nat) (h : Held) : Mach :=
  let b := h.bytes (m.phaseTag t n i)
  let slot (j : Nat) (m : Mach) : Mach := m.hostStore (m.slotAddr t n (i + j)) ((b.drop (32 * j)).take 32)
  slot 0 (iter (h.slots - 1) (fun j => slot (j + 1)) m)

/-- The offset of a queue's word in the doorbell and the shadow page (R538). -/
def QType.word (t : QType) (n : Nat) : Nat :=
  8 * n + match t with | .sq => 0x000 | .cq => 0x080 | .eq => 0x100 | .stq => 0x140

/-- The bytes of a shadow word (R539): the module's index, its phase and the short stamp of the write. -/
def Mach.shadowWord (m : Mach) (t : QType) (n : Nat) (at_ : Stamp) : List Byte :=
  let i := (m.ring t n).mod_
  let size := m.ringSize t n
  le 2 (i % size) ++ le 2 (i / size % 2) ++ le 4 at_.short

/-- The shadow word of a queue is written. -/
def Mach.storeShadow (m : Mach) (t : QType) (n : Nat) (at_ : Stamp) : Mach :=
  m.hostStore (m.rd64 Reg.HIF_SH_BASE_LO Reg.HIF_SH_BASE_HI + t.word n) (m.shadowWord t n at_)

/-- An entry, event or record at a ring's producer index: its slots in host memory, then the shadow word that covers them (R546). -/
def Mach.push (m : Mach) (t : QType) (n : Nat) (r : Ring) (h : Held) : Mach :=
  ((m.storeHeld t n r.mod_ h).setRing t n { r with mod_ := (r.mod_ + h.slots) % (2 * m.ringSize t n), held := r.held ++ [h] }).storeShadow t n h.at_

/-! ### Events (R555 to R557) -/

/-- The block of an event code (R711). -/
def blockOfEvent (code : Nat) : Nat :=
  if code < 0x100 then 0 else if code < 0x1000 then 1 else if code < 0x2000 then 3 else if code < 0x3000 then 12
  else if code < 0x3800 then 8 else if code < 0x4000 then 7 else if code < 0x5000 then 6
  else if code < 0x5800 then 4 else if code < 0x6000 then 5 else if code < 0x7000 then 4
  else if code < 0x7800 then 9 else if code < 0x8000 then 10 else if code < 0x8800 then 11
  else if code < 0x9000 then 15 else if code < 0xA000 then 13 else if code < 0xB000 then 14 else 16

/-- An event entry written in an EQ; a payload above 16 bytes takes two entries (R555). -/
def Mach.putEvent (m : Mach) (e : Env) (q sev code : Nat) (p : List Byte) : Mach :=
  let r := m.ring .eq q
  let m1 := m.push .eq q { r with seq := (r.seq + 1) % 65536 }
    ⟨if 16 < p.length then 2 else 1, e.now, .event sev code r.seq e.now p⟩
  m1.setBit Reg.HIF_IRQ_STS (16 + q) true

/-- The entries an event takes. -/
def evSlots (p : List Byte) : Nat := if 16 < p.length then 2 else 1

/-- An EQ keeps at least one entry free after n more (R557). -/
def Mach.eqRoom (m : Mach) (q n : Nat) : Bool := decide (m.ringUsed .eq q + n + 1 ≤ m.ringSize .eq q)

/-- A dropped event (R557). -/
def Mach.eqDrop (m : Mach) (q : Nat) : Mach :=
  let r := m.ring .eq q
  (((m.setRing .eq q { r with dropped := r.dropped + 1 }).up (qInfo .eq q)).up .HIF_ERR_CNT_eq_drop).setBit
    Reg.HIF_IRQ_STS 31 true

/-- An event meets its EQ: written when it keeps one entry free and no drop waits to be told, else dropped (R557). -/
def Mach.toEq (m : Mach) (e : Env) (q sev code : Nat) (p : List Byte) : Mach :=
  if !m.ringOpen .eq q then m
  else if (m.ring .eq q).dropped = 0 && m.eqRoom q (evSlots p) then m.putEvent e q sev code p
  else m.eqDrop q

/-- An event reaches the EQ that HIF_EVT_ROUTEb gives its block (R556). -/
def Mach.route (m : Mach) (e : Env) (sev code : Nat) (p : List Byte) : Mach :=
  let b := blockOfEvent code
  if m.b (.HIF_EVT_ROUTEb_en b) && decide (m.g (.HIF_EVT_ROUTEb_min_sev b) ≤ sev)
  then m.toEq e (m.g (.HIF_EVT_ROUTEb_eq b)) sev code p
  else m

/-- After drops, HIF_DROP is written before any newer event as soon as the EQ keeps one entry free after it (R557). -/
def Mach.tellDrops (m : Mach) (e : Env) (q : Nat) : Mach :=
  let r := m.ring .eq q
  if r.dropped != 0 && m.ringOpen .eq q && m.eqRoom q 1 then
    let p := le 1 QType.eq.code ++ le 1 q ++ le 4 r.dropped
    ((m.setRing .eq q { r with dropped := 0 }).record ⟨3, 1, 0x0102, padWord p, none⟩).putEvent e q 3 0x0102 p
  else m

/-- An event is posted (R555, R556, R594): a Peat record of its severity when its table gives one, whatever the routing,
and an entry in the EQ of its block; without a record its severity is 1 INFO. -/
def Mach.event (m : Mach) (e : Env) (code : Nat) (psev : Option Nat) (p : List Byte) : Mach :=
  let m1 := match psev with
    | some sev => m.record ⟨sev, blockOfEvent code, code, padWord p, none⟩
    | none => m
  let q := m.g (.HIF_EVT_ROUTEb_eq (blockOfEvent code))
  (m1.tellDrops e q).route e (psev.getD 1) code p

/-- An event of severity INFO that the tables give no record. -/
def Mach.note (m : Mach) (e : Env) (code : Nat) (p : List Byte) : Mach := m.event e code none p

/-! ### Fault table (R636 to R639) -/

/-- The powered time in ns: TIME cycles of 4 ns, which no step of the timebase moves. -/
def Env.upNs (e : Env) : Nat := 4 * e.powered

/-- The powered seconds (R637): TIME cycles of 4 ns. -/
def Env.poweredSec (e : Env) : Nat := e.powered / 250000000

/-- GEN_FAULT follows the table. -/
def Mach.setFaults (m : Mach) (l : List FaultEntry) : Mach :=
  (({ m with faults := l }).s .GEN_FAULT_entries l.length).s .GEN_FAULT_lasting (l.filter FaultEntry.lasting).length

/-- The table with its oldest TRANSIENT entry removed when it is full; entries stand oldest first. -/
def dropOldest (l : List FaultEntry) : List FaultEntry :=
  if l.length < 64 then l else l.eraseP fun f => !f.lasting

/-- An error enters the fault table: a new entry, or one more in the entry of its class, instance and address. -/
def Mach.faultNote (m : Mach) (e : Env) (cls inst addr : Nat) : Mach :=
  let same (f : FaultEntry) : Bool := f.cls == cls && f.inst == inst && f.addr == addr
  if m.faults.any same then
    m.setFaults (m.faults.map fun f =>
      if same f then { f with count := f.count + 1, at_ := (e.poweredSec :: f.at_).take 8 } else f)
  else
    let l := dropOldest m.faults
    if l.length < 64 then m.setFaults (l ++ [⟨cls, inst, addr, 1, [e.poweredSec], false⟩]) else m

/-- The errors of an entry within the last 24 powered hours. -/
def Mach.faultRecent (m : Mach) (e : Env) (cls inst addr : Nat) : Nat :=
  match m.faults.find? fun f => f.cls == cls && f.inst == inst && f.addr == addr with
  | some f => (f.at_.filter fun t => decide (e.poweredSec < t + 86400)).length
  | none => 0

/-- A verdict: the entries of a class and instance are LASTING, or TRANSIENT. -/
def Mach.faultVerdict (m : Mach) (cls inst : Nat) (lasting : Bool) : Mach :=
  m.setFaults (m.faults.map fun f => if f.cls = cls ∧ f.inst = inst then { f with lasting := lasting } else f)

/-! ### Streams (R558 to R560) -/

/-- The slots of a record: a 16-byte header and its body in slots of 32 bytes (R558). -/
def streamSlots (body : List Byte) : Nat := (16 + body.length + 31) / 32

/-- A GAP record told before newer ones, once a slot is free after drops (R560). -/
def Mach.tellGap (m : Mach) (e : Env) (j : Nat) : Mach :=
  let r := m.ring .stq j
  if r.dropped != 0 && m.ringOpen .stq j && decide (m.ringUsed .stq j + 2 ≤ m.ringSize .stq j) then
    m.push .stq j { r with dropped := 0, droppedSlots := 0, seq := (r.seq + 1) % 2 ^ 32 }
      ⟨1, e.now, .stream 0xFF 0 0 r.seq (le 4 r.dropped ++ le 4 r.droppedSlots)⟩
  else m

/-- A stream record meets its STQ (R560); one dropped because the host link was reset counts (R536). -/
def Mach.stream (m : Mach) (e : Env) (j kind source flags : Nat) (body : List Byte) : Mach :=
  if !m.ringOpen .stq j then if m.b .HIF_STS_flr then m.up .HIF_ERR_CNT_stq_drop else m
  else
    let m1 := m.tellGap e j
    let r := m1.ring .stq j
    let n := streamSlots body
    if r.dropped = 0 && decide (m1.ringUsed .stq j + n + 1 ≤ m1.ringSize .stq j) then
      m1.push .stq j { r with seq := (r.seq + 1) % 2 ^ 32 } ⟨n, e.now, .stream kind source flags r.seq body⟩
    else
      (((m1.setRing .stq j { r with dropped := r.dropped + 1, droppedSlots := r.droppedSlots + n }).up
        (qInfo .stq j)).up .HIF_ERR_CNT_stq_drop).setBit Reg.HIF_IRQ_STS 31 true

/-! ### Commands (R549 to R554) -/

/-- The statuses of R554. -/
def stOk : Nat := 0
def stBusy : Nat := 1
def stState : Nat := 2
def stLen : Nat := 3
def stRange : Nat := 4
def stAuth : Nat := 5
def stCrc : Nat := 6
def stTimeout : Nat := 7
def stLate : Nat := 8
def stUnsupported : Nat := 9
def stLocked : Nat := 10

/-- An SQ's commands in progress show in STS.info and STS.busy (R576). -/
def Mach.sqSync (m : Mach) (q : Nat) : Mach :=
  let n := (m.hif.prog.filter fun p => p.sq == q && !p.dead).length
  (m.s (qInfo .sq q) (min n 255)).sb (qBusy .sq q) (n != 0)

/-- Removal of the first fetched command of that SQ, ID and opcode. -/
def progRemove (q cid op : Nat) : List Prog → List Prog
  | [] => []
  | p :: l => if p.sq = q && p.cid = cid && p.op = op then l else p :: progRemove q cid op l

/-- A completion meets its CQ (R549, R552): its reservation is used, or released when a quiet command ends OK; a CQ that
is disabled or stopped receives nothing (R543, R536). -/
def Mach.toCq (m : Mach) (e : Env) (q index cid sq op st : Nat) (quiet : Bool) (res data : List Byte) : Mach :=
  let r := m.ring .cq q
  let r1 := { r with reserved := r.reserved - 1 }
  if !m.ringOpen .cq q || (quiet && st == 0) then m.setRing .cq q r1
  else
    (m.push .cq q r1 ⟨1, e.now, .completion st cid sq op index data.length e.now.short
      (res ++ List.replicate (16 - res.length) 0) data⟩).setBit Reg.HIF_IRQ_STS q true

/-- The datagram that answers a maintenance request: a CQ entry and the data written (R569). -/
def Mach.maintReply (m : Mach) (e : Env) (port src op : Nat) (c : Cmd) (st : Nat) (res data : List Byte) : Mach :=
  m.netSend "maint" port src (m.netTag port false ++ le 1 0 ++ le 1 st ++ le 2 c.cid ++ le 1 0 ++ le 1 op ++ le 2 0 ++ le 4 data.length
    ++ le 4 e.now.short ++ res ++ List.replicate (16 - res.length) 0 ++ data)

/-- A command completes with a status, result bytes and the data written to its buffer before the entry (R551, R552); a maintenance request is
answered by a datagram instead (R569). A CQ is one of sixteen (R537). -/
def Mach.complete (m : Mach) (e : Env) (op : Nat) (c : Cmd) (st : Nat) (res data : List Byte) : Mach :=
  match c.path with
  | .config => m.emit "config" op st res
  | .maint port src =>
    let m1 := { m with hif := { m.hif with maintBusy := m.hif.maintBusy.filter fun p => p != (port, src) } }
    m1.maintReply e port src op c st res data
  | .queue sq =>
    let found := m.hif.prog.find? fun p => p.sq == sq && p.cid == c.cid && p.op == op
    let cq := match found with | some p => p.cq % 16 | none => m.g (.HIF_SQq_CFG_cq sq)
    let index := match found with | some p => p.index | none => m.g (qPos .sq sq) % 65536
    let m1 := ({ m with hif := { m.hif with prog := progRemove sq c.cid op m.hif.prog } }.sqSync sq).upWrap
      .HIF_CMD_CNT_done
    if (match found with | some p => p.dead | none => false) then m1
    else (if data.isEmpty then m1 else m1.hostStore c.bufAddr data).toCq e cq index c.cid sq op st c.quiet res data

/-- What the own part of a command answers: it completes now with a status, result bytes and data, or it goes on and
completes later. -/
inductive Res where
  | done (m : Mach) (st : Nat) (res data : List Byte)
  | wait (m : Mach)

/-- A command that executed. -/
def Res.ok (m : Mach) : Res := .done m stOk [] []

/-- A command that ends with a status and no effect. -/
def Mach.fail (m : Mach) (st : Nat) : Res := .done m st [] []

/-- The lifecycle is SEALED or RETIRED: RWL fields ignore host writes (R8), and the rollback rule is enforced (R653). -/
def Env.locked (e : Env) : Bool := e.vault.life == 2 || e.vault.life == 3

/-- The commands that need an envelope in SEALED need one; in RETIRED they cannot pass (R645, R657). -/
def Env.isSealed (e : Env) : Bool := e.locked

/-! ### Keys and envelopes (R650 to R656) -/

/-- A root-key slot is programmed: its hash is written and matches its key. -/
def RootSlot.programmed (s : RootSlot) : Bool := s.key.length == 96 && s.hash == sha384 s.key

/-- A signature over a message verifies under a programmed, unrevoked slot of the list whose mask holds the kind (R651). -/
def slotsSign (roots : List RootSlot) (kind : Nat) (slots : List Nat) (msg sig : List Byte) : Bool :=
  slots.any fun k =>
    let s := nth RootSlot.reset roots k
    s.programmed && !s.revoked && s.mask.testBit kind && ecdsaOk s.key (sha384 msg) sig

/-- The rollback rule (R653): the security version, bits [31:24] of an image version, against a counter. -/
def Env.fresh (e : Env) (k version : Nat) : Bool := !e.locked || decide (e.vault.ctr.getD k 0 ≤ version / 2 ^ 24)

/-- A weights or model image is validly signed and obeys the rollback rule of counter 3; its version stands at offset 8. -/
def Env.imageOk (e : Env) (l : List Byte) : Bool :=
  slotsSign e.vault.roots 2 [1, 2, 3] (l.take (l.length - 96)) (l.drop (l.length - 96)) && e.fresh 3 (unle ((l.drop 8).take 4))

/-- An update or security interrupt bit is raised (R678). -/
def Mach.updIrq (m : Mach) (i : Nat) : Mach := m.setBit Reg.UPD_IRQ_STS i true

/-- A slot whose hash does not match its key is told each time it is used (R650). -/
def Mach.otpNote (m : Mach) (e : Env) (slots : List Nat) : Mach :=
  slots.foldl (fun (m : Mach) k =>
    let s := nth RootSlot.reset e.vault.roots k
    if !s.hash.isEmpty && !s.programmed then ((m.sb .SEC_STS_otp_err true).updIrq 13).event e 0xB006 (some 5) (le 1 k) else m) m

/-- An envelope passes the checks of R656. -/
def Mach.envelopeOk (m : Mach) (e : Env) (op : Nat) (c : Cmd) : Bool :=
  let key := unle ((c.env.drop 2).take 1)
  let k := nth ([], false) e.vault.cmds key
  unle (c.env.take 2) == 0x5E01 && decide (key < 8) && !k.1.isEmpty && !k.2 && e.vault.life != 3
    && unle ((c.env.drop 12).take 8) == e.vault.uid && decide (m.fw.envCtr.getD key 0 < unle ((c.env.drop 4).take 8))
    && (c.env.drop 32).take 32 == hmacSha256 k.1 (c.tagged op)

/-- An envelope that passed consumes its counter. -/
def Mach.envelopeTake (m : Mach) (c : Cmd) : Mach :=
  let key := unle ((c.env.drop 2).take 1)
  { m with fw := { m.fw with envCtr := m.fw.envCtr.set key (unle ((c.env.drop 4).take 8)) } }.upWrap .SEC_ENV_CNT_accepted

/-- A failed envelope counts; a window of 1 s opens or counts it (R656). -/
def Mach.envelopeFail (m : Mach) (e : Env) (op : Nat) (c : Cmd) : Mach :=
  let w := match m.fw.window with
    | some (n, k, o, t) => (n + 1, k, o, t)
    | none => (1, unle ((c.env.drop 2).take 1), op, e.powered)
  ({ m with fw := { m.fw with window := some w } }.up .SEC_ENV_CNT_auth_fail).updIrq 10

/-- The commands that the boot ROM's recovery service accepts (R616). -/
def recoveryOp (op : Nat) : Bool := decide (op < 0x10) || (decide (0xA0 ≤ op) && decide (op < 0xB0)) || (decide (0x90 ≤ op) && decide (op < 0x93))

/-- The checks of R553 on lengths and envelope, and the recovery service's (R616): what they leave, or the status a command ends with. `need` is whether the command needs an
envelope here, and `ro` whether it is one of the status and read commands that the maintenance port takes without one (R569). -/
def Mach.accept (m : Mach) (e : Env) (op : Nat) (c : Cmd) (need ro : Bool) : Mach × Option Nat :=
  let served := if m.b .GEN_START_boot_rom && !recoveryOp op then some stState else none
  if c.path == .config then (m, none)
  else if c.lenBad then (m, some stLen)
  else if c.env.isEmpty then (m, if need || (c.isMaint && !ro) then some stAuth else served)
  else if m.envelopeOk e op c then (m.envelopeTake c, served)
  else (m.envelopeFail e op c, some stAuth)

/-- The part of R553 and R554 every command shares: the checks in order, then the command's own part; data that needs
more than buf_len completes with LEN before execution. -/
def runCmd (op : Nat) (c : Cmd) (need ro : Bool) (body : Env → Mach → Res) (e : Env) (m : Mach) : Mach :=
  match m.accept e op c need ro with
  | (m0, some st) => m0.complete e op c st [] []
  | (m0, none) =>
    match body e m0 with
    | .wait m' => m'
    | .done m' st res data =>
      if c.bufLen < data.length && c.path != .config then m0.complete e op c stLen [] [] else m'.complete e op c st res data

/-! ### Instants in TIME cycles -/

/-- The timebase in units of 2^-32 ns. -/
def Timebase.fine (t : Timebase) : Nat := t.nowNs * 2 ^ 32 + t.frac

/-- The timebase n TIME cycles ago, at the increment in use. -/
def Timebase.before (t : Timebase) (n : Nat) : Stamp := Stamp.ofNs ((t.fine - n * t.inc) / 2 ^ 32)

/-! ### Outcomes -/

/-- A meaning that changes only what lies outside the timebase and the vault. -/
def State.act (s : State) (f : Env → Mach → Mach) : Host.Outcome State Fault Refusal :=
  .next { s with m := f s.env s.m }

/-- A meaning that may also change the timebase. -/
def State.actTime (s : State) (f : Env → Mach → Timebase × Mach) : Host.Outcome State Fault Refusal :=
  let r := f s.env s.m
  .next { s with env := { s.env with time := r.1 }, m := r.2 }

/-- A meaning that may also change the vault. -/
def State.actVault (s : State) (f : Env → Mach → Vault × Mach) : Host.Outcome State Fault Refusal :=
  let r := f s.env s.m
  .next { s with env := { s.env with vault := r.1 }, m := r.2 }

/-- A meaning about one instance: an instance the module does not have is a fault (R5). -/
def State.onInst (s : State) (ok : Bool) (f : Env → Mach → Mach) : Host.Outcome State Fault Refusal :=
  if ok then s.act f else .fault .noInstance

end Sys2Proof.Machine
end

