-- ==== Sys2Proof/Machine/Access.lean ====
section
/-!
DEFINITION. Host access to the registers: what a write does under the access codes (R7 to R9), with the WRITE_IGNORED
record.
Log: 98 (DESIGN CHOICE).
-/
namespace Sys2Proof.Machine

/-- The value a register takes under a host write (R8): RW bits from the write, RWL bits unless locked, RWQ bits while
quiescent, W1C bits cleared where a 1 is written, every other bit kept. -/
def hostMerge (d : RegDef) (locked quiet : Bool) (old v : Word) : Word :=
  let set : Word := BitVec.ofNat 32 d.rw ||| (if locked then 0 else BitVec.ofNat 32 d.rwl)
    ||| (if quiet then BitVec.ofNat 32 d.rwq else 0)
  let clr : Word := BitVec.ofNat 32 d.w1c &&& v
  ((old &&& ~~~set) ||| (v &&& set)) &&& ~~~clr

/-- A write's ignored fields would have changed (R9). -/
def hostIgnores (d : RegDef) (locked quiet : Bool) (old v : Word) : Bool :=
  let ign : Word := (if locked then BitVec.ofNat 32 d.rwl else 0) ||| (if quiet then 0 else BitVec.ofNat 32 d.rwq)
  ((old ^^^ v) &&& ign) != 0

/-- The WRITE_IGNORED record (R9, R594). DESIGN CHOICE (log 98): its source byte is 0 (GEN) for every register, which no rule gives. -/
def Mach.writeIgnored (m : Mach) (off : Nat) (v : Word) : Mach :=
  m.record ⟨3, 0, typIgnored, le 4 off ++ le 4 v.toNat, none⟩

/-- A host write of the register at an offset under its access codes: `locked` whether RWL fields ignore it, `quiet`
whether RWQ fields take it, both judged on the state in force before the write; `bar` holds the bits that a rule which refers to
R9 ignores besides. One record names the whole write (R9). -/
def Mach.hostPutBar (m : Mach) (locked quiet : Bool) (bar : Word) (off : Nat) (v : Word) : Mach :=
  match regAt off with
  | some d =>
    let old := m.rd off
    let m1 := if hostIgnores d locked quiet old v || ((old ^^^ v) &&& bar) != 0 then m.writeIgnored off v else m
    m1.wr off (hostMerge d locked quiet old ((v &&& ~~~bar) ||| (old &&& bar)))
  | none => m

/-- A host write that no rule but the access codes bears on. -/
def Mach.hostPut (m : Mach) (locked quiet : Bool) (off : Nat) (v : Word) : Mach := m.hostPutBar locked quiet 0 off v

end Sys2Proof.Machine
end

