-- ==== Sys2Proof/Machine/Fp32.lean ====
section
/-!
DEFINITION. IEEE 754 binary32 arithmetic, round-to-nearest-even (R352), on register words. Every finite value is a whole
number of units of 2^-149, so sums are exact integers before the one rounding.
Log: 9 (DESIGN CHOICE), 96 (DEDUCED).
-/
namespace Sys2Proof.Machine

/-- The sum of values added two at a time in an order: step k names the places of the two among the values left, whose sum comes first. -/
def addInOrder {α : Type} (add : α → α → α) (zero : α) (order : Nat → Nat × Nat) : Nat → List α → α
  | 0, l => l.headD zero
  | k + 1, l =>
    let i := (order k).1 % l.length
    let r := l.eraseIdx i
    let j := (order k).2 % r.length
    addInOrder add zero order k (add (l.getD i zero) (r.getD j zero) :: r.eraseIdx j)

/-- The sign bit. -/
def fpNeg (a : Word) : Bool := decide (2 ^ 31 ≤ a.toNat)

/-- The exponent field. -/
def fpExp (a : Word) : Nat := a.toNat / 2 ^ 23 % 256

/-- The fraction field. -/
def fpFrac (a : Word) : Nat := a.toNat % 2 ^ 23

def fpIsNan (a : Word) : Bool := fpExp a == 255 && fpFrac a != 0
def fpIsInf (a : Word) : Bool := fpExp a == 255 && fpFrac a == 0
def fpIsFinite (a : Word) : Bool := fpExp a != 255

/-- The magnitude of a finite value in units of 2^-149. -/
def fpMag (a : Word) : Nat :=
  if fpExp a = 0 then fpFrac a else (fpFrac a + 2 ^ 23) * 2 ^ (fpExp a - 1)

/-- The signed value of a finite word in units of 2^-149; an infinity lies beyond every finite value. -/
def fpInt (a : Word) : Int :=
  let n := if fpIsInf a then 2 ^ 400 else fpMag a
  if fpNeg a then -(n : Int) else n

/-- The canonical quiet NaN. -/
def fpNan : Word := 0x7FC00000

/-- Infinity with a sign. -/
def fpInf (neg : Bool) : Word := if neg then 0xFF800000 else 0x7F800000

/-- Zero with a sign. -/
def fpZero (neg : Bool) : Word := if neg then 0x80000000 else 0

/-- num/den rounded to the nearest whole number, ties to even. -/
def roundNe (num den : Nat) : Nat :=
  let q := num / den
  let r := num % den
  if 2 * r > den || (2 * r == den && q % 2 == 1) then q + 1 else q

/-- num/den units of 2^-149 rounded to binary32. -/
def fpRound (neg : Bool) (num den : Nat) : Word :=
  let q := num / den
  let s := Nat.log2 q - 23
  let n := roundNe num (den * 2 ^ s)
  let bits := if n < 2 ^ 23 then n else n + s * 2 ^ 23
  if 255 * 2 ^ 23 ≤ bits then fpInf neg else BitVec.ofNat 32 (bits + if neg then 2 ^ 31 else 0)

/-- An exact sum of units rounded; a zero sum takes the sign given. -/
def fpOfUnits (i : Int) (zeroNeg : Bool) : Word :=
  if i = 0 then fpZero zeroNeg else fpRound (decide (i < 0)) i.natAbs 1

def fpNegate (a : Word) : Word := a ^^^ 0x80000000

def fpAbs (a : Word) : Word := a &&& 0x7FFFFFFF

def fpAdd (a b : Word) : Word :=
  if fpIsNan a || fpIsNan b then fpNan
  else if fpIsInf a then if fpIsInf b && fpNeg a != fpNeg b then fpNan else a
  else if fpIsInf b then b
  else fpOfUnits (fpInt a + fpInt b) (fpNeg a && fpNeg b)

def fpSub (a b : Word) : Word := fpAdd a (fpNegate b)

def fpMul (a b : Word) : Word :=
  let neg := fpNeg a != fpNeg b
  if fpIsNan a || fpIsNan b then fpNan
  else if fpIsInf a then if fpIsFinite b && fpMag b == 0 then fpNan else fpInf neg
  else if fpIsInf b then if fpMag a == 0 then fpNan else fpInf neg
  else if fpMag a * fpMag b = 0 then fpZero neg
  else fpRound neg (fpMag a * fpMag b) (2 ^ 149)

def fpDiv (a b : Word) : Word :=
  let neg := fpNeg a != fpNeg b
  if fpIsNan a || fpIsNan b then fpNan
  else if fpIsInf a then if fpIsInf b then fpNan else fpInf neg
  else if fpIsInf b then fpZero neg
  else if fpMag b = 0 then if fpMag a = 0 then fpNan else fpInf neg
  else if fpMag a = 0 then fpZero neg
  else fpRound neg (fpMag a * 2 ^ 149) (fpMag b)

/-- a < b; false when either is a NaN. -/
def fpLt (a b : Word) : Bool := !fpIsNan a && !fpIsNan b && decide (fpInt a < fpInt b)

/-- a ≤ b; false when either is a NaN. -/
def fpLe (a b : Word) : Bool := !fpIsNan a && !fpIsNan b && decide (fpInt a ≤ fpInt b)

/-- The numbers are equal; false when either is a NaN. -/
def fpEq (a b : Word) : Bool := !fpIsNan a && !fpIsNan b && decide (fpInt a = fpInt b)

def fpMax (a b : Word) : Word := if fpLt a b then b else a

def fpMin (a b : Word) : Word := if fpLt b a then b else a

/-- x held within lo and hi. -/
def fpClamp (x lo hi : Word) : Word := fpMin (fpMax x lo) hi

/-- A ratio of integers rounded to binary32. -/
def fpOfRatio (num : Int) (den : Nat) : Word :=
  if num = 0 then 0 else fpRound (decide (num < 0)) (num.natAbs * 2 ^ 149) den

/-- An integer rounded to binary32. -/
def fpOfInt (i : Int) : Word := fpOfRatio i 1

/-- A finite value times a whole number and divided by another, rounded to the nearest integer, ties to even. -/
def fpScaleRound (a : Word) (num den : Nat) : Int :=
  let n := roundNe (fpMag a * num) (2 ^ 149 * den)
  if fpNeg a then -(n : Int) else n

/-- The whole number a finite value rounds to, ties to even. -/
def fpToInt (a : Word) : Int := fpScaleRound a 1 1

end Sys2Proof.Machine
end

