-- ==== Sys2Proof/Machine/Fbk.lean ====
section
/-!
DEFINITION. Position and speed feedback (R164 to R204): counting, index, SSI, latching, speed, encoder emulators, supplies
and the FBK commands.
Log: 53 (DEDUCED), 97 (DEDUCED), 110 (DEDUCED), 111 (DESIGN CHOICE).
-/
namespace Sys2Proof.Machine

/-- Channel c. -/
def Mach.fb (m : Mach) (c : Nat) : FbCh := nth FbCh.reset m.fbk.ch c

/-- Channel c changed. -/
def Mach.setFb (m : Mach) (c : Nat) (f : FbCh → FbCh) : Mach := { m with fbk := { m.fbk with ch := upd m.fbk.ch c f } }

/-- Emulator k. -/
def Mach.emu (m : Mach) (k : Nat) : Emu := nth Emu.reset m.fbk.emu k

/-- Emulator k changed. -/
def Mach.setEmu (m : Mach) (k : Nat) (f : Emu → Emu) : Mach :=
  { m with fbk := { m.fbk with emu := upd m.fbk.emu k f } }

/-- The source of FBK_IRQ_STS0 and FBK_IRQ_STS1 numbered from 128 (R202). -/
def Mach.fbIrq (m : Mach) (i : Nat) : Mach :=
  if i < 32 then m.setBit Reg.FBK_IRQ_STS0 i true else m.setBit Reg.FBK_IRQ_STS1 (i - 32) true

/-- line_err, hall_err, isolated or a frame failure on channel c has changed (R202). -/
def Mach.fbChanged (m : Mach) (c : Nat) : Mach := m.fbIrq (24 + c)

/-- The signed difference of two 48-bit counts. -/
def diff48 (a b : Nat) : Int := toSigned 48 (a + 2 ^ 48 - b % 2 ^ 48)

/-- A 48-bit count moved. -/
def move48 (a : Nat) (d : Int) : Nat := (((a : Int) + d) % (2 ^ 48 : Int)).toNat

/-- A signed register value as a 48-bit count. -/
def count48 (m : Mach) (f : Fld) : Nat := move48 0 (m.gi f)

/-- Counts per second over an interval of ns. -/
def ratePerSec (counts : Int) (ns : Int) : Word :=
  if ns ≤ 0 then fpInf (decide (counts < 0)) else fpOfRatio (counts * 1000000000) ns.toNat

/-! ### Speed (R188) -/

/-- An edge at te ns that left the count at c, in direction d. -/
def FbCh.edge (h : FbCh) (te : Int) (c : Nat) (d : Int) : FbCh :=
  let n := decide (d < 0)
  if h.still then
    { h with still := false, lowconf := true, speed := 0, refT := te, refC := c, lastT := te, lastC := c, neg := n }
  else if n != h.neg then
    { h with speed := ratePerSec (if n then -1 else 1) (te - h.lastT), lowconf := true, refT := te, refC := c, lastT := te, lastC := c,
             neg := n }
  else { h with lastT := te, lastC := c }

/-- A speed bounded by one count over the time since the last edge. -/
def boundSpeed (v : Word) (ns : Int) : Word :=
  let b := fpMin (fpAbs v) (ratePerSec 1 ns)
  if fpNeg v then fpNegate b else b

/-- The estimator at a latch at ts, with the standstill time in ns. -/
def FbCh.latchSpeed (h : FbCh) (ts tmo : Int) : FbCh :=
  if h.still then h
  else if tmo ≤ ts - h.lastT then { h with still := true, speed := 0, lowconf := false }
  else if h.refT < h.lastT then
    { h with speed := boundSpeed (ratePerSec (diff48 h.lastC h.refC) (h.lastT - h.refT)) (ts - h.lastT),
             lowconf := false, refT := h.lastT, refC := h.lastC }
  else { h with speed := boundSpeed h.speed (ts - h.lastT) }

/-! ### Encoder emulators (R192 to R196) -/

/-- The counts an emulator's backlog holds. -/
def queueCounts (q : List EmuItem) : Nat :=
  (q.map fun i => match i with | .counts n => n.natAbs | .index => 0).sum

/-- The items of a backlog cut to so many counts. -/
def queueCut : Nat → List EmuItem → List EmuItem
  | _, [] => []
  | room, .index :: q => .index :: queueCut room q
  | room, .counts n :: q =>
    if n.natAbs ≤ room then .counts n :: queueCut (room - n.natAbs) q
    else if room = 0 then queueCut 0 q
    else .counts (if n < 0 then -(room : Int) else room) :: queueCut 0 q

/-- Storing an emulator's backlog: beyond 65 535 counts the excess is discarded, with lost and FBK_EMU_LOST (R194). -/
def Mach.setQueue (m : Mach) (e : Env) (k : Nat) (q : List EmuItem) : Mach :=
  let n := queueCounts q
  let q' := queueCut 65535 q
  let m1 := (m.setEmu k fun u => { u with queue := q' }).s (.FBK_EMUe_STS_backlog k) (min n 65535)
  if 65535 < n then
    ((m1.sb (.FBK_EMUe_STS_lost k) true).fbIrq (36 + k)).event e 0x3806 (some 3) (le 1 k ++ le 4 (n - 65535))
  else m1

/-- A source change of d counts reaches emulator k (R193): whole counts of d × num / den, the remainder carried. -/
def Mach.emuFeed (m : Mach) (e : Env) (k : Nat) (d : Int) : Mach :=
  let den := m.g (.FBK_EMUe_RATIO_den k)
  if den = 0 then m
  else
    let total := (m.emu k).rem + d * m.g (.FBK_EMUe_RATIO_num k)
    let out := total.fdiv den
    let m1 := m.setEmu k fun u => { u with rem := total - out * den }
    if out = 0 then m1 else m1.setQueue e k ((m1.emu k).queue ++ [.counts out])

/-- A count change of channel c reaches the emulators it feeds. -/
def Mach.emuCount (m : Mach) (e : Env) (c : Nat) (d : Int) : Mach :=
  if d = 0 then m
  else iter 4 (fun k m => if m.b (.FBK_EMUe_CFG_en k) && m.g (.FBK_EMUe_CFG_src k) == c then m.emuFeed e k d else m) m

/-- An index of channel c is placed in the stream of the emulators that copy it (R195). -/
def Mach.emuIndex (m : Mach) (e : Env) (c : Nat) : Mach :=
  iter 4 (fun k m =>
    if m.b (.FBK_EMUe_CFG_en k) && m.g (.FBK_EMUe_CFG_src k) == c && m.g (.FBK_EMUe_CFG_zper k) == 0
    then m.setQueue e k ((m.emu k).queue ++ [.index]) else m) m

/-- Emulator k holds its levels (R196): its source channel's newest sample is not valid, or its source is a string and GATE is off. -/
def Mach.emuHeld (m : Mach) (k : Nat) : Bool :=
  m.b (.FBK_EMUe_CFG_en k)
    && if m.g (.FBK_EMUe_CFG_src k) = 15 then !m.b .STR_STS_gate else !m.bit Reg.FBK_STS (m.g (.FBK_EMUe_CFG_src k))

/-- FBK_EMUe_STS.hold follows. -/
def Mach.emuHolds (m : Mach) : Mach := iter 4 (fun k m => m.sb (.FBK_EMUe_STS_hold k) (m.emuHeld k)) m

/-- Emulator k starts (R193): nothing carried, nothing waiting, no rate. -/
def Mach.emuStart (m : Mach) (e : Env) (k : Nat) : Mach :=
  (m.setEmu k fun u => { u with rem := 0, frac := 0, queue := [], rate := 0, at_ := e.ns }).s (.FBK_EMUe_STS_backlog k) 0

/-- Emulator k's Z line. -/
def Mach.emuZ (m : Mach) (k : Nat) (v : Bool) : Mach :=
  if (m.emu k).z = v then m else (m.setEmu k fun u => { u with z := v }).emit "EMU_Z" k (if v then 1 else 0)

/-- One output count of emulator k: position, quadrature state and Z, which lasts for one state; with zper it comes at the multiples of zper that have
A and B high (R194, R195). -/
def Mach.emuStep (m : Mach) (e : Env) (k : Nat) (d : Int) : Mach :=
  let d' := if m.b (.FBK_EMUe_CFG_invert k) then -d else d
  let st := (((m.emu k).state : Int) + d') % 4
  let pos := ofInt 32 ((m.g (.FBK_EMUe_POS_pos k) : Int) + d')
  let m1 := ((m.setEmu k fun u => { u with state := st.toNat, lastOut := some e.powered }).s (.FBK_EMUe_POS_pos k) pos).emit "EMU_AB" k st
  let zp := m.g (.FBK_EMUe_CFG_zper k)
  m1.emuZ k (zp != 0 && toSigned 32 pos % (zp : Int) == 0 && st == 2)

/-- The spacing of output counts lets the next one go (R194). -/
def Mach.emuReady (m : Mach) (e : Env) (k : Nat) : Bool :=
  match (m.emu k).lastOut with
  | some t => decide (t + max 25 (m.g (.FBK_EMUe_CFG_emu_min k)) ≤ e.powered)
  | none => true

/-- The next item of an emulator's backlog goes out (R194 to R196): nothing while it holds, no count before its spacing; an index raises Z in the state
it comes in. -/
def Mach.emuOutput (m : Mach) (e : Env) (k : Nat) : Mach :=
  if !m.b (.FBK_EMUe_CFG_en k) || m.emuHeld k then m
  else match (m.emu k).queue with
    | [] => m
    | .index :: q => (m.emuZ k true).setQueue e k q
    | .counts n :: q =>
      if m.emuReady e k then
        let s : Int := if n < 0 then -1 else 1
        let rest := if n.natAbs ≤ 1 then q else .counts (n - s) :: q
        (m.emuStep e k s).setQueue e k rest
      else m

/-! ### Index (R175 to R178) -/

/-- The expected count of an index, when it is checked (R177). -/
def Mach.idxExpected (m : Mach) (c : Nat) : Option Nat :=
  if !m.b (.FBK_CHc_CFG_idx_chk c) then none
  else if m.g (.FBK_CHc_CFG_idx_mode c) = 2 then some (count48 m (.FBK_CHc_IDX_EXP_idx_exp c))
  else if !(m.fb c).indexed || m.g (.FBK_CHc_IDX_CPR_cpr c) = 0 then none
  else
    let v := count48 m (.FBK_CHc_IDX_VAL_idx_val c)
    let r : Int := m.g (.FBK_CHc_IDX_CPR_cpr c)
    some (move48 v (if (m.fb c).neg then -r else r))

/-- The capture made before each reset and each ignored index (R176). -/
def Mach.idxCapture (m : Mach) (c : Nat) (short : Nat) : Mach :=
  ((((m.wr (Reg.FBK_CHc_IDX_CAP_LO c) (BitVec.ofNat 32 (m.fb c).count)).s (.FBK_CHc_IDX_CAP_HI_cap_hi c)
    ((m.fb c).count / 2 ^ 32)).s (.FBK_CHc_IDX_STMP_stmp c) short).setFb c fun h => { h with idxSeen := true }).fbIrq c

/-- An INDEX_SLIP (R176). -/
def Mach.idxSlip (m : Mach) (e : Env) (c cap exp short : Nat) (ignored : Bool) : Mach :=
  (((m.up (.FBK_CHc_CNT_slips c)).sb (.FBK_CHc_STS_slip c) true).fbIrq (12 + c)).event e 0x3801 (some 3)
    (le 1 c ++ le 1 (m.g (.FBK_CHc_CFG_idx_mode c)) ++ le 8 cap ++ le 8 exp ++ le 4 short
      ++ le 1 (if ignored then 1 else 0))

/-- A count loaded by an index reset or a preset: the estimator's counts move with it (R191). -/
def FbCh.load (h : FbCh) (v : Nat) : FbCh :=
  let d := diff48 v h.count
  { h with count := v % 2 ^ 48, refC := move48 h.refC d, lastC := move48 h.lastC d }

/-- A reset by the index (R176). -/
def Mach.idxReset (m : Mach) (c : Nat) : Mach :=
  m.setFb c fun h => h.load (count48 m (.FBK_CHc_IDX_VAL_idx_val c))

/-- An index on channel c with its short stamp (R176). -/
def Mach.index (m : Mach) (e : Env) (c short : Nat) : Mach :=
  let mode := m.g (.FBK_CHc_CFG_idx_mode c)
  if mode = 0 then m
  else
    let cap := (m.fb c).count
    let m1 := (m.idxCapture c short).emuIndex e c
    let after (m : Mach) : Mach := m.setFb c fun h => { h with indexed := true }
    if mode = 2 && !m.b (.FBK_CHc_STS_armed c) then m1
    else
      let m2 := if mode = 2 then m1.sb (.FBK_CHc_STS_armed c) false else m1
      match m.idxExpected c with
      | some x =>
        if (diff48 cap x).natAbs ≤ m.g (.FBK_CHc_IDX_TOL_tol c) then after (m2.idxReset c)
        else if mode = 3 then after (m2.idxSlip e c cap x short true)
        else after ((m2.idxSlip e c cap x short false).idxReset c)
      | none => after (m2.idxReset c)

/-! ### Lines and counting (R167 to R173) -/

/-- The place of (B, A) in the quadrature sequence 00, 01, 11, 10 (R170). -/
def quadPos (a b : Bool) : Nat := if b then (if a then 2 else 3) else (if a then 1 else 0)

/-- The place of a hall code in the sequence 1, 3, 2, 6, 4, 5 (R171). -/
def hallPos (code : Nat) : Nat :=
  match code with | 1 => 0 | 3 => 1 | 2 => 2 | 6 => 3 | 4 => 4 | _ => 5

/-- A sequence error (R170 to R172). -/
def Mach.seqErr (m : Mach) (c : Nat) : Mach :=
  (m.up (.FBK_CHc_CNT_seq_err c)).sb (.FBK_CHc_STS_seq_flag c) true

/-- A count change of d, reversed by invert (R169), acts on the count, the estimator and the emulators. -/
def Mach.fbCount (m : Mach) (e : Env) (c : Nat) (te : Nat) (d : Int) : Mach :=
  let d' := if m.b (.FBK_CHc_CFG_invert c) then -d else d
  (m.setFb c fun h => let n := move48 h.count d'; { h with count := n }.edge te n d').emuCount e c d'

/-- hall_err follows the code (R171). -/
def Mach.hallErr (m : Mach) (c : Nat) (v : Bool) : Mach :=
  if m.b (.FBK_CHc_STS_hall_err c) = v then m else (m.sb (.FBK_CHc_STS_hall_err c) v).fbChanged c

/-- A change of the hall code (R171). -/
def Mach.hallChange (m : Mach) (e : Env) (c te code : Nat) : Mach :=
  if code = 0 || code = 7 then m.hallErr c true
  else
    let old := (m.fb c).hall
    let m1 := (m.hallErr c false).setFb c fun h => { h with hall := code }
    if old = 0 || old = code then m1
    else
      let k := (hallPos code + 6 - hallPos old) % 6
      if k = 1 then m1.fbCount e c te 1
      else if k = 5 then m1.fbCount e c te (-1)
      else if k = 2 then (m1.seqErr c).fbCount e c te 2
      else if k = 4 then (m1.seqErr c).fbCount e c te (-2)
      else (m1.seqErr c).setFb c fun h => { h with lowconf := true }

/-- The accepted levels of channel c after a change dated te act on the count, then on the index (R170 to R175). A and B
changing together are a pair, of which neither acts; `late` says that B had not stood for long enough before a rising edge of A (R172). -/
def Mach.lineAct (m : Mach) (e : Env) (c : Nat) (a b z late : Bool) (te : Nat) : Mach :=
  let h := m.fb c
  let m1 := m.setFb c fun h => { h with a := a, b := b, z := z }
  if !m.b (.FBK_CHc_CFG_en c) then m1
  else
    let mode := m.g (.FBK_CHc_CFG_mode c)
    let m2 :=
      if mode = 0 then
        let k := (quadPos a b + 4 - quadPos h.a h.b) % 4
        if k = 1 then m1.fbCount e c te 1
        else if k = 3 then m1.fbCount e c te (-1)
        else if k = 2 then m1.seqErr c
        else m1
      else if mode = 2 then
        m1.hallChange e c te ((if a then 1 else 0) + (if b then 2 else 0) + (if z then 4 else 0))
      else if mode = 3 then
        if a && !h.a then
          let m3 := if late then m1.seqErr c else m1
          m3.fbCount e c te (if b then 1 else -1)
        else m1
      else m1
    if (mode = 0 || mode = 3) && z && !h.z && (!m.b (.FBK_CHc_CFG_idx_gate c) || (a && b))
    then m2.index e c (Stamp.ofNs te).short else m2

/-- A number put into a falling list without repeats. -/
def insertAge (n : Nat) : List Nat → List Nat
  | [] => [n]
  | x :: l => if n = x then x :: l else if x < n then n :: x :: l else x :: insertAge n l

/-- A line's level that has stood for filt + 4 TIME cycles acts (R167). -/
def Mach.lineDue (m : Mach) (c n : Nat) : Bool := decide (m.g (.FBK_CHc_CFG_filt c) + 4 ≤ n)

/-- In INC mode A and B have changed fewer than filt + 2 TIME cycles apart, and the first of the two would act (R170). -/
def Mach.linePair (m : Mach) (c : Nat) (a b : Bool) (na nb : Nat) : Bool :=
  m.g (.FBK_CHc_CFG_mode c) == 0 && a != (m.fb c).a && b != (m.fb c).b && m.lineDue c (max na nb)
    && decide (max na nb < min na nb + m.g (.FBK_CHc_CFG_filt c) + 2)

/-- The levels that stand on channel c's lines, each with the TIME cycles since it reached the synchroniser. Those that are due act, oldest first, each
dated to the cycle it arrived in (R167); a pair counts from its first change (R170). -/
def Mach.lineChange (m : Mach) (e : Env) (c : Nat) (a b z : Bool) (na nb nz : Nat) : Mach :=
  let h := m.fb c
  let pair := m.linePair c a b na nb
  let ta := if pair then max na nb else na
  let tb := if pair then max na nb else nb
  let acts (new old : Bool) (n : Nat) : Bool := new != old && m.lineDue c n
  let aa := acts a h.a ta
  let ab := acts b h.b tb
  let az := acts z h.z nz
  let late := decide (na ≤ nb) && decide (nb < na + m.g (.FBK_CHc_CFG_filt c) + 2)
  let ages := (if aa then insertAge ta else id) ((if ab then insertAge tb else id) ((if az then insertAge nz else id) []))
  ages.foldl (fun m n =>
    let h := m.fb c
    m.lineAct e c (if aa && ta == n then a else h.a) (if ab && tb == n then b else h.b) (if az && nz == n then z else h.z) late
      (e.time.before n).toNs) m

def execFbkLineChange (c : Nat) (a b z : Bool) (na nb nz : Nat) (s : State) : Host.Outcome State Fault Refusal :=
  s.onInst (decide (c < 12)) fun e m => m.lineChange e c a b z na nb nz

/-! ### Line amplitude (R168) -/

/-- The pairs that a channel's mode monitors: bit 0 A, 1 B, 2 Z, 3 CLK. -/
def monitored (mode : Nat) : Nat := match mode with | 0 => 7 | 1 => 9 | 3 => 7 | _ => 0

/-- line_err clears, with the pairs that fell below amplitude meanwhile. -/
def Mach.lineClear (m : Mach) (e : Env) (c : Nat) : Mach :=
  if m.b (.FBK_CHc_STS_line_err c) then
    ((m.sb (.FBK_CHc_STS_line_err c) false).fbChanged c).event e 0x3802 (some 2)
      (le 1 c ++ le 1 (m.fb c).lowPairs ++ le 1 0)
  else m

def execLineAmplitudeLoss (c pairs : Nat) (s : State) : Host.Outcome State Fault Refusal :=
  s.onInst (decide (c < 12)) fun e m =>
    let mask := pairs &&& monitored (m.g (.FBK_CHc_CFG_mode c))
    if !m.b (.FBK_CHc_CFG_en c) || mask = 0 then m
    else if m.b (.FBK_CHc_STS_line_err c) then m.setFb c fun h => { h with lowPairs := h.lowPairs ||| mask }
    else
      (((m.setFb c fun h => { h with lowPairs := mask }).sb (.FBK_CHc_STS_line_err c) true).fbChanged c).event e 0x3802
        (some 3) (le 1 c ++ le 1 mask ++ le 1 1)

def execLineErrClear (c : Nat) (s : State) : Host.Outcome State Fault Refusal :=
  s.onInst (decide (c < 12)) fun e m => m.lineClear e c

/-! ### SSI (R179 to R184) -/

/-- The CRC width of crc_w. -/
def crcWidth (code : Nat) : Nat := match code with | 0 => 0 | 1 => 6 | 2 => 8 | _ => 16

/-- The n bits of a number, MSB first. -/
def bitsMsb : Nat → Nat → List Bool
  | 0, _ => []
  | n + 1, v => v.testBit n :: bitsMsb n v

/-- A CRC register of w bits over bits MSB first, leading term implied (R181). -/
def crcBits (w poly : Nat) (init : Nat) (bits : List Bool) : Nat :=
  bits.foldl (fun r b =>
    let top := r.testBit (w - 1) != b
    let r' := r * 2 % 2 ^ w
    if top then r' ^^^ (poly % 2 ^ w) else r') (init % 2 ^ w)

/-- Gray code to binary: every bit is the exclusive-or of the bits above it. -/
def grayDecode (n v : Nat) : Nat :=
  ((bitsMsb n v).foldl (fun (acc : Nat × Bool) b => let x := acc.2 != b; (acc.1 * 2 + (if x then 1 else 0), x)) (0, false)).1

/-- The rising edges of CLK that sample a frame's bits (R179, R180). -/
def Mach.ssiEdges (m : Mach) (c : Nat) : Nat :=
  m.g (.FBK_CHc_SSI_lead c) + m.g (.FBK_CHc_SSI_bits c) + m.g (.FBK_CHc_SSI_err_en c) + crcWidth (m.g (.FBK_CHc_SSI_crc_w c))

/-- An SSI frame fits its interval (R180), in units of 2 ns. -/
def Mach.ssiFits (m : Mach) (c : Nat) : Bool :=
  let f := (m.ssiEdges c + 1) * m.g (.FBK_CHc_SSI_per c)
  decide (f + m.g (.FBK_CHc_TMO_ssi_tmo c) * 500 ≤ max 1 (m.g (.FBK_CHc_TMO_every c)) * 25000)

/-- The checks of R166 on a channel's fields: none when they pass, else the status FBK_CFG gives. -/
def Mach.fbCheck (m : Mach) (c : Nat) : Option Nat :=
  let mode := m.g (.FBK_CHc_CFG_mode c)
  if 4 ≤ mode || m.g (.FBK_CHc_CFG_hall_v c) = 3
      || (m.g (.FBK_CHc_CFG_idx_mode c) != 0 && (mode == 1 || mode == 2)) then some stRange
  else if mode = 1 && (m.g (.FBK_CHc_SSI_per c) < 125 || 5000 < m.g (.FBK_CHc_SSI_per c)
      || m.g (.FBK_CHc_SSI_bits c) < 8 || 48 < m.g (.FBK_CHc_SSI_bits c)) then some stRange
  else if mode = 1 && !m.ssiFits c then some 0x40
  else none

/-- FBK_SSI_FAIL at most once per second per channel (R182). -/
def Mach.ssiFailPost (m : Mach) (e : Env) (c : Nat) : Mach :=
  let due := match (m.fb c).failPost with | some t => decide (t + 1000000000 ≤ e.ns) | none => true
  if due then
    (m.setFb c fun h => { h with failPost := some e.ns }).event e 0x3803 (some 2)
      (le 1 c ++ le 1 (m.g (.FBK_CHc_CNT_ssi_crc c)) ++ le 1 (m.g (.FBK_CHc_CNT_ssi_tmo c))
        ++ le 1 (m.g (.FBK_CHc_STS_errbit c)))
  else m

/-- A frame that failed: position and speed stay, the result waits for the next base tick (R182, R185). -/
def Mach.ssiFail (m : Mach) (e : Env) (c req : Nat) (test : Bool) : Mach :=
  let m1 := if test then m.faultNote e 4 c 0 else m
  (m1.setFb c fun h => { h with req := none, result := some (false, req), testDue := h.testDue || test }).ssiFailPost e c

/-- A valid frame's word: position under R183 and speed under R190. -/
def FbCh.ssiWord (h : FbCh) (bits w req tmo : Nat) (ext : Bool) : FbCh :=
  match h.lastWord with
  | none => { h with count := w, lastWord := some (w, req), posSince := req, req := none, result := some (true, req) }
  | some (w0, t0) =>
    let d := toSigned bits (w + 2 ^ bits - w0)
    let pos := if ext then move48 h.count d else w
    let since := if d = 0 then h.posSince else req
    let still := d == 0 && decide (since + tmo ≤ req)
    { h with count := pos, lastWord := some (w, req), posSince := since, req := none, result := some (true, req),
             still := still, lowconf := d.natAbs == 1, neg := if d = 0 then h.neg else decide (d < 0),
             speed := if still then 0 else ratePerSec d ((req : Int) - t0) }

/-- n sampled levels from place i as a number, MSB first. -/
def bitsNum (l : List Bool) (i n : Nat) : Nat :=
  (List.range n).foldl (fun v j => 2 * v + (if l.getD (i + j) false then 1 else 0)) 0

/-- An SSI frame ends (R179 to R183): the data line was high or not at the request and ssi_tmo after the last edge, and had these levels at the rising
edges of CLK: the leading bits, the word, the error bit, the CRC. -/
def execSsiFrameEnd (c : Nat) (highAtRequest highAfter : Bool) (data : List Bool) (s : State) : Host.Outcome State Fault Refusal :=
  s.onInst (decide (c < 12)) fun e m =>
    match (m.fb c).req with
    | none => m
    | some req =>
      if !m.b (.FBK_CHc_CFG_en c) || m.g (.FBK_CHc_CFG_mode c) != 1 then m
      else if !highAtRequest || !highAfter then (m.up (.FBK_CHc_CNT_ssi_tmo c)).ssiFail e c req true
      else
        let bits := m.g (.FBK_CHc_SSI_bits c)
        let w := crcWidth (m.g (.FBK_CHc_SSI_crc_w c))
        let errEn := m.b (.FBK_CHc_SSI_err_en c)
        let lead := m.g (.FBK_CHc_SSI_lead c)
        let word := bitsNum data lead bits
        let errBit := if errEn then bitsNum data (lead + bits) 1 else 0
        let crc := bitsNum data (lead + bits + m.g (.FBK_CHc_SSI_err_en c)) w
        let covered := bitsMsb bits word ++ (if errEn then [errBit % 2 == 1] else [])
        let sum := crcBits w (m.g (.FBK_CHc_CRC_poly c)) (m.g (.FBK_CHc_CRC_init c)) covered
        let sum' := if m.b (.FBK_CHc_SSI_crc_inv c) then 2 ^ w - 1 - sum else sum
        if w != 0 && crc % 2 ^ w != sum' then (m.up (.FBK_CHc_CNT_ssi_crc c)).ssiFail e c req true
        else if errEn && errBit % 2 == m.g (.FBK_CHc_SSI_err_pol c) then
          (m.sb (.FBK_CHc_STS_errbit c) true).ssiFail e c req false
        else
          let v := if m.b (.FBK_CHc_SSI_gray c) then grayDecode bits word else word % 2 ^ bits
          (m.setFb c fun h => h.ssiWord bits v req (m.g (.FBK_CHc_TMO_spd_tmo c) * 1000000) (m.b (.FBK_CHc_CFG_ssi_ext c))).emuCount e c
            (match (m.fb c).lastWord with | some (w0, _) => toSigned bits (v + 2 ^ bits - w0) | none => 0)

/-- A line test ends with the pairs that failed (R184): a pass is TRANSIENT, three failures within 10 s are LASTING and
isolate the channel; an FBK_LINE_TEST_RUN that ordered it completes. -/
def Mach.lineTest (m : Mach) (e : Env) (c failed : Nat) : Mach :=
  let cmd := (m.fb c).testCmd
  let m1 := m.setFb c fun h => { h with testDue := false, testCmd := none }
  let m2 :=
    if failed = 0 then (m1.faultVerdict 4 c false).event e 0x3804 (some 2) (le 1 c ++ le 1 0 ++ le 1 0)
    else
      let recent := ((m.fb c).failTests.filter fun t => decide (e.ns ≤ t + 10000000000)) ++ [e.ns]
      let m3 := m1.setFb c fun h => { h with failTests := recent }
      if 3 ≤ recent.length then
        (((((m3.faultVerdict 4 c true)).setFb c fun h => { h with failTests := [] }).sb (.FBK_CHc_STS_isolated c) true).fbChanged c).event e 0x3804
          (some 4) (le 1 c ++ le 1 failed ++ le 1 1)
      else m3
  match cmd with
  | some k => m2.complete e 0x3E k stOk (le 1 (if failed = 0 then 0 else 1) ++ le 1 failed) []
  | none => m2

def execSsiLineTest (c failedPairs : Nat) (s : State) : Host.Outcome State Fault Refusal :=
  s.onInst (decide (c < 12)) fun e m =>
    if (m.fb c).testDue || (m.fb c).testCmd.isSome then m.lineTest e c failedPairs else m

/-! ### Latching (R185 to R187) -/

/-- A sample of channel c is valid (R186). -/
def Mach.fbValid (m : Mach) (c : Nat) (frameOk : Bool) : Bool :=
  m.b (.FBK_CHc_CFG_en c) && !m.b (.FBK_CHc_STS_line_err c) && !m.b (.FBK_CHc_STS_hall_err c)
    && !m.b (.FBK_CHc_STS_isolated c) && frameOk && !(m.b (.FBK_CHc_CFG_sup_en c) && m.b (.FBK_CHc_STS_sup_fault c))

/-- A sample is delivered (R185, R186): the registers of R187 show it, its stream takes every n-th, and the emulators follow its validity. -/
def Mach.fbSample (m : Mach) (e : Env) (c ts : Nat) (frameOk : Bool) : Mach :=
  let h := m.fb c
  let st := Stamp.ofNs ts
  let v := m.fbValid c frameOk
  let flags := (if v then 1 else 0) + (if h.still then 2 else 0) + (if h.lowconf then 4 else 0)
    + (if h.neg then 8 else 0) + (if h.idxSeen then 16 else 0) + (if frameOk then 0 else 32)
  let m1 := ((((((m.wr (Reg.FBK_CHc_POS_LO c) (BitVec.ofNat 32 h.count)).wr (Reg.FBK_CHc_POS_HI c)
    (BitVec.ofNat 32 (h.count / 2 ^ 32))).wr (Reg.FBK_CHc_SPD c) h.speed).wr (Reg.FBK_CHc_STMP_NS c)
    (BitVec.ofNat 32 st.ns)).wr (Reg.FBK_CHc_STMP_SL c) (BitVec.ofNat 32 st.sec)).wr (Reg.FBK_CHc_STMP_SH c)
    (BitVec.ofNat 32 (st.sec / 2 ^ 32 % 2 ^ 16))).wr (Reg.FBK_CHc_FLAGS c) (BitVec.ofNat 32 flags)
  let m1' := if frameOk = m.b (.FBK_CHc_FLAGS_ssi_fail c) then m1.fbChanged c else m1
  let m2 := ((m1'.setBit Reg.FBK_STS c v).setFb c fun h => { h with idxSeen := false }).emuHolds
  match h.stream with
  | none => m2
  | some (q, n) =>
    if h.streamCount + 1 < n then m2.setFb c fun h => { h with streamCount := h.streamCount + 1 }
    else
      (m2.setFb c fun h => { h with streamCount := 0 }).stream e q 3 c flags
        (st.bytes ++ le 6 h.count ++ le 4 h.speed.toNat ++ le 4 (m.g (.FBK_CHc_SCALE_scale c)))

/-- The latch of channel c at a base tick at ts ns, the tick-th since 0 s (R185): an SSI channel delivers the frame that
ended and requests one at every every-th tick; any other latches position, speed and flags; a disabled one latches samples that are not valid. -/
def Mach.fbLatch (m : Mach) (e : Env) (ts tick c : Nat) : Mach :=
  if !m.b (.FBK_CHc_CFG_en c) then m.fbSample e c ts (!m.b (.FBK_CHc_FLAGS_ssi_fail c))
  else if m.g (.FBK_CHc_CFG_mode c) = 1 then
    let m1 := match (m.fb c).result with
      | some (ok, req) => (m.fbSample e c req ok).setFb c fun h => { h with result := none }
      | none => m
    if tick % max 1 (m.g (.FBK_CHc_TMO_every c)) = 0 && (m1.fb c).req.isNone
    then (m1.setFb c fun h => { h with req := some ts }).emit "SSI_CLK" c (m1.ssiEdges c + 1) (le 2 (m1.g (.FBK_CHc_SSI_per c))) else m1
  else
    (m.setFb c fun h => h.latchSpeed ts (m.g (.FBK_CHc_TMO_spd_tmo c) * 1000000)).fbSample e c ts true

/-- Channel c delivers a sample at the next base tick: in SSI mode only when a frame has ended. -/
def Mach.fbDelivers (m : Mach) (c : Nat) : Bool := !m.b (.FBK_CHc_CFG_en c) || m.g (.FBK_CHc_CFG_mode c) != 1 || (m.fb c).result.isSome

/-- A supply switches in 0.1 V: its line, and sup_ok (R197). -/
def Mach.supplySet (m : Mach) (c : Nat) (on : Bool) : Mach :=
  (m.setBit Reg.FBK_SUP_STS c on).emit "SUP" c (if !on then 0 else if m.b (.FBK_CHc_CFG_sup_12v c) then 120 else 50)

/-- A supply off for a change of its voltage comes back after 10 ms (R197). -/
def Mach.supplyBack (m : Mach) (e : Env) (c : Nat) : Mach :=
  match (m.fb c).supAt with
  | some t =>
    if m.b (.FBK_CHc_CFG_sup_en c) && !m.b (.FBK_CHc_STS_sup_fault c) && decide (t + 2500000 ≤ e.powered)
    then (m.setFb c fun h => { h with supAt := none }).supplySet c true else m
  | none => m

/-- Every channel latches at a base tick (R185). -/
def Mach.fbLatchAll (m : Mach) (e : Env) (ts tick : Nat) : Mach := iter 12 (fun c m => (m.supplyBack e c).fbLatch e ts tick c) m

/-! ### Enabling and supplies (R165, R166, R197, R198, R695) -/

/-- Channel c lacks its lines: GEN_PINMUX gives them to a serial port or an emulator (R695). -/
def Mach.fbUnconnected (m : Mach) (c : Nat) : Bool :=
  (decide (4 ≤ c) && decide (c < 8) && m.bit Reg.GEN_PINMUX (c - 4))
    || (decide (8 ≤ c) && decide (c < 12) && m.bit Reg.GEN_PINMUX (c - 8 + 4))

/-- Emulator k lacks its lines (R695). -/
def Mach.emuUnconnected (m : Mach) (k : Nat) : Bool := !m.bit Reg.GEN_PINMUX (k + 4)

/-- The code on the hall lines (W, V, U). -/
def FbCh.hallCode (h : FbCh) : Nat := (if h.a then 1 else 0) + (if h.b then 2 else 0) + (if h.z then 4 else 0)

/-- What follows when a channel has been enabled: it starts still and unindexed (R177, R188), isolation ends (R184), and in HALL mode the code on its
lines is the one it counts from, or sets hall_err (R171). -/
def Mach.fbStart (m : Mach) (c : Nat) : Mach :=
  let code := (m.fb c).hallCode
  let valid := code != 0 && code != 7
  (((if m.b (.FBK_CHc_STS_isolated c) then m.fbChanged c else m).setFb c fun h =>
    { h with still := true, lowconf := false, speed := 0, indexed := false, idxSeen := false, req := none,
             lastWord := none, result := none, failTests := [], hall := if valid then code else 0 }).sb (.FBK_CHc_STS_isolated c) false).hallErr c
      (m.g (.FBK_CHc_CFG_mode c) == 2 && !valid)

/-- What follows when a channel has been disabled: line_err clears with its event (R168). -/
def Mach.fbStop (m : Mach) (e : Env) (c : Nat) : Mach :=
  let m1 := m.lineClear e c
  ((m1.hallErr c false).setFb c fun h =>
    { h with req := none, result := none, testDue := false }).sb (.FBK_CHc_STS_armed c) false

/-- The supply follows sup_en and sup_12v as they were in a machine before (R197): off, its fault ends; on, it is in tolerance until an overload; a new
voltage switches it off for 10 ms first. -/
def Mach.supplySync (m : Mach) (e : Env) (c : Nat) (was : Mach) : Mach :=
  let on := m.b (.FBK_CHc_CFG_sup_en c)
  if on != was.b (.FBK_CHc_CFG_sup_en c) then
    ((m.sb (.FBK_CHc_STS_sup_fault c) false).setFb c fun h => { h with supAt := none }).supplySet c on
  else if on && m.b (.FBK_CHc_CFG_sup_12v c) != was.b (.FBK_CHc_CFG_sup_12v c) && !m.b (.FBK_CHc_STS_sup_fault c) then
    (m.setFb c fun h => { h with supAt := some e.powered }).supplySet c false
  else m

/-- An enable refused by the check of R166. -/
def Mach.fbRefuse (m : Mach) (c : Nat) : Mach := (m.sb (.FBK_CHc_STS_cfg_err c) true).fbIrq 41

/-- A write of a channel's CFG that sets en from 0 to 1 (R166): the fields of the same write first (R9), then the check; on
refusal en stays 0 and cfg_err is set. An unconnected channel's en is ignored and recorded (R695). -/
def Mach.fbEnable (m : Mach) (e : Env) (c : Nat) (v : Word) : Mach :=
  let off := Reg.FBK_CHc_CFG c
  if m.fbUnconnected c then
    (m.hostPutBar e.locked (!e.locked) 1 off v).supplySync e c m
  else
    let m1 := (m.hostPut e.locked (!e.locked) off v).supplySync e c m
    match m1.fbCheck c with
    | some _ => (m1.sb (.FBK_CHc_CFG_en c) false).fbRefuse c
    | none => m1.fbStart c

/-- Any other host write of a channel's CFG. -/
def Mach.fbCfgWrite (m : Mach) (e : Env) (c : Nat) (v : Word) : Mach :=
  let en := m.b (.FBK_CHc_CFG_en c)
  let m1 := (m.hostPut e.locked (!en && !e.locked) (Reg.FBK_CHc_CFG c) v).supplySync e c m
  if en && !m1.b (.FBK_CHc_CFG_en c) then m1.fbStop e c else m1

def execFbkChEnable (c : Nat) (value : Word) (s : State) : Host.Outcome State Fault Refusal :=
  s.onInst (decide (c < 12)) fun e m =>
    if m.b (.FBK_CHc_CFG_en c) || value.toNat % 2 = 0 then m.fbCfgWrite e c value else m.fbEnable e c value

/-- FBK_SUPPLY (R201). -/
def Mach.supplyEvent (m : Mach) (e : Env) (mask : Nat) (budget set : Bool) : Mach :=
  m.event e 0x3805 (some (if set then 3 else 2))
    (le 2 mask ++ le 1 (if budget then 1 else 0) ++ le 1 (if set then 1 else 0))

/-- A supply is switched off by fault (R197, R198). -/
def Mach.supplyOff (m : Mach) (e : Env) (c : Nat) : Mach :=
  ((((m.setBit Reg.FBK_SUP_STS (16 + c) true).setFb c fun h => { h with supAt := some e.powered }).supplySet c false).sb
    (.FBK_CHc_STS_sup_fault c) true).fbIrq 40

def execSupplyOverload (c : Nat) (s : State) : Host.Outcome State Fault Refusal :=
  s.onInst (decide (c < 12)) fun e m =>
    if m.b (.FBK_CHc_CFG_sup_en c) && !m.b (.FBK_CHc_STS_sup_fault c) then (m.supplyOff e c).supplyEvent e (2 ^ c) false true else m

/-- A supply in fault for 1 s is tried again (R197): it stays on when its load is good, and else goes off for another second. -/
def execSupplyRetry (c : Nat) (good : Bool) (s : State) : Host.Outcome State Fault Refusal :=
  s.onInst (decide (c < 12)) fun e m =>
    let due := match (m.fb c).supAt with | some t => decide (t + 250000000 ≤ e.powered) | none => true
    if !m.b (.FBK_CHc_CFG_sup_en c) || !m.b (.FBK_CHc_STS_sup_fault c) || !due then m
    else if good then
      (((m.sb (.FBK_CHc_STS_sup_fault c) false).setFb c fun h => { h with supAt := none }).supplySet c true).supplyEvent e (2 ^ c) false false
    else m.setFb c fun h => { h with supAt := some e.powered }

/-- The supplies R198 switches off: enabled ones, highest channel first, until the total in mW is 7 000 or less. -/
def budgetOff (loads : List Nat) (on : Nat → Bool) : Nat → Nat → Nat
  | 0, _ => 0
  | c + 1, total =>
    if total ≤ 7000 then 0
    else if on c then 2 ^ c + budgetOff loads on c (total - loads.getD c 0)
    else budgetOff loads on c total

def execSupplyBudget (loads : List Nat) (s : State) : Host.Outcome State Fault Refusal :=
  s.act fun e m =>
    if loads.sum ≤ 7500 then m
    else
      let mask := budgetOff loads
        (fun c => m.b (.FBK_CHc_CFG_sup_en c) && !m.b (.FBK_CHc_STS_sup_fault c)) 12 loads.sum
      let m1 := iter 12 (fun c m => if mask.testBit c then m.supplyOff e c else m) m
      ((m1.sb .FBK_SUP_STS_budget true).fbIrq 40).supplyEvent e mask true true

/-- EMU_COUNT_OUTPUT: the next count of the queue leaves, no sooner than emu_min after the one before (R193 to R196). -/
def execEmuCountOutput (k : Nat) (s : State) : Host.Outcome State Fault Refusal :=
  s.onInst (decide (k < 4)) fun e m => m.emuOutput e k

/-! ### Commands (R199, R200) -/

/-- The nine registers FBK_CFG carries, with the bits that may differ while the channel is enabled (R200). -/
def fbCfgRegs (c : Nat) : List (Nat × Nat) :=
  [(Reg.FBK_CHc_CFG c, 0x000C0000), (Reg.FBK_CHc_SSI c, 0), (Reg.FBK_CHc_CRC c, 0), (Reg.FBK_CHc_TMO c, 0),
   (Reg.FBK_CHc_IDX_VAL c, 0xFFFFFFFF), (Reg.FBK_CHc_IDX_CPR c, 0xFFFFFFFF), (Reg.FBK_CHc_IDX_EXP c, 0xFFFFFFFF),
   (Reg.FBK_CHc_IDX_TOL c, 0xFFFFFFFF), (Reg.FBK_CHc_SCALE c, 0xFFFFFFFF)]

/-- The writable bits of a register, whatever their code. -/
def cfgMask (off : Nat) : Word :=
  match regAt off with
  | some d => BitVec.ofNat 32 (d.rw ||| d.rwl ||| d.rwq)
  | none => 0

/-- An image of a configuration register put in force: its writable bits from the image. -/
def Mach.putImage (m : Mach) (off : Nat) (v : Word) : Mach :=
  m.wr off ((m.rd off &&& ~~~cfgMask off) ||| (v &&& cfgMask off))

/-- Images of registers put in force, four parameter bytes each. -/
def Mach.putImages (m : Mach) (c : Cmd) (i : Nat) : List Nat → Mach
  | [] => m
  | off :: l => (m.putImage off (BitVec.ofNat 32 (c.u32 i))).putImages c (i + 4) l

/-- Images differ from the registers only in bits that may: the pairs give each register with its free bits. -/
def Mach.imagesFit (m : Mach) (c : Cmd) (i : Nat) : List (Nat × Nat) → Bool
  | [] => true
  | (off, may) :: l =>
    ((m.rd off ^^^ BitVec.ofNat 32 (c.u32 i)) &&& cfgMask off &&& ~~~(BitVec.ofNat 32 may)) == 0
      && m.imagesFit c (i + 4) l

/-- The free bits of a target in force when its image clears en: en may differ, and only to 0. -/
def mayClearEn (enImage : Nat) : List (Nat × Nat) → List (Nat × Nat)
  | (off, may) :: l => (off, if enImage = 0 then may ||| 1 else may) :: l
  | [] => []

/-- The ranges of FBK_CFG's timing fields (R179, R204): the clock period in every mode, the word length and the timeout in SSI mode. -/
def Mach.fbRanges (m : Mach) (c : Nat) : Bool :=
  let tmo := m.g (.FBK_CHc_TMO_spd_tmo c)
  let per := m.g (.FBK_CHc_SSI_per c)
  let bits := m.g (.FBK_CHc_SSI_bits c)
  decide (1 ≤ tmo) && decide (tmo ≤ 10000) && decide (125 ≤ per) && decide (per ≤ 5000)
    && (m.g (.FBK_CHc_CFG_mode c) != 1 || (decide (8 ≤ bits) && decide (bits ≤ 48) && m.g (.FBK_CHc_TMO_ssi_tmo c) != 0))

def execFbkCfg (c : Cmd) (s : State) : Host.Outcome State Fault Refusal :=
  s.act fun e m => runCmd 0x38 c e.isSealed false (fun e m =>
    let k := c.u8 0
    if 12 ≤ k then m.fail stRange
    else if m.fbUnconnected k then m.fail stState
    else
      let m1 := (m.putImages c 4 ((fbCfgRegs k).map Prod.fst)).supplySync e k m
      if m.b (.FBK_CHc_CFG_en k) then
        if !m.imagesFit c 4 (mayClearEn (c.u8 4 % 2) (fbCfgRegs k)) then m.fail stState
        else if m1.b (.FBK_CHc_CFG_en k) then .ok m1 else .ok (m1.fbStop e k)
      else if !m1.fbRanges k then m.fail stRange
      else if m1.b (.FBK_CHc_CFG_en k) then
        match m1.fbCheck k with
        | some st => (m.fbRefuse k).fail st
        | none => .ok (m1.fbStart k)
      else .ok m1) e m

def execFbkSetPos (c : Cmd) (s : State) : Host.Outcome State Fault Refusal :=
  s.act fun e m => runCmd 0x39 c false false (fun e m =>
    let k := c.u8 0
    if 12 ≤ k then m.fail stRange
    else if m.g (.FBK_CHc_CFG_mode k) = 1 then m.fail stState
    else .done (m.setFb k fun h => h.load (c.un 8 6)) stOk e.now.bytes []) e m

def execFbkIdxArm (c : Cmd) (s : State) : Host.Outcome State Fault Refusal :=
  s.act fun e m => runCmd 0x3A c false false (fun _ m =>
    let k := c.u8 0
    if 12 ≤ k || 2 ≤ c.u8 1 then m.fail stRange
    else if m.g (.FBK_CHc_CFG_idx_mode k) != 2 then m.fail stState
    else .ok (m.s (.FBK_CHc_STS_armed k) (c.u8 1))) e m

def execFbkEmuCfg (c : Cmd) (s : State) : Host.Outcome State Fault Refusal :=
  s.act fun e m => runCmd 0x3B c e.isSealed false (fun e m =>
    let k := c.u8 0
    let regs := [(Reg.FBK_EMUe_CFG k, 0), (Reg.FBK_EMUe_RATIO k, 0)]
    if 4 ≤ k then m.fail stRange
    else if m.emuUnconnected k then m.fail stState
    else
      let m1 := m.putImages c 4 (regs.map Prod.fst)
      let src := m1.g (.FBK_EMUe_CFG_src k)
      let num := m1.g (.FBK_EMUe_RATIO_num k)
      let den := m1.g (.FBK_EMUe_RATIO_den k)
      if (12 ≤ src && src ≤ 14) || num = 0 || den = 0 || 4 * den < num then m.fail stRange
      else if m.b (.FBK_EMUe_CFG_en k) then
        if m.imagesFit c 4 (mayClearEn (c.u8 4 % 2) regs) then .ok m1.emuHolds else m.fail stState
      else .ok (m1.emuStart e k).emuHolds) e m

/-- A stream queue parameter (R199 and the like): 0 to 15, or 0xFF for off. -/
def queueOk (q : Nat) : Bool := decide (q < 16) || q == 0xFF

def execFbkStream (c : Cmd) (s : State) : Host.Outcome State Fault Refusal :=
  s.act fun e m => runCmd 0x3C c false false (fun _ m =>
    let k := c.u8 0
    let q := c.u8 1
    if 12 ≤ k || !queueOk q || c.u16 2 = 0 then m.fail stRange
    else if q != 0xFF && !m.b (qEn .stq q) then m.fail stState
    else .ok (m.setFb k fun h =>
      { h with stream := if q = 0xFF then none else some (q, c.u16 2), streamCount := 0 })) e m

/-- Registers read in order, as 32-bit little-endian words. -/
def Mach.regBytes (m : Mach) (l : List Nat) : List Byte := l.flatMap fun off => le 4 (m.rd off).toNat

def execFbkStatusGet (c : Cmd) (s : State) : Host.Outcome State Fault Refusal :=
  s.act fun e m => runCmd 0x3D c false true (fun _ m =>
    let data := (List.range 12).flatMap (fun k =>
        m.regBytes [Reg.FBK_CHc_FLAGS k, Reg.FBK_CHc_CNT k, Reg.FBK_CHc_STS k])
      ++ m.regBytes [Reg.FBK_SUP_STS] ++ m.regBytes ((List.range 4).map Reg.FBK_EMUe_STS)
    let m1 := if c.u8 0 % 2 = 1 then iter 12 (fun k m => m.wr (Reg.FBK_CHc_CNT k) 0) m else m
    .done m1 stOk [] data) e m

def execFbkLineTestRun (c : Cmd) (s : State) : Host.Outcome State Fault Refusal :=
  s.act fun e m => runCmd 0x3E c false false (fun _ m =>
    let k := c.u8 0
    if 12 ≤ k then m.fail stRange
    else if !m.b (.FBK_CHc_CFG_en k) then m.fail stState
    else if (m.fb k).testDue || (m.fb k).testCmd.isSome then m.fail stBusy
    else .wait (m.setFb k fun h => { h with testCmd := some c })) e m

end Sys2Proof.Machine
end

