-- ==== Sys2Proof/Machine/Fp64.lean ====
section
/-!
DEFINITION. IEEE 754 binary64 arithmetic, round-to-nearest-even, for the FP64 work of R221, R232, R292 and R306. Every
finite value is a whole number of units of 2^-1074.
Log: 8 (DESIGN CHOICE), 72 (DESIGN CHOICE).
-/
namespace Sys2Proof.Machine

/-- A binary64 value. -/
abbrev F64 := BitVec 64

def fdNeg (a : F64) : Bool := decide (2 ^ 63 ≤ a.toNat)
def fdExp (a : F64) : Nat := a.toNat / 2 ^ 52 % 2048
def fdFrac (a : F64) : Nat := a.toNat % 2 ^ 52
def fdIsNan (a : F64) : Bool := fdExp a == 2047 && fdFrac a != 0
def fdIsInf (a : F64) : Bool := fdExp a == 2047 && fdFrac a == 0
def fdFinite (a : F64) : Bool := fdExp a != 2047

/-- The magnitude of a finite value in units of 2^-1074. -/
def fdMag (a : F64) : Nat := if fdExp a = 0 then fdFrac a else (fdFrac a + 2 ^ 52) * 2 ^ (fdExp a - 1)

/-- The signed value in units; an infinity lies beyond every finite value. -/
def fdInt (a : F64) : Int :=
  let n := if fdIsInf a then 2 ^ 2200 else fdMag a
  if fdNeg a then -(n : Int) else n

def fdNan : F64 := 0x7FF8000000000000
def fdInf (neg : Bool) : F64 := if neg then 0xFFF0000000000000 else 0x7FF0000000000000
def fdZero (neg : Bool) : F64 := if neg then 0x8000000000000000 else 0

/-- num/den units of 2^-1074 rounded to binary64. -/
def fdRound (neg : Bool) (num den : Nat) : F64 :=
  let q := num / den
  let s := Nat.log2 q - 52
  let n := roundNe num (den * 2 ^ s)
  let bits := if n < 2 ^ 52 then n else n + s * 2 ^ 52
  if 2047 * 2 ^ 52 ≤ bits then fdInf neg else BitVec.ofNat 64 (bits + if neg then 2 ^ 63 else 0)

def fdOfUnits (i : Int) (zeroNeg : Bool) : F64 :=
  if i = 0 then fdZero zeroNeg else fdRound (decide (i < 0)) i.natAbs 1

def fdNegate (a : F64) : F64 := a ^^^ 0x8000000000000000
def fdAbs (a : F64) : F64 := a &&& 0x7FFFFFFFFFFFFFFF

def fdAdd (a b : F64) : F64 :=
  if fdIsNan a || fdIsNan b then fdNan
  else if fdIsInf a then if fdIsInf b && fdNeg a != fdNeg b then fdNan else a
  else if fdIsInf b then b
  else fdOfUnits (fdInt a + fdInt b) (fdNeg a && fdNeg b)

def fdSub (a b : F64) : F64 := fdAdd a (fdNegate b)

def fdMul (a b : F64) : F64 :=
  let neg := fdNeg a != fdNeg b
  if fdIsNan a || fdIsNan b then fdNan
  else if fdIsInf a then if fdFinite b && fdMag b == 0 then fdNan else fdInf neg
  else if fdIsInf b then if fdMag a == 0 then fdNan else fdInf neg
  else if fdMag a * fdMag b = 0 then fdZero neg
  else fdRound neg (fdMag a * fdMag b) (2 ^ 1074)

def fdDiv (a b : F64) : F64 :=
  let neg := fdNeg a != fdNeg b
  if fdIsNan a || fdIsNan b then fdNan
  else if fdIsInf a then if fdIsInf b then fdNan else fdInf neg
  else if fdIsInf b then fdZero neg
  else if fdMag b = 0 then if fdMag a = 0 then fdNan else fdInf neg
  else if fdMag a = 0 then fdZero neg
  else fdRound neg (fdMag a * 2 ^ 1074) (fdMag b)

def fdLt (a b : F64) : Bool := !fdIsNan a && !fdIsNan b && decide (fdInt a < fdInt b)
def fdLe (a b : F64) : Bool := !fdIsNan a && !fdIsNan b && decide (fdInt a ≤ fdInt b)
def fdMax (a b : F64) : F64 := if fdLt a b then b else a
def fdMin (a b : F64) : F64 := if fdLt b a then b else a

/-- The largest r with r² ≤ n, bit by bit. -/
def isqrtBits : Nat → Nat → Nat → Nat
  | 0, _, r => r
  | k + 1, n, r => let r' := r + 2 ^ k; isqrtBits k n (if r' * r' ≤ n then r' else r)

/-- The whole square root. -/
def isqrt (n : Nat) : Nat := isqrtBits (Nat.log2 n / 2 + 1) n 0

/-- The square root; of a negative number a NaN. -/
def fdSqrt (a : F64) : F64 :=
  if fdIsNan a then fdNan
  else if fdIsInf a then if fdNeg a then fdNan else a
  else if fdMag a = 0 then a
  else if fdNeg a then fdNan
  else
    let n := fdMag a * 2 ^ 1074 * 2 ^ 64
    let q := isqrt n
    fdRound false (2 * q + if q * q = n then 0 else 1) (2 * 2 ^ 32)

/-- The reciprocal square root, rounded once (R301). -/
def fdRsqrt (a : F64) : F64 :=
  if fdIsNan a then fdNan
  else if fdIsInf a then if fdNeg a then fdNan else 0
  else if fdMag a = 0 then fdInf (fdNeg a)
  else if fdNeg a then fdNan
  else
    let q := isqrt (2 ^ 2474 / fdMag a)
    fdRound false ((2 * q + if q * q * fdMag a = 2 ^ 2474 then 0 else 1) * 2 ^ 1074) (2 ^ 701)

/-- The largest r with r³ ≤ n, bit by bit. -/
def icbrtBits : Nat → Nat → Nat → Nat
  | 0, _, r => r
  | k + 1, n, r => let r' := r + 2 ^ k; icbrtBits k n (if r' * r' * r' ≤ n then r' else r)

/-- The power 2/3 of a value that is not negative, rounded once: the cube root of the square. -/
def fdPow23 (a : F64) : F64 :=
  if fdIsNan a || fdNeg a && fdMag a != 0 then fdNan
  else if fdIsInf a then a
  else if fdMag a = 0 then 0
  else
    let n := fdMag a ^ 2 * 2 ^ 1074 * 2 ^ 192
    let q := icbrtBits (Nat.log2 n / 3 + 1) n 0
    fdRound false (2 * q + if q * q * q = n then 0 else 1) (2 ^ 65)

/-- A ratio of integers. -/
def fdOfRatio (num : Int) (den : Nat) : F64 :=
  if num = 0 then 0 else fdRound (decide (num < 0)) (num.natAbs * 2 ^ 1074) den

def fdOfInt (i : Int) : F64 := fdOfRatio i 1

/-- A binary32 value, exactly. -/
def fdOfF32 (a : Word) : F64 :=
  if fpIsNan a then fdNan else if fpIsInf a then fdInf (fpNeg a)
  else fdRound (fpNeg a) (fpMag a * 2 ^ 925) 1

/-- The nearest binary32 value. -/
def fdToF32 (a : F64) : Word :=
  if fdIsNan a then fpNan else if fdIsInf a then fpInf (fdNeg a)
  else if fdMag a = 0 then fpZero (fdNeg a) else fpRound (fdNeg a) (fdMag a) (2 ^ 925)

/-- A finite value times num/den, to the nearest whole number, ties to even. -/
def fdScaleRound (a : F64) (num den : Nat) : Int :=
  let n := roundNe (fdMag a * num) (2 ^ 1074 * den)
  if fdNeg a then -(n : Int) else n

/-! ### Vectors and matrices -/

/-- A sum of values: of two the one rounding is the same in either order; of more the order is open. -/
def fdSum (l : List F64) : F64 :=
  match l.filter fun x => !(fdFinite x && fdMag x == 0) with
  | [] => 0
  | [x] => x
  | [x, y] => fdAdd x y
  | l => addInOrder fdAdd 0 (Config.sumOrder64 l) (l.length - 1) l

/-- The dot product, of rounded products. -/
def fdDot (a b : List F64) : F64 := fdSum (List.zipWith fdMul a b)

/-- A fused multiply-add (R300): a × b + c, rounded once. -/
def fdFma (a b c : F64) : F64 :=
  if !fdFinite a || !fdFinite b || !fdFinite c then fdAdd (fdMul a b) c
  else
    let s : Int := fdInt a * fdInt b + fdInt c * 2 ^ 1074
    if s = 0 then fdAdd (fdMul a b) c else fdRound (decide (s < 0)) s.natAbs (2 ^ 1074)

/-- Element i of a vector. -/
def fdAt (l : List F64) (i : Nat) : F64 := l.getD i 0

/-- Matrix times vector. -/
def matVec (a : List (List F64)) (v : List F64) : List F64 := a.map fun r => fdDot r v

/-- The transpose of an n-column matrix. -/
def matT (n : Nat) (a : List (List F64)) : List (List F64) := (List.range n).map fun j => a.map fun r => fdAt r j

/-- The product with a matrix of n columns. -/
def matMul (n : Nat) (a b : List (List F64)) : List (List F64) :=
  let bt := matT n b
  a.map fun r => bt.map fun c => fdDot r c

def vecAdd (a b : List F64) : List F64 := List.zipWith fdAdd a b
def matAdd (a b : List (List F64)) : List (List F64) := List.zipWith vecAdd a b
def matSub (a b : List (List F64)) : List (List F64) :=
  List.zipWith (fun r s => List.zipWith fdSub r s) a b

/-- The identity of size n, scaled. -/
def matDiag (n : Nat) (x : F64) : List (List F64) :=
  (List.range n).map fun i => (List.range n).map fun j => if i = j then x else 0

end Sys2Proof.Machine
end

