-- ==== Sys2Proof/Machine/Nmea.lean ====
section
/-!
DEFINITION. Reading numbers out of sentences, packets and payloads (R151, R208, R210): the fields of a sentence, decimal
numbers, and the binary types. The layouts of the sentences themselves are those of IEC 61162-1 (PRESUMED, entry 16).
-/
namespace Sys2Proof.Machine

/-- The fields of a sentence between its commas, up to the asterisk or the end. -/
def nmeaFields : List Byte → List Byte → List (List Byte)
  | acc, [] => [acc.reverse]
  | acc, b :: bs =>
    if b = 0x2C then acc.reverse :: nmeaFields [] bs
    else if b = 0x2A || b = 0x0D then [acc.reverse]
    else nmeaFields (b :: acc) bs

/-- A digit's value. -/
def digit? (b : Byte) : Option Nat := if 0x30 ≤ b.toNat && b.toNat ≤ 0x39 then some (b.toNat - 0x30) else none

/-- A hexadecimal digit's value. -/
def hexDigit? (b : Byte) : Option Nat :=
  let n := b.toNat
  if 0x30 ≤ n && n ≤ 0x39 then some (n - 0x30)
  else if 0x41 ≤ n && n ≤ 0x46 then some (n - 0x37)
  else if 0x61 ≤ n && n ≤ 0x66 then some (n - 0x57)
  else none

/-- Digits with at most one point, as a numerator over a power of ten. -/
def decDigits : List Byte → Nat → Nat → Bool → Option (Nat × Nat)
  | [], n, d, _ => some (n, d)
  | b :: bs, n, d, pt =>
    if b = 0x2E then if pt then none else decDigits bs n d true
    else match digit? b with
      | some v => decDigits bs (n * 10 + v) (if pt then d * 10 else d) pt
      | none => none

/-- A signed decimal number. -/
def decimal? (l : List Byte) : Option (Int × Nat) :=
  match l with
  | [] => none
  | b :: bs =>
    if b = 0x2D then if bs.isEmpty then none else (decDigits bs 0 1 false).map fun p => (-(p.1 : Int), p.2)
    else (decDigits l 0 1 false).map fun p => ((p.1 : Int), p.2)

/-- A decimal number as FP64. -/
def decF64? (l : List Byte) : Option F64 := (decimal? l).map fun p => fdOfRatio p.1 p.2

/-- A sum of two decimal numbers. -/
def decSum (a b : Int × Nat) : Int × Nat := (a.1 * b.2 + b.1 * a.2, a.2 * b.2)

/-- Degrees and minutes, with a hemisphere letter that makes the value negative. -/
def degMin? (l h : List Byte) (pos neg : Byte) : Option F64 :=
  match decimal? l, h with
  | some (n, d), [c] =>
    if n < 0 || (c != pos && c != neg) then none
    else
      let v := n.toNat
      let deg := v / (100 * d)
      let min := v % (100 * d)
      some (fdOfRatio ((if c = neg then -1 else 1) * ((deg * 60 * d + min : Nat) : Int)) (60 * d))
  | _, _ => none

/-- Field i of a sentence. -/
def fieldAt (fs : List (List Byte)) (i : Nat) : List Byte := fs.getD i []

/-- The sentence formatter: the last three characters of the address field. -/
def formatter (fs : List (List Byte)) : List Byte := let a := fieldAt fs 0; a.drop (a.length - 3)

/-- A raw field of a binary packet (R210): its value as FP64. -/
def binField (typ : Nat) (p : List Byte) : Option F64 :=
  let n := if typ ≤ 1 then 2 else if typ ≤ 5 then 4 else 1
  if 6 < typ || p.length < n then none
  else
    let l := p.take n
    let v := unle (if typ = 1 || typ = 3 || typ = 5 then l.reverse else l)
    if typ ≤ 1 then some (fdOfInt (toSigned 16 v))
    else if typ ≤ 3 then some (fdOfInt (toSigned 32 v))
    else if typ ≤ 5 then some (fdOfF32 (BitVec.ofNat 32 v))
    else some (fdOfInt v)

end Sys2Proof.Machine
end

