-- ==== Sys2Proof/Machine/LchIn.lean ====
section
/-!
DEFINITION. Lichen's inputs (R205 to R216, R221 to R225, R235, R236): sources and decoders, samples and their slots, the
common grid in time and space, and the motion outputs.
Log: 57 (DEDUCED).
-/
namespace Sys2Proof.Machine

/-! ### The cycle and epoch grid (R15, R17, R212) -/

/-- t_origin in ns. -/
def Mach.cycOrg (m : Mach) : Nat :=
  (m.g .GEN_CYC_ORG_SL_org_s_lo + 2 ^ 32 * m.g .GEN_CYC_ORG_SH_org_s_hi) * 1000000000 + m.g .GEN_CYC_ORG_NS_org_ns

/-- t_origin is written. -/
def Mach.setOrg (m : Mach) (ns : Nat) : Mach :=
  let o := Stamp.ofNs ns
  (m.s .GEN_CYC_ORG_NS_org_ns o.ns).wr64 Reg.GEN_CYC_ORG_SL Reg.GEN_CYC_ORG_SH o.sec

/-- The cycle number. -/
def Mach.cycNum (m : Mach) : Nat := m.rd64 Reg.GEN_CYC_LO Reg.GEN_CYC_HI

/-- T/4 in ns. -/
def Mach.epochNs (m : Mach) : Nat := m.grid.periodMs * 250000

/-- The instant E_j (R212). -/
def Mach.epochInstant (m : Mach) (j : Nat) : Nat := m.grid.e0 + j * m.epochNs - m.grid.j0 * m.epochNs

/-! ### Slots -/

def Mach.lslot (m : Mach) (s : Nat) : LchSlot := nth LchSlot.reset m.lch.slots s

def Mach.setLslot (m : Mach) (s : Nat) (f : LchSlot → LchSlot) : Mach :=
  { m with lch := { m.lch with slots := upd m.lch.slots s f } }

def Mach.lchKind (m : Mach) (s : Nat) : Nat := m.g (.LCH_Ss_CFG_kind s)
def Mach.lchOn (m : Mach) (s : Nat) : Bool := m.b (.LCH_Ss_CFG_en s)

/-- A nominal period in ns. -/
def Mach.lchNom (m : Mach) (s : Nat) : Nat := m.g (.LCH_Ss_NOMPER_nomper s) * 1000

/-- A fast stream (R214). -/
def Mach.lchFast (m : Mach) (s : Nat) : Bool := decide (m.lchNom s ≤ m.epochNs)

/-- A quantity of a sample. -/
def qty? (x : LchSample) (c : Nat) : Option F64 := (x.vals.find? fun p => p.1 == c).map Prod.snd
def qty (x : LchSample) (c : Nat) : F64 := (qty? x c).getD 0

/-- Numbers in FP64. -/
def fdMilli (i : Int) : F64 := fdOfRatio i 1000
def fdOne : F64 := fdOfInt 1

/-- An angle in degrees brought into (−180, 180] by whole turns. -/
def wrap180 (a : F64) : F64 :=
  let w := fdSub a (fdOfInt (360 * fdScaleRound a 1 360))
  if fdLe w (fdOfInt (-180)) then fdAdd w (fdOfInt 360) else w

/-- An angle in degrees brought into [0, 360): one that rounds to 360 is 0. -/
def wrap360 (a : F64) : F64 :=
  let w := wrap180 a
  let x := if fdLt w 0 then fdAdd w (fdOfInt 360) else w
  if fdLt x (fdOfInt 360) || fdIsNan x then x else 0

/-- An angle of [0, 360) degrees in FP32: one that rounds to 360 is 0. -/
def headingF32 (a : F64) : Word :=
  let w := fdToF32 (wrap360 a)
  if fpLt w (fpOfInt 360) || fpIsNan w then w else 0

/-! ### Decoders (R208 to R210) -/

/-- The quality of a GGA fix indicator (R209). -/
def ggaQuality (c : Byte) : Option F64 :=
  match digit? c with
  | some 0 => some 0 | some 6 => some 0 | some 7 => some 0 | some 8 => some 0
  | some 1 => some (fdOfRatio 1 4) | some 3 => some (fdOfRatio 1 4)
  | some 2 => some (fdOfRatio 1 2) | some 5 => some (fdOfRatio 3 4) | some 4 => some fdOne
  | _ => none

/-- The quality of a GNS mode character (R209). -/
def gnsQuality (c : Byte) : Option F64 :=
  if c = 0x4E || c = 0x45 || c = 0x4D || c = 0x53 then some 0
  else if c = 0x41 || c = 0x50 then some (fdOfRatio 1 4)
  else if c = 0x44 then some (fdOfRatio 1 2)
  else if c = 0x46 then some (fdOfRatio 3 4)
  else if c = 0x52 then some fdOne
  else none

/-- A position sentence's sample: latitude, longitude and ellipsoidal height, the height being the altitude plus the
separation. A sentence of quality 0 may leave them out. -/
def posSample (fs : List (List Byte)) (alt sep : Nat) (q : F64) : Option LchSample :=
  match degMin? (fieldAt fs 2) (fieldAt fs 3) 0x4E 0x53, degMin? (fieldAt fs 4) (fieldAt fs 5) 0x45 0x57 with
  | some la, some lo =>
    let a := (decimal? (fieldAt fs alt)).getD (0, 1)
    let b := (decimal? (fieldAt fs sep)).getD (0, 1)
    let h := decSum a b
    some ⟨0, q, none, [(1, la), (2, lo), (3, fdOfRatio h.1 h.2)]⟩
  | _, _ => if fdMag q = 0 then some ⟨0, q, none, []⟩ else none

/-- The bytes of an ASCII word of three letters. -/
def word3 (a b c : Nat) : List Byte := [BitVec.ofNat 8 a, BitVec.ofNat 8 b, BitVec.ofNat 8 c]

/-- A sentence under a decoder (R208): none when it does not match. -/
def decodeSentence (dec : Nat) (bytes : List Byte) : Option LchSample :=
  let fs := nmeaFields [] bytes
  let f := formatter fs
  if dec = 1 then
    if f = word3 0x47 0x47 0x41 then
      match fieldAt fs 6 with
      | [c] => (ggaQuality c).bind (posSample fs 9 11)
      | _ => none
    else none
  else if dec = 2 then
    if f = word3 0x47 0x4E 0x53 then
      match fieldAt fs 6 with
      | c :: _ => (gnsQuality c).bind (posSample fs 9 10)
      | _ => none
    else none
  else if dec = 4 then
    if f = word3 0x48 0x44 0x54 then (decF64? (fieldAt fs 1)).map fun h => ⟨0, fdOne, none, [(10, h)]⟩ else none
  else if dec = 5 then
    if f = word3 0x54 0x48 0x53 then
      let q : F64 := if fieldAt fs 2 = [0x41] then fdOne else 0
      match decF64? (fieldAt fs 1) with
      | some h => some ⟨0, q, none, [(10, h)]⟩
      | none => if fdMag q = 0 then some ⟨0, q, none, []⟩ else none
    else none
  else if dec = 6 then
    if f = word3 0x4D 0x57 0x56 && fieldAt fs 2 = [0x52] then
      let q : F64 := if fieldAt fs 5 = [0x56] then 0 else fdOne
      let unit : Option (Nat × Nat) := match fieldAt fs 4 with
        | [u] => if u = 0x4D then some (1, 1) else if u = 0x4E then some (1852, 3600)
          else if u = 0x4B then some (10, 36) else none
        | _ => none
      match decF64? (fieldAt fs 1), decimal? (fieldAt fs 3), unit with
      | some a, some v, some (n, d) => some ⟨0, q, none, [(17, fdOfRatio (v.1 * n) (v.2 * d)), (18, a)]⟩
      | _, _, _ => if fdMag q = 0 then some ⟨0, q, none, []⟩ else none
    else none
  else none

/-- The used entries of a binary descriptor (R210): offset, type, quantity, scale. -/
def descEntries : Nat → List Byte → List (Nat × Nat × Nat × Word)
  | 0, _ => []
  | n + 1, l =>
    let b (i : Nat) : Nat := (l.getD i 0).toNat
    if l.length < 8 then []
    else if b 1 = 0xFF then descEntries n (l.drop 8)
    else (b 0, b 1, b 2, BitVec.ofNat 32 (unle ((l.drop 4).take 4))) :: descEntries n (l.drop 8)

/-- The values of a packet under a descriptor; none when a field lies beyond it. -/
def descVals (p : List Byte) : List (Nat × Nat × Nat × Word) → Option (List (Nat × F64))
  | [] => some []
  | (off, typ, q, scale) :: l =>
    match binField typ (p.drop off), descVals p l with
    | some v, some r => some ((q, fdMul v (fdOfF32 scale)) :: r)
    | _, _ => none

/-- A packet under a descriptor (R209, R210): quality clipped to 0 to 1, a reported standard deviation, and the rest. -/
def decodeBinary (desc bytes : List Byte) : Option LchSample :=
  (descVals bytes (descEntries 8 desc)).map fun vs =>
    let x : LchSample := ⟨0, fdOne, none, vs⟩
    let q := match qty? x 19 with | some v => fdMin (fdMax v 0) fdOne | none => fdOne
    ⟨0, q, qty? x 20, vs.filter fun p => p.1 != 19 && p.1 != 20⟩

/-- A frame or payload under the decoder of slot s (R208). -/
def Mach.lchDecode (m : Mach) (s : Nat) (binary : Bool) (bytes : List Byte) : Option LchSample :=
  let dec := m.g (.LCH_Ss_SRC_decoder s)
  if dec = 0x20 then if binary then decodeBinary (m.lslot s).desc bytes else none
  else if binary then none else decodeSentence dec bytes

/-! ### The common grid in space (R221 to R225) -/

/-- A vector rotated about x by roll, with the cosine and sine. -/
def rotX (c s : F64) (v : F64 × F64 × F64) : F64 × F64 × F64 :=
  (v.1, fdSub (fdMul c v.2.1) (fdMul s v.2.2), fdAdd (fdMul s v.2.1) (fdMul c v.2.2))

/-- A vector rotated about y by pitch. -/
def rotY (c s : F64) (v : F64 × F64 × F64) : F64 × F64 × F64 :=
  (fdAdd (fdMul c v.1) (fdMul s v.2.2), v.2.1, fdSub (fdMul c v.2.2) (fdMul s v.1))

/-- A vector rotated about z by heading. -/
def rotZ (c s : F64) (v : F64 × F64 × F64) : F64 × F64 × F64 :=
  (fdSub (fdMul c v.1) (fdMul s v.2.1), fdAdd (fdMul s v.1) (fdMul c v.2.1), v.2.2)

/-- Rot = Rz(ψ) × Ry(θ) × Rx(φ) applied to a vector, angles in degrees (R222). -/
def rotVessel (roll pitch hdg : F64) (v : F64 × F64 × F64) : F64 × F64 × F64 :=
  rotZ (Config.cosDeg hdg) (Config.sinDeg hdg)
    (rotY (Config.cosDeg pitch) (Config.sinDeg pitch) (rotX (Config.cosDeg roll) (Config.sinDeg roll) v))

/-- 1/298.257 223 563 and e² = f(2 − f) of R221. -/
def wgsA : F64 := fdOfInt 6378137
def wgsF : F64 := fdDiv fdOne (fdOfRatio 298257223563 1000000000)
def wgsE2 : F64 := fdMul wgsF (fdSub (fdOfInt 2) wgsF)

/-- ECEF coordinates of a geodetic position (R221). -/
def ecef (lat lon h : F64) : F64 × F64 × F64 :=
  let s := Config.sinDeg lat
  let c := Config.cosDeg lat
  let nn := fdDiv wgsA (fdSqrt (fdSub fdOne (fdMul wgsE2 (fdMul s s))))
  let r := fdMul (fdAdd nn h) c
  (fdMul r (Config.cosDeg lon), fdMul r (Config.sinDeg lon),
    fdMul (fdAdd (fdMul nn (fdSub fdOne wgsE2)) h) s)

/-- A datum: latitude and longitude in 10⁻⁹ degree, height in mm. -/
def Mach.datum (m : Mach) : Int × Int × Int :=
  (toSigned 64 (m.rd64 Reg.LCH_DATUM_LAT_LO Reg.LCH_DATUM_LAT_HI),
   toSigned 64 (m.rd64 Reg.LCH_DATUM_LON_LO Reg.LCH_DATUM_LON_HI), m.gi .LCH_DATUM_HGT_hgt)

/-- A geodetic position on the plane of a datum, in mm (R221). -/
def planeOf (d : Int × Int × Int) (lat lon h : F64) : Int × Int × Int :=
  let la0 := fdOfRatio d.1 1000000000
  let lo0 := fdOfRatio d.2.1 1000000000
  let o := ecef la0 lo0 (fdMilli d.2.2)
  let p := ecef lat lon h
  let dx := fdSub p.1 o.1
  let dy := fdSub p.2.1 o.2.1
  let dz := fdSub p.2.2 o.2.2
  let sp := Config.sinDeg la0
  let cp := Config.cosDeg la0
  let sl := Config.sinDeg lo0
  let cl := Config.cosDeg lo0
  let t := fdAdd (fdMul cl dx) (fdMul sl dy)
  let mm (x : F64) : Int := fdScaleRound x 1000 1
  (mm (fdSub (fdMul cp dz) (fdMul sp t)), mm (fdSub (fdMul cl dy) (fdMul sl dx)),
   mm (fdNegate (fdAdd (fdMul cp t) (fdMul sp dz))))

/-- The lever arm of slot s, in metres. -/
def Mach.lchLever (m : Mach) (s : Nat) : F64 × F64 × F64 :=
  (fdMilli (m.gi (.LCH_Ss_LEV_X_lev s)), fdMilli (m.gi (.LCH_Ss_LEV_Y_lev s)), fdMilli (m.gi (.LCH_Ss_LEV_Z_lev s)))

/-- Roll and pitch at an instant (R225): 0 while no MRU stream is healthy. -/
def Mach.attAt (m : Mach) (t : Nat) : F64 × F64 :=
  if m.b .LCH_STS_att_none then (0, 0)
  else match m.lch.history.find? fun p => decide (p.1 ≤ t) with
    | some (_, r, p) => (fdOfF32 r, fdOfF32 p)
    | none => (fdOfF32 (m.rd Reg.LCH_OUT_ROLL), fdOfF32 (m.rd Reg.LCH_OUT_PITCH))

/-- The instant of the newest closed epoch. -/
def Mach.lchAt (m : Mach) : Nat := m.epochInstant (m.lch.next - 1)

/-- The seconds from an instant to another. -/
def secsFrom (a b : Nat) : F64 := fdOfRatio ((b : Int) - a) 1000000000

/-- Heading at an instant: the observer's, moved by its yaw rate. -/
def Mach.hdgAt (m : Mach) (t : Nat) : F64 :=
  fdAdd (fdAt m.lch.x 2) (fdMul (fdAt m.lch.x 5) (secsFrom m.lchAt t))

/-- The vector from a relative reference to its target (R223), with whether it is given in the plane. -/
def relVector (x : LchSample) : Option ((F64 × F64 × F64) × Bool) :=
  match qty? x 21, qty? x 22, qty? x 23 with
  | some a, some b, some l =>
    let u := fdMul l (Config.sinDeg a)
    let v := fdMul l (Config.sinDeg b)
    some ((u, v, fdSqrt (fdSub (fdSub (fdMul l l) (fdMul u u)) (fdMul v v))), false)
  | _, _, _ =>
    match qty? x 6, qty? x 7 with
    | some f, some s => some ((f, s, 0), false)
    | _, _ =>
      match qty? x 8, qty? x 9 with
      | some r, some b => some ((fdMul r (Config.cosDeg b), fdMul r (Config.sinDeg b), 0), false)
      | _, _ =>
        match qty? x 4, qty? x 5 with
        | some n, some e => some ((n, e, 0), true)
        | _, _ => none

/-- Metres to the nearest mm. -/
def toMm (x : F64) : Int := fdScaleRound x 1000 1

def vadd (a b : F64 × F64 × F64) : F64 × F64 × F64 := (fdAdd a.1 b.1, fdAdd a.2.1 b.2.1, fdAdd a.2.2 b.2.2)

/-- The offset of a relative reference's target from the VRP at a sample: Rot × (L + m), or m + Rot × L (R223). -/
def Mach.relOffset (m : Mach) (s : Nat) (x : LchSample) : Option (F64 × F64 × F64) :=
  (relVector x).map fun (v, plane) =>
    let att := m.attAt x.at_
    let h := m.hdgAt x.at_
    if plane then vadd v (rotVessel att.1 att.2 h (m.lchLever s))
    else rotVessel att.1 att.2 h (vadd (m.lchLever s) v)

/-- The VRP position of a POS sample on the plane, in mm (R222, R223); none while a relative reference is not anchored. -/
def Mach.lchPos (m : Mach) (s : Nat) (x : LchSample) : Option (Int × Int) :=
  if m.b (.LCH_Ss_CFG_relative s) then
    match (m.lslot s).anchor, m.relOffset s x with
    | some (n, e), some o => some (toMm (fdSub (fdMilli n) o.1), toMm (fdSub (fdMilli e) o.2.1))
    | _, _ => none
  else
    match qty? x 1, qty? x 2 with
    | some la, some lo =>
      let p := planeOf m.datum la lo (qty x 3)
      let att := m.attAt x.at_
      let o := rotVessel att.1 att.2 (m.hdgAt x.at_) (m.lchLever s)
      some (toMm (fdSub (fdMilli p.1) o.1), toMm (fdSub (fdMilli p.2.1) o.2.1))
    | _, _ => none

/-- A mounting angle in degrees. -/
def centi (i : Int) : F64 := fdOfRatio i 100

/-- An MRU sample after R224, the attitude by the rotation of its mounting angles: roll, pitch, heave at the VRP, roll rate, pitch rate, heave
rate. -/
def Mach.lchMru (m : Mach) (s : Nat) (x : LchSample) : List F64 :=
  let mr := centi (m.gi (.LCH_Ss_MNT0_roll s))
  let mp := centi (m.gi (.LCH_Ss_MNT0_pitch s))
  let my := centi (m.gi (.LCH_Ss_MNT1_yaw s))
  -- the vessel's x axis and the bottom row of its attitude, through the mounting
  let ax (v : F64 × F64 × F64) : F64 × F64 × F64 := rotVessel mr mp my v
  let att := rotVessel (qty x 11) (qty x 12) 0
  let inv (v : F64 × F64 × F64) : F64 × F64 × F64 :=
    -- the transpose of the mounting rotation
    (fdDot [(ax (fdOne, 0, 0)).1, (ax (fdOne, 0, 0)).2.1, (ax (fdOne, 0, 0)).2.2] [v.1, v.2.1, v.2.2],
     fdDot [(ax (0, fdOne, 0)).1, (ax (0, fdOne, 0)).2.1, (ax (0, fdOne, 0)).2.2] [v.1, v.2.1, v.2.2],
     fdDot [(ax (0, 0, fdOne)).1, (ax (0, 0, fdOne)).2.1, (ax (0, 0, fdOne)).2.2] [v.1, v.2.1, v.2.2])
  let r31 := (att (inv (fdOne, 0, 0))).2.2
  let r32 := (att (inv (0, fdOne, 0))).2.2
  let r33 := (att (inv (0, 0, fdOne))).2.2
  let plain := fdMag mr == 0 && fdMag mp == 0 && fdMag my == 0
  let roll := if plain then qty x 11 else Config.atan2Deg r32 r33
  let pitch := if plain then qty x 12
    else Config.atan2Deg (fdNegate r31) (fdSqrt (fdAdd (fdMul r32 r32) (fdMul r33 r33)))
  let w := ax (qty x 14, qty x 15, 0)
  let lev := m.lchLever s
  -- the projection uses the fused roll and pitch, as every other does (R225)
  let fused := m.attAt x.at_
  let heave := fdSub (fdAdd (qty x 13) (rotVessel fused.1 fused.2 0 lev).2.2) lev.2.2
  [roll, pitch, heave, w.1, w.2.1, qty x 16]

/-- True wind of a WIND sample, as the vector it blows from, north and east in m/s (R224). -/
def Mach.lchWind (m : Mach) (s : Nat) (x : LchSample) : List F64 :=
  let h := m.hdgAt x.at_
  let a := fdAdd h (fdAdd (qty x 18) (centi (m.gi (.LCH_Ss_MNT1_yaw s))))
  let v := rotZ (Config.cosDeg h) (Config.sinDeg h) (fdAt m.lch.x 3, fdAt m.lch.x 4, 0)
  [fdSub (fdMul (qty x 17) (Config.cosDeg a)) v.1, fdSub (fdMul (qty x 17) (Config.sinDeg a)) v.2.1]

/-- The projected value of a sample of slot s: a position in m, a heading in degrees, MRU values or a wind vector. -/
def Mach.lchProject (m : Mach) (s : Nat) (x : LchSample) : Option (List F64) :=
  let k := m.lchKind s
  if k = 0 then (m.lchPos s x).map fun p => [fdMilli p.1, fdMilli p.2]
  else if k = 1 then (qty? x 10).map fun h => [wrap360 (fdSub h (centi (m.gi (.LCH_Ss_MNT1_yaw s))))]
  else if k = 2 then if (qty? x 11).isSome then some (m.lchMru s x) else none
  else if (qty? x 17).isSome then some (m.lchWind s x) else none

/-! ### Motion (R235, R236) -/

/-- The healthy slots of a kind. -/
def Mach.lchHealthy (m : Mach) (kind : Nat) : List Nat :=
  (List.range 24).filter fun s => m.lchOn s && m.lchKind s == kind && m.b (.LCH_Ss_STS_healthy s)

/-- The healthy slots of a kind that are used: after a designation among MRU or WIND streams, the designated one (R246). -/
def Mach.lchInUse (m : Mach) (kind : Nat) : List Nat :=
  let h := m.lchHealthy kind
  if h.any fun s => m.b (.LCH_Ss_STS_designated s) then h.filter fun s => m.b (.LCH_Ss_STS_designated s) else h

/-- A trust in FP64 (Q1.15). -/
def Mach.lchTrust (m : Mach) (s : Nat) : F64 := fdOfRatio (m.g (.LCH_Ss_SCORE_trust s)) 32768

/-- The trust-weighted mean of vectors; one vector passes unchanged. -/
def weightedMean (n : Nat) (l : List (F64 × List F64)) : List F64 :=
  match l with
  | [(_, v)] => v
  | _ =>
    let w := l.foldl (fun a p => fdAdd a p.1) 0
    (List.range n).map fun i => fdDiv (l.foldl (fun a p => fdAdd a (fdMul p.1 (fdAt p.2 i))) 0) w

/-- The heave period (R236): a zero up-crossing, with its hysteresis, counts when heave passes +0.05 m after lying below
−0.05 m. -/
def Mach.heaveStep (m : Mach) (t : Nat) (heave : F64) : Mach :=
  let lim := fdOfRatio 5 100
  if fdLt heave (fdNegate lim) then { m with lch := { m.lch with heaveLow := true } }
  else if m.lch.heaveLow && fdLt lim heave then
    let cs := (t :: m.lch.crossings).take 8
    let m1 := { m with lch := { m.lch with heaveLow := false, crossings := cs } }
    let gaps := List.zipWith (fun a b => a - b) cs (cs.drop 1)
    let total := cs.headD 0 - cs.getLastD 0
    let n := cs.length - 1
    let ok := cs.length == 8 && gaps.all fun g =>
      decide (g ≤ 30000000000) && decide (4 * total ≤ 5 * n * g) && decide (5 * n * g ≤ 6 * total)
    let m2 := if n = 0 then m1 else m1.wr Reg.LCH_HPER (fpOfRatio total (n * 1000000000))
    (if m1.b .LCH_STS_hper_valid = ok then m2 else m2.setBit Reg.LCH_IRQ_STS 11 true).sb .LCH_STS_hper_valid ok
  else m

/-- The motion outputs follow an accepted MRU sample (R235). -/
def Mach.lchMotion (m : Mach) (t : Nat) : Mach :=
  let vs := (m.lchInUse 2).filterMap fun s =>
    match (m.lslot s).samples with
    | x :: _ => if (qty? x 11).isSome && fdMag x.quality != 0 then some (m.lchTrust s, m.lchMru s x) else none
    | [] => none
  if vs.isEmpty then m
  else
    let v := weightedMean 6 vs
    let f (i : Nat) : Word := fdToF32 (fdAt v i)
    let m1 := ((m.wr Reg.LCH_OUT_ROLL (f 0)).wr Reg.LCH_OUT_PITCH (f 1)).wr Reg.LCH_OUT_HEAVE (f 2)
    { m1 with lch := { m1.lch with rates := [f 3, f 4, f 5],
                                   history := ((t, f 0, f 1) :: m1.lch.history).filter fun p =>
                                     decide (t ≤ p.1 + 2000000000) } }.heaveStep t (fdAt v 2)

/-! ### Samples reach their slots (R205, R207, R213, R216) -/

/-- Insertion by measurement time, newest first. -/
def insertSample (x : LchSample) : List LchSample → List LchSample
  | [] => [x]
  | y :: l => if y.at_ ≤ x.at_ then x :: y :: l else y :: insertSample x l

/-- The bytes of a forwarded sample (R40, R205): slot, its original long stamp, quality, the standard deviation it reports, if any, and the
quantities with their codes. -/
def sampleBytes (s : Nat) (x : LchSample) : List Byte :=
  le 1 s ++ (Stamp.ofNs x.at_).bytes ++ le 8 x.quality.toNat
    ++ (match x.sigma with | some r => le 1 1 ++ le 8 r.toNat | none => le 1 0 ++ le 8 0)
    ++ x.vals.flatMap fun p => le 1 p.1 ++ le 8 p.2.toNat

/-- A sample that carries its stamp, dated by its measurement time: the stamp less the slot's latency (R213). -/
def Mach.lchDated (m : Mach) (s : Nat) (x : LchSample) : LchSample :=
  { x with at_ := x.at_ - m.g (.LCH_Ss_LAT_lat s) * 1000 }

/-- A measured sample enters slot s: late when its epoch has closed (R216). -/
def Mach.lchAccept (m : Mach) (s : Nat) (x : LchSample) : Mach :=
  if !m.lchOn s then m
  else
    let l := m.lslot s
    let stamps := (x.at_ :: l.stamps).take 65
    let n := stamps.length - 1
    let per := if n = 0 then 0 else (stamps.headD 0 - stamps.getLastD 0) / (n * 1000)
    let late := decide (0 < m.lch.next) && decide (x.at_ < m.lchAt)
    let q := fdScaleRound x.quality 256 1
    let m1 := (((m.setLslot s fun l => { l with samples := insertSample x l.samples, stamps := stamps }).s
      (.LCH_Ss_STS_quality s) (min q.toNat 255)).sb (.LCH_Ss_STS_qual0 s) (fdMag x.quality == 0)).s
      (.LCH_Ss_MEASPER_measper s) per
    let m2 := if late then m1.up (.LCH_Ss_CNT0_late s) else m1
    if m.lchKind s = 2 && m.b (.LCH_Ss_STS_healthy s) && fdMag x.quality != 0 then m2.lchMotion x.at_ else m2

/-- A sample that carries its stamp reaches the alignment buffer; an expansion runs no estimator (R205). -/
def Mach.lchTake (m : Mach) (s : Nat) (x : LchSample) : Mach := if m.g .STK_STS_pos < 2 then m.lchAccept s (m.lchDated s x) else m

/-- A sample of one of the module's own sources: it enters the buffer, and goes to the other controllers with its original stamp (R40, R205). -/
def Mach.lchOwn (m : Mach) (s stamp : Nat) (x : LchSample) : Mach :=
  let y := { x with at_ := stamp }
  (m.lchTake s y).linkSend 2 (3 &&& (63 - 2 ^ m.g .STK_STS_pos)) (sampleBytes s y)

/-- A frame that does not match its decoder is missing data (R208). -/
def Mach.lchMissing (m : Mach) (s : Nat) : Mach := if m.lchOn s then m.up (.LCH_Ss_CNT0_missing s) else m

/-- Slot s is enabled, homed here and bound to a source (R205, R207). -/
def Mach.lchBound (m : Mach) (s typ : Nat) : Bool :=
  m.lchOn s && m.g (.LCH_Ss_CFG_home s) == m.g .STK_STS_pos && m.g (.LCH_Ss_CFG_src_type s) == typ

/-- A frame of a source reaches the slots bound to it. -/
def Mach.lchFrame (m : Mach) (typ index : Nat) (index2 : Option Nat) (stamp : Nat) (binary : Bool) (bytes : List Byte) :
    Mach :=
  iter 24 (fun s m =>
    if m.lchBound s typ && m.g (.LCH_Ss_SRC_index s) == index
        && (match index2 with | some i => m.g (.LCH_Ss_SRC_index2 s) == i | none => true) then
      match m.lchDecode s binary bytes with
      | some x => m.lchOwn s stamp x
      | none => m.lchMissing s
    else m) m

/-- A sample with its quantities reaches the slots bound to a source and index. -/
def Mach.lchValue (m : Mach) (typ index stamp : Nat) (x : Nat → Option LchSample) : Mach :=
  iter 24 (fun s m =>
    if m.lchBound s typ && m.g (.LCH_Ss_SRC_index s) == index then
      match x s with
      | some y => m.lchOwn s stamp y
      | none => m
    else m) m

end Sys2Proof.Machine
end

