-- ==== Sys2Proof/Machine/CanOwn.lean ====
section
/-!
DEFINITION. Which CAN message objects have an owner (R409, R412): a string, a thruster sink of the law, or a Lichen slot.
-/
namespace Sys2Proof.Machine

/-- A string names the object as its source or sink while it is enabled (R350, R355). -/
def Mach.canByString (m : Mach) (c o : Nat) : Bool :=
  (List.range 48).any fun t =>
    m.g (.STR_Ss_STS_state t) != 0
      && ((m.g (.STR_Ss_CFG_fb_type t) == 3 && m.g (.STR_Ss_FB_SRC_index t) == c && m.g (.STR_Ss_FB_SRC_object t) == o)
        || (m.g (.STR_Ss_CFG_sink_type t) == 2 && m.g (.STR_Ss_SINK_index t) == c && m.g (.STR_Ss_SINK_object t) == o))

/-- A thruster sink of the law names the object (R281). -/
def Mach.canByLaw (m : Mach) (c o : Nat) : Bool :=
  (List.range 24).any fun i =>
    m.b (.STR_PL_THRi_CFG_en i)
      && [Reg.STR_PL_THRi_SINK0 i, Reg.STR_PL_THRi_SINK1 i, Reg.STR_PL_THRi_SINK2 i].any fun r =>
        let w := (m.rd r).toNat
        w / 2 ^ 30 == 2 && w / 2 ^ 24 % 4 == c && w / 2 ^ 16 % 128 == o

/-- A Lichen slot names the object as its source (R207). -/
def Mach.canBySlot (m : Mach) (c o : Nat) : Bool :=
  (List.range 24).any fun t =>
    m.lchOn t && m.g (.LCH_Ss_CFG_src_type t) == 6 && m.g (.LCH_Ss_SRC_index t) == c && m.g (.LCH_Ss_SRC_index2 t) == o

/-- The owner flag of an object. -/
def Mach.canOwned (m : Mach) (c o : Nat) : Bool := m.canByString c o || m.canByLaw c o || m.canBySlot c o

/-- The owner flag follows what names the object (R409). -/
def Mach.ownSync (m : Mach) (c o : Nat) : Mach :=
  if c < 4 && o < 128 then m.sb (.CAN_c_OBJo_CFG_owner c o) (m.canOwned c o) else m

/-- Every owner flag follows what names its object. -/
def Mach.ownSyncAll (m : Mach) : Mach := iter 4 (fun c m => iter 128 (fun o m => m.ownSync c o) m) m

end Sys2Proof.Machine
end

