-- ==== Sys2Proof/Machine/Vessel.lean ====
section
/-!
DEFINITION. The vessel model the observer and the law share (R233, R264, R265, R292): the model image, rotations, and the equations in continuous
time.
Log: 114 (DEDUCED).
-/
namespace Sys2Proof.Machine

/-! ### Numbers -/

/-- π in binary64. -/
def piF : F64 := 0x400921FB54442D18

def toRad (d : F64) : F64 := fdDiv (fdMul d piF) (fdOfInt 180)
def toDeg (r : F64) : F64 := fdDiv (fdMul r (fdOfInt 180)) piF

/-- Rot(ψ) applied to (x, y), ψ in degrees (R265). -/
def rotF (h x y : F64) : F64 × F64 :=
  let c := Config.cosDeg h
  let s := Config.sinDeg h
  (fdSub (fdMul c x) (fdMul s y), fdAdd (fdMul s x) (fdMul c y))

/-- Rot(ψ)ᵀ applied to (x, y). -/
def rotT (h x y : F64) : F64 × F64 :=
  let c := Config.cosDeg h
  let s := Config.sinDeg h
  (fdAdd (fdMul c x) (fdMul s y), fdSub (fdMul c y) (fdMul s x))

/-! ### The model image (R292) -/

/-- Number of n bytes in an image. -/
def imgN (img : List Byte) (o n : Nat) : Nat := unle ((img.drop o).take n)

/-- Value i of the image from byte o. -/
def mdl (img : List Byte) (o i : Nat) : F64 := BitVec.ofNat 64 (unle ((img.drop (o + 8 * i)).take 8))

/-- A 3 × 3 matrix at byte o. -/
def mdl3 (img : List Byte) (o : Nat) : List (List F64) := (List.range 3).map fun r => (List.range 3).map fun c => mdl img o (3 * r + c)

/-! ### The equations in continuous time (R233) -/

/-- η̇ = Rot(ψ) × ν and M × ν̇ = −D × ν + τ + Rot(ψ)ᵀ × b: the rates of pose and velocity, in metres, degrees and seconds, under the force τ of
thrusters and wind in the vessel frame and the bias b in the plane. -/
def vesselRate (img : List Byte) (tau x b : List F64) : List F64 :=
  let h := fdAt x 2
  let nu := [fdAt x 3, fdAt x 4, toRad (fdAt x 5)]
  let v := rotF h (fdAt x 3) (fdAt x 4)
  let d := matVec (mdl3 img 104) nu
  let bt := rotT h (fdAt b 0) (fdAt b 1)
  let f := List.zipWith fdSub (vecAdd (tau.take 3) [bt.1, bt.2, fdAt b 2]) d
  let a := matVec (Config.inv3 (mdl3 img 32)) f
  [v.1, v.2, fdAt x 5, fdAt a 0, fdAt a 1, toDeg (fdAt a 2)]

/-- ξ̇ = [0, 1; −ω², −2ζω] × ξ for the pair of a degree of freedom. -/
def waveRate (zeta w a b : F64) : List F64 :=
  [b, fdSub (fdNegate (fdMul (fdMul w w) a)) (fdMul (fdMul (fdMul (fdOfInt 2) zeta) w) b)]

/-- The rate of the observer's whole state, the noise left out: pose and velocity, the three wave pairs, the bias decaying with T_b, and the offset
states and the wave frequency, which no rule lets change between measurements. `wp` says whether the last state is ω_p. -/
def observerRate (img : List Byte) (wp : Bool) (tau x : List F64) : List F64 :=
  let b := (x.drop 12).take 3
  let w := if wp then fdAt x (x.length - 1) else mdl img 200 1
  let wave (i : Nat) : List F64 := waveRate (mdl img 200 0) w (fdAt x i) (fdAt x (i + 1))
  vesselRate img tau x b ++ wave 6 ++ wave 8 ++ wave 10
    ++ (b.mapIdx fun i v => fdNegate (fdDiv v (mdl img 176 i))) ++ List.replicate (x.length - 15) 0

/-- The noise intensity on each state: velocity on states 3 to 5, wave noise on the second of each pair, bias noise on states 12 to 14. -/
def observerNoise (img : List Byte) (n : Nat) : List F64 :=
  let q (i : Nat) : F64 := mdl img 216 i
  [0, 0, 0, q 6, q 7, q 8, 0, q 3, 0, q 4, 0, q 5, q 0, q 1, q 2] ++ List.replicate (n - 15) 0

/-- The nine values of an estimate, pose, velocity and bias, after a time in ns under a constant force: the equations of R233 with the bias held
(R264, R265). -/
def estPredict (img : List Byte) (tau : List F64) (ns : Nat) (x : List F64) : List F64 :=
  Config.solve (fun y => vesselRate img tau y (y.drop 6) ++ [0, 0, 0]) ns x

end Sys2Proof.Machine
end

