-- ==== Sys2Proof/Machine/Lch.lean ====
section
/-!
DEFINITION. Lichen's epoch close (R215 to R248), its trust networks, observer, health and steps, and the LCH commands
(R249, R250).
Log: 58 (DEDUCED), 59 (DEDUCED), 60 (DEDUCED), 112 (DEDUCED), 113 (DEDUCED), 114 (DEDUCED), 115 (DEDUCED).
-/
namespace Sys2Proof.Machine

/-- A stream's value at E_j: its slot, kind, vector, standard deviation σ_s (R226), quality, and the newest sample it rests
on. -/
structure LchVal where
  slot : Nat
  kind : Nat
  v : List F64
  sigma : F64
  q : F64
  at_ : Nat

/-! ### The grid (R214, R215, R218, R219) -/

/-- Values less others, angles on the shorter arc (R214): a heading, and roll and pitch of an MRU. -/
def lchLess (kind : Nat) (a b : List F64) : List F64 :=
  (List.zipWith fdSub a b).mapIdx fun i d => if kind = 1 || (kind = 2 && decide (i < 2)) then wrap180 d else d

/-- A kind's difference of two values, by which they are judged: positions, headings, MRU by roll, pitch and heave, wind vectors. -/
def lchDiff (kind : Nat) (a b : List F64) : List F64 :=
  (lchLess kind a b).take (if kind = 1 then 1 else if kind = 2 then 3 else 2)

/-- Angles brought into their ranges: headings into [0, 360), roll and pitch into (−180, 180]. -/
def lchRange (kind : Nat) (v : List F64) : List F64 :=
  v.mapIdx fun i x => if kind = 1 then wrap360 x else if kind = 2 && decide (i < 2) then wrap180 x else x

/-- The value a part w of the way from a to b (R214). -/
def lchLerp (kind : Nat) (w : F64) (a b : List F64) : List F64 :=
  lchRange kind (List.zipWith (fun x d => fdAdd x (fdMul w d)) a (lchLess kind b a))

/-- The length of a vector. -/
def fdNorm (v : List F64) : F64 := fdSqrt (fdDot v v)

/-- The normalised distance of two values (R226). -/
def lchDist (a b : LchVal) : F64 :=
  fdDiv (fdNorm (lchDiff a.kind a.v b.v)) (fdSqrt (fdAdd (fdMul a.sigma a.sigma) (fdMul b.sigma b.sigma)))

/-- The samples of slot s that serve epoch j: all of them, or, on a standby, those the active's assignment names among the
samples of the epoch (R217). -/
def Mach.lchServing (m : Mach) (assigned : Option (List (Nat × Nat))) (t0 t1 s : Nat) : List LchSample :=
  (m.lslot s).samples.filter fun x =>
    match assigned with
    | none => true
    | some l => x.at_ < t0 || t1 ≤ x.at_ || l.contains (s, x.at_)

/-- A stream is complete for the epoch [t0, t1) (R215). -/
def Mach.lchComplete (m : Mach) (l : List LchSample) (s t0 t1 : Nat) : Bool :=
  if !m.lchOn s then true
  else match l with
    | [] => false
    | x :: _ =>
      if m.lchFast s then decide (t1 ≤ x.at_)
      else decide (t0 ≤ x.at_) || decide (t1 ≤ x.at_ + m.lchNom s)

/-- A stream at the close of an epoch: its value, whether it is missing, and the measurement time of the newest sample that served. -/
structure LchAt where
  val : Option LchVal
  miss : Bool
  used : Option Nat

/-- A stream's value at t1 = E_j (R214, R218): a sample of quality 0 completes the epoch and is not used; one that cannot be projected, a relative
reference's before it is anchored, serves without a value. -/
def Mach.lchValueAt (m : Mach) (l : List LchSample) (s t0 t1 : Nat) : LchAt :=
  let kind := m.lchKind s
  let sig (x : LchSample) : F64 :=
    let c := fdOfF32 (m.rd (Reg.LCH_Ss_SIGMA s))
    match x.sigma with | some r => fdMax c r | none => c
  let none_ : LchAt := ⟨none, false, none⟩
  let make (x : LchSample) (v : Option (List F64)) : LchAt :=
    ⟨v.map fun v => ⟨s, kind, v, sig x, x.quality, x.at_⟩, false, some x.at_⟩
  if m.lchFast s then
    match l.find? (fun x => decide (x.at_ < t1)), (l.filter fun x => decide (t1 ≤ x.at_)).getLast? with
    | some a, some b =>
      if m.lchNom s * 5 < (b.at_ - a.at_) * 2 then ⟨none, true, none⟩
      else if fdMag a.quality = 0 || fdMag b.quality = 0 then none_
      else match m.lchProject s a, m.lchProject s b with
        | some va, some vb => make b (some (lchLerp kind (fdDiv (secsFrom a.at_ t1) (secsFrom a.at_ b.at_)) va vb))
        | _, _ => make b none
    | _, _ => ⟨none, true, none⟩
  else
    match l.find? fun x => decide (t0 ≤ x.at_) && decide (x.at_ < t1) with
    | none => ⟨none, !m.lchComplete l s t0 t1, none⟩
    | some x =>
      if fdMag x.quality = 0 then none_
      else
        let dt := secsFrom x.at_ t1
        make x ((m.lchProject s x).map fun v =>
          if kind = 0 then
            let d := rotF (m.hdgAt x.at_) (fdAt m.lch.x 3) (fdAt m.lch.x 4)
            [fdAdd (fdAt v 0) (fdMul dt d.1), fdAdd (fdAt v 1) (fdMul dt d.2)]
          else if kind = 1 then [wrap360 (fdAdd (fdAt v 0) (fdMul dt (fdAt m.lch.x 5)))]
          else v)

/-- The spacings of consecutive samples lie within 0.75 to 1.25 × NOMPER (R219). -/
def spacingOk (nom : Nat) : List Nat → Bool
  | a :: b :: l => decide (3 * nom ≤ 4 * (a - b)) && decide (4 * (a - b) ≤ 5 * nom) && spacingOk nom (b :: l)
  | _ => true

/-- A slip of an epoch-locked stream at a close (R219, R220). -/
def Mach.lchSlip (m : Mach) (e : Env) (l : List LchSample) (s j t0 t1 : Nat) : Mach :=
  let nom := m.lchNom s
  if nom = 0 || !m.lchFast s || m.epochNs % nom != 0 then m
  else
    let want := m.epochNs / nom
    let inside := (l.filter fun x => decide (t0 ≤ x.at_) && decide (x.at_ < t1)).length
    let around := ((l.filter fun x => decide (t1 ≤ x.at_)).getLast?.toList ++ (l.filter fun x =>
      decide (t0 ≤ x.at_) && decide (x.at_ < t1)) ++ (l.find? fun x => decide (x.at_ < t0)).toList).map (·.at_)
    if inside = want || around.length < 2 || !spacingOk nom around then m
    else
      let sus := match (m.lslot s).slips with
        | t :: _ => decide (e.ns < t + m.g .LCH_SLIP_CFG_ts_window * 1000000000)
        | [] => false
      let m1 := ((((m.up (.LCH_Ss_CNT1_slips s)).sb (.LCH_Ss_STS_slip s) true).setBit Reg.LCH_IRQ_STS 4 true).note e 0x4005
        (le 1 s ++ le 1 (if inside < want then 0 else 1) ++ le 8 j)).setLslot s fun x =>
          { x with slips := e.ns :: x.slips.filter fun t => decide (e.ns < t + 60000000000) }
      if sus && !m.b (.LCH_Ss_STS_timing_suspect s) then
        ((m1.sb (.LCH_Ss_STS_timing_suspect s) true).setBit Reg.LCH_IRQ_STS 5 true).event e 0x4006 (some 3)
          (le 1 s ++ le 1 1)
      else m1

/-- A stream's counters at a close: missing epochs, slips, staleness (R218, R219). -/
def Mach.lchTally (m : Mach) (e : Env) (l : List LchSample) (a : LchAt) (s j t0 t1 : Nat) : Mach :=
  let m1 := (if a.miss then m.up (.LCH_Ss_CNT0_missing s) else m).sb (.LCH_Ss_STS_missing s) a.miss
  let m2 := m1.setLslot s fun x => { x with missed := (a.miss :: x.missed).take 64, epochs := x.epochs + 1, used := a.used.orElse fun _ => x.used }
  let stale := match (m2.lslot s).used with
    | some t => decide (t + max (3 * m.lchNom s) 100000000 < t1)
    | none => true
  (m2.lchSlip e l s j t0 t1).sb (.LCH_Ss_STS_stale s) stale

/-! ### Trust (R226 to R230) -/

/-- The offset of a kind's network record in a weights image. -/
def netOf (img : List Byte) (kind : Nat) : Option Nat :=
  ((List.range (img.getD 6 0).toNat).map fun k => 32 + 2688 * k).find? fun o => (img.getD o 0xFF).toNat == kind

/-- A whole number held in int32. -/
def int32 (i : Int) : Int := toSigned 32 (ofInt 32 i)

/-- A network's three scores (R227); `x f lag` is a feature. -/
def evalNet (img : List Byte) (o : Nat) (x : Nat → Nat → Word) : List Word :=
  let nIn := imgN img (o + 1) 1
  let nHid := imgN img (o + 2) 1
  let sh := imgN img (o + 3) 1
  let xq := (List.range nIn).map fun i =>
    let f := imgN img (o + 4 + 2 * i) 1
    let v := if f = 0xFF then 0 else x f (imgN img (o + 5 + 2 * i) 1)
    let r := fpDiv v (BitVec.ofNat 32 (imgN img (o + 132 + 4 * i) 4))
    if fpIsNan r then 0 else if fpIsFinite r then clampInt (-127) 127 (fpToInt r)
    else if fpNeg r then -127 else 127
  let hq := (List.range nHid).map fun h =>
    let acc := int32 ((List.range nIn).foldl (fun a i =>
      a + toSigned 8 (imgN img (o + 388 + 64 * h + i) 1) * xq.getD i 0) (toSigned 32 (imgN img (o + 2436 + 4 * h) 4)))
    min 127 (acc.toNat / 2 ^ sh)
  (List.range 3).map fun q =>
    let acc := int32 ((List.range nHid).foldl (fun a h =>
      a + toSigned 8 (imgN img (o + 2564 + 32 * q + h) 1) * (hq.getD h 0 : Nat)) (toSigned 32 (imgN img (o + 2660 + 4 * q) 4)))
    let z := fpMul (fpOfInt acc) (BitVec.ofNat 32 (imgN img (o + 2672 + 4 * q) 4))
    fpDiv (fpOfInt 1) (fpAdd (fpOfInt 1) (Config.exp32 (fpNegate z)))

/-- The place of the offset states of slot s in the observer's vector (R232). -/
def Mach.lchOffset (m : Mach) (s : Nat) : Option Nat :=
  let k := m.g (.LCH_Ss_CFG_off_state s)
  let en := m.g .LCH_STATES_off_en
  if k = 0 || !en.testBit (k - 1) then none
  else some (15 + 2 * ((List.range (k - 1)).filter fun i => en.testBit i).length)

/-- A row with ones at some places. -/
def unitRow (n : Nat) (at_ : List Nat) : List F64 := (List.range n).map fun i => if at_.contains i then fdOne else 0

/-- The measurement matrix of a slot (R233). -/
def Mach.lchRows (m : Mach) (s : Nat) : List (List F64) :=
  let n := m.lch.x.length
  if m.lchKind s = 1 then [unitRow n [2, 11]]
  else
    let o := m.lchOffset s
    [unitRow n ([0, 7] ++ o.toList), unitRow n ([1, 9] ++ (o.map (· + 1)).toList)]

/-- A small symmetric matrix inverted. -/
def matInv (a : List (List F64)) : List (List F64) :=
  match a with
  | [[x]] => [[fdDiv fdOne x]]
  | [[p, q], [r, t]] =>
    let d := fdSub (fdMul p t) (fdMul q r)
    [[fdDiv t d, fdNegate (fdDiv q d)], [fdNegate (fdDiv r d), fdDiv p d]]
  | _ => a

/-- The innovation of a value against the observer, with its covariance S for a measurement variance. -/
def Mach.lchInnov (m : Mach) (v : LchVal) (var : F64) : List F64 × List (List F64) :=
  let h := m.lchRows v.slot
  let n := m.lch.x.length
  let y := lchDiff v.kind v.v (matVec h m.lch.x)
  (y, matAdd (matMul h.length (matMul n h m.lch.p) (matT n h)) (matDiag h.length var))

/-- The normalised innovation squared. -/
def nisOf (y : List F64) (s : List (List F64)) : F64 := fdDot y (matVec (matInv s) y)

/-- The trust-weighted median of numbers (R244): the least value that carries half the weight. -/
def weightedMedian (l : List (F64 × F64)) : F64 :=
  let total := l.foldl (fun a p => fdAdd a p.1) 0
  let ok (x : F64) : Bool :=
    let below := l.foldl (fun a p => if fdLe p.2 x then fdAdd a p.1 else a) 0
    fdLe total (fdAdd below below)
  (l.filter fun p => ok p.2).foldl (fun a p => if fdIsNan a || fdLt p.2 a then p.2 else a) fdNan

/-- The trust-weighted median of a kind's values (R244), headings unwrapped about the previous fused heading. -/
def Mach.lchMedian (m : Mach) (kind : Nat) (vs : List LchVal) : List F64 :=
  let w (v : LchVal) : F64 := m.lchTrust v.slot
  if kind = 1 then
    let h := m.lch.prevHdg
    [weightedMedian (vs.map fun v => (w v, fdAdd h (wrap180 (fdSub (fdAt v.v 0) h))))]
  else (List.range (if kind = 2 then 3 else 2)).map fun i => weightedMedian (vs.map fun v => (w v, fdAt v.v i))

/-- The distance of a value to its kind's median, over σ_s. -/
def lchMedDist (v : LchVal) (med : List F64) : F64 := fdDiv (fdNorm (lchDiff v.kind v.v med)) v.sigma

/-- The features of a stream (R226); a stream without a value this epoch has 0 for those that need one. -/
def Mach.lchFeatures (m : Mach) (vals : List LchVal) (s t1 : Nat) : List Word × List F64 :=
  let l := m.lslot s
  let kind := m.lchKind s
  let peers := vals.filter fun v => v.kind == kind && v.slot != s
  let me := vals.find? fun v => v.slot == s
  let others := (List.range 24).filter fun k => k != s && m.lchOn k && m.lchKind k == kind
  let f (x : F64) : Word := fdToF32 x
  let sigCfg := fdOfF32 (m.rd (Reg.LCH_Ss_SIGMA s))
  let inn : List F64 × F64 := match me with
    | none => ([], 0)
    | some v =>
      if kind ≤ 1 then
        if (if kind = 0 then m.lch.hasPos else m.lch.hasHdg) then
          let r := m.lchInnov v (fdMul v.sigma v.sigma)
          (r.1, fdMin (nisOf r.1 r.2) (fdOfInt 100))
        else ([], 0)
      else if peers.isEmpty then ([], 0)
      else
        let d := lchDiff kind v.v (weightedMean 3 (peers.map fun p => (m.lchTrust p.slot, p.v)))
        (d, fdMin (fdDiv (fdDot d d) (fdMul v.sigma v.sigma)) (fdOfInt 100))
  let sg := match me with | some v => v.sigma | none => sigCfg
  let scaled (x : F64) : F64 := fdDiv x sg
  let prev := l.innov
  let rate := if inn.1.isEmpty || prev.isEmpty then 0 else scaled (fdNorm (lchDiff kind inn.1 prev))
  let res := (List.range 8).map fun i => match me, others[i]? with
    | some v, some k => match peers.find? fun p => p.slot == k with | some p => f (lchDist v p) | none => 0
    | _, _ => 0
  let med := match me with
    | some v => if peers.isEmpty then 0 else lchMedDist v (m.lchMedian kind (v :: peers))
    | none => 0
  let newest := match l.samples with | x :: _ => x.at_ | [] => 0
  let rep := match l.samples with | x :: _ => x.sigma | [] => none
  let scr (i : Nat) : Word := (l.feats.headD []).getD i 0
  let nu2 := if kind = 1 then 0 else f (scaled (fdAt inn.1 1))
  ([f inn.2, f (scaled (fdAt inn.1 0)), nu2, f rate] ++ res
    ++ [fpOfRatio peers.length 8, f (match me with | some v => v.q | none => 0),
        (match rep with | some r => f (fdMin (fdDiv r sigCfg) (fdOfInt 16)) | none => fpOfInt 1),
        f (fdMin (fdDiv (secsFrom newest t1) (fdOfRatio (m.lchNom s) 1000000000)) (fdOfInt 64)),
        fpOfInt (min 255 (l.slips.filter fun t => decide (t1 < t + 60000000000)).length), fpOfRatio (l.missed.filter id).length 64, f med,
        scr 24, scr 25, scr 26, (if m.b (.LCH_Ss_STS_designated s) then fpOfInt 1 else 0),
        fpOfRatio (min l.epochs 1000) 1000], inn.1)

/-- A score of Q0.8 in FP32. -/
def q8 (n : Nat) : Word := fpOfRatio n 256

/-- The scores of a stream take effect (R220, R227 to R229); without a network trust is 1, jump and drift 0. -/
def Mach.lchScore (m : Mach) (e : Env) (s t1 : Nat) (fs : List Word) (inn : List F64) : Mach :=
  let l := m.lslot s
  let use := m.b .LCH_CFG_trust_en && m.g .GEN_STATE_state != 3
  let hist := fs :: l.feats
  let sc := match netOf m.lch.weights (m.lchKind s) with
    | some o => if use then evalNet m.lch.weights o fun f lag => (hist.getD lag []).getD f 0
      else [fpOfInt 1, 0, 0]
    | none => [fpOfInt 1, 0, 0]
  let cap := q8 (m.g .LCH_SLIP_CFG_ts_cap)
  let t0 := sc.getD 0 0
  let trust := if m.b (.LCH_Ss_STS_timing_suspect s) then fpMin t0 cap else t0
  let jump := sc.getD 1 0
  let drift := sc.getD 2 0
  let q (w : Word) (n : Nat) : Nat := (fpScaleRound w n 1).toNat
  let m1 := ((m.s (.LCH_Ss_SCORE_trust s) (min (q trust 32768) 32768)).s (.LCH_Ss_SCORE_jump s)
    (min (q jump 256) 255)).s (.LCH_Ss_SCORE_drift s) (min (q drift 256) 255)
  let m2 := m1.setLslot s fun x => { x with feats := ((fs ++ [trust, jump, drift]) :: x.feats).take 4, innov := inn }
  let m3 := if fpLe (q8 (m.g .LCH_TRUST_THR_jump_thr)) jump then
      let m := m2.setLslot s fun x => { x with jumpAt := some t1 }
      if m.b (.LCH_Ss_STS_jump s) then m
      else (((m.sb (.LCH_Ss_STS_jump s) true).up (.LCH_Ss_CNT1_jumps s)).setBit Reg.LCH_IRQ_STS 6 true).event e 0x4007
        (some 3) (le 1 s ++ le 4 jump.toNat ++ le 4 (fdToF32 (fdNorm inn)).toNat)
    else m2
  let thr := m.g .LCH_TRUST_THR_drift_thr
  let was := m.b (.LCH_Ss_STS_drift s)
  let now := fpLe (q8 thr) drift || (was && !fpLt drift (fpSub (q8 thr) (fpOfRatio 1 10)))
  if now = was then m3
  else ((m3.sb (.LCH_Ss_STS_drift s) now).setBit Reg.LCH_IRQ_STS 7 true).event e 0x4008 (some (if now then 3 else 2))
    (le 1 s ++ le 4 drift.toNat ++ le 1 (if now then 1 else 0))

/-- Trust lies at or above trust_min (R228). -/
def Mach.lchTrusted (m : Mach) (s : Nat) : Bool :=
  fpLe (q8 (m.g .LCH_TRUST_THR_trust_min)) ((((m.lslot s).feats.headD []).getD 24 (fpOfInt 1)))

/-! ### Contradiction (R243 to R247) -/

/-- A stream is enabled, not excluded by the host, and anchored where it is relative. -/
def Mach.lchUsable (m : Mach) (s : Nat) : Bool :=
  m.lchOn s && !m.b (.LCH_Ss_STS_excluded s)
    && (!m.b (.LCH_Ss_CFG_relative s) || m.lchKind s != 0 || m.b (.LCH_Ss_STS_anchored s))

/-- A stream would be healthy if SUSPECT, REJECTED and OUTLIER were ignored (R239, R243), its gate judged in the newest
epoch fused. -/
def Mach.lchCandidate (m : Mach) (s : Nat) : Bool :=
  m.lchUsable s && !m.b (.LCH_Ss_STS_stale s) && !m.b (.LCH_Ss_STS_qual0 s) && !m.b (.LCH_Ss_STS_timing_suspect s)
    && !m.b (.LCH_Ss_STS_jump s) && !m.b (.LCH_Ss_STS_drift s) && m.lchTrusted s && !m.b (.LCH_Ss_STS_gated s)

/-- The SUSPECT slots of a kind. -/
def Mach.lchSuspects (m : Mach) (kind : Nat) : List Nat :=
  (List.range 24).filter fun s => m.lchOn s && m.lchKind s == kind && m.b (.LCH_Ss_STS_suspect s)

/-- The designated slot of a kind. -/
def Mach.lchDesignated (m : Mach) (kind : Nat) : Option Nat :=
  (List.range 24).find? fun s => m.lchOn s && m.lchKind s == kind && m.b (.LCH_Ss_STS_designated s)

/-- contradict and hcontradict show SUSPECT streams of their kind. -/
def Mach.lchContraSync (m : Mach) : Mach :=
  (m.sb .LCH_STS_contradict (!(m.lchSuspects 0).isEmpty)).sb .LCH_STS_hcontradict (!(m.lchSuspects 1).isEmpty)

/-- Slots as a mask. -/
def slotMask (l : List Nat) : Nat := (l.map fun s => 2 ^ s).sum

/-- The runs of a stream end: it is not judged at this close, or another rule judges it (R244, R245). -/
def Mach.lchRunEnd (m : Mach) (s : Nat) : Mach := m.setLslot s fun x => { x with inRun := 0, outRun := 0, nearSince := none }

/-- A contradiction begins (R243): the slots become SUSPECT, but for a pair of MRU or WIND, which is remembered (R246), with an ALARM record. -/
def Mach.lchContradict (m : Mach) (e : Env) (kind : Nat) (slots : List Nat) (d : F64) (marks : Bool) : Mach :=
  let mark (m : Mach) (s : Nat) : Mach := ((m.sb (.LCH_Ss_STS_suspect s) true).sb (.LCH_Ss_STS_rejected s) false).lchRunEnd s
  let m1 := if marks then slots.foldl mark m
    else { m with lch := { m.lch with contra := upd m.lch.contra kind fun _ => slotMask slots } }
  (m1.setBit Reg.LCH_IRQ_STS 2 true).event e 0x4003 (some 4) (le 1 kind ++ le 4 (slotMask slots) ++ le 4 (fdToF32 d).toNat)

/-- The pair of a kind with its run, and the instant since which it is near. -/
def Mach.lchPair (m : Mach) (kind : Nat) (run : Nat × Nat) (near : Option Nat) : Mach :=
  { m with lch := { m.lch with pairRun := upd m.lch.pairRun kind fun _ => run,
                               pairNear := upd m.lch.pairNear kind fun _ => near } }

/-- The contradiction of R246 in force for a kind. -/
def Mach.lchContraSet (m : Mach) (kind mask : Nat) : Mach :=
  { m with lch := { m.lch with contra := upd m.lch.contra kind fun _ => mask } }

/-- The consistency time in ns. -/
def Mach.lchUp (m : Mach) : Nat := m.g .LCH_CFG_up_time * 1000000000

/-- The run of an instant since which something has held. -/
def since (held : Bool) (old : Option Nat) (t : Nat) : Option Nat := if held then some (old.getD t) else none

/-- A condition has held long enough. -/
def heldFor (o : Option Nat) (t n : Nat) : Bool := match o with | some u => decide (u + n ≤ t) | none => false

/-- A REJECTED stream returns after its distance has stayed within cgate for up_time (R245). -/
def Mach.lchReturn (m : Mach) (s t1 : Nat) (near : Bool) : Mach :=
  if !m.b (.LCH_Ss_STS_rejected s) then m
  else
    let o := since near (m.lslot s).nearSince t1
    let m1 := m.setLslot s fun x => { x with nearSince := o }
    if heldFor o t1 m.lchUp then (m1.sb (.LCH_Ss_STS_rejected s) false).setLslot s fun x => { x with nearSince := none }
    else m1

/-- Exactly two candidates (R243, R245, R246): the count, and the time near, belong to this pair. -/
def Mach.lchTwo (m : Mach) (e : Env) (kind t1 : Nat) (a b : LchVal) : Mach :=
  let g := fdOfRatio (m.g .LCH_GATE_cgate) 16
  let d := lchDist a b
  let above := fdLt g d
  let pair := slotMask [a.slot, b.slot]
  let was := m.lch.pairRun.getD kind (0, 0)
  match m.lchDesignated kind with
  | some k =>
    let m1 := m.lchPair kind (pair, 0) none
    if a.slot = k then m1.lchReturn b.slot t1 (!above) else if b.slot = k then m1.lchReturn a.slot t1 (!above) else m1
  | none =>
    let near := fdLe d (fdDiv g (fdOfInt 2))
    let both := m.b (.LCH_Ss_STS_suspect a.slot) && m.b (.LCH_Ss_STS_suspect b.slot)
    if both || m.lch.contra.getD kind 0 = pair then
      let o := since near (if was.1 = pair then m.lch.pairNear.getD kind none else none) t1
      let m1 := m.lchPair kind (pair, 0) o
      if heldFor o t1 m.lchUp then
        (((m1.sb (.LCH_Ss_STS_suspect a.slot) false).sb (.LCH_Ss_STS_suspect b.slot) false).lchPair kind (pair, 0) none).lchContraSet kind 0
      else m1
    else
      let run := if above then (if was.1 = pair then was.2 else 0) + 1 else 0
      if m.g .LCH_GATE_cpersist ≤ run
      then (m.lchPair kind (pair, 0) none).lchContradict e kind [a.slot, b.slot] d (decide (kind ≤ 1))
      else m.lchPair kind (pair, run) none

/-- Three or more candidates (R244, R245), by the values of this epoch. -/
def Mach.lchMany (m : Mach) (e : Env) (kind t1 : Nat) (cs : List Nat) (vs : List LchVal) : Mach :=
  let g := fdOfRatio (m.g .LCH_GATE_cgate) 16
  let med := m.lchMedian kind vs
  let out (v : LchVal) : Bool := fdLt g (lchMedDist v med)
  let n := (vs.filter out).length
  let persist := m.g .LCH_GATE_cpersist
  if cs.length < 2 * n then
    if cs.all fun s => m.b (.LCH_Ss_STS_suspect s) then cs.foldl (fun m s => m.lchRunEnd s) m
    else m.lchContradict e kind cs ((vs.map fun v => lchMedDist v med).foldl fdMax 0) true
  else
    vs.foldl (fun m v =>
      let s := v.slot
      if out v then
        let m1 := ((m.sb (.LCH_Ss_STS_outlier s) true).up (.LCH_Ss_CNT1_outliers s)).setLslot s fun x =>
          { x with outRun := x.outRun + 1, inRun := 0, nearSince := none }
        if persist ≤ (m1.lslot s).outRun then
          (m1.sb (.LCH_Ss_STS_rejected s) true).sb (.LCH_Ss_STS_suspect s) false else m1
      else
        let m1 := (m.setLslot s fun x => { x with outRun := 0, inRun := x.inRun + 1 }).lchReturn s t1 true
        if persist ≤ (m1.lslot s).inRun then m1.sb (.LCH_Ss_STS_suspect s) false else m1) m

/-- The judgement of one kind at a close. A stream's runs of closes end where it is no candidate, where it is missing, and where the rule for its
number of candidates counts no such run; at a close for which a slow stream is not expected they stand. A contradiction of R246 lasts while
its two streams are the candidates. -/
def Mach.lchJudge (m : Mach) (e : Env) (vals : List LchVal) (t1 kind : Nat) : Mach :=
  let cs := (List.range 24).filter fun s => m.lchKind s == kind && m.lchCandidate s
  let vs := vals.filter fun v => cs.contains v.slot
  let idle (s : Nat) : Bool := !cs.contains s || m.b (.LCH_Ss_STS_missing s)
  let m0 := iter 24 (fun s m =>
    if m.lchKind s = kind then
      let m1 := m.sb (.LCH_Ss_STS_outlier s) false
      if idle s then m1.lchRunEnd s
      else if 3 ≤ cs.length then m1
      else m1.setLslot s fun x => { x with inRun := 0, outRun := 0, nearSince := if (m.lchDesignated kind).isSome then x.nearSince else none }
    else m) m
  let m1 := if m0.lch.contra.getD kind 0 = slotMask cs then m0 else m0.lchContraSet kind 0
  match cs with
  | [a, b] =>
    match vs with
    | [x, y] => m1.lchTwo e kind t1 x y
    | _ => if idle a || idle b then m1.lchPair kind (slotMask cs, 0) none else m1
  | _ =>
    let m2 := m1.lchPair kind (0, 0) none
    if cs.length < 3 || vs.isEmpty then m2 else m2.lchMany e kind t1 cs vs

/-! ### Fusion (R228, R233, R238) -/

/-- A stream may be fused in this epoch (R228, R239, R243, R244). -/
def Mach.lchFusable (m : Mach) (s : Nat) : Bool :=
  m.lchUsable s && (!m.b (.LCH_Ss_STS_suspect s) || m.b (.LCH_Ss_STS_designated s)) && !m.b (.LCH_Ss_STS_rejected s)
    && !m.b (.LCH_Ss_STS_outlier s) && !m.b (.LCH_Ss_STS_jump s) && m.lchTrusted s

/-- The value of highest quality, then lowest slot (R238). -/
def lchBest (vs : List LchVal) : Option LchVal :=
  vs.foldl (fun o v => match o with | some b => if fdLt b.q v.q then some v else o | none => some v) none

/-- The covariance between states of which one is begun now: that of the start; between two others it stands. -/
def startCov (begun : Nat → Bool) (old start : List (List F64)) : List (List F64) :=
  start.mapIdx fun i r => r.mapIdx fun j c => if begun i || begun j then c else fdAt (old.getD i []) j

/-- The observer takes its position or its heading from a first reference (R238, R248): where it had neither, everything else begins at 0. -/
def Mach.lchBegin (m : Mach) (pos hdg : Option LchVal) : Mach :=
  if pos.isNone && hdg.isNone then m
  else
    let n := m.g .LCH_STATES_n_states
    let fresh := !m.lch.hasPos && !m.lch.hasHdg
    let x0 := if fresh then List.replicate n (0 : F64) else m.lch.x
    let x1 := match pos with | some p => [fdAt p.v 0, fdAt p.v 1] ++ x0.drop 2 | none => x0
    let x2 := match hdg with | some h => x1.take 2 ++ [fdAt h.v 0] ++ x1.drop 3 | none => x1
    let begun (i : Nat) : Bool := fresh || (pos.isSome && decide (i < 2)) || (hdg.isSome && i == 2)
    { m with lch := { m.lch with x := x2, p := startCov begun m.lch.p (Config.observerStart m.pl.model n),
                                 hasPos := m.lch.hasPos || pos.isSome, hasHdg := m.lch.hasHdg || hdg.isSome } }

/-- The observer begins anew (R238): position step L4. -/
def Mach.lchRestart (m : Mach) : Mach :=
  { m with lch := { m.lch with x := [], p := [], hasPos := false, hasHdg := false } }

/-- Positive definiteness by elimination: every pivot is above 0. -/
def posDef : Nat → List (List F64) → Bool
  | 0, _ => true
  | n + 1, a =>
    match a with
    | [] => true
    | row :: rest =>
      let p := fdAt row 0
      fdLt 0 p && posDef n (rest.map fun r =>
        let k := fdDiv (fdAt r 0) p
        List.zipWith (fun x y => fdSub x (fdMul k y)) (r.drop 1) (row.drop 1))

/-- One measurement is applied with the Joseph form, or gated (R233). -/
def Mach.lchFuse (m : Mach) (v : LchVal) : Mach :=
  let trust := fdOfF32 (((m.lslot v.slot).feats.headD []).getD 24 (fpOfInt 1))
  let var := fdDiv (fdMul v.sigma v.sigma) trust
  let n := m.lch.x.length
  let h := m.lchRows v.slot
  let d := h.length
  let (y, s) := m.lchInnov v var
  let gate := fdOfRatio (m.g .LCH_GATE_igate) 256
  let lim := if d = 1 then fdSub gate (fdOfInt 3) else gate
  if fdLt lim (nisOf y s) then (m.sb (.LCH_Ss_STS_gated v.slot) true).up (.LCH_Ss_CNT1_gated v.slot)
  else
    let k := matMul d (matMul d m.lch.p (matT n h)) (matInv s)
    let ikh := matSub (matDiag n fdOne) (matMul n k h)
    let kk := (matMul n k (matT d k)).map fun r => r.map (fdMul var)
    { m with lch := { m.lch with
        x := vecAdd m.lch.x (matVec k y)
        p := matAdd (matMul n (matMul n ikh m.lch.p) (matT n ikh)) kk } }

/-- The force of R233: the thrusters' of the most recently released cycle, and the wind's from the fused wind. -/
def Mach.lchForces (m : Mach) : List F64 :=
  vecAdd [fdOfF32 (m.rd Reg.STR_PL_TAU_X), fdOfF32 (m.rd Reg.STR_PL_TAU_Y), fdOfF32 (m.rd Reg.STR_PL_TAU_N)]
    (Config.windForce (m.rd Reg.LCH_OUT_WSPD) (m.rd Reg.LCH_OUT_WDIR) (fdAt m.lch.x 2))

/-- The observer predicts across the epoch (R233): its state by the equations over T/4, its covariance as Φ × P × Φᵀ + Q. -/
def Mach.lchPredict (m : Mach) : Mach :=
  if m.lch.hasPos || m.lch.hasHdg then
    let x := m.lch.x
    let n := x.length
    let h := m.epochNs
    let f := observerRate m.pl.model (m.b .LCH_STATES_wp_en) m.lchForces
    let k := Config.transition f h x
    { m with lch := { m.lch with x := Config.solve f h x
                                 p := matAdd (matMul n (matMul n k m.lch.p) (matT n k))
                                   (Config.processNoise f (observerNoise m.pl.model n) h x) } }
  else m

/-- Health of a stream under R239: a DESIGNATED stream's SUSPECT is excepted. -/
def Mach.lchIsHealthy (m : Mach) (s : Nat) : Bool :=
  m.lchCandidate s && (!m.b (.LCH_Ss_STS_suspect s) || m.b (.LCH_Ss_STS_designated s)) && !m.b (.LCH_Ss_STS_rejected s) && !m.b (.LCH_Ss_STS_outlier s)

/-- The best healthy value of a kind at this close (R238, R248). -/
def Mach.lchBestOf (m : Mach) (vals : List LchVal) (kind : Nat) : Option LchVal :=
  lchBest (vals.filter fun v => v.kind == kind && m.lchIsHealthy v.slot)

/-- The observer after its prediction: first references where it lacks a position or a heading, fusion of the rest in slot order, in FIDDLEHEAD of the
best healthy references only, and its fault, after which it begins anew from the best healthy references (R233, R238, R248). -/
def Mach.lchObserve (m : Mach) (e : Env) (vals : List LchVal) : Mach × Bool :=
  let m1 := iter 24 (fun s m => m.sb (.LCH_Ss_STS_gated s) false) m
  let p := m1.lchBestOf vals 0
  let h := m1.lchBestOf vals 1
  let best := (p.toList ++ h.toList).map (·.slot)
  let use := vals.filter fun v => decide (v.kind ≤ 1) && m1.lchFusable v.slot && (m.g .GEN_STATE_state != 3 || best.contains v.slot)
    && (if v.kind = 0 then m1.lch.hasPos else m1.lch.hasHdg)
  let m2 := m1.lchBegin (if m1.lch.hasPos then none else p) (if m1.lch.hasHdg then none else h)
  let m3 := use.foldl (fun m v => m.lchFuse v) m2
  let nonFinite := m3.lch.x.any (fun v => !fdFinite v) || m3.lch.p.any fun r => r.any fun v => !fdFinite v
  let broken := (m3.lch.hasPos || m3.lch.hasHdg) && !posDef m3.lch.p.length m3.lch.p
  if nonFinite || broken then
    let m4 := (((m3.sb .LCH_STS_obs_fault true).setBit Reg.LCH_IRQ_STS 9 true).event e 0x400A (some 5)
      (le 1 (if m3.lch.x.any fun v => !fdFinite v then 1 else 0)))
    (m4.lchRestart.lchBegin (m4.lchBestOf vals 0) (m4.lchBestOf vals 1), true)
  else (m3, false)

/-! ### Health and steps (R239 to R242) -/

/-- LCH_Ss_STS[13:0]. -/
def Mach.lchSts14 (m : Mach) (s : Nat) : Nat := (m.rd (Reg.LCH_Ss_STS s)).toNat % 16384

/-- Health of every stream follows; a change is posted (R239, R251). -/
def Mach.lchHealth (m : Mach) (e : Env) (old : Nat → Nat) : Mach :=
  iter 24 (fun s m =>
    let h := m.lchIsHealthy s
    if h = m.b (.LCH_Ss_STS_healthy s) then m
    else
      let m1 := (m.sb (.LCH_Ss_STS_healthy s) h).setBit Reg.LCH_IRQ_STS 3 true
      m1.event e 0x4004 (some (if h then 2 else 3)) (le 1 s ++ le 2 (old s) ++ le 2 (m1.lchSts14 s))) m

/-- The distinct principles among the healthy POS streams. -/
def Mach.lchPrinciples (m : Mach) : Nat :=
  (((m.lchHealthy 0).map fun s => m.g (.LCH_Ss_CFG_principle s)).eraseDups).length

/-- The step procedure of R242: held times in closes, best first. -/
def stepMove (n : Nat) (held : List Nat) (cur cand : Nat) (long : Nat → Bool) (des : Bool) : List Nat × Nat :=
  let held' := (List.range n).map fun s => if cand ≤ s then held.getD s 0 + 1 else 0
  if cur < cand then (held', cand)
  else
    match (List.range n).find? fun s => decide (s < cur) && (long (held'.getD s 0) || (des && s == cand)) with
    | some s => (held', s)
    | none => (held', cur)

/-- The candidate position step of R240. -/
def Mach.lchCand (m : Mach) (t1 : Nat) : Nat :=
  let n := (m.lchHealthy 0).length
  let p := m.lchPrinciples
  let cur := m.g .LCH_STS_pstep
  if 3 ≤ n && 2 ≤ p then 0
  else if 2 ≤ n then 1
  else if n = 1 then 2
  else if cur = 4 || !m.lch.hasPos
      || (cur == 3 && decide (m.lch.l3 + m.g .LCH_CFG_reckon * 1000000000 ≤ t1)) then 4
  else 3

/-- The severity of a step change. -/
def stepSev (old new lim : Nat) : Nat := if new < old then 2 else if new < lim then 3 else 4

/-- Why a kind's step moves at a close (R251): `began` a contradiction, `des` a designation, `limit` the reckon limit. -/
def stepReason (old new : Nat) (began des limit : Bool) : Nat :=
  if new < old then (if des then 3 else 0) else if limit then 2 else if began then 1 else if des then 3 else 0

/-- The steps at a close (R240 to R242). `anew` is 4 or 5 when the observer begins anew by a command or by its fault, which takes the position step to
L4 at this close (R238, R250), else 0; `des` and `began` say per kind whether a designation takes effect, which lets the step rise at once
(R247), and whether a contradiction begins. -/
def Mach.lchSteps (m : Mach) (e : Env) (t1 anew : Nat) (des began : Nat → Bool) : Mach :=
  let long (h : Nat) : Bool := decide (m.lchUp ≤ h * m.epochNs)
  let old := m.g .LCH_STS_pstep
  let cand := if anew = 0 then m.lchCand t1 else 4
  let (hp, new) := stepMove 3 m.lch.heldP old cand long (des 0)
  let hold := m.g .LCH_STS_hstep
  let nh := (m.lchHealthy 1).length
  let hcand := if 2 ≤ nh then 0 else if nh = 1 then 1 else 2
  let (hh, hnew) := stepMove 2 m.lch.heldH hold hcand long (des 1)
  let np := (m.lchHealthy 0).length
  let pr := m.lchPrinciples
  let m1 := { m with lch := { m.lch with heldP := hp, heldH := hh,
                                         l3 := if new = 3 && old != 3 then t1 else m.lch.l3,
                                         h2 := if hnew = 2 && hold != 2 then t1 else m.lch.h2 } }
  let m2 := ((((m1.s .LCH_STS_pstep new).s .LCH_STS_hstep hnew).s .LCH_STS_pos_healthy np).s .LCH_STS_head_healthy nh).s
    .LCH_STS_principles pr
  let why := if anew = 0 then stepReason old new (began 0) (des 0) (new == 4 && old == 3) else anew
  let m3 := if new = old then m2
    else (m2.setBit Reg.LCH_IRQ_STS 0 true).event e 0x4001 (some (stepSev old new 3))
      (le 1 old ++ le 1 new ++ le 1 np ++ le 1 pr ++ le 1 why)
  if hnew = hold then m3
  else (m3.setBit Reg.LCH_IRQ_STS 1 true).event e 0x4002 (some (stepSev hold hnew 2))
    (le 1 hold ++ le 1 hnew ++ le 1 nh ++ le 1 (stepReason hold hnew (began 1) (des 1) false))

/-! ### The estimate (R234, R237) -/

/-- The module ends the designation of a stream: LCH_DESIGNATE with the released-by-module flag (R247). -/
def Mach.lchDesEnd (m : Mach) (e : Env) (s : Nat) : Mach :=
  ((m.sb (.LCH_Ss_STS_designated s) false).setBit Reg.LCH_IRQ_STS 8 true).event e 0x4009 (some 3) (le 1 s ++ le 1 0 ++ le 1 1)

/-- A designation ends when its stream stops being healthy for a reason other than SUSPECT (R247). -/
def Mach.lchEndDesignations (m : Mach) (e : Env) : Mach :=
  let m1 := iter 24 (fun s m =>
    if m.b (.LCH_Ss_STS_designated s) && !m.lchIsHealthy s then m.lchDesEnd e s else m) m
  m1.sb .LCH_STS_designated ((List.range 24).any fun s => m1.b (.LCH_Ss_STS_designated s))

/-- The fused wind: the trust-weighted mean of the healthy WIND streams (R224, R237). -/
def Mach.lchWindOut (m : Mach) (vals : List LchVal) : Mach :=
  let vs := vals.filter fun v => v.kind == 3 && (m.lchInUse 3).contains v.slot
  if vs.isEmpty then m
  else
    let w := weightedMean 2 (vs.map fun v => (m.lchTrust v.slot, v.v))
    (m.wr Reg.LCH_OUT_WSPD (fdToF32 (fdNorm w))).wr Reg.LCH_OUT_WDIR
      (headingF32 (Config.atan2Deg (fdAt w 1) (fdAt w 0)))

/-- The estimate of epoch j is published. -/
def Mach.lchPublish (m : Mach) (e : Env) (j t1 : Nat) (vals : List LchVal) : Mach :=
  let x := m.lch.x
  let at_ := Stamp.ofNs t1
  let f (i : Nat) : Word := fdToF32 (fdAt x i)
  let pe (i : Nat) : F64 := fdAt (m.lch.p.getD i []) i
  let pstep := m.g .LCH_STS_pstep
  let hstep := m.g .LCH_STS_hstep
  let posV := decide (pstep ≤ 3)
  let hdgV := decide (hstep ≤ 1) || decide (t1 < m.lch.h2 + m.g .LCH_CFG_reckon * 1000000000)
    && m.lch.hasHdg
  let att := !(m.lchHealthy 2).isEmpty
  let wind := !(m.lchHealthy 3).isEmpty
  let far := fdLt (fdOfInt 20000) (fdNorm [fdAt x 0, fdAt x 1])
  let m1 := (((((m.wr64 Reg.LCH_EPOCH_LO Reg.LCH_EPOCH_HI j).wr Reg.LCH_OUT_NS (BitVec.ofNat 32 at_.ns)).wr64
    Reg.LCH_OUT_SL Reg.LCH_OUT_SH at_.sec).wr Reg.LCH_OUT_N (BitVec.ofInt 32 (toMm (fdAt x 0)))).wr Reg.LCH_OUT_E
    (BitVec.ofInt 32 (toMm (fdAt x 1)))).wr Reg.LCH_OUT_HDG (headingF32 (fdAt x 2))
  let m2 := (((((m1.wr Reg.LCH_OUT_U (f 3)).wr Reg.LCH_OUT_V (f 4)).wr Reg.LCH_OUT_R (f 5)).wr Reg.LCH_OUT_BN
    (f 12)).wr Reg.LCH_OUT_BE (f 13)).wr Reg.LCH_OUT_BPSI (f 14)
  let m3 := ((m2.wr Reg.LCH_OUT_SIG_P (fdToF32 (fdSqrt (fdAdd (pe 0) (pe 1))))).wr Reg.LCH_OUT_SIG_H
    (fdToF32 (fdSqrt (pe 2)))).lchWindOut vals
  let m4 := ((((((m3.sb .LCH_OUT_FLAGS_pos_valid posV).sb .LCH_OUT_FLAGS_hdg_valid hdgV).sb .LCH_OUT_FLAGS_att_valid
    att).sb .LCH_OUT_FLAGS_wind_valid wind).s .LCH_OUT_FLAGS_pstep pstep).s .LCH_OUT_FLAGS_hstep hstep).sb
    .LCH_STS_att_none (!att)
  let lag := (e.ns - t1) / 1000
  (m4.sb .LCH_STS_far far).s .LCH_CLOSE_lag (min lag 65535)

/-- An output by its index (R237): the value in FP32 and whether it is valid. -/
def Mach.lchOut (m : Mach) (i : Nat) : Word × Bool :=
  let pos := m.b .LCH_OUT_FLAGS_pos_valid
  let hdg := m.b .LCH_OUT_FLAGS_hdg_valid
  let att := m.b .LCH_OUT_FLAGS_att_valid
  let wind := m.b .LCH_OUT_FLAGS_wind_valid
  let mm (f : Fld) : Word := fpOfRatio (m.gi f) 1000
  match i with
  | 0 => (mm .LCH_OUT_N_pos, pos)
  | 1 => (mm .LCH_OUT_E_pos, pos)
  | 2 => (m.rd Reg.LCH_OUT_HDG, hdg)
  | 3 => (m.rd Reg.LCH_OUT_U, pos)
  | 4 => (m.rd Reg.LCH_OUT_V, pos)
  | 5 => (m.rd Reg.LCH_OUT_R, hdg)
  | 6 => (m.rd Reg.LCH_OUT_ROLL, att)
  | 7 => (m.rd Reg.LCH_OUT_PITCH, att)
  | 8 => (m.rd Reg.LCH_OUT_HEAVE, att)
  | 9 => (m.lch.rates.getD 2 0, att)
  | 10 => (m.rd Reg.LCH_HPER, m.b .LCH_STS_hper_valid)
  | 11 => (m.lch.rates.getD 0 0, att)
  | 12 => (m.lch.rates.getD 1 0, att)
  | 13 => (m.rd Reg.LCH_OUT_WSPD, wind)
  | 14 => (m.rd Reg.LCH_OUT_WDIR, wind)
  | _ => (0, false)

/-- The stream of R249, with the kinds 4 and 5 of R559. -/
def Mach.lchStream (m : Mach) (e : Env) (j t1 : Nat) : Mach :=
  match m.lch.stream with
  | none => m
  | some (q, mask, n) =>
    if m.lch.streamCount + 1 < n then { m with lch := { m.lch with streamCount := m.lch.streamCount + 1 } }
    else
      let m0 := { m with lch := { m.lch with streamCount := 0 } }
      let st := (Stamp.ofNs t1).bytes
      let m1 := if mask % 2 = 0 then m0
        else m0.stream e q 4 0 ((m0.rd Reg.LCH_OUT_FLAGS).toNat % 1024)
          (st ++ le 2 0 ++ le 8 j ++ m0.words Reg.LCH_OUT_N 2 ++ m0.words Reg.LCH_OUT_HDG 14)
      if mask / 2 % 2 = 0 then m1
      else iter 24 (fun s m =>
        if m.lchOn s then
          m.stream e q 5 s ((m.rd (Reg.LCH_Ss_STS s)).toNat % 65536)
            (st ++ le 2 0 ++ le 4 (m.rd (Reg.LCH_Ss_SCORE s)).toNat
              ++ ((List.range 24).flatMap fun i => le 4 (((m.lslot s).feats.headD []).getD i 0).toNat))
        else m) m1

/-! ### Commands take effect at a close (R250) -/

/-- The registers LCH_STREAM_CFG carries, in order. -/
def lchCfgRegs (s : Nat) : List Nat :=
  [Reg.LCH_Ss_CFG s, Reg.LCH_Ss_SRC s, Reg.LCH_Ss_LAT s, Reg.LCH_Ss_LEV_X s, Reg.LCH_Ss_LEV_Y s, Reg.LCH_Ss_LEV_Z s,
   Reg.LCH_Ss_MNT0 s, Reg.LCH_Ss_MNT1 s, Reg.LCH_Ss_SIGMA s, Reg.LCH_Ss_NOMPER s]

/-- The image LCH_STREAM_CFG gives for its n-th register, reserved bits clear. -/
def lchImage (c : Cmd) (n : Nat) : Word :=
  BitVec.ofNat 32 (c.u32 (4 + 4 * n)) &&& (if n = 0 then 0x000777FF else if n = 7 then 0x0000FFFF else 0xFFFFFFFF)

/-- A slot's configuration registers take a configuration, with the owner flags of the objects it names. -/
def Mach.lchSlotRegs (m : Mach) (c : Cmd) : Mach :=
  let s := c.u8 0
  let own (m' : Mach) : Mach := m'.ownSync (m.g (.LCH_Ss_SRC_index s)) (m.g (.LCH_Ss_SRC_index2 s))
  let m0 := own (iter 10 (fun n m => m.wr ((lchCfgRegs s).getD n 0) (lchImage c n)) m)
  let m1 := m0.ownSync (m0.g (.LCH_Ss_SRC_index s)) (m0.g (.LCH_Ss_SRC_index2 s))
  if !m.lchOn s && m1.lchOn s then m1.setLslot s fun _ => { LchSlot.reset with desc := c.data }
  else if m.lchOn s then m1 else m1.setLslot s fun x => { x with desc := c.data }

/-- A flag of a slot that its enabling clears is told as cleared (R251, R252). -/
def Mach.lchClears (m : Mach) (e : Env) (s : Nat) : Mach :=
  let m1 := if m.b (.LCH_Ss_STS_timing_suspect s)
    then (m.setBit Reg.LCH_IRQ_STS 5 true).event e 0x4006 (some 2) (le 1 s ++ le 1 0) else m
  if m.b (.LCH_Ss_STS_drift s)
  then (m1.setBit Reg.LCH_IRQ_STS 7 true).event e 0x4008 (some 2) (le 1 s ++ le 4 (q8 (m.g (.LCH_Ss_SCORE_drift s))).toNat ++ le 1 0) else m1

/-- A slot's configuration takes effect; enabling it starts its history anew, and excluded, slip, SUSPECT and REJECTED end only as their own rules
say. -/
def Mach.lchSlotCfg (m : Mach) (e : Env) (c : Cmd) : Mach :=
  let s := c.u8 0
  let m1 := m.lchSlotRegs c
  if !m.lchOn s && m1.lchOn s then
    ((m1.lchClears e s).wr (Reg.LCH_Ss_STS s) (m1.rd (Reg.LCH_Ss_STS s) &&& 0x0000404C)).wr (Reg.LCH_Ss_SCORE s) 0x8000
  else m1

/-- The axes of a plane, north, east and down, in ECEF (R221). -/
def planeAxes (lat lon : F64) : List (List F64) :=
  let sp := Config.sinDeg lat
  let cp := Config.cosDeg lat
  let sl := Config.sinDeg lon
  let cl := Config.cosDeg lon
  [[fdNegate (fdMul sp cl), fdNegate (fdMul sp sl), cp], [fdNegate sl, cl, 0], [fdNegate (fdMul cp cl), fdNegate (fdMul cp sl), fdNegate sp]]

/-- A pair of states (i, k) turned by a 2 × 2 matrix. -/
def turnPair (a : List (List F64)) (i k : Nat) (x : List F64) : List F64 :=
  let y := matVec a [fdAt x i, fdAt x k]
  (x.set i (fdAt y 0)).set k (fdAt y 1)

/-- The pairs of states that are vectors in the plane: position, wave states, bias and offsets (R232). -/
def planePairs (n : Nat) (wp : Bool) : List (Nat × Nat) :=
  [(0, 1), (6, 8), (7, 9), (12, 13)] ++ (List.range ((n - 15 - (if wp then 1 else 0)) / 2)).map fun i => (15 + 2 * i, 16 + 2 * i)

/-- A new datum: the state and its covariance, and the anchored targets, re-expressed in the new plane, at the datum's height (R250). Positions move
with the origin; what is a vector in the plane, the heading among them, is turned by the horizontal part of the rotation from the old axes to the
new. -/
def Mach.lchDatum (m : Mach) (e : Env) (c : Cmd) : Mach :=
  let old := m.datum
  let new : Int × Int × Int := (toSigned 64 (c.un 0 8), toSigned 64 (c.un 8 8), toSigned 32 (c.u32 16))
  let deg (i : Int) : F64 := fdOfRatio i 1000000000
  let ax0 := planeAxes (deg old.1) (deg old.2.1)
  let ax1 := planeAxes (deg new.1) (deg new.2.1)
  let o0 := ecef (deg old.1) (deg old.2.1) (fdMilli old.2.2)
  let o1 := ecef (deg new.1) (deg new.2.1) (fdMilli new.2.2)
  let d := [fdSub o0.1 o1.1, fdSub o0.2.1 o1.2.1, fdSub o0.2.2 o1.2.2]
  let r := matMul 3 ax1 (matT 3 ax0)
  let a := (r.take 2).map fun q => q.take 2
  let o := matVec ax1 d
  let move (n ea : F64) : F64 × F64 := let p := matVec a [n, ea]; (fdAdd (fdAt p 0) (fdAt o 0), fdAdd (fdAt p 1) (fdAt o 1))
  let ps := planePairs m.lch.x.length (m.b .LCH_STATES_wp_en)
  let turn (x : List F64) : List F64 := ps.foldl (fun x p => turnPair a p.1 p.2 x) x
  let x := if m.lch.x.isEmpty then [] else
    let y := turn m.lch.x
    let q := matVec a [Config.cosDeg (fdAt y 2), Config.sinDeg (fdAt y 2)]
    ((y.set 0 (fdAdd (fdAt y 0) (fdAt o 0))).set 1 (fdAdd (fdAt y 1) (fdAt o 1))).set 2 (wrap360 (Config.atan2Deg (fdAt q 1) (fdAt q 0)))
  let n := m.lch.p.length
  let p := matT n ((matT n (m.lch.p.map turn)).map turn)
  let shift (a : Int × Int) : Int × Int := let r := move (fdMilli a.1) (fdMilli a.2); (toMm r.1, toMm r.2)
  let slots := m.lch.slots.map fun s => { s with anchor := s.anchor.map shift }
  let m1 := { m with lch := { m.lch with x := x, p := p, slots := slots } }
  let m2 := ((m1.wr64 Reg.LCH_DATUM_LAT_LO Reg.LCH_DATUM_LAT_HI (c.un 0 8)).wr64 Reg.LCH_DATUM_LON_LO
    Reg.LCH_DATUM_LON_HI (c.un 8 8)).wr Reg.LCH_DATUM_HGT (BitVec.ofNat 32 (c.u32 16))
  m2.event e 0x400B (some 2) (le 8 (ofInt 64 old.1) ++ le 8 (ofInt 64 old.2.1) ++ le 4 (ofInt 32 old.2.2)
    ++ (c.params.take 20))

/-- A designation or its release (R247). A designation before it among the kind's streams ends. -/
def Mach.lchDesignate (m : Mach) (e : Env) (c : Cmd) : Mach :=
  let s := c.u8 0
  let kind := m.lchKind s
  let m1 := if c.u8 1 = 1 then
      let m2 := iter 24 (fun k m =>
        if k != s && m.lchOn k && m.lchKind k == kind then
          let m := if m.b (.LCH_Ss_STS_designated k) then m.lchDesEnd e k else m
          if m.b (.LCH_Ss_STS_suspect k) then (m.sb (.LCH_Ss_STS_suspect k) false).sb (.LCH_Ss_STS_rejected k) true else m
        else m) m
      ((m2.sb (.LCH_Ss_STS_suspect s) false).sb (.LCH_Ss_STS_designated s) true).lchContraSet kind 0
    else m.sb (.LCH_Ss_STS_designated s) false
  (m1.setBit Reg.LCH_IRQ_STS 8 true).event e 0x4009 (some 3) (le 1 s ++ le 1 (c.u8 1) ++ le 1 0)

/-- The number of observer states for a LCH_STATES image (R232). -/
def stateCount (v : Nat) : Nat := 15 + 2 * ((List.range 4).filter fun i => v.testBit i).length + v / 16 % 2

/-- One accepted command takes effect. -/
def Mach.lchApply (m : Mach) (e : Env) (op : Nat) (c : Cmd) : Mach :=
  if op = 0x40 then m.lchSlotCfg e c
  else if op = 0x41 then m.sb (.LCH_Ss_STS_excluded (c.u8 0)) (c.u8 1 == 1)
  else if op = 0x42 then m.lchDesignate e c
  else if op = 0x43 then
    ({ m with lch := { m.lch with weights := c.data } }.wr Reg.LCH_NET_VER (BitVec.ofNat 32 (c.d32 8))).sb
      .LCH_STS_net_loaded true
  else if op = 0x44 then m.lchDatum e c
  else if op = 0x45 then
    let m1 := (((m.wr Reg.LCH_CFG (BitVec.ofNat 32 (c.u32 0 % 2 ^ 29))).wr Reg.LCH_GATE (BitVec.ofNat 32 (c.u32 4))).wr
      Reg.LCH_TRUST_THR (BitVec.ofNat 32 (c.u32 8))).wr Reg.LCH_SLIP_CFG (BitVec.ofNat 32 (c.u32 12 % 2 ^ 24))
    let v := c.u32 16 % 32
    if v = (m.rd Reg.LCH_STATES).toNat % 32 then m1
    else ((m1.wr Reg.LCH_STATES (BitVec.ofNat 32 (v + stateCount v * 256))).lchRestart)
  else if op = 0x46 then
    (m.setLslot (c.u8 0) fun x => { x with anchor := some (toSigned 32 (c.d32 0), toSigned 32 (c.d32 4)) }).sb
      (.LCH_Ss_STS_anchored (c.u8 0)) true
  else if op = 0x47 then m.lchRestart
  else if op = 0x48 then
    let q := c.u8 0
    { m with lch := { m.lch with stream := if q = 0xFF then none else some (q, c.u8 1, c.u16 2), streamCount := 0 } }
  else if op = 0x49 then iter 24 (fun k m => (m.wr (Reg.LCH_Ss_CNT0 k) 0).wr (Reg.LCH_Ss_CNT1 k) 0) m
  else m

/-- A waiting command takes effect at the close of epoch j: it names that epoch or an earlier one (R211, R250). -/
def lchDue (j : Nat) (p : Nat × Nat × Cmd) : Bool := decide (p.1 ≤ j)

/-- The commands that waited for the close of an epoch take effect, in their order. -/
def Mach.lchApplyAll (m : Mach) (e : Env) (j : Nat) : Mach :=
  (m.lch.pend.filter (lchDue j)).foldl (fun m p => m.lchApply e p.2.1 p.2.2)
    { m with lch := { m.lch with pend := m.lch.pend.filter fun p => !lchDue j p } }

/-- A kind is in contradiction. -/
def Mach.lchInContra (m : Mach) (kind : Nat) : Bool := if kind = 0 then m.b .LCH_STS_contradict else m.b .LCH_STS_hcontradict

/-- The samples that serve the next epoch, slot by slot. -/
def Mach.lchServed (m : Mach) (assigned : Option (List (Nat × Nat))) (t0 t1 : Nat) : List (List LchSample) :=
  (List.range 24).map fun s => m.lchServing assigned t0 t1 s

/-- Every enabled stream is complete for the next epoch (R215). -/
def Mach.lchAll (m : Mach) : Bool :=
  let t1 := m.epochInstant m.lch.next
  let t0 := t1 - m.epochNs
  let l := m.lchServed none t0 t1
  (List.range 24).all fun s => m.lchComplete (l.getD s []) s t0 t1

/-- An epoch closes (R215, R217): commands due, values, trust, contradiction, observer, health, steps, the estimate. `assigned` is the active's
assignment on a standby; `limit` says that it closes at its wait limit with a stream missing. -/
def Mach.lchClose (m : Mach) (e : Env) (assigned : Option (List (Nat × Nat))) (limit : Bool) : Mach :=
  let j := m.lch.next
  let due := m.lch.pend.filter (lchDue j)
  let des (k : Nat) : Bool := due.any fun p => p.2.1 == 0x42 && p.2.2.u8 1 == 1 && m.lchKind (p.2.2.u8 0) == k
  let old (s : Nat) : Nat := m.lchSts14 s
  let m0 := m.lchApplyAll e j
  let reset := (due.any fun p => p.2.1 == 0x47) || m0.rd Reg.LCH_STATES != m.rd Reg.LCH_STATES
  let t1 := m0.epochInstant j
  let t0 := t1 - m0.epochNs
  let serving := m0.lchServed assigned t0 t1
  let at_ (s : Nat) : LchAt := if m0.lchOn s then m0.lchValueAt (serving.getD s []) s t0 t1 else ⟨none, false, none⟩
  let ats := (List.range 24).map at_
  let mp := { m0 with lch := { m0.lch with prevHdg := fdAt m0.lch.x 2 } }.lchPredict
  let m1 := iter 24 (fun s m =>
    if m.lchOn s then m.lchTally e (serving.getD s []) (ats.getD s ⟨none, false, none⟩) s j t0 t1 else m) mp
  let vals := ats.filterMap LchAt.val
  let m2 := iter 24 (fun s m =>
    if m.lchOn s then let f := m1.lchFeatures vals s t1; m.lchScore e s t1 f.1 f.2 else m) m1
  let m3 := iter 4 (fun k m => m.lchJudge e vals t1 k) m2
  let m4 := m3.lchContraSync
  let began (k : Nat) : Bool := m4.lchInContra k && !m3.lchInContra k
  let r := m4.lchObserve e vals
  let m5 := (r.1.lchHealth e old).lchEndDesignations e
  let m6 := (m5.lchSteps e t1 (if reset then 4 else if r.2 then 5 else 0) des began).lchPublish e j t1 vals
  let m7 := if limit then (m6.up .LCH_CLOSE_wait_closes).setBit Reg.LCH_IRQ_STS 10 true else m6
  let keep (l : List LchSample) : List LchSample :=
    (l.filter fun x => decide (t1 ≤ x.at_)) ++ (l.filter fun x => decide (x.at_ < t1)).take 2
  let slots := m7.lch.slots.map fun l => { l with samples := keep l.samples }
  let m8 := { m7 with lch := { m7.lch with next := j + 1, slots := slots } }
  let named := (List.range 24).flatMap fun s => ((serving.getD s []).filter fun x =>
    decide (t0 ≤ x.at_) && decide (x.at_ < t1)).flatMap fun x => le 1 s ++ (Stamp.ofNs x.at_).bytes
  (if m8.g .STK_STS_role != 0 then m8 else m8.linkSend 3 (3 &&& (63 - 2 ^ m8.g .STK_STS_pos)) (le 8 j ++ named)).lchStream e j t1

/-- The instant E_j + W at which the next epoch closes at the latest (R215). -/
def Mach.lchLimit (m : Mach) : Nat := m.epochInstant m.lch.next + m.g .LCH_CFG_wait * 1000000

/-- The next epoch closes: from its instant on, once every enabled stream is complete or the wait limit is reached (R215); on a standby, which has no
limit of its own, once the active's assignment for it has arrived and every sample it names is present (R217). An expansion runs no estimator
(R205). -/
def Mach.lchCloseNext (m : Mach) (e : Env) : Mach :=
  if 2 ≤ m.g .STK_STS_pos then m
  else if m.shadows then
    match m.lch.assign.find? fun a => a.1 == m.lch.next
        && a.2.all fun p => (m.lslot p.1).samples.any fun x => x.at_ == p.2 with
    | some a => { m with lch := { m.lch with assign := m.lch.assign.filter fun x => decide (a.1 < x.1) } }.lchClose e (some a.2) false
    | none => m
  else if m.epochInstant m.lch.next ≤ e.ns && m.lchAll then m.lchClose e none false
  else if m.lchLimit ≤ e.ns then m.lchClose e none true
  else m

def execEpochClose (s : State) : Host.Outcome State Fault Refusal := s.act fun e m => m.lchCloseNext e

/-- ts_clear seconds without a slip (R220). -/
def execTimingSuspectClear (k : Nat) (s : State) : Host.Outcome State Fault Refusal :=
  s.onInst (decide (k < 24)) fun e m =>
    let quiet := match (m.lslot k).slips with
      | t :: _ => decide (t + m.g .LCH_SLIP_CFG_ts_clear * 1000000000 ≤ e.ns)
      | [] => true
    if m.b (.LCH_Ss_STS_timing_suspect k) && quiet then
      ((m.sb (.LCH_Ss_STS_timing_suspect k) false).setBit Reg.LCH_IRQ_STS 5 true).event e 0x4006 (some 2)
        (le 1 k ++ le 1 0)
    else m

/-- jump_hold seconds after the last epoch with a high jump score (R228). -/
def execJumpHoldEnd (k : Nat) (s : State) : Host.Outcome State Fault Refusal :=
  s.onInst (decide (k < 24)) fun e m =>
    let above := match (m.lslot k).jumpAt with
      | some t => decide (t + m.g .LCH_TRUST_THR_jump_hold * 1000000000 ≤ e.ns)
      | none => true
    if above then m.sb (.LCH_Ss_STS_jump k) false else m

/-! ### Commands (R211, R249, R250) -/

/-- The module is the ACTIVE controller. -/
def Mach.isActive (m : Mach) : Bool := m.g .STK_STS_role == 0

/-- The law holds or tracks position or heading. -/
def Mach.plHolds (m : Mach) : Bool := let k := m.g .STR_PL_STS_mode; k == 1 || k == 2 || k == 3

/-- The other controller's destination bit. -/
def Mach.otherController (m : Mach) : Nat := 3 &&& (63 - 2 ^ m.g .STK_STS_pos)

/-- A command the active accepted, forwarded to the standby with the epoch or cycle at which it takes effect (R211, R257, R340). -/
def Mach.forward (m : Mach) (op at_ : Nat) (c : Cmd) : Mach :=
  m.linkSend 8 m.otherController (le 1 op ++ le 8 at_ ++ c.params ++ c.data)

/-- An LCH command is accepted: it waits for the next close, here and, by the number of that epoch, at the standby (R211, R250). -/
def Mach.lchQueue (m : Mach) (op : Nat) (c : Cmd) : Mach :=
  { m with lch := { m.lch with pend := m.lch.pend ++ [(m.lch.next, op, c)] } }.forward op m.lch.next c

/-- The configuration as it will stand when the commands before this one have taken effect. -/
def Mach.lchNext (m : Mach) : Mach :=
  m.lch.pend.foldl (fun m p =>
    if p.2.1 = 0x40 then m.lchSlotRegs p.2.2
    else if p.2.1 = 0x45 then m.wr Reg.LCH_STATES (BitVec.ofNat 32 (p.2.2.u32 16 % 32)) else m) m

/-- The ranges of a slot's fields (R206, R207, R210, R254). -/
def lchCfgOk (c : Cmd) : Bool :=
  let cfg := c.u32 4
  let src := c.u32 8
  let kind := cfg / 2 % 8
  let typ := cfg / 4096 % 8
  let principle := cfg / 16 % 8
  let dec := src / 2 ^ 24
  let i1 := src % 256
  let i2 := src / 256 % 256
  let i3 := src / 65536 % 256
  let n16 (i : Nat) : Int := toSigned 16 (c.u16 i)
  let inR (lo hi x : Int) : Bool := decide (lo ≤ x) && decide (x ≤ hi)
  let sigma : Word := BitVec.ofNat 32 (c.u32 36)
  let srcOk := match typ with
    | 0 => true
    | 1 => decide (i1 < 8)
    | 2 => decide (i1 < 2) && decide (i2 < 16)
    | 3 => decide (i1 < 12) && decide (i2 < 12) && decide (i3 < 12) && kind == 0
    | 4 => decide (i1 < 16) && (decide (i2 < 16) || i2 == 0xFF)
    | 5 => decide (i1 < 3)
    | 6 => decide (i1 < 4) && decide (i2 < 128)
    | _ => false
  let framed := typ == 1 || typ == 2 || typ == 6
  let decOk := !framed || match dec with
    | 1 => kind == 0 | 2 => kind == 0 | 4 => kind == 1 | 5 => kind == 1 | 6 => kind == 3 | 0x20 => true | _ => false
  let es := descEntries 8 c.data
  let has (q : Nat) : Bool := es.any fun p => p.2.2.1 == q
  let width (t : Nat) : Nat := if t ≤ 1 then 2 else if t ≤ 5 then 4 else 1
  let descOk := !(framed && dec == 0x20) ||
    ((es.all fun p => decide (p.2.1 ≤ 6) && decide (1 ≤ p.2.2.1) && decide (p.2.2.1 ≤ 20)
        && decide (p.1 + width p.2.1 ≤ 1024))
      && match kind with
        | 0 => (has 1 && has 2) || (has 4 && has 5) || (has 6 && has 7) || (has 8 && has 9)
        | 1 => has 10
        | 2 => has 11 && has 12 && has 13
        | _ => has 17 && has 18)
  decide (kind < 4) && decide (typ < 7) && (kind != 0 || decide (principle ≤ 5)) && (kind != 1 || decide (principle ≤ 2))
    && decide (cfg / 256 % 8 < 6) && decide (cfg / 65536 % 8 ≤ 4) && srcOk && decOk && descOk
    && decide (c.u32 12 ≤ 1000000) && inR (-18000) 18000 (n16 28) && inR (-9000) 9000 (n16 30)
    && inR (-18000) 18000 (n16 32) && fpLt 0 sigma && fpIsFinite sigma && decide (50 ≤ c.u32 40)
    && decide (c.u32 40 ≤ 10000000)

/-- The caps of R206 for a home position, with slot s taking a configuration. -/
def Mach.lchCaps (m : Mach) (c : Cmd) : Bool :=
  let s := c.u8 0
  let cfg := c.u32 4
  let home := cfg / 256 % 8
  let kind := cfg / 2 % 8
  let others := (List.range 24).filter fun k => k != s && m.lchOn k && m.g (.LCH_Ss_CFG_home k) == home
  let cap := match kind with | 0 => 6 | 1 => 4 | _ => 3
  cfg % 2 == 0 || (decide (others.length < 16) && decide ((others.filter fun k => m.lchKind k == kind).length < cap))

def execLchStreamCfg (c : Cmd) (s : State) : Host.Outcome State Fault Refusal :=
  s.act fun e m => runCmd 0x40 c e.isSealed false (fun _ m =>
    let n := m.lchNext
    let k := c.u8 0
    if c.data.length != 0 && c.data.length != 64 then m.fail stLen
    else if 24 ≤ k then m.fail stRange
    else if !m.isActive then m.fail stState
    else if n.lchOn k then
      let free (i off : Nat) : Word := n.rd off ^^^ lchImage c i
      let diffs := (lchCfgRegs k).mapIdx fun i off => if i = 0 then free i off &&& ~~~1 else free i off
      if diffs.any (· != 0) || (!c.data.isEmpty && c.data != (n.lslot k).desc) then m.fail stState
      else .ok (m.lchQueue 0x40 c)
    else if !lchCfgOk c then m.fail stRange
    else if !n.lchCaps c then m.fail 0x40
    else .ok (m.lchQueue 0x40 c)) e m

def execLchStreamExclude (c : Cmd) (s : State) : Host.Outcome State Fault Refusal :=
  s.act fun e m => runCmd 0x41 c false false (fun _ m =>
    if 24 ≤ c.u8 0 || 2 ≤ c.u8 1 then m.fail stRange
    else if !m.isActive then m.fail stState
    else .ok (m.lchQueue 0x41 c)) e m

def execLchDesignate (c : Cmd) (s : State) : Host.Outcome State Fault Refusal :=
  s.act fun e m => runCmd 0x42 c false false (fun _ m =>
    let k := c.u8 0
    if 24 ≤ k || 2 ≤ c.u8 1 then m.fail stRange
    else if !m.isActive then m.fail stState
    else
      let sus := m.b (.LCH_Ss_STS_suspect k)
        || (decide (2 ≤ m.lchKind k) && (m.lch.contra.getD (m.lchKind k) 0).testBit k)
      if c.u8 1 = 1 then
        if !sus then m.fail stState
        else if m.b (.LCH_Ss_STS_stale k) || m.b (.LCH_Ss_STS_qual0 k) then m.fail 0x42
        else .ok (m.lchQueue 0x42 c)
      else if !m.b (.LCH_Ss_STS_designated k) then m.fail stState
      else .ok (m.lchQueue 0x42 c)) e m

/-- The layout of a weights image (R231). -/
def weightsOk (l : List Byte) : Bool :=
  let c := imgN l 6 1
  let kinds := (List.range c).map fun k => imgN l (32 + 2688 * k) 1
  l.take 4 == [0x4C, 0x57, 0x47, 0x54] && imgN l 4 2 == 1 && decide (1 ≤ c) && decide (c ≤ 4)
    && kinds.eraseDups.length == c && kinds.all (fun k => decide (k < 4))
    && (List.range c).all fun k =>
      let o := 32 + 2688 * k
      decide (1 ≤ imgN l (o + 1) 1) && decide (imgN l (o + 1) 1 ≤ 64) && decide (1 ≤ imgN l (o + 2) 1)
        && decide (imgN l (o + 2) 1 ≤ 32) && decide (imgN l (o + 3) 1 ≤ 31)
        && (List.range 64).all fun i =>
          decide (imgN l (o + 4 + 2 * i) 1 ≤ 23) || imgN l (o + 4 + 2 * i) 1 == 0xFF

def execLchWeightsLoad (c : Cmd) (s : State) : Host.Outcome State Fault Refusal :=
  s.act fun e m => runCmd 0x43 c false false (fun e m =>
    let n := imgN c.data 6 1
    if !m.isActive then m.fail stState
    else if c.u32 0 != 128 + 2688 * n || c.data.length != c.u32 0 then m.fail stLen
    else if crc32c ((c.data.drop 32).take (2688 * n)) != c.d32 12 then m.fail stCrc
    else if !e.imageOk c.data then (m.otpNote e [1, 2, 3]).fail stAuth
    else if !weightsOk c.data then m.fail 0x43
    else .done ((m.otpNote e [1, 2, 3]).lchQueue 0x43 c) stOk (le 1 n) []) e m

def execLchDatumSet (c : Cmd) (s : State) : Host.Outcome State Fault Refusal :=
  s.act fun e m => runCmd 0x44 c e.isSealed false (fun _ m =>
    let lat := toSigned 64 (c.un 0 8)
    let lon := toSigned 64 (c.un 8 8)
    if 90000000000 < lat.natAbs || 180000000000 < lon.natAbs then m.fail stRange
    else if !m.isActive || m.plHolds then m.fail stState
    else .ok (m.lchQueue 0x44 c)) e m

/-- The ranges of LCH_CFG_SET (R254). -/
def lchSetOk (c : Cmd) : Bool :=
  let cfg := c.u32 0
  let gate := c.u32 4
  let slip := c.u32 12
  let inR (lo hi x : Nat) : Bool := decide (lo ≤ x) && decide (x ≤ hi)
  inR 1 3600 (cfg / 65536 % 4096) && inR 1 255 (cfg / 256 % 256) && inR 1 100 (cfg % 256)
    && inR 1 255 (gate / 2 ^ 24) && inR 16 255 (gate / 65536 % 256) && inR 1024 25600 (gate % 65536)
    && inR 1 255 (c.u32 8 / 2 ^ 24) && inR 1 255 (slip / 256 % 256) && inR 1 255 (slip % 256)

def execLchCfgSet (c : Cmd) (s : State) : Host.Outcome State Fault Refusal :=
  s.act fun e m => runCmd 0x45 c e.isSealed false (fun _ m =>
    if !lchSetOk c then m.fail stRange
    else if !m.isActive then m.fail stState
    else if (m.lchNext.rd Reg.LCH_STATES).toNat % 32 != c.u32 16 % 32 && m.plHolds then m.fail stState
    else .ok (m.lchQueue 0x45 c)) e m

def execLchRefAnchor (c : Cmd) (s : State) : Host.Outcome State Fault Refusal :=
  s.act fun e m => runCmd 0x46 c false false (fun _ m =>
    let k := c.u8 0
    if 24 ≤ k then m.fail stRange
    else if !m.isActive || !m.lchOn k || !m.b (.LCH_Ss_CFG_relative k) || m.b (.LCH_Ss_STS_stale k)
        || m.g .LCH_STS_pstep == 4 then m.fail stState
    else match (m.lslot k).samples with
      | [] => m.fail stState
      | x :: _ =>
        match m.relOffset k x with
        | none => m.fail stState
        | some o =>
          let n := toMm (fdAdd (fdMilli (m.gi .LCH_OUT_N_pos)) o.1)
          let ea := toMm (fdAdd (fdMilli (m.gi .LCH_OUT_E_pos)) o.2.1)
          let res := le 4 (ofInt 32 n) ++ le 4 (ofInt 32 ea)
          .done (m.lchQueue 0x46 { c with data := res }) stOk res []) e m

def execLchReset (c : Cmd) (s : State) : Host.Outcome State Fault Refusal :=
  s.act fun e m => runCmd 0x47 c false false (fun _ m =>
    if !m.isActive || m.plHolds then m.fail stState else .ok (m.lchQueue 0x47 c)) e m

def execLchOutStream (c : Cmd) (s : State) : Host.Outcome State Fault Refusal :=
  s.act fun e m => runCmd 0x48 c false false (fun _ m =>
    let q := c.u8 0
    if (16 ≤ q && q != 0xFF) || c.u16 2 = 0 then m.fail stRange
    else if !m.isActive then m.fail stState
    else if q != 0xFF && !m.b (qEn .stq q) then m.fail stState
    else .ok (m.lchQueue 0x48 c)) e m

def execLchStatusGet (c : Cmd) (s : State) : Host.Outcome State Fault Refusal :=
  s.act fun e m => runCmd 0x49 c false true (fun _ m =>
    if !m.isActive then m.fail stState
    else
      let data := m.words Reg.LCH_STS 1 ++ (List.range 24).flatMap fun k => m.words (Reg.LCH_Ss_STS k) 4
      .done (if c.u8 0 % 2 = 1 then m.lchQueue 0x49 c else m) stOk [] data) e m

end Sys2Proof.Machine
end

