-- ==== Sys2Proof/Machine/Steps.lean ====
section
/-!
DEFINITION. The timebase: its tick, its increment, the timed pulse outputs and the captures they feed (R65 to R75), and taking a
step of the timebase (R50 to R62, R69, R115), with what a step does to the outputs and to the units that hold instants.
Log: 1 (DESIGN CHOICE), 48 (DEDUCED), 49 (DEDUCED), 50 (DEDUCED), 99 (DESIGN CHOICE), 100 (DESIGN CHOICE), 101 (DEDUCED), 108 (DEDUCED).
-/
namespace Sys2Proof.Machine

/-- The nominal increment, 4.0 ns (R54). -/
def incNominal : Nat := 0x400000000

/-- The admissible increments (R55). -/
def incOk (i : Nat) : Bool := decide (0x3FEF9DB23 ≤ i) && decide (i ≤ 0x4010624DD)

/-- One TIME cycle of the timebase (R50). -/
def Timebase.tick (t : Timebase) : Timebase :=
  let sum := t.ns * 2 ^ 32 + t.frac + t.inc
  let ns := sum / 2 ^ 32
  if 1000000000 ≤ ns then ⟨(t.sec + 1) % 2 ^ 48, ns - 1000000000, sum % 2 ^ 32, t.inc⟩
  else ⟨t.sec, ns, sum % 2 ^ 32, t.inc⟩

/-- The timebase moved by a signed number of nanoseconds; the fraction is unchanged (R56). DESIGN CHOICE (log 99): a result below
0 s or past 2^48 s wraps modulo 2^48 s. -/
def Timebase.shift (t : Timebase) (d : Int) : Timebase :=
  let n := (((t.nowNs : Int) + d) % (2 ^ 48 * 1000000000 : Int)).toNat
  { t with sec := n / 1000000000, ns := n % 1000000000 }

/-- The timebase set to whole seconds, nanoseconds and fraction 0, at the nominal increment (R51). -/
def Timebase.load (sec : Nat) : Timebase := ⟨sec % 2 ^ 48, 0, 0, incNominal⟩

/-- The first whole nanosecond that is no earlier than 2 TIME cycles from now (R68). -/
def Timebase.twoAhead (t : Timebase) : Nat := (t.fine + 2 * t.inc + (2 ^ 32 - 1)) / 2 ^ 32

/-- The mean increment since an instant, weighted by time, of a history newest first (R82). -/
def incMean (since upto : Nat) : List (Nat × Nat) → Nat × Nat
  | [] => (0, 0)
  | (t, i) :: l =>
    let lo := max t since
    let w := upto - lo
    if t ≤ since then (w * i, w) else let r := incMean since lo l; (w * i + r.1, w + r.2)

/-- The quantisation error in ps of a compare that fires at a target ahead (R61, R70): the timebase in the first TIME cycle
at or beyond the target, less the target, at the increment in use. DESIGN CHOICE (log 99): a part of a picosecond is dropped, so that
the error stays below the increment. -/
def quantErr (t : Timebase) (target : Nat) : Nat :=
  if t.inc = 0 then 0
  else (((t.fine : Int) - (target * 2 ^ 32 : Nat)) % (t.inc : Int)).toNat * 1000 / 2 ^ 32

/-! ### Timed pulse outputs (R65 to R71) -/

/-- Output k. -/
def Mach.tpo (m : Mach) (k : Nat) : Tpo := nth (Tpo.reset 1) m.time.tpo k

/-- Storing output k; TPOk_QERR follows its next leading edge and STS shows armed and active (R70, R91). -/
def Mach.setTpo (m : Mach) (t : Timebase) (k : Nat) (o : Tpo) : Mach :=
  let m1 := { m with time := { m.time with tpo := upd m.time.tpo k fun _ => o } }
  let m2 := match o.next with | some n => m1.s (.TPOk_QERR_qerr k) (quantErr t n) | none => m1
  (m2.sb (.TPOk_STS_armed k) (o.cur.mode != 0)).sb (.TPOk_STS_active k) o.trail.isSome

/-- The first grid point of an output at or after an instant (R68, R69). -/
def firstGrid (z : TpoSet) (at_ : Nat) : Nat :=
  if at_ ≤ z.start || z.period = 0 then z.start
  else z.start + (at_ - z.start + z.period - 1) / z.period * z.period

/-- The level an output drives: active high or active low. -/
def tpoLevel (z : TpoSet) (active : Bool) : Int := if active != (z.polarity == 1) then 1 else 0

/-- TPOk_QERR of every output with a leading edge ahead, at the timebase and increment now in force (R70). -/
def Mach.qerrAll (m : Mach) (t : Timebase) : Mach :=
  iter 8 (fun k m => match (m.tpo k).next with | some n => m.s (.TPOk_QERR_qerr k) (quantErr t n) | none => m) m

/-- An increment put in force: TIME_INC reads the one in use, its instant is kept for the mean of R82, and the errors of the edges
ahead follow (R70). -/
def setInc (i : Nat) (e : Env) (m : Mach) : Timebase × Mach :=
  let t : Timebase := { e.time with inc := i }
  (t, ({ (m.s .TIME_INC_LO_inc_frac (i % 2 ^ 32)).s .TIME_INC_HI_inc_int (i / 2 ^ 32) with
         time := { m.time with incHist := (e.ns, i) :: m.time.incHist, incDue := none } }).qerrAll t)

/-! ### Capture inputs (R72 to R75) -/

/-- Captures of input k. -/
def Mach.cap (m : Mach) (k : Nat) : List CapEdge := nth [] m.time.cap k

/-- Storing a capture FIFO: level, head entry and source follow it (R74, R89, R91). -/
def Mach.setCap (m : Mach) (k : Nat) (l : List CapEdge) : Mach :=
  let m1 := ({ m with time := { m.time with cap := upd m.time.cap k fun _ => l } }.s (.CAPk_STS_level k) l.length).setBit
    Reg.TIME_IRQ_STS (8 + k) (!l.isEmpty)
  match l with
  | [] => ((m1.wr (Reg.CAPk_NS k) 0).wr (Reg.CAPk_SL k) 0).wr (Reg.CAPk_SH k) 0
  | x :: _ =>
    (((((m1.sb (.CAPk_NS_rising k) x.rising).sb (.CAPk_NS_present k) true).s (.CAPk_NS_ns k) x.at_.ns).s
      (.CAPk_SL_s_lo k) x.at_.sec).s (.CAPk_SH_s_hi k) (x.at_.sec / 2 ^ 32))

/-- A filtered edge on input k (R72, R74): captured when the input takes that edge, or counted when the FIFO is full; each
capture raises TIME_CAPTURE. DESIGN CHOICE (log 100): one dropped on a full FIFO raises none. -/
def Mach.capture (m : Mach) (e : Env) (k : Nat) (x : CapEdge) : Mach :=
  let edge := m.g (.CAPk_CTRL_edge k)
  if !(if x.rising then edge.testBit 0 else edge.testBit 1) then m
  else if 16 ≤ (m.cap k).length then m.up (.CAPk_STS_ovf k)
  else (m.setCap k (m.cap k ++ [x])).note e 0x1001 (le 1 k ++ le 1 (if x.rising then 1 else 2) ++ x.at_.bytes)

/-- The output TPOk takes a level in the present TIME cycle, for `lasts` ns where it is to change again: input k captures the edge
while CAPk_CTRL.src chooses the output and the level lasts for the filter (R72, R75). -/
def Mach.captureTpo (m : Mach) (e : Env) (k : Nat) (level : Int) (lasts : Option Nat) : Mach :=
  let long := match lasts with | some w => decide (m.g (.CAPk_CTRL_filt k) * e.time.inc ≤ w * 2 ^ 32) | none => true
  if m.b (.CAPk_CTRL_src k) && long then m.capture e k ⟨e.now, level == 1⟩ else m

/-! ### Edges of the timed pulse outputs (R65 to R69) -/

/-- The end of a pulse: the pin switches, settings that waited take effect (R67), and a disarmed output goes OFF (R87). A PERIODIC
setting starts at the first grid point far enough ahead (R68). DESIGN CHOICE (log 100): a ONESHOT that waited is armed with its start
even where that has passed, and reports no late. -/
def Mach.tpoTrail (m : Mach) (e : Env) (k : Nat) : Mach :=
  let o := m.tpo k
  let next := if o.disarm then none
    else match o.pend with
      | some z => if z.mode = 0 then none else if z.mode = 1 then some z.start else some (firstGrid z e.time.twoAhead)
      | none => o.next
  let m1 := (m.emit "TPO" k (tpoLevel o.cur false)).captureTpo e k (tpoLevel o.cur false) (next.map fun n => n - e.ns)
  if o.disarm then
    (m1.s (.TPOk_CTRL_mode k) 0).setTpo e.time k ⟨{ o.cur with mode := 0 }, none, false, none, o.last, none⟩
  else match o.pend with
    | some z => m1.setTpo e.time k ⟨z, none, false, next, o.last, none⟩
    | none => m1.setTpo e.time k { o with trail := none }

/-- The leading edge of output k at its target n (R65): the pin switches, the pulse starts, and the next target is set. -/
def Mach.tpoLead (m : Mach) (e : Env) (k n : Nat) : Mach :=
  let o := m.tpo k
  let nx := if o.cur.mode = 2 then some (n + o.cur.period) else none
  (((m.emit "TPO" k (tpoLevel o.cur true)).captureTpo e k (tpoLevel o.cur true) (some o.cur.width)).setBit Reg.TIME_IRQ_STS k
    true).setTpo e.time k { o with trail := some (n + o.cur.width), last := some n, next := nx }

/-- What a step from `a` to `b` ns does to output k (R62, R69): a pulse in progress ends; a PERIODIC output goes on with the first
grid point after the stepped time, counting the edges skipped, or after the last edge emitted; a ONESHOT whose start is skipped fires in
the step cycle. -/
def Mach.tpoStep (e : Env) (a b k : Nat) (m : Mach) : Mach :=
  let m1 := if (m.tpo k).trail.isSome then m.tpoTrail e k else m
  let o := m1.tpo k
  match o.next with
  | some n =>
    if o.cur.mode = 2 then
      if a < b then
        let n' := if n ≤ b then firstGrid o.cur (b + 1) else n
        let skipped := if o.cur.period = 0 then 0 else (n' - n) / o.cur.period
        (m1.setTpo e.time k { o with next := some n' }).addSat (.TPOk_STS_skipped k) skipped
      else
        let after := match o.last with | some l => max (l + 1) (b + 1) | none => b + 1
        m1.setTpo e.time k { o with next := some (firstGrid o.cur after) }
    else if a < n && n ≤ b then m1.tpoLead e k n
    else m1
  | none => m1

/-- TPO0 in its reset role starts at the first whole second after valid is set (R71). -/
def Mach.ppsStart (m : Mach) (t : Timebase) : Mach :=
  let o := m.tpo 0
  if o.cur = (Tpo.reset 0).cur && o.next.isNone && o.trail.isNone then
    m.setTpo t 0 { o with next := some ((t.nowNs / 1000000000 + 1) * 1000000000) }
  else m

/-! ### TIME_PULSE (R114 to R116) -/

/-- TPO0 reports its edges: PERIODIC with a period of one second and a start on a whole second (R114). -/
def Mach.ppsRole (m : Mach) : Bool :=
  let z := (m.tpo 0).cur
  z.mode == 2 && z.period == 1000000000 && z.start % 1000000000 == 0

/-- A TIME_PULSE for an edge (R116): the offset from GNSS time is 0x8000_0000 when not measured; `flags` adds revised
(bit 3) and skipped (bit 4). -/
def Mach.timePulse (m : Mach) (e : Env) (edge : Nat) (offset : Option Int) (flags : Nat) : Mach :=
  let bound := if m.b .TIME_STS_hold then m.g .TIME_HOLD_BOUND_bound else m.time.e0.getD 0
  let off := match offset with | some o => ofInt 32 o | none => 0x80000000
  let bits := (if m.b .TIME_STS_hold then 1 else 0) + (if m.b .GEN_CLK_REF_ref_lost then 2 else 0)
    + (if m.b .GNS_LEAP_utc_valid then 4 else 0) + flags + (if m.b .GNS_STS_fsi_over then 32 else 0)
  ({ m with time := { m.time with ppsReported := some edge } }.note e 0x2001
    (le 6 (edge / 1000000000) ++ le 4 (edge % 1000000000) ++ le 2 (quantErr e.time edge) ++ le 4 off ++ le 4 bound
      ++ le 1 bits ++ le 1 (m.g .GNS_LEAP_tai_utc) ++ le 2 0)).setBit Reg.GNS_IRQ_STS 9 true

/-- A change of the increment that alters a reported edge still ahead posts a revised TIME_PULSE (R115). -/
def Mach.pulseRevised (m : Mach) (e e' : Env) (skipped : Bool) : Mach :=
  match m.time.ppsReported with
  | some edge =>
    if m.ppsRole && (skipped || (decide (e.ns ≤ edge) && quantErr e.time edge != quantErr e'.time edge)) then
      m.timePulse e' edge none (if skipped then 24 else 8)
    else m
  | none => m

/-! ### Steps (R56 to R58, R62) -/

/-- The sources of the timebase settled by setting valid (R82). -/
def Mach.setValid (m : Mach) (t : Timebase) : Mach :=
  if m.b .TIME_STS_valid then m
  else ({ m with time := { m.time with srcSince := t.nowNs } }.sb .TIME_STS_valid true).ppsStart t

/-- The output period of an analogue chain in ns (R134). -/
def Mach.anPeriodNs (m : Mach) (k : Nat) : Nat := m.g (.FIL_ANk_OUT_out_div k) * 50000

/-- The chain's next grid instant and the place of its value once a step has moved the timebase from a to b (R143): the first instant past a
forward step; the samples go on undisturbed. -/
def AnSt.moved (c : AnSt) (p ratio a b : Nat) : AnSt :=
  match c.nextGrid with
  | some n =>
    let n1 := if n ≤ b then (b / p + 1) * p else n
    { c with nextGrid := some n1, pos := ((c.pos : Int) + (((n1 : Int) - b) - ((n : Int) - a)) * ratio / p).toNat }
  | none => c

/-- The steps whose samples already due are out take effect, in their order. -/
def AnSt.settle (c : AnSt) (p ratio : Nat) : List (Nat × Nat) → AnSt
  | [] => { c with moves := [] }
  | x :: l =>
    if (match c.nextGrid with | some n => decide (x.1 < n) | none => true) then (c.moved p ratio x.1 x.2).settle p ratio l
    else { c with moves := x :: l }

/-- A chain at a step from a to b (R143): an instant up to a is still due; one within a forward step, a excluded, is skipped and counted. -/
def Mach.anStep (a b k : Nat) (m : Mach) : Mach :=
  let c := nth AnSt.reset m.fil.an k
  let p := m.anPeriodNs k
  match c.nextGrid with
  | some n =>
    if p = 0 then m
    else
      let first := max n (((c.moves.foldl (fun x y => max x y.1) a) / p + 1) * p)
      let ratio := (m.rd (Reg.FIL_ANk_RATIO k)).toNat
      let m1 := { m with fil := { m.fil with an := upd m.fil.an k fun c => c.settle p ratio (c.moves ++ [(a, b)]) } }
      if a < b && first ≤ b then m1.addSat (.FIL_ANk_STS_skipped k) ((b - first) / p + 1) else m1
  | none => m

/-- A step shifts the reference instants of the speed estimator (R191), and of the emulators that a string drives. -/
def Mach.fbkStep (d : Int) (m : Mach) : Mach :=
  { m with fbk := { m.fbk with 
                              ch := m.fbk.ch.map (fun c => { c with refT := (c.refT : Int) + d, lastT := (c.lastT : Int) + d })
                              emu := m.fbk.emu.map (fun u => { u with at_ := ((u.at_ : Int) + d).toNat }) } }

/-- An instant of the timebase from which a duration is counted, moved with a step. -/
def moveNs (d : Int) (n : Nat) : Nat := ((n : Int) + d).toNat

/-- Durations count through a step: the instants from which the discipline, the heartbeats and the manual feed count move with it. -/
def Mach.moveDurations (d : Int) (m : Mach) : Mach :=
  { m with time := { m.time with lastMeas := moveNs d m.time.lastMeas, srcSince := moveNs d m.time.srcSince,
                                 runSince := m.time.runSince.map (moveNs d), incHist := m.time.incHist.map fun p => (moveNs d p.1, p.2) },
           stk := { m.stk with peers := m.stk.peers.map fun p => { p with at_ := moveNs d p.at_, since := moveNs d p.since },
                               sentAt := moveNs d m.stk.sentAt },
           pl := { m.pl with manualAt := moveNs d m.pl.manualAt } }

/-- The objects of the CAN controllers whose target instant has come at a short stamp: controller, object and target. -/
def canDue (now : Nat) (l : List CanCtl) : List (Nat × Nat × Nat) :=
  l.zipIdx.flatMap fun p => p.1.obj.zipIdx.filterMap fun q =>
    match q.1.target with | some t => if shortDiff t now ≤ 0 then some (p.2, q.2, t) else none | none => none

/-- The target compare of object o of controller c fires (R60, R412): the object is pending from its target instant. -/
def Mach.canFire (m : Mach) (x : Nat × Nat × Nat) : Mach :=
  { m with can := upd m.can x.1 fun c => { c with obj := upd c.obj x.2.1 fun o => { o with target := none, due := some x.2.2 } } }.sb
    (.CAN_c_OBJo_CFG_pending x.1 x.2.1) true

/-- The commands whose step is applied complete (R87). -/
def completeAll (e : Env) (l : List Waiting) (m : Mach) : Mach :=
  l.foldl (fun m w => m.complete e w.op w.cmd stOk [] []) m

/-- A step of d ns is applied to the timebase now (R58): anchors before and after it (R596), step_done with its source, one
NOTICE record and the TIME_STEP event, the outputs and the units that hold instants, the compares skipped by a forward step fire (R62), and
the waiting commands complete. While no grid runs, the epochs are aligned anew (R631). A first step sets valid (R57, R81). -/
def applyStep (d : Int) (e : Env) (m : Mach) : Timebase × Mach :=
  let t := e.time.shift d
  let e' : Env := { e with time := t }
  let a := e.ns
  let b := t.nowNs
  let edge := m.time.ppsReported
  let m1 := ((m.anchor e anchorBefore).moveDurations d).setValid t
  let m2 := ((m1.sb .TIME_STS_step_done true).setBit Reg.TIME_IRQ_STS 18 true).event e' 0x1002 (some 2)
    (e.now.bytes ++ le 4 (ofInt 32 (d.tdiv 1000000000)) ++ le 4 (ofInt 32 (d.tmod 1000000000)))
  let m3 := (iter 8 (fun k m => m.tpoStep e' a b k) m2).qerrAll t
  let m4 := (iter 16 (fun k m => m.anStep a b k) m3).fbkStep d
  let m4' := if a < b then (canDue e'.now.short m4.can).foldl Mach.canFire m4 else m4
  let skipped := match edge with | some x => decide (a < x) && decide (x ≤ b) && m.ppsRole | none => false
  let m5 := (m4'.pulseRevised e e' skipped).anchor e' anchorAfter
  let m6 := completeAll e' m5.time.stepCmds m5
  let g := if m.grid.running then m6.grid else { m6.grid with e0 := b / 50000000 * 50000000 + 50000000, j0 := m6.lch.next }
  (t, { m6 with time := { m6.time with step := none, stepCmds := [] }, grid := g })

/-- An accepted step (R58): added to one that waits, and applied at the next boundary while the grid runs, at once
otherwise. -/
def requestStep (d : Int) (e : Env) (m : Mach) : Timebase × Mach :=
  let total := (m.time.step.getD 0) + d
  if m.grid.running then (e.time, { m with time := { m.time with step := some total } })
  else applyStep total e m

/-- A step is permitted (R57): before valid always, after it only with allow_step. -/
def Mach.stepAllowed (m : Mach) : Bool := !m.b .TIME_STS_valid || m.b .TIME_DISC_allow_step

/-- A refused step (R56, R57). -/
def Mach.refuseStep (m : Mach) : Mach := (m.sb .TIME_STS_step_refused true).setBit Reg.TIME_IRQ_STS 19 true

/-- A host correction ignored because the effective source is not FREE (R59). -/
def Mach.hostIgnored (m : Mach) : Mach := (m.sb .TIME_STS_host_ignored true).setBit Reg.TIME_IRQ_STS 19 true

/-- The effective source is FREE (R79). -/
def Mach.srcFree (m : Mach) : Bool := m.g .TIME_STS_src_eff == 0

/-- A module follows a master (R79): as STANDBY, SYNCING or EXPANSION, with a HEARTBEAT that carried the master flag within the last
10 ms. -/
def Mach.follows (m : Mach) (e : Env) : Bool :=
  (m.g .STK_STS_role == 1 || m.g .STK_STS_role == 2 || m.g .STK_STS_role == 3)
    && m.stk.peers.any fun p => p.flags.testBit 4 && decide (e.ns ≤ p.at_ + 10000000)

/-- src_eff follows src and the following of a master (R79); at a change the increment stays and the holdover rules start on the new
source. -/
def Mach.effSource (m : Mach) (e : Env) : Mach :=
  let f := m.follows e
  let v := if f then 4 else m.g .TIME_DISC_src
  if m.g .TIME_STS_src_eff = v then { m with time := { m.time with following := f } }
  else { m with time := { m.time with following := f, srcSince := e.ns, runSince := none, incDue := none } }.s .TIME_STS_src_eff v

end Sys2Proof.Machine
end

