-- ==== Sys2Proof/Machine/Fil.lean ====
section
/-!
DEFINITION. Analogue chains and serial sensor ports (R127 to R161): the CIC, FIR, resampler, delay, DC blocker and thresholds;
sentence and packet framing; and the FIL commands.
Log: 8 (DESIGN CHOICE), 54 (DEDUCED), 108 (DEDUCED), 109 (DEDUCED), 110 (DEDUCED).
-/
namespace Sys2Proof.Machine

/-- Chain k. -/
def Mach.an (m : Mach) (k : Nat) : AnSt := nth AnSt.reset m.fil.an k
def Mach.setAn (m : Mach) (k : Nat) (f : AnSt → AnSt) : Mach := { m with fil := { m.fil with an := upd m.fil.an k f } }

/-! ### Feedback samples to Lichen (R186, R207, R223) -/

/-- The instant of channel c's newest sample. -/
def Mach.fbStamp (m : Mach) (c : Nat) : Nat :=
  ((m.rd (Reg.FBK_CHc_STMP_SL c)).toNat + (m.rd (Reg.FBK_CHc_STMP_SH c)).toNat * 2 ^ 32) * 1000000000 + (m.rd (Reg.FBK_CHc_STMP_NS c)).toNat

/-- The engineering value of channel c's newest sample at ns t (R186): count times scale, carried on at the speed from the sample's own stamp. -/
def Mach.fbValueAt (m : Mach) (c t : Nat) : F64 :=
  let scale := fdOfF32 (m.rd (Reg.FBK_CHc_SCALE c))
  let count := fdOfInt (toSigned 48 (m.rd64 (Reg.FBK_CHc_POS_LO c) (Reg.FBK_CHc_POS_HI c)))
  let at_ := m.fbStamp c
  let moved := if at_ < t then fdAdd count (fdMul (fdOfF32 (m.rd (Reg.FBK_CHc_SPD c))) (fdOfRatio (t - at_ : Nat) 1000000000)) else count
  fdMul moved scale

/-- The samples of a base tick reach the taut-wire slots whose fore-and-aft channel delivers one: both angles and the wire length, at its stamp; one
that is not valid makes the sample missing (DEDUCED, log 110). -/
def Mach.fbToLichen (m : Mach) (delivers : Nat → Bool) : Mach :=
  iter 24 (fun s m =>
    let c1 := m.g (.LCH_Ss_SRC_index s)
    let c2 := m.g (.LCH_Ss_SRC_index2 s)
    let c3 := m.g (.LCH_Ss_SRC_index3 s)
    if !m.lchBound s 3 || !delivers c1 then m
    else if !m.b (.FBK_CHc_FLAGS_valid c1) || !m.b (.FBK_CHc_FLAGS_valid c2) || !m.b (.FBK_CHc_FLAGS_valid c3) then m.lchMissing s
    else
      let t := m.fbStamp c1
      m.lchOwn s t ⟨0, fdOne, none, [(21, m.fbValueAt c1 t), (22, m.fbValueAt c2 t), (23, m.fbValueAt c3 t)]⟩) m

/-- Port p. -/
def Mach.sp (m : Mach) (p : Nat) : SpSt := nth SpSt.reset m.fil.sp p
def Mach.setSp (m : Mach) (p : Nat) (f : SpSt → SpSt) : Mach := { m with fil := { m.fil with sp := upd m.fil.sp p f } }

/-! ### The CIC and the filters (R130, R132, R133, R137) -/

/-- N, R and M of a chain. -/
def Mach.cicN (m : Mach) (k : Nat) : Nat := m.g (.FIL_ANk_CFG_cic_n k)
def Mach.cicR (m : Mach) (k : Nat) : Nat := m.g (.FIL_ANk_CFG_cic_r k) + 1
def Mach.cicM (m : Mach) (k : Nat) : Nat := m.g (.FIL_ANk_CFG_cic_m k) + 1

/-- The integrators take one input, each adding the updated one before it. -/
def cicIntegrate (x : BitVec 64) : List (BitVec 64) → List (BitVec 64)
  | [] => []
  | a :: l => (a + x) :: cicIntegrate (a + x) l

/-- The combs with differential delay md on one decimated value: their new histories and the output. -/
def cicComb (md : Nat) (c : BitVec 64) : List (List (BitVec 64)) → List (List (BitVec 64)) × BitVec 64
  | [] => ([], c)
  | h :: l =>
    let r := cicComb md (c - h.getD (md - 1) 0) l
    ((c :: h.take 1) :: r.1, r.2)

/-- The FIR tap i of a chain (R133). -/
def AnSt.tap (a : AnSt) (i : Nat) : Word :=
  match a.coef with
  | some l => BitVec.ofNat 32 (unle ((l.drop (4 * i)).take 4))
  | none => if i = 15 || i = 16 then fpOfRatio 1 2 else 0

/-- The resampler's coefficient of a phase for tap i, newest first (R137): by default linear interpolation between the two
samples that enclose the instant. -/
def AnSt.poly (a : AnSt) (phase i : Nat) : Word :=
  match a.coef with
  | some l => BitVec.ofNat 32 (unle ((l.drop (128 + 64 * phase + 4 * i)).take 4))
  | none => if i = 7 then fpOfRatio phase 64 else if i = 8 then fpOfRatio (64 - phase) 64 else 0

/-- The products of coefficients and inputs, newest first, and their FP32 sum: of two the one rounding is the same in either
order; of more the order is open. -/
def fpDot (c : Nat → Word) (l : List Word) : Word :=
  match (l.mapIdx fun i x => fpMul (c i) x).filter fun x => !(fpIsFinite x && fpMag x == 0) with
  | [] => 0
  | [x] => x
  | [x, y] => fpAdd x y
  | l => addInOrder fpAdd 0 (Config.sumOrder32 l) (l.length - 1) l

/-- A CIC output passes normalisation, calibration and the FIR (R132, R133). -/
def AnSt.input (a : AnSt) (n r md : Nat) (cal : Word × Word) (cic : BitVec 64) : AnSt :=
  let x := fpAdd (fpMul (fpOfRatio (toSigned 64 cic.toNat) (7 * (r * md) ^ n)) cal.1) cal.2
  let inp := (x :: a.inp).take 32
  { a with inp := inp, fir := (fpDot a.tap inp :: a.fir).take 64, have_ := a.have_ + 1 }

/-- The resampler's value at a place (R137) once the input 8 past it has come, and whether its span lies within the inputs since enabling (R142).
The phase is the nearest 1/64, a tie upwards. -/
def AnSt.value (a : AnSt) (n md place : Nat) : Option (Word × Bool) :=
  let u := (place + 2 ^ 17) / 2 ^ 18
  let j := u / 64 + 8
  if j < a.have_ then some (fpDot (a.poly (u % 64)) ((a.fir.drop (a.have_ - 1 - j)).take 16), decide (46 + n * md ≤ j)) else none

/-- One modulator sample (R130). -/
def AnSt.modulator (a : AnSt) (n r md : Nat) (cal : Word × Word) (x : Int) : AnSt :=
  let integ := cicIntegrate (BitVec.ofInt 64 x) (a.integ.take n) ++ a.integ.drop n
  if a.count + 1 < r then { a with integ := integ, count := a.count + 1 }
  else
    let c := cicComb md (integ.getD (n - 1) 0) (a.comb.take n)
    ({ a with integ := integ, count := 0, comb := c.1 ++ a.comb.drop n }).input n r md cal c.2

/-- The modulator's samples pass the chain; the resampler takes its value as soon as its inputs are there. -/
def AnSt.feed (a : AnSt) (n r md : Nat) (cal : Word × Word) (place : Nat) (mods : List Int) : AnSt × Option (Word × Bool) :=
  mods.foldl (fun (x : AnSt × Option (Word × Bool)) i =>
    let b := x.1.modulator n r md cal i
    (b, match x.2 with | some y => some y | none => b.value n md place)) (a, a.value n md place)

/-! ### Admissibility (R131, R135, R140, R145) -/

/-- ceil(log2 n). -/
def clog2 (n : Nat) : Nat := if n ≤ 1 then 0 else Nat.log2 (n - 1) + 1

/-- N, R and M lie in their ranges. -/
def Mach.cicCodes (m : Mach) (k : Nat) : Bool := decide (3 ≤ m.cicN k) && decide (m.cicN k ≤ 5) && decide (4 ≤ m.cicR k)

/-- The CIC's result fits 64 bits (R131). -/
def Mach.cicBound (m : Mach) (k : Nat) : Bool := decide (4 + m.cicN k * clog2 (m.cicR k * m.cicM k) ≤ 64)

/-- The resampler ratio lies in 1.0 to 255.0 (R135). -/
def Mach.ratioOk (m : Mach) (k : Nat) : Bool :=
  let n := 6144 * m.g (.FIL_ANk_OUT_out_div k)
  decide (10 * m.cicR k ≤ n) && decide (n < 2550 * m.cicR k)

/-- The DC blocker's corner is admissible (R140). -/
def Mach.dcbOk (m : Mach) (k : Nat) : Bool :=
  !m.b (.FIL_ANk_DCB_en k) || (decide (1 ≤ m.g (.FIL_ANk_DCB_fc k)) && decide (m.g (.FIL_ANk_DCB_fc k) ≤ 1000)
    && decide (m.g (.FIL_ANk_DCB_fc k) * m.g (.FIL_ANk_OUT_out_div k) ≤ 200000))

/-- The thresholds are admissible (R145). -/
def Mach.thrOk (m : Mach) (k : Nat) : Bool :=
  let hi := m.rd (Reg.FIL_ANk_THR_HI k)
  let lo := m.rd (Reg.FIL_ANk_THR_LO k)
  let h := m.rd (Reg.FIL_ANk_HYST k)
  fpLe 0 h && (fpIsInf hi || fpIsInf lo || fpLt (fpAdd lo h) (fpSub hi h))

/-- The nominal ratio in Q8.24 (R135, R136), to the nearest. -/
def Mach.ratioNominal (m : Mach) (k : Nat) : Nat :=
  roundNe (6144 * m.g (.FIL_ANk_OUT_out_div k) * 2 ^ 24) (10 * m.cicR k)

/-- The place, among the FIR's outputs of a chain started at t0 and in 2^-24 of one, of the value that the pin has at t (R129, R133): the
modulator's samples from t0 on, N (R M − 1) / 2 of them in the CIC, and 15.5 inputs in the FIR. -/
def firPlace (n r md t0 t : Nat) : Nat :=
  (3072 * (t - t0) + 125000 * (2 + n * (r * md - 1))) * 2 ^ 24 / (250000 * r) + 29 * 2 ^ 23

/-- A chain starts (R134, R137, R141, R144): nothing in its filters, the first grid instant ahead, zone MID. -/
def Mach.anStart (m : Mach) (e : Env) (k : Nat) : Mach :=
  let p := m.anPeriodNs k
  let first := if p = 0 then 0 else (e.ns / p + 1) * p
  ((m.setAn k fun a => { AnSt.reset with coef := a.coef, stream := a.stream, nextGrid := some first,
                                         pos := firPlace (m.cicN k) (m.cicR k) (m.cicM k) e.ns first }).s
    (.FIL_ANk_EVT_zone k) 1).wr (Reg.FIL_ANk_RATIO k) (BitVec.ofNat 32 (m.ratioNominal k))

/-- A chain stops: no ratio, no valid sample. -/
def Mach.anStop (m : Mach) (k : Nat) : Mach :=
  (((m.setAn k fun a => { a with nextGrid := none }).wr (Reg.FIL_ANk_RATIO k) 0).sb (.FIL_ANk_STS_valid k) false).setBit
    Reg.FIL_STS k false

/-- A host write of FIL_ANk_CFG (R128, R131, R135, R140): judged with the values of the same write; on refusal en stays 0. -/
def Mach.anCfgWrite (m : Mach) (e : Env) (k : Nat) (v : Word) : Mach :=
  let was := m.b (.FIL_ANk_CFG_en k)
  let m1 := m.hostPut e.locked (!was && !e.locked) (Reg.FIL_ANk_CFG k) v
  if was then if m1.b (.FIL_ANk_CFG_en k) then m1 else m1.anStop k
  else if !m1.b (.FIL_ANk_CFG_en k) then m1
  else if m1.cicCodes k && m1.cicBound k && m1.ratioOk k && m1.dcbOk k then m1.anStart e k
  else ((m1.sb (.FIL_ANk_CFG_en k) false).sb (.FIL_ANk_STS_cfg_err k) true).setBit Reg.FIL_IRQ_STS 25 true

def execFilAnEnable (k : Nat) (value : Word) (s : State) : Host.Outcome State Fault Refusal :=
  s.onInst (decide (k < 16)) fun e m => m.anCfgWrite e k value

/-! ### Output samples (R134 to R147) -/

/-- Open, prot and ovr (R142): a change is posted. -/
def Mach.anFaults (m : Mach) (e : Env) (k : Nat) (op prot ovr : Bool) : Mach :=
  let was (f : Fld) : Bool := m.b f
  let o := was (.FIL_ANk_STS_open k)
  let p := was (.FIL_ANk_STS_prot k)
  let v := was (.FIL_ANk_STS_ovr k)
  if o = op && p = prot && v = ovr then m
  else
    let set := (op && !o) || (prot && !p) || (ovr && !v)
    ((((m.sb (.FIL_ANk_STS_open k) op).sb (.FIL_ANk_STS_prot k) prot).sb (.FIL_ANk_STS_ovr k) ovr).setBit
      Reg.FIL_IRQ_STS 24 true).event e 0x3002 (some (if set then 3 else 2))
      (le 1 k ++ le 1 (if op then 1 else 0) ++ le 1 (if prot then 1 else 0) ++ le 1 (if ovr then 1 else 0))

/-- The sum of the first n terms of exp(−x) in 2^-80, x in the same unit. -/
def expNegTerms (x : Nat) : Nat → Nat → Int → Int
  | 0, _, _ => 0
  | n + 1, i, term => term + expNegTerms x n (i + 1) (-(term * x / (2 ^ 80 * i)))

/-- The DC blocker's factor a = exp(−2π × fc × P) for a corner in 0.01 Hz and an output divider (R140): one of the two FP32 values next to it;
no rule says which (log 8). -/
def dcbFactor (fc div : Nat) : Word :=
  let x := fc * div * 3797952473636338580787993 / 1000000
  let v := (expNegTerms x 40 1 (2 ^ 80)).toNat / 2 ^ 56
  fpOfRatio (v + if Config.dcbUp fc div then 1 else 0 : Nat) (2 ^ 24)

/-- The DC blocker on a sample (R140, R141). -/
def Mach.anDcb (m : Mach) (k : Nat) (x : Word) (valid : Bool) : Word × Mach :=
  if !m.b (.FIL_ANk_DCB_en k) then (x, m)
  else
    let a := m.an k
    let zero := m.b (.FIL_ANk_DCB_nx650_init k)
    let e0 := if !a.dcInit then a.dcE else if zero then 0 else if valid then x else a.dcE
    let move := valid && (!a.dcInit || zero) && !m.b (.FIL_ANk_DCB_freeze k)
    let f := dcbFactor (m.g (.FIL_ANk_DCB_fc k)) (m.g (.FIL_ANk_OUT_out_div k))
    let e1 := if move then fpAdd e0 (fpMul (fpSub (fpOfInt 1) f) (fpSub x e0)) else e0
    (fpSub x e1, m.setAn k fun a => { a with dcE := e1, dcInit := a.dcInit && !valid })

/-- The zone a sample asks for (R144), if another. -/
def Mach.anZone (m : Mach) (k : Nat) (y : Word) : Option Nat :=
  let hi := m.rd (Reg.FIL_ANk_THR_HI k)
  let lo := m.rd (Reg.FIL_ANk_THR_LO k)
  let h := m.rd (Reg.FIL_ANk_HYST k)
  match m.g (.FIL_ANk_EVT_zone k) with
  | 2 => if fpLt y (fpSub hi h) then some 1 else none
  | 0 => if fpLt (fpAdd lo h) y then some 1 else none
  | _ =>
    if m.b (.FIL_ANk_EVT_en_hi k) && fpLe hi y then some 2
    else if m.b (.FIL_ANk_EVT_en_lo k) && fpLe y lo then some 0 else none

/-- Threshold runs (R144 to R146). -/
def Mach.anThreshold (m : Mach) (e : Env) (k t : Nat) (y : Word) (valid : Bool) : Mach :=
  let a := m.an k
  match (if valid then m.anZone k y else none) with
  | none => m.setAn k fun a => { a with runTo := none, run := 0 }
  | some z =>
    let cont := a.runTo == some z
    let run := if cont then a.run + 1 else 1
    let at_ := if cont then a.runAt else t
    if run < max 1 (m.g (.FIL_ANk_EVT_persist k)) then
      m.setAn k fun a => { a with runTo := some z, run := run, runAt := at_ }
    else
      let old := m.g (.FIL_ANk_EVT_zone k)
      (((m.setAn k fun a => { a with runTo := none, run := 0 }).s (.FIL_ANk_EVT_zone k) z).setBit Reg.FIL_IRQ_STS k
        true).note e 0x3001 (le 1 k ++ le 1 old ++ le 1 z ++ (Stamp.ofNs at_).bytes ++ le 4 y.toNat)

/-- The quantities an ANA slot takes from its channels, by kind. -/
def anQuantities (kind : Nat) (relative : Bool) : Nat × Nat :=
  match kind with
  | 0 => if relative then (6, 7) else (1, 2)
  | 1 => (10, 20)
  | 2 => (11, 12)
  | _ => (17, 18)

/-- The output sample reaches the Lichen slots bound to the channel (R147, R207); a sample that is not valid is missing. -/
def Mach.anToLichen (m : Mach) (k t : Nat) (valid : Bool) : Mach :=
  iter 24 (fun s m =>
    if !(m.lchBound s 4 && m.g (.LCH_Ss_SRC_index s) == k) then m
    else
      let k2 := m.g (.LCH_Ss_SRC_index2 s)
      if !valid || (k2 != 0xFF && !m.b (.FIL_ANk_STS_valid k2)) then m.lchMissing s
      else
        let q := anQuantities (m.lchKind s) (m.b (.LCH_Ss_CFG_relative s))
        let v (j : Nat) : F64 := fdOfF32 (m.rd (Reg.FIL_ANk_VAL j))
        m.lchOwn s t ⟨0, fdOne, none, (q.1, v k) :: (if k2 = 0xFF then [] else [(q.2, v k2)])⟩) m

/-- The place of the value for a chain's next sample: the fraction of the alignment delay lies before it (R139). -/
def Mach.anPlace (m : Mach) (k : Nat) : Nat :=
  (m.an k).pos - m.g (.FIL_ANk_OUT_dly_frac k) * (m.rd (Reg.FIL_ANk_RATIO k)).toNat / 64

/-- A chain has formed the value for its next instant: it enters the delay line, and the instant after is a ratio further on (R134, R136). -/
def AnSt.emit (a : AnSt) (p ratio t : Nat) (v : Word × Bool) : AnSt :=
  let b := { a with line := (v :: a.line).take 256, nextGrid := some (t + p), pos := a.pos + ratio, lastAt := t }
  b.settle p ratio b.moves

/-- The chain takes the modulator's samples since the row before, and whether the protection acts; once the resampler has its inputs it gives the
sample for its next grid instant (R134, R137 to R147). -/
def Mach.anOutput (m : Mach) (e : Env) (k : Nat) (mods : List Int) (overcurrent : Bool) : Mach :=
  let n := m.cicN k
  let f := (m.an k).feed n (m.cicR k) (m.cicM k) (Config.anCal k (m.g (.FIL_ANk_CFG_mode k))) (m.anPlace k) mods
  let m0 := m.setAn k fun _ => f.1
  match (m.an k).nextGrid, f.2 with
  | some t, some v =>
    let m1 := m0.setAn k fun a => a.emit (m.anPeriodNs k) (m.rd (Reg.FIL_ANk_RATIO k)).toNat t v
    let a := m1.an k
    let (x, filled) := a.line.getD (m1.g (.FIL_ANk_OUT_dly_int k)) (0, false)
    let current := m1.b (.FIL_ANk_CFG_mode k)
    let op := current && fpLt x (fpOfRatio 36 10)
    let prot := current && (overcurrent || m1.b (.FIL_ANk_STS_prot k))
    let ovr := if current then fpLt (fpOfInt 21) x else fpLt (fpOfRatio 105 10) (fpAbs x)
    let valid := filled && !op && !prot && !m1.b (.FIL_ANk_STS_unlock k) && !m1.clkFailed 9
    let mp := if prot && !m1.b (.FIL_ANk_STS_prot k) then m1.setAn k fun a => { a with protAt := e.powered } else m1
    let (y, m2) := (mp.anFaults e k op prot ovr).anDcb k x valid
    let m3 := ((m2.wr (Reg.FIL_ANk_VAL k) y).sb (.FIL_ANk_STS_valid k) valid).setBit Reg.FIL_STS k valid
    let m4 := (m3.anThreshold e k t y valid).anToLichen k t valid
    match a.stream with
    | none => m4
    | some (q, every) =>
      if a.streamCount + 1 < every then m4.setAn k fun a => { a with streamCount := a.streamCount + 1 }
      else (m4.setAn k fun a => { a with streamCount := 0 }).stream e q 1 k
        ((if valid then 1 else 0) + (if ovr then 2 else 0)) ((Stamp.ofNs t).bytes ++ le 2 0 ++ le 4 y.toNat)
  | none, _ => m
  | some _, none => m0

def execAnOutputSample (k : Nat) (mods : List Int) (overcurrent : Bool) (s : State) : Host.Outcome State Fault Refusal :=
  s.onInst (decide (k < 16)) fun e m => m.anOutput e k mods overcurrent

/-- The ratio the servo wants (R136): within ±200 ppm of nominal it is taken; beyond, the chain unlocks. -/
def execRatioServoUpdate (k ratio : Nat) (s : State) : Host.Outcome State Fault Refusal :=
  s.onInst (decide (k < 16)) fun _ m =>
    if !m.b (.FIL_ANk_CFG_en k) then m
    else
      let nom := m.ratioNominal k
      let d := nom / 5000
      let r := min (max ratio (nom - d)) (nom + d)
      (m.wr (Reg.FIL_ANk_RATIO k) (BitVec.ofNat 32 r)).sb (.FIL_ANk_STS_unlock k) (r != ratio)

/-- The shunt, open for 1 s, closes again; above 30 mA it opens at once, for another second (R142). -/
def execAnShuntRetry (k : Nat) (overcurrent : Bool) (s : State) : Host.Outcome State Fault Refusal :=
  s.onInst (decide (k < 16)) fun e m =>
    if !m.b (.FIL_ANk_STS_prot k) || e.powered < (m.an k).protAt + 250000000 then m
    else if overcurrent then m.setAn k fun a => { a with protAt := e.powered }
    else m.anFaults e k (m.b (.FIL_ANk_STS_open k)) false (m.b (.FIL_ANk_STS_ovr k))

/-! ### Analogue commands (R158, R159) -/

/-- The registers FIL_AN_CFG carries, with the bits that may differ while the channel is enabled. -/
def anCfgRegs (k : Nat) : List (Nat × Nat) :=
  [(Reg.FIL_ANk_CFG k, 0), (Reg.FIL_ANk_OUT k, 0), (Reg.FIL_ANk_DCB k, 2), (Reg.FIL_ANk_THR_HI k, 0xFFFFFFFF),
   (Reg.FIL_ANk_THR_LO k, 0xFFFFFFFF), (Reg.FIL_ANk_HYST k, 0xFFFFFFFF), (Reg.FIL_ANk_EVT k, 0xFFFFFFFF)]

/-- A change of a threshold register ends the current run (R145). -/
def Mach.anRunEnd (m : Mach) (k : Nat) : Mach := m.setAn k fun a => { a with runTo := none, run := 0 }

/-- dcb_frozen shows freeze in force. -/
def Mach.anFrozen (m : Mach) (k : Nat) : Mach := m.sb (.FIL_ANk_STS_dcb_frozen k) (m.b (.FIL_ANk_DCB_freeze k))

/-- An enable that FIL_AN_CFG refuses under R135 or R140 sets cfg_err. -/
def Mach.anRefuse (m : Mach) (k : Nat) (enable : Bool) : Mach :=
  if enable && !m.b (.FIL_ANk_CFG_en k) then (m.sb (.FIL_ANk_STS_cfg_err k) true).setBit Reg.FIL_IRQ_STS 25 true else m

def execFilAnCfg (c : Cmd) (s : State) : Host.Outcome State Fault Refusal :=
  s.act fun e m => runCmd 0x30 c e.isSealed false (fun e m =>
    let k := c.u8 0
    if 16 ≤ k then m.fail stRange
    else
      let m1 := m.putImages c 4 ((anCfgRegs k).map Prod.fst)
      if m.b (.FIL_ANk_CFG_en k) && !m.imagesFit c 4 (anCfgRegs k) then m.fail stState
      else if !m1.cicCodes k then m.fail stRange
      else if !m1.cicBound k then m.fail 0x40
      else if !m1.ratioOk k then (m.anRefuse k (m1.b (.FIL_ANk_CFG_en k))).fail 0x41
      else if !m1.dcbOk k then (m.anRefuse k (m1.b (.FIL_ANk_CFG_en k))).fail stRange
      else if !m1.thrOk k then m.fail stRange
      else
        let m2 := (m1.anRunEnd k).anFrozen k
        .ok (if !m.b (.FIL_ANk_CFG_en k) && m1.b (.FIL_ANk_CFG_en k) then m2.anStart e k else m2)) e m

def execFilCoefLoad (c : Cmd) (s : State) : Host.Outcome State Fault Refusal :=
  s.act fun e m => runCmd 0x31 c e.isSealed false (fun _ m =>
    let k := c.u8 0
    let restore := c.u8 1 % 2 == 1
    if 16 ≤ k || (!restore && (c.u32 8 != 4224 || c.data.length != 4224)) then m.fail stRange
    else if m.b (.FIL_ANk_CFG_en k) then m.fail stState
    else if restore then .ok ((m.setAn k fun a => { a with coef := none }).wr (Reg.FIL_ANk_COEF_CRC k) 0)
    else if crc32c c.data != c.u32 4 then m.fail stCrc
    else .ok ((m.setAn k fun a => { a with coef := some c.data }).wr (Reg.FIL_ANk_COEF_CRC k)
      (BitVec.ofNat 32 (c.u32 4)))) e m

def execFilAnStream (c : Cmd) (s : State) : Host.Outcome State Fault Refusal :=
  s.act fun e m => runCmd 0x32 c false false (fun _ m =>
    let k := c.u8 0
    let q := c.u8 1
    if 16 ≤ k || !queueOk q || c.u16 2 = 0 then m.fail stRange
    else if q != 0xFF && !m.b (qEn .stq q) then m.fail stState
    else .ok (m.setAn k fun a =>
      { a with stream := if q = 0xFF then none else some (q, c.u16 2), streamCount := 0 })) e m

def execFilDcbCtrl (c : Cmd) (s : State) : Host.Outcome State Fault Refusal :=
  s.act fun e m => runCmd 0x33 c false false (fun _ m =>
    let k := c.u8 0
    let op := c.u8 1
    if 16 ≤ k || 3 ≤ op then m.fail stRange
    else if !m.b (.FIL_ANk_DCB_en k) then m.fail stState
    else if op = 2 then .ok (m.setAn k fun a => { a with dcInit := true })
    else .ok ((m.s (.FIL_ANk_DCB_freeze k) op).anFrozen k)) e m

/-! ### Serial ports (R148 to R157) -/

/-- A port's counter moves (R157, R161). -/
def Mach.spTally (m : Mach) (p : Nat) (f : Fld) : Mach := (m.up f).setBit Reg.FIL_IRQ_STS (16 + p) true

/-- An error counter of a port moves (R157). -/
def Mach.spCount (m : Mach) (p : Nat) (f : Fld) : Mach := (m.spTally p f).setSp p fun x => { x with errMoved := true }

/-- The port is not connected (R695, R697). -/
def Mach.spUnconnected (m : Mach) (p : Nat) : Bool :=
  (decide (4 ≤ p) && decide (p < 8) && !m.bit Reg.GEN_PINMUX (p - 4)) || (p == 3 && m.b .GEN_PINMUX_dbg)

/-- The bytes the FIFO holds, 16 more for each frame (R154). -/
def fifoLevel (l : List Frame) : Nat := (l.map fun f => f.bytes.length + 16).sum

def Mach.setFifo (m : Mach) (p : Nat) (l : List Frame) : Mach :=
  (m.setSp p fun x => { x with fifo := l }).s (.FIL_SPp_STS_level p) (fifoLevel l)

/-- FIL_SP_SILENT (R155). -/
def Mach.spSilent (m : Mach) (e : Env) (p : Nat) (v : Bool) : Mach :=
  ((m.sb (.FIL_SPp_STS_silent p) v).setBit Reg.FIL_IRQ_STS (16 + p) true).event e 0x3003 (some (if v then 3 else 2))
    (le 1 p ++ le 1 (if v then 1 else 0))

/-- The TIME cycles of so many bits on a port (R148). -/
def Mach.spBits (m : Mach) (p n : Nat) : Nat := n * 250000000 / m.g (.FIL_SPp_BAUD_baud p)

/-- The bits of a character: start, data, parity, stop (R148). -/
def Mach.spChar (m : Mach) (p : Nat) : Nat :=
  (if m.b (.FIL_SPp_CFG_bits7 p) then 8 else 9) + (if m.g (.FIL_SPp_CFG_parity p) = 0 then 0 else 1) + (if m.b (.FIL_SPp_CFG_stop p) then 2 else 1)

/-- A frame reaches the Lichen slots bound to the port; one with BADCS does not match any decoder (R207, R208). -/
def Mach.spToLichen (m : Mach) (p : Nat) (f : Frame) : Mach :=
  if f.badcs then iter 24 (fun s m => if m.lchBound s 1 && m.g (.LCH_Ss_SRC_index s) == p then m.lchMissing s else m) m
  else m.lchFrame 1 p none f.at_.toNs f.binary f.bytes

/-- A complete frame enters the FIFO whole or is dropped (R154). Lichen takes its copy at once; a frame leaves once the
stream queue, where one is bound, has taken its copy too. -/
def Mach.spDeliver (m : Mach) (e : Env) (p : Nat) (f : Frame) : Mach :=
  let l := (m.sp p).fifo
  if 16384 < fifoLevel (l ++ [f]) then m.spCount p (.FIL_SPp_CNT1_ovf p)
  else
    let m1 := (m.spTally p (.FIL_SPp_CNT0_frames p)).setSp p fun x => { x with frameAt := e.powered }
    let m2 := if m1.b (.FIL_SPp_STS_silent p) then m1.spSilent e p false else m1
    let m3 := m2.spToLichen p f
    match (m3.sp p).stream with
    | some (_, bad) => if f.badcs && !bad then m3 else m3.setFifo p (l ++ [f])
    | none => m3

/-- The stream queue takes its copies of a port's frames (R154, R559). -/
def Mach.spDrain (m : Mach) (e : Env) (p : Nat) : Mach :=
  match (m.sp p).stream with
  | none => if (m.sp p).fifo.isEmpty then m else m.setFifo p []
  | some (q, _) =>
    ((m.sp p).fifo.foldl (fun m f => m.stream e q 2 p
      ((if f.nocs then 1 else 0) + (if f.badcs then 2 else 0) + (if f.binary then 4 else 0))
      (f.at_.bytes ++ le 2 f.bytes.length ++ le 4 0 ++ f.bytes)) m).setFifo p []

/-- A sentence or packet is abandoned with a count. -/
def Mach.spAbandon (m : Mach) (p : Nat) (f : Fld) : Mach :=
  (m.setSp p fun x => { x with open_ := false, buf := [] }).spCount p f

/-- The exclusive-or of bytes. -/
def xorBytes (l : List Byte) : Byte := l.foldl (· ^^^ ·) 0

/-- The outcome of a sentence's checksum (R151), of its characters without CR LF: good, wrong, or absent. -/
def sentenceSum (l : List Byte) : Option Bool :=
  let body := l.drop 1
  let text := body.takeWhile (· != 0x2A)
  match body.drop text.length with
  | [] => none
  | _ :: t =>
    match (t.getD 0 0 |> hexDigit?), (t.getD 1 0 |> hexDigit?) with
    | some a, some b => some (xorBytes text == BitVec.ofNat 8 (16 * a + b))
    | _, _ => some false

/-- CR LF ends a sentence (R151). -/
def Mach.spSentence (m : Mach) (e : Env) (p : Nat) (buf : List (Byte × Stamp)) : Mach :=
  let bytes := buf.map Prod.fst
  let at_ := match buf with | x :: _ => x.2 | [] => ⟨0, 0⟩
  let m1 := m.setSp p fun x => { x with open_ := false, buf := [] }
  let bad := (m1.spCount p (.FIL_SPp_CNT0_cs_err p))
  let badOut := if m.b (.FIL_SPp_CFG_bad_deliver p) then bad.spDeliver e p ⟨at_, bytes, false, false, true⟩ else bad
  match sentenceSum bytes with
  | some true => m1.spDeliver e p ⟨at_, bytes, false, false, false⟩
  | some false => badOut
  | none => if m.b (.FIL_SPp_CFG_cs_req p) then badOut else m1.spDeliver e p ⟨at_, bytes, false, true, false⟩

/-- A character in NMEA framing (R150). `err` is 0 for none, 1 for a framing or parity error, 2 for a break. -/
def Mach.spNmea (m : Mach) (e : Env) (p : Nat) (b : Byte) (err : Nat) (at_ : Stamp) : Mach :=
  let x := m.sp p
  let trunc : Fld := .FIL_SPp_CNT1_trunc p
  let start (m : Mach) : Mach := m.setSp p fun x => { x with open_ := true, buf := [(b, at_)] }
  if err != 0 then if x.open_ then m.spAbandon p (.FIL_SPp_CNT1_uart_err p) else m
  else if b = 0x24 || b = 0x21 then start (if x.open_ then m.spAbandon p trunc else m)
  else if !x.open_ then m
  else
    let cr := match x.buf.getLast? with | some (c, _) => c == 0x0D | none => false
    if 82 ≤ x.buf.length then m.spAbandon p trunc
    else if cr then if b = 0x0A then m.spSentence e p x.buf.dropLast else m.spAbandon p trunc
    else if b = 0x0D then m.setSp p fun x => { x with buf := x.buf ++ [(b, at_)] }
    else if b.toNat < 0x20 || 0x7E < b.toNat then m.spAbandon p trunc
    else m.setSp p fun x => { x with buf := x.buf ++ [(b, at_)] }

/-- The sync bytes of a port (R152). -/
def Mach.spSync (m : Mach) (p : Nat) : List Byte := (le 4 (m.g (.FIL_SPp_SYNC_sync p))).take (m.g (.FIL_SPp_BIN_sync_len p) + 1)

/-- CRC bytes of a port's packets. -/
def Mach.spCrcLen (m : Mach) (p : Nat) : Nat := match m.g (.FIL_SPp_BIN_crc p) with | 1 => 2 | 2 => 4 | _ => 0

/-- The total length of a packet (R152): none while the length field has not arrived. -/
def Mach.spTotal (m : Mach) (p : Nat) (l : List Byte) : Option Int :=
  let w := m.g (.FIL_SPp_BIN_len_w p)
  let off := m.g (.FIL_SPp_BIN_len_off p)
  let adj := m.gi (.FIL_SPp_BIN_len_adj p)
  let n := match w with | 0 => 0 | 1 => 1 | _ => 2
  if w = 0 then some adj
  else if l.length < off + n then none
  else
    let f := (l.drop off).take n
    some ((unle (if w = 3 then f.reverse else f) : Int) + adj)

/-- A packet's CRC is right (R152). -/
def Mach.spCrcOk (m : Mach) (p : Nat) (l : List Byte) : Bool :=
  let n := m.spCrcLen p
  if n = 0 then true
  else
    let from_ := if m.b (.FIL_SPp_BIN_crc_from p) then (m.spSync p).length else 0
    let body := (l.take (l.length - n)).drop from_
    let tail := l.drop (l.length - n)
    let got := unle (if m.b (.FIL_SPp_BIN_crc_be p) then tail.reverse else tail)
    if n = 2 then
      got == crcBits 16 (m.g (.FIL_SPp_CRC_poly p)) (m.g (.FIL_SPp_CRC_init p)) (body.flatMap fun b => bitsMsb 8 b.toNat)
    else got == crc32c body

/-- The search for packets over the bytes held (R152, R153). -/
def Mach.spScan (e : Env) (p : Nat) : Nat → Mach → Mach
  | 0, m => m
  | n + 1, m =>
    let buf := (m.sp p).buf
    let bytes := buf.map Prod.fst
    let sync := m.spSync p
    let drop (m : Mach) (k : Nat) : Mach := m.setSp p fun x => { x with buf := x.buf.drop k }
    match buf with
    | [] => m
    | (_, at_) :: _ =>
      if bytes.take sync.length != sync.take bytes.length then Mach.spScan e p n (drop m 1)
      else if bytes.length < sync.length then m
      else match m.spTotal p bytes with
        | none => m
        | some t =>
          let w := match m.g (.FIL_SPp_BIN_len_w p) with | 0 => 0 | 1 => 1 | _ => 2
          if t < ((m.g (.FIL_SPp_BIN_len_off p) + w + m.spCrcLen p : Nat) : Int) || 1024 < t || t ≤ 0 then
            Mach.spScan e p n (drop (m.spCount p (.FIL_SPp_CNT1_len_err p)) 1)
          else if bytes.length < t.toNat then m
          else
            let pkt := bytes.take t.toNat
            if m.spCrcOk p pkt then Mach.spScan e p n ((drop m t.toNat).spDeliver e p ⟨at_, pkt, true, false, false⟩)
            else Mach.spScan e p n (drop (m.spCount p (.FIL_SPp_CNT0_cs_err p)) 1)

/-- A UART error (R153): the packet it falls in is abandoned and the search restarts at its second byte; a packet found there that still lacks
bytes has the error in it too. -/
def Mach.spBroken (e : Env) (p : Nat) : Nat → Mach → Mach
  | 0, m => m
  | n + 1, m =>
    if (m.sp p).buf.isEmpty then m
    else
      let m1 := (m.spCount p (.FIL_SPp_CNT1_uart_err p)).setSp p fun x => { x with buf := x.buf.drop 1 }
      Mach.spBroken e p n (Mach.spScan e p ((m1.sp p).buf.length + 1) m1)

/-- A character in BINARY framing (R152, R153). -/
def Mach.spBinary (m : Mach) (e : Env) (p : Nat) (b : Byte) (err : Nat) (at_ : Stamp) : Mach :=
  if err != 0 then Mach.spBroken e p (m.sp p).buf.length m
  else
    let m1 := m.setSp p fun x => { x with buf := x.buf ++ [(b, at_)] }
    Mach.spScan e p (2 * (m1.sp p).buf.length) m1

/-- A frame in progress whose gap since its newest character exceeds gap_max bit times is abandoned (R150, R153). -/
def Mach.spGap (m : Mach) (p upto : Nat) : Mach :=
  let gap := m.g (.FIL_SPp_GAP_gap_max p)
  if gap = 0 || (m.sp p).buf.isEmpty || upto ≤ (m.sp p).charAt + m.spBits p gap then m else m.spAbandon p (.FIL_SPp_CNT1_trunc p)

/-- A character has ended on a port (R148 to R153): it carries the timebase at the falling edge of its start bit. -/
def execSerialCharacter (p : Nat) (b : Byte) (err : Nat) (s : State) : Host.Outcome State Fault Refusal :=
  s.onInst (decide (p < 8)) fun e m =>
    if !m.b (.FIL_SPp_CFG_en p) || m.spUnconnected p then m
    else
      let long := m.spBits p (m.spChar p)
      let at_ := e.time.before long
      let m1 := (if err = 2 then m.sb (.FIL_SPp_STS_brk p) true else m).spGap p (e.powered - long)
      let m2 := m1.setSp p fun x => { x with charAt := e.powered }
      if m.g (.FIL_SPp_CFG_frame p) = 1 then m2.spBinary e p b err at_ else m2.spNmea e p b err at_

def execSerialGapTimeout (p : Nat) (s : State) : Host.Outcome State Fault Refusal :=
  s.onInst (decide (p < 8)) fun e m => m.spGap p e.powered

/-- No frame has been delivered for silent ms (R155), counted from the enabling of the port at the earliest. -/
def execSerialSilentTimeout (p : Nat) (s : State) : Host.Outcome State Fault Refusal :=
  s.onInst (decide (p < 8)) fun e m =>
    let ms := m.g (.FIL_SPp_GAP_silent p)
    if m.b (.FIL_SPp_CFG_en p) && ms != 0 && !m.b (.FIL_SPp_STS_silent p) && decide ((m.sp p).frameAt + 250000 * ms ≤ e.powered)
    then m.spSilent e p true else m

/-- FIL_SP_ERR, when a counter has moved since the last, and no more than once per second (R157). -/
def execFilSpErr (p : Nat) (s : State) : Host.Outcome State Fault Refusal :=
  s.onInst (decide (p < 8)) fun e m =>
    let due := match (m.sp p).errAt with | some t => decide (t + 250000000 ≤ e.powered) | none => true
    if (m.sp p).errMoved && due then
      (m.setSp p fun x => { x with errMoved := false, errAt := some e.powered }).event e 0x3004 (some 2)
        (le 1 p ++ le 4 (m.rd (Reg.FIL_SPp_CNT0 p)).toNat ++ le 4 (m.rd (Reg.FIL_SPp_CNT1 p)).toNat)
    else m

/-- The last stop bit of a FIL_SER_SEND has been sent (R156). -/
def Mach.spSent (m : Mach) (e : Env) (p : Nat) : Mach :=
  match (m.sp p).sending with
  | some (c, t) =>
    ((m.setSp p fun x => { x with sending := none }).sb (.FIL_SPp_STS_tx_busy p) false).complete e 0x36 c stOk t.bytes []
  | none => m

def execSerialSendDone (p : Nat) (s : State) : Host.Outcome State Fault Refusal :=
  s.onInst (decide (p < 8)) fun e m => if e.powered < (m.sp p).txEnd then m else m.spSent e p

/-- The registers FIL_SER_CFG carries. -/
def spCfgRegs (p : Nat) : List Nat :=
  [Reg.FIL_SPp_CFG p, Reg.FIL_SPp_BAUD p, Reg.FIL_SPp_SYNC p, Reg.FIL_SPp_BIN p, Reg.FIL_SPp_CRC p, Reg.FIL_SPp_GAP p]

/-- The ranges of a port's fields (R163). -/
def Mach.spOk (m : Mach) (p : Nat) : Bool :=
  m.g (.FIL_SPp_CFG_parity p) != 3 && decide (m.g (.FIL_SPp_CFG_frame p) ≤ 1) && m.g (.FIL_SPp_BIN_crc p) != 3
    && decide (1200 ≤ m.g (.FIL_SPp_BAUD_baud p)) && decide (m.g (.FIL_SPp_BAUD_baud p) ≤ 921600)

/-- What follows a change of a port's en: its frame in progress is gone, and its silence counts from now. -/
def Mach.spEnChange (m : Mach) (e : Env) (p : Nat) : Mach := m.setSp p fun x => { x with open_ := false, buf := [], frameAt := e.powered }

/-- A host write of a port's register (R128, R163, R695). -/
def Mach.spWrite (m : Mach) (e : Env) (p off : Nat) (v : Word) : Mach :=
  let was := m.b (.FIL_SPp_CFG_en p)
  let refuse := off = Reg.FIL_SPp_CFG p && m.spUnconnected p && v.toNat % 2 = 1 && !was
  let m1 := m.hostPutBar e.locked (!was && !e.locked) (if refuse then 1 else 0) off v
  -- a refused code leaves the register as it was
  let m2 := if m1.spOk p then m1 else m1.wr off (m.rd off)
  if m2.b (.FIL_SPp_CFG_en p) = was then m2 else m2.spEnChange e p

def execFilSerCfg (c : Cmd) (s : State) : Host.Outcome State Fault Refusal :=
  s.act fun e m => runCmd 0x34 c e.isSealed false (fun e m =>
    let p := c.u8 0
    if 8 ≤ p then m.fail stRange
    else if m.spUnconnected p then m.fail stState
    else
      let m1 := m.putImages c 4 (spCfgRegs p)
      let fit := mayClearEn (c.u8 4 % 2) ((spCfgRegs p).map fun o => (o, 0))
      if !m1.spOk p then m.fail stRange
      else if m.b (.FIL_SPp_CFG_en p) && !m.imagesFit c 4 fit then m.fail stState
      else .ok (if m.b (.FIL_SPp_CFG_en p) = m1.b (.FIL_SPp_CFG_en p) then m1 else m1.spEnChange e p)) e m

def execFilSerStream (c : Cmd) (s : State) : Host.Outcome State Fault Refusal :=
  s.act fun e m => runCmd 0x35 c false false (fun e m =>
    let p := c.u8 0
    let q := c.u8 1
    if 8 ≤ p || !queueOk q then m.fail stRange
    else if m.spUnconnected p || (q != 0xFF && !m.b (qEn .stq q)) then m.fail stState
    else
      let m1 := m.spDrain e p
      .ok (m1.setSp p fun x => { x with stream := if q = 0xFF then none else some (q, c.u8 2 % 2 == 1) })) e m

def execFilSerSend (c : Cmd) (s : State) : Host.Outcome State Fault Refusal :=
  s.act fun e m => runCmd 0x36 c false false (fun e m =>
    let p := c.u8 0
    let n := c.u16 2
    if 8 ≤ p || n = 0 || 1024 < n then m.fail stRange
    else if c.data.length < n then m.fail stLen
    else if m.spUnconnected p || !m.b (.FIL_SPp_CFG_en p) then m.fail stState
    else if (m.sp p).sending.isSome then m.fail stBusy
    else .wait (((m.setSp p fun x => { x with sending := some (c, e.now), txEnd := e.powered + m.spBits p (n * m.spChar p) }).sb (.FIL_SPp_STS_tx_busy p) true).emit
      "SP_TX" p n (c.data.take n))) e m

def execFilStatusGet (c : Cmd) (s : State) : Host.Outcome State Fault Refusal :=
  s.act fun e m => runCmd 0x37 c false true (fun _ m =>
    let data := m.regBytes ((List.range 16).map Reg.FIL_ANk_STS)
      ++ (List.range 8).flatMap fun p => m.words (Reg.FIL_SPp_CNT0 p) 3
    let m1 := if c.u8 0 % 2 = 1 then
        iter 8 (fun p m => (m.wr (Reg.FIL_SPp_CNT0 p) 0).wr (Reg.FIL_SPp_CNT1 p) 0) m else m
    .done m1 stOk [] data) e m

/-- A host write of a FIL register without a row of its own (R128, R145, R163). -/
def Mach.filWrite (m : Mach) (e : Env) (off : Nat) (v : Word) : Mach :=
  if 0x00080100 ≤ off && off < 0x00080500 then
    let k := (off - 0x00080100) / 0x40
    let quiet := !m.b (.FIL_ANk_CFG_en k) && !e.locked
    let r := (off - 0x00080100) % 0x40
    if r = 0 then m.anCfgWrite e k v
    else
      let m1 := (m.hostPut e.locked quiet off v).anFrozen k
      if 0x0C ≤ r && r ≤ 0x18 then m1.anRunEnd k else m1
  else if 0x00080800 ≤ off && off < 0x00080A00 then m.spWrite e ((off - 0x00080800) / 0x40) off v
  else m.hostPut e.locked true off v

end Sys2Proof.Machine
end

