-- ==== Sys2Proof/Machine/Can.lean ====
section
/-!
DEFINITION. The CAN FD controllers (chapter 11): modes, transmission, reception, errors, the loopback test, and the CAN
commands.
Log: 74 (PRESUMED), 75 (DEDUCED), 104 (DESIGN CHOICE).
-/
namespace Sys2Proof.Machine

/-- The instant in ns nearest to now that a short stamp names (R64). -/
def Env.expand (e : Env) (short : Nat) : Nat := ((e.ns / 8 : Int) + shortDiff short e.now.short).toNat * 8

/-- Controller c. -/
def Mach.canc (m : Mach) (c : Nat) : CanCtl := nth CanCtl.reset m.can c

def Mach.setCan (m : Mach) (c : Nat) (f : CanCtl → CanCtl) : Mach := { m with can := upd m.can c f }

/-- Object o of controller c. -/
def Mach.canObj (m : Mach) (c o : Nat) : CanObj := nth CanObj.reset (m.canc c).obj o

def Mach.setObj (m : Mach) (c o : Nat) (f : CanObj → CanObj) : Mach :=
  m.setCan c fun x => { x with obj := upd x.obj o f }

/-- Bit i of a controller in CAN_IRQ_STS is raised (R428). -/
def Mach.canIrq (m : Mach) (c i : Nat) : Mach := m.setBit Reg.CAN_IRQ_STS (8 * c + i) true

/-- Object o of controller c belongs to the safety island's channel (R424). -/
def Mach.canSafe (m : Mach) (c o : Nat) : Bool :=
  decide (2 ≤ c) && decide (112 ≤ o) && m.b (.CAN_c_CTRL_saf_res c)

/-- The controller counts as bus-off (R282, R356, R408): it is not in NORMAL, or its state is bus-off. -/
def Mach.canDown (m : Mach) (c : Nat) : Bool := (m.canc c).mode != 1 || m.g (.CAN_c_STS_state c) == 2

/-- The role is STANDBY or SYNCING. -/
def Mach.shadowRole (m : Mach) : Bool := m.g .STK_STS_role == 1 || m.g .STK_STS_role == 2

/-- GATE enables the module's outputs (R28). -/
def Mach.gate (m : Mach) : Bool := m.b .STR_STS_gate

/-! ### Lengths and timing (R404, R405) -/

/-- Data bytes of a DLC (R404). -/
def dlcLen (fd : Bool) (dlc : Nat) : Nat :=
  if dlc ≤ 8 then dlc else if !fd then 8 else [12, 16, 20, 24, 32, 48, 64].getD (dlc - 9) 64

/-- The DLC of a length, when the format allows the length. -/
def lenDlc (fd : Bool) (n : Nat) : Option Nat := (List.range (if fd then 16 else 9)).find? fun d => dlcLen fd d == n

/-- The timing rules of R405. -/
def Mach.canTiming (m : Mach) (c : Nat) : Bool :=
  let tq := 1 + (m.g (.CAN_c_NBT_ntseg1 c) + 1) + (m.g (.CAN_c_NBT_ntseg2 c) + 1)
  let bit := (m.g (.CAN_c_NBT_nbrp c) + 1) * tq
  let dq := 1 + (m.g (.CAN_c_DBT_dtseg1 c) + 1) + (m.g (.CAN_c_DBT_dtseg2 c) + 1)
  let dbit := (m.g (.CAN_c_DBT_dbrp c) + 1) * dq
  decide (80 ≤ bit) && decide (bit ≤ 8000) && decide (8 ≤ tq) && decide (tq ≤ 385)
    && decide (m.g (.CAN_c_NBT_nsjw c) ≤ m.g (.CAN_c_NBT_ntseg2 c))
    && (!m.b (.CAN_c_CTRL_fd_en c)
      || (decide (10 ≤ dbit) && decide (dbit ≤ bit) && decide (5 ≤ dq) && decide (dq ≤ 49)
        && decide (m.g (.CAN_c_DBT_dsjw c) ≤ m.g (.CAN_c_DBT_dtseg2 c))
        && (decide (40 ≤ dbit) || m.b (.CAN_c_TDC_tdc_en c))))

/-! ### Error state (R421, R422) -/

/-- CAN_c_ERR shows the counters; REC above 127 shows as rp. -/
def Mach.canErr (m : Mach) (c tec rec_ : Nat) : Mach :=
  (((m.setCan c fun x => { x with tec := tec, rec_ := rec_ }).s (.CAN_c_ERR_tec c) (min tec 255)).s
    (.CAN_c_ERR_rec c) (min rec_ 127)).sb (.CAN_c_ERR_rp c) (decide (128 ≤ rec_))

/-- A change of the error state posts CAN_STATE (R421, R427). -/
def Mach.canState (m : Mach) (e : Env) (c st : Nat) : Mach :=
  let old := m.g (.CAN_c_STS_state c)
  if old = st then m
  else ((m.s (.CAN_c_STS_state c) st).canIrq c 0).event e 0x7001
    (match st with | 0 => some 2 | 1 => some 3 | 2 => some 4 | _ => none)
    (le 1 c ++ le 1 old ++ le 1 st ++ le 1 (m.g (.CAN_c_ERR_tec c)) ++ le 1 (m.g (.CAN_c_ERR_rec c))
      ++ le 1 (m.g (.CAN_c_STS_lec c)))

/-- The state that the counters give (R421). -/
def errState (tec rec_ : Nat) : Nat := if 256 ≤ tec then 2 else if 128 ≤ tec || 128 ≤ rec_ then 1 else 0

/-- The counters in force, with what bus-off starts (R422). -/
def Mach.canCount (m : Mach) (e : Env) (c tec rec_ : Nat) : Mach :=
  let was := m.g (.CAN_c_STS_state c)
  let st := errState tec rec_
  let m1 := (m.canErr c tec rec_).canState e c st
  if was != 2 && st = 2 then
    let auto := m1.b (.CAN_c_CTRL_auto_rec c)
    ((((m1.up (.CAN_c_CNT1_busoff c)).sb (.CAN_c_STS_rec_wait c) (!auto)).sb (.CAN_c_STS_recovering c) auto).s
      (.CAN_c_STS_rec_seq c) 0).setCan c fun x => { x with recAt := e.powered }
  else m1

/-! ### Requests (R410 to R415) -/

/-- The open CAN_TX of an object completes (R425): TX_DONE, CANCEL_LATE, retries and the start-of-frame stamp. -/
def Mach.canTxEnd (m : Mach) (e : Env) (c o st : Nat) (late : Bool) (sof : Nat) : Mach :=
  match (m.canObj c o).tx with
  | none => m
  | some cmd =>
    (m.setObj c o fun x => { x with tx := none }).complete e 0x73 cmd st
      (if st = 0 then le 1 0 ++ le 1 (if late then 1 else 0) ++ le 1 (m.canObj c o).retries ++ le 1 0 ++ le 4 sof else []) []

/-- An object's request ends without its frame: withdrawn with a status for its CAN_TX. -/
def Mach.canWithdraw (m : Mach) (e : Env) (c o st : Nat) : Mach :=
  ((m.sb (.CAN_c_OBJo_CFG_pending c o) false).canTxEnd e c o st false 0).setObj c o fun x =>
    { x with target := none, due := none, retries := 0 }

/-- Bytes written into a payload at an offset. -/
def putBytes (off : Nat) (b l : List Byte) : List Byte := (l.take off ++ b ++ l.drop (off + b.length)).take 64

/-- A string or the law updates an object's payload (R411). DESIGN CHOICE (log 104): this queueing sets no target instant, so an object
without one is pending at once. -/
def Mach.canPut (m : Mach) (c o off : Nat) (b : List Byte) : Mach :=
  if !m.b (.CAN_c_OBJo_CFG_en c o) || !m.b (.CAN_c_OBJo_CFG_dir c o) then m
  else
    let m1 := (m.setObj c o fun x =>
      { x with payload := putBytes off b x.payload, dlc := m.g (.CAN_c_OBJo_CFG_dlc c o) }).sb (.CAN_c_OBJo_CFG_pending c o) true
    match (m1.canc c).flight with
    | some f => if f.obj = o then m1.setCan c fun x => { x with flight := some { f with again := true } } else m1
    | none => m1

/-- What a controller may start now (R402, R412): its role, and GATE for gated objects. -/
def Mach.canMayStart (m : Mach) (c o : Nat) : Bool :=
  m.b (.CAN_c_OBJo_CFG_pending c o)
    && (m.canSafe c o
      || (!m.shadowRole
        && (m.gate || !(m.b (.CAN_c_OBJo_CFG_gated c o) || m.canByString c o || m.canByLaw c o))))

/-- Bus order of an object's identifier: a base frame goes before an extended one with the same first bits (R404). -/
def Mach.canKey (m : Mach) (c o : Nat) : Nat := m.g (.CAN_c_OBJo_ID_id c o) * 2 + m.g (.CAN_c_OBJo_ID_ide c o)

/-- The object whose frame starts (R410). -/
def Mach.canNext (m : Mach) (c : Nat) : Option Nat :=
  (List.range 128).foldl (fun best o =>
    if !m.canMayStart c o then best
    else match best with
      | none => some o
      | some b => if m.canKey c o < m.canKey c b then some o else best) none

/-- A frame record (R420). -/
def canRecord (sof id dlc flags filter c : Nat) (p : List Byte) : List Byte :=
  le 4 sof ++ le 4 id ++ le 1 dlc ++ le 1 flags ++ le 1 filter ++ le 1 c ++ le 4 0 ++ p ++ List.replicate (64 - p.length) 0

/-- The record of an object's frame as it starts. -/
def Mach.canFrame (m : Mach) (c o sof : Nat) : List Byte :=
  let fd := m.b (.CAN_c_OBJo_CFG_fdf c o)
  let x := m.canObj c o
  let esi := if m.g (.CAN_c_STS_state c) = 1 then 4 else 0
  canRecord sof (m.g (.CAN_c_OBJo_ID_id c o) + m.g (.CAN_c_OBJo_ID_ide c o) * 2 ^ 29 + m.g (.CAN_c_OBJo_CFG_rtr c o) * 2 ^ 30)
    x.dlc ((if fd then 1 + 2 * m.g (.CAN_c_OBJo_CFG_brs c o) + esi else 0)) 0xFF c
    (if m.b (.CAN_c_OBJo_CFG_rtr c o) then [] else x.payload.take (dlcLen fd x.dlc))

/-- Whether the controller takes part on its bus. -/
def Mach.canOnBus (m : Mach) (c : Nat) : Bool :=
  (m.canc c).joined && !m.b (.CAN_c_STS_testing c) && m.g (.CAN_c_STS_state c) != 2 && !m.clkFailed 8

/-- CAN_TX_START: the edge at CANc_RX, which the stamp marks, lags the start by the loop delay of the transceiver, in counts of 8 ns
(R410, R419). -/
def execCanTxStart (c lag : Nat) (s : State) : Host.Outcome State Fault Refusal :=
  s.onInst (decide (c < 4)) fun e m =>
    let sof := (e.now.short + lag) % 2 ^ 32
    let x := m.canc c
    if !m.canOnBus c || x.flight.isSome || !(x.mode == 1 || x.mode == 3) then m
    else match m.canNext c with
      | none => m
      | some o =>
        let f := m.canFrame c o sof
        let m1 := m.setCan c fun x => { x with flight := some ⟨o, f, false, false⟩ }
        if x.mode = 1 then m1.emit "CAN" c o f else m1

/-! ### Errors and the loopback test (R421 to R423) -/

/-- The loopback test starts: the controller leaves the bus and pending requests wait (R423). -/
def Mach.canTest (m : Mach) (c : Nat) : Mach :=
  (m.sb (.CAN_c_STS_testing c) true).setCan c fun x => { x with joined := false, flight := none, errs := [] }

/-- A bus error of a type (R421, R423): type counters, TEC or REC as ISO 11898-1 lays down (a transmitter counts 8, but for an
ACK error while error-passive; a receiver 1, or 8 when the bit after its error flag was dominant), and the burst window. -/
def Mach.canError (m : Mach) (e : Env) (c typ : Nat) (data tx dominant : Bool) : Mach :=
  let x := m.canc c
  let st := m.g (.CAN_c_STS_state c)
  let cnt : Fld := match typ with
    | 1 => .CAN_c_CNT0_stuff c | 2 => .CAN_c_CNT0_form c | 3 => .CAN_c_CNT1_ack c | 6 => .CAN_c_CNT0_crc c
    | _ => .CAN_c_CNT0_bit c
  let m1 := ((m.up cnt).s (.CAN_c_STS_lec c) typ).sb (.CAN_c_STS_lec_data c) data
  let m2 := if x.mode = 1 then
      if tx then m1.canCount e c (x.tec + (if typ = 3 && st = 1 && !dominant then 0 else 8)) x.rec_
      else m1.canCount e c x.tec (min (x.rec_ + if dominant then 8 else 1) 255)
    else if x.mode = 2 then m1.setCan c fun x => { x with joined := false } else m1
  let errs := e.upNs :: (x.errs.filter fun t => decide (e.upNs < t + 100000000))
  let n := m2.g (.CAN_c_CTRL_burst_n c)
  if n != 0 && decide (n < errs.length) && !m2.b (.CAN_c_STS_testing c) then
    (((m2.faultNote e 6 c 0).canIrq c 7).event e 0x7004 (some 3) (le 1 c ++ le 1 (min errs.length 255) ++ le 1 typ)).canTest c
  else m2.setCan c fun x => { x with errs := errs }

def execCanBusError (c typ : Nat) (dataPhase tx dominant : Bool) (s : State) : Host.Outcome State Fault Refusal :=
  s.onInst (decide (c < 4) && decide (1 ≤ typ) && decide (typ ≤ 6)) fun e m =>
    if m.canOnBus c && (m.canc c).mode != 3 then m.canError e c typ dataPhase tx dominant else m

/-- A verdict posts CAN_LOOP_TEST (R423, R427). -/
def Mach.canVerdict (m : Mach) (e : Env) (c : Nat) (lasting : Bool) : Mach :=
  ((m.faultVerdict 6 c lasting).canIrq c 7).event e 0x7005 (some (if lasting then 4 else 2)) (le 1 c ++ le 1 (if lasting then 1 else 0))

/-- Entering OFF ends every pending request and clears the counters (R408). -/
def Mach.canOff (m : Mach) (e : Env) (c : Nat) : Mach :=
  let m1 := iter 128 (fun o m =>
    if m.b (.CAN_c_OBJo_CFG_pending c o) || (m.canObj c o).tx.isSome then (m.canWithdraw e c o 0x41).canIrq c 6 else m) m
  let m2 := (m1.canErr c 0 0).setCan c fun x => { x with mode := 0, joined := false, flight := none, errs := [] }
  (((m2.sb (.CAN_c_STS_rec_wait c) false).sb (.CAN_c_STS_recovering c) false).s (.CAN_c_STS_rec_seq c) 0).canState e c 3

/-- The loopback test ends (R423): a pass is TRANSIENT and the controller rejoins through bus integration; three failures
within 10 s are LASTING, isolate it and turn it OFF; an earlier failure of a burst's test runs it again. -/
def Mach.canTestEnd (m : Mach) (e : Env) (c : Nat) (pass : Bool) : Mach :=
  let x := m.canc c
  let m1 := match x.testCmd with
    | some cmd => (m.setCan c fun x => { x with testCmd := none }).complete e 0x71 cmd stOk (le 1 (if pass then 0 else 1)) []
    | none => m
  if pass then
    let m2 := ((m1.sb (.CAN_c_STS_testing c) false).sb (.CAN_c_STS_isolated c) false).setCan c fun x => { x with fails := [], joined := x.mode == 3 }
    (if x.mode = 3 then m2.canState e c (errState x.tec x.rec_) else m2).canVerdict e c false
  else
    let fails := e.upNs :: (x.fails.filter fun t => decide (e.upNs ≤ t + 10000000000))
    let m2 := m1.setCan c fun x => { x with fails := fails }
    if 3 ≤ fails.length || m2.b (.CAN_c_STS_isolated c) then
      let m3 := ((m2.sb (.CAN_c_STS_testing c) false).sb (.CAN_c_STS_isolated c) true).setCan c fun x => { x with fails := [], barred := true }
      (m3.canOff e c).canVerdict e c true
    else if x.testCmd.isSome then m2.sb (.CAN_c_STS_testing c) false
    else m2

def execCanLoopTestEnd (c : Nat) (pass : Bool) (s : State) : Host.Outcome State Fault Refusal :=
  s.onInst (decide (c < 4)) fun e m => if m.b (.CAN_c_STS_testing c) then m.canTestEnd e c pass else m

/-- CAN cycles of a nominal bit (R405). -/
def Mach.canBit (m : Mach) (c : Nat) : Nat :=
  (m.g (.CAN_c_NBT_nbrp c) + 1) * (1 + (m.g (.CAN_c_NBT_ntseg1 c) + 1) + (m.g (.CAN_c_NBT_ntseg2 c) + 1))

/-- CAN_BUSOFF_RECOVERY: 128 times 11 bits of 12.5 ns CAN cycles have passed since the counting began. -/
def execCanBusoffRecovery (c : Nat) (s : State) : Host.Outcome State Fault Refusal :=
  s.onInst (decide (c < 4)) fun e m =>
    if m.g (.CAN_c_STS_state c) = 2 && m.b (.CAN_c_STS_recovering c) && decide ((m.canc c).recAt + 4400 * m.canBit c ≤ e.powered) then
      (((m.sb (.CAN_c_STS_recovering c) false).s (.CAN_c_STS_rec_seq c) 128).canErr c 0 0).canState e c 0
    else m

/-! ### Transmission ends (R406, R410 to R415) -/

/-- The frame in flight ends without reaching its end on the bus: it is retried, or withdrawn (R414, R415). -/
def Mach.canRetry (m : Mach) (e : Env) (c : Nat) (f : CanFlight) : Mach :=
  let o := f.obj
  let m1 := m.setCan c fun x => { x with flight := none }
  if f.again then m1.setObj c o fun x => { x with retries := 0 }
  else if f.cancel then (m1.canWithdraw e c o 0x41).canIrq c 6
  else if m1.b (.CAN_c_OBJo_CFG_single_shot c o) then m1.canWithdraw e c o 0x42
  else (m1.up (.CAN_c_OBJo_CNT_retries c o)).setObj c o fun x => { x with retries := min (x.retries + 1) 255 }

/-- The frame in flight was sent (R410, R419, R425). -/
def Mach.canSent (m : Mach) (e : Env) (c : Nat) (f : CanFlight) : Mach :=
  let o := f.obj
  let sof := unle (f.frame.take 4)
  let x := m.canc c
  let m1 := if x.mode = 1 then m.canCount e c (x.tec - 1) x.rec_ else m
  let m2 := (((m1.setCan c fun x => { x with flight := none }).sb (.CAN_c_OBJo_CFG_pending c o) f.again).s
    (.CAN_c_OBJo_STMP_stmp c o) sof).upWrap (.CAN_c_OBJo_CNT_frames c o)
  let m3 := if m2.b (.CAN_c_OBJo_CFG_irq c o) then m2.canIrq c 4 else m2
  (m3.canTxEnd e c o stOk f.cancel sof).setObj c o fun x => { x with retries := 0, due := none }

/-! ### Reception (R416 to R418) -/

/-- The level of a FIFO shows in its register and holds its watermark source (R428). -/
def Mach.fifoSync (m : Mach) (c q : Nat) : Mach :=
  let n := ((m.canc c).fifo.getD q []).length
  let wm := m.g (.CAN_c_FIFOq_STS_wm c q)
  (m.s (.CAN_c_FIFOq_STS_level c q) n).setBit Reg.CAN_IRQ_STS (8 * c + 1 + q) (wm != 0 && decide (wm ≤ n))

def Mach.setFifoC (m : Mach) (c q : Nat) (l : List (List Byte)) : Mach :=
  (m.setCan c fun x => { x with fifo := upd x.fifo q fun _ => l }).fifoSync c q

/-- A frame meets a FIFO (R418). -/
def Mach.toFifo (m : Mach) (e : Env) (c q : Nat) (r : List Byte) : Mach :=
  let x := m.canc c
  let l := x.fifo.getD q []
  if l.length < 64 then m.setFifoC c q (l ++ [r])
  else
    let m1 := if m.b (.CAN_c_FIFOq_STS_ovw c q) then m.setFifoC c q (l.drop 1 ++ [r]) else m
    let lost := x.ovfLost.getD q 0 + 1
    let m2 := (m1.up (.CAN_c_FIFOq_STS_ovf c q)).canIrq c 3
    let due := match x.ovfAt.getD q none with | some t => decide (t + 1000000000 ≤ e.upNs) | none => true
    if due then
      (m2.setCan c fun x => { x with ovfLost := upd x.ovfLost q fun _ => 0, ovfAt := upd x.ovfAt q fun _ => some e.upNs }).event
        e 0x7002 (some 3) (le 1 c ++ le 1 q ++ le 1 (min lost 255))
    else m2.setCan c fun x => { x with ovfLost := upd x.ovfLost q fun _ => lost }

/-- A filter matches a frame's identifier word (R416). -/
def Mach.fltMatch (m : Mach) (c id f : Nat) : Bool :=
  m.g (.CAN_c_FLTf_ACT_act c f) != 0
    && ((id % 2 ^ 29) ^^^ m.g (.CAN_c_FLTf_ID_id c f)) &&& m.g (.CAN_c_FLTf_MASK_mask c f) == 0
    && (!m.b (.CAN_c_FLTf_MASK_ide_chk c f) || (id / 2 ^ 29 % 2 == m.g (.CAN_c_FLTf_ID_ide c f)))

/-- A frame for an RX object (R416, R417, R419); strings and Lichen read it regardless of new. -/
def Mach.toObj (m : Mach) (e : Env) (c o sof : Nat) (r p : List Byte) : Mach :=
  if !m.b (.CAN_c_OBJo_CFG_en c o) || m.b (.CAN_c_OBJo_CFG_dir c o) then m.up (.CAN_c_CNT1_misroute c)
  else
    let m1 := if m.b (.CAN_c_OBJo_CFG_new c o) then m.up (.CAN_c_OBJo_CNT_late_ovw c o) else m
    let at_ := e.expand sof
    let m2 := (((m1.sb (.CAN_c_OBJo_CFG_new c o) true).upWrap (.CAN_c_OBJo_CNT_frames c o)).s (.CAN_c_OBJo_STMP_stmp c o) sof).setObj
      c o fun x => { x with frame := r, payload := putBytes 0 p (List.replicate 64 0), at_ := some at_ }
    (if m2.b (.CAN_c_OBJo_CFG_irq c o) then m2.canIrq c 5 else m2).lchFrame 6 c (some o) at_ true p

/-- A frame received without error is routed (R416, R421). `id` holds the identifier in [28:0], IDE in bit 29 and remote frame
in bit 30; `flags` FDF, BRS and ESI. -/
def Mach.canReceive (m : Mach) (e : Env) (c sof id dlc flags : Nat) (payload : List Byte) : Mach :=
  let fd := flags % 2 == 1
  let p := if id / 2 ^ 30 % 2 == 1 then [] else payload.take (dlcLen fd dlc)
  match (List.range 64).find? (m.fltMatch c id) with
  | some f =>
    let r := canRecord sof (id % 2 ^ 31) dlc (flags % 8) f c p
    match m.g (.CAN_c_FLTf_ACT_act c f) with
    | 1 => m.toFifo e c 0 r
    | 2 => m.toFifo e c 1 r
    | _ => m.toObj e c (m.g (.CAN_c_FLTf_ACT_object c f)) sof r p
  | none =>
    let r := canRecord sof (id % 2 ^ 31) dlc (flags % 8 + 8) 0xFF c p
    match m.g (.CAN_c_CTRL_nomatch c) with
    | 1 => m.toFifo e c 0 r
    | 2 => m.toFifo e c 1 r
    | _ => m

/-- CAN_FRAME_RECEIVE: a frame that ends now, and whose start-of-frame edge lies `ago` counts of 8 ns back (R419). -/
def execCanFrameReceive (c ago id dlc flags : Nat) (payload : List Byte) (s : State) : Host.Outcome State Fault Refusal :=
  s.onInst (decide (c < 4)) fun e m =>
    let sof := (((e.now.short : Int) - ago) % 2 ^ 32).toNat
    let x := m.canc c
    if !m.canOnBus c || !(x.mode == 1 || x.mode == 2) then m
    else if flags % 2 = 1 && !m.b (.CAN_c_CTRL_fd_en c) then m.canError e c 2 false false false
    else
      let (r, m1) := if 128 ≤ x.rec_ then let (w, m') := m.free; (119 + w.toNat % 9, m') else (x.rec_ - 1, m)
      (if x.mode = 1 then m1.canCount e c x.tec r else m).canReceive e c sof id dlc flags payload

/-- The frame in flight ends (R406, R410, R414, R415): 0 sent, 1 arbitration lost, 2 stopped by an error; `tdcv` is the loop
delay measured in an FD frame with BRS. -/
def Mach.canFlightEnd (m : Mach) (e : Env) (c result tdcv : Nat) (f : CanFlight) : Mach :=
  let o := f.obj
  let brs := m.b (.CAN_c_TDC_tdc_en c) && m.b (.CAN_c_OBJo_CFG_fdf c o) && m.b (.CAN_c_OBJo_CFG_brs c o)
  let m1 := if brs && result != 1 then m.s (.CAN_c_TDC_tdcv c) tdcv else m
  if brs && result != 1 && decide (127 < tdcv + m.g (.CAN_c_TDC_tdco c)) then
    let (w, m2) := m1.free
    let m3 := ((m2.sb (.CAN_c_STS_tdc_fail c) true).canIrq c 7).event e 0x7006 (some 3) (le 1 c ++ le 1 tdcv)
    (m3.canRetry e c f).canError e c (4 + w.toNat % 2) true true false
  else match result with
    | 0 =>
      let m2 := m1.canSent e c f
      if (m.canc c).mode = 3 then
        let w (i n : Nat) := unle ((f.frame.drop i).take n)
        m2.canReceive e c (w 0 4) (w 4 4) (w 8 1) (w 9 1) (f.frame.drop 16)
      else m2
    | 1 => (m1.up (.CAN_c_CNT1_arb_lost c)).canRetry e c f
    | _ => m1.canRetry e c f

/-- CAN_TX_END (R410, R414, R421): 0 sent, 1 arbitration lost, otherwise an error. -/
def execCanTxEnd (c result tdcv : Nat) (s : State) : Host.Outcome State Fault Refusal :=
  s.onInst (decide (c < 4)) fun e m =>
    match (m.canc c).flight with
    | some f => m.canFlightEnd e c result tdcv f
    | none => m

/-! ### Modes (R405, R407, R408) -/

/-- A host write of CTRL, or a mode set by command, has been stored; leaving OFF is checked (R405). -/
def Mach.canLeaveOff (m : Mach) (c was : Nat) : Bool := was != 0 || m.g (.CAN_c_CTRL_mode c) == 0 || m.canTiming c

/-- The controller is quiescent for its RWQ fields (R407): OFF, with nothing else in force. -/
def Mach.canQuiet (m : Mach) (c : Nat) : Bool := m.g (.CAN_c_CTRL_mode c) == 0 && (m.canc c).mode == 0

/-- The host has set OFF: the next change of mode may rerun the test of an isolated controller (R423). -/
def Mach.canUnbar (m : Mach) (c : Nat) : Mach :=
  if m.g (.CAN_c_CTRL_mode c) = 0 then m.setCan c fun x => { x with barred := false } else m

def execCanModeWrite (c : Nat) (value : Word) (s : State) : Host.Outcome State Fault Refusal :=
  s.onInst (decide (c < 4)) fun e m =>
    let was := m.g (.CAN_c_CTRL_mode c)
    let m1 := m.hostPut e.locked (m.canQuiet c && !e.locked) (Reg.CAN_c_CTRL c) value
    let m2 := if m1.g (.CAN_c_CTRL_nomatch c) = 3 then m1.s (.CAN_c_CTRL_nomatch c) (m.g (.CAN_c_CTRL_nomatch c)) else m1
    let m3 := if c < 2 then m2.sb (.CAN_c_CTRL_saf_res c) false else m2
    if m3.canLeaveOff c was then m3.canUnbar c else ((m3.s (.CAN_c_CTRL_mode c) 0).sb (.CAN_c_STS_cfg_err c) true).canUnbar c

def execCanModeApply (c : Nat) (s : State) : Host.Outcome State Fault Refusal :=
  s.onInst (decide (c < 4)) fun e m =>
    let x := m.canc c
    let want := m.g (.CAN_c_CTRL_mode c)
    if x.flight.isSome || x.mode = want || m.b (.CAN_c_STS_testing c) then m
    else if want = 0 then m.canOff e c
    else if m.b (.CAN_c_STS_isolated c) then
      if x.mode = 0 && !x.barred then (m.setCan c fun x => { x with mode := want }).canTest c else m
    else
      let m1 := m.setCan c fun x => { x with mode := want }
      if want = 3 then (m1.setCan c fun x => { x with joined := true }).canState e c (errState x.tec x.rec_)
      else if x.mode = 0 || x.mode = 3 then (m1.setCan c fun x => { x with joined := false }).canState e c 3
      else m1

def execCanBusIntegration (c : Nat) (s : State) : Host.Outcome State Fault Refusal :=
  s.onInst (decide (c < 4)) fun e m =>
    let x := m.canc c
    if x.joined || x.mode = 0 || x.mode = 3 || m.b (.CAN_c_STS_testing c) || m.b (.CAN_c_STS_isolated c)
        || m.clkFailed 8 then m
    else (m.setCan c fun x => { x with joined := true }).canState e c (errState x.tec x.rec_)

/-! ### Time-triggered objects (R413) -/

def execCanTtTarget (c o : Nat) (s : State) : Host.Outcome State Fault Refusal :=
  s.onInst (decide (c < 4) && decide (o < 128)) fun e m =>
    match (m.canObj c o).target with
    | some t =>
      if 0 < shortDiff t e.now.short then m
      else (m.setObj c o fun x => { x with target := none, due := some t }).sb (.CAN_c_OBJo_CFG_pending c o) true
    | none => m

def execCanTxLate (c o : Nat) (s : State) : Host.Outcome State Fault Refusal :=
  s.onInst (decide (c < 4) && decide (o < 128)) fun e m =>
    let flying := match (m.canc c).flight with | some f => f.obj == o | none => false
    match (m.canObj c o).due with
    | some t =>
      let late := m.g (.CAN_c_OBJo_CFG_tt_late c o)
      if flying || !m.b (.CAN_c_OBJo_CFG_pending c o) || late = 0 || decide (shortDiff e.now.short t < 125 * late) then m
      else (((m.up (.CAN_c_OBJo_CNT_late_ovw c o)).canWithdraw e c o stLate).canIrq c 6).event e 0x7003 (some 3)
        (le 1 c ++ le 1 o ++ le 4 t)
    | none => m

/-! ### Commands (R425, R426) -/

/-- The registers of a CAN_CFG image, in order. -/
def canCfgRegs (c : Nat) : List Nat :=
  [Reg.CAN_c_CTRL c, Reg.CAN_c_NBT c, Reg.CAN_c_DBT c, Reg.CAN_c_TDC c, Reg.CAN_c_FIFOq_STS c 0, Reg.CAN_c_FIFOq_STS c 1]
    ++ (List.range 64).flatMap fun f => [Reg.CAN_c_FLTf_ID c f, Reg.CAN_c_FLTf_MASK c f, Reg.CAN_c_FLTf_ACT c f]

/-- Images of registers put in force from the data buffer, from byte i. -/
def Mach.putData (m : Mach) (c : Cmd) (i : Nat) : List Nat → Mach
  | [] => m
  | off :: l => (m.putImage off (BitVec.ofNat 32 (c.d32 i))).putData c (i + 4) l

def execCanCfg (c : Cmd) (s : State) : Host.Outcome State Fault Refusal :=
  s.act fun e m => runCmd 0x70 c e.isSealed false (fun _ m =>
    let k := c.u8 0
    if 4 ≤ k then m.fail stRange
    else if c.data.length != 792 then m.fail stLen
    else if !m.canQuiet k then m.fail stState
    else
      let m1 := m.putData c 0 (canCfgRegs k)
      if m1.g (.CAN_c_CTRL_nomatch k) = 3 || (decide (k < 2) && m1.b (.CAN_c_CTRL_saf_res k))
          || m1.g (.CAN_c_NBT_ntseg1 k) = 0 || m1.g (.CAN_c_NBT_ntseg2 k) = 0
          || decide (64 < m1.g (.CAN_c_FIFOq_STS_wm k 0)) || decide (64 < m1.g (.CAN_c_FIFOq_STS_wm k 1))
          || !m1.canLeaveOff k 0 then m.fail stRange
      else .ok ((m1.fifoSync k 0).fifoSync k 1)) e m

def execCanCtrlAct (c : Cmd) (s : State) : Host.Outcome State Fault Refusal :=
  s.act fun e m => runCmd 0x71 c (e.isSealed && c.u8 1 == 0) false (fun e m =>
    let k := c.u8 0
    if 4 ≤ k || 3 ≤ c.u8 1 || (c.u8 1 == 0 && decide (4 ≤ c.u8 2)) then m.fail stRange
    else match c.u8 1 with
      | 0 =>
        let m1 := m.s (.CAN_c_CTRL_mode k) (c.u8 2)
        if m1.canLeaveOff k (m.g (.CAN_c_CTRL_mode k)) then .ok (m1.canUnbar k) else m.fail 0x40
      | 1 =>
        if m.g (.CAN_c_STS_state k) != 2 then m.fail stState
        else if m.b (.CAN_c_STS_recovering k) then .ok m
        else .ok (((m.sb (.CAN_c_STS_rec_wait k) false).sb (.CAN_c_STS_recovering k) true).setCan k fun x => { x with recAt := e.powered })
      | _ =>
        if m.b (.CAN_c_STS_testing k) then m.fail stBusy
        else if m.b (.CAN_c_STS_isolated k) then m.fail stState
        else .wait ((m.canTest k).setCan k fun x => { x with testCmd := some c })) e m

/-- The configuration bits of OBJo_CFG: all but owner, new, pending and the reserved ones (R430). -/
def objCfgMask : Word := 0xFFFF1FFF

def execCanObjCfg (c : Cmd) (s : State) : Host.Outcome State Fault Refusal :=
  s.act fun e m => runCmd 0x72 c e.isSealed false (fun _ m =>
    let k := c.u8 0
    let o := c.u8 1
    let cfg : Word := BitVec.ofNat 32 (c.u32 4) &&& objCfgMask
    let id := c.u32 8 % 2 ^ 30
    let bit (i : Nat) : Bool := cfg.toNat.testBit i
    if 4 ≤ k || 128 ≤ o then m.fail stRange
    else if m.canSafe k o then m.fail stLocked
    else if (bit 2 && (bit 4 || !m.b (.CAN_c_CTRL_fd_en k))) || (bit 3 && !bit 2)
        || (id < 2 ^ 29 && id % 2 ^ 18 != 0) then m.fail stRange
    else if m.b (.CAN_c_OBJo_CFG_pending k o) || (m.canObj k o).target.isSome || m.canOwned k o then m.fail stState
    else .ok (((m.wr (Reg.CAN_c_OBJo_CFG k o) cfg).wr (Reg.CAN_c_OBJo_ID k o) (BitVec.ofNat 32 id)).setObj k o fun x =>
      { x with dlc := m.g (.CAN_c_OBJo_CFG_dlc k o), at_ := none, frame := [] })) e m

/-- A command that names an object the host may not touch or the module does not have. -/
def Mach.canNames (m : Mach) (k o : Nat) : Option Nat :=
  if 4 ≤ k || 128 ≤ o then some stRange else if m.canSafe k o then some stLocked else none

def execCanTx (c : Cmd) (s : State) : Host.Outcome State Fault Refusal :=
  s.act fun e m => runCmd 0x73 c false false (fun e m =>
    let k := c.u8 0
    let o := c.u8 1
    match m.canNames k o with
    | some st => m.fail st
    | none =>
      if !m.b (.CAN_c_OBJo_CFG_en k o) || !m.b (.CAN_c_OBJo_CFG_dir k o) || m.canOwned k o || (m.canc k).mode != 1
          || m.shadowRole then m.fail stState
      else if (m.canObj k o).tx.isSome then m.fail stBusy
      else
        let fd := m.b (.CAN_c_OBJo_CFG_fdf k o)
        let dlc? := if c.u8 2 = 0xFF then some (m.g (.CAN_c_OBJo_CFG_dlc k o)) else lenDlc fd (c.u8 2)
        match dlc? with
        | none => m.fail stRange
        | some dlc =>
          let n := dlcLen fd dlc
          if c.data.length < n then m.fail stLen
          else
            let target := c.u32 4
            let wait := m.b (.CAN_c_OBJo_CFG_tt_en k o) && decide (0 < shortDiff target e.now.short)
            let due := if m.b (.CAN_c_OBJo_CFG_tt_en k o) then some target else none
            let m1 := m.setObj k o fun x =>
              { x with payload := putBytes 0 (c.data.take n) x.payload, dlc := dlc, tx := some c, retries := 0,
                       target := if wait then some target else none, due := if wait then none else due }
            .wait (if wait then m1 else m1.sb (.CAN_c_OBJo_CFG_pending k o) true)) e m

def execCanCancel (c : Cmd) (s : State) : Host.Outcome State Fault Refusal :=
  s.act fun e m => runCmd 0x74 c false false (fun e m =>
    let k := c.u8 0
    let o := c.u8 1
    match m.canNames k o with
    | some st => m.fail st
    | none =>
      let flight := (m.canc k).flight
      let flying := match flight with | some f => f.obj == o | none => false
      if flying then
        .done (m.setCan k fun x => { x with flight := x.flight.map fun f => { f with cancel := true, again := false } }) stOk (le 1 1) []
      else if m.b (.CAN_c_OBJo_CFG_pending k o) || (m.canObj k o).target.isSome then
        .done ((m.canWithdraw e k o 0x41).canIrq k 6) stOk (le 1 0) []
      else m.fail stState) e m

def execCanRxRead (c : Cmd) (s : State) : Host.Outcome State Fault Refusal :=
  s.act fun e m => runCmd 0x75 c false true (fun _ m =>
    let k := c.u8 0
    let o := c.u8 1
    let n := c.u8 2
    if 4 ≤ k || 0x82 ≤ o || n = 0 || 64 < n then m.fail stRange
    else if o < 128 then
      if m.canSafe k o then m.fail stLocked
      else if !m.b (.CAN_c_OBJo_CFG_en k o) || m.b (.CAN_c_OBJo_CFG_dir k o) then m.fail stState
      else
        let r := (m.canObj k o).frame
        .done (m.sb (.CAN_c_OBJo_CFG_new k o) false) stOk (le 1 (if r.isEmpty then 0 else 1)) r
    else
      let q := o - 128
      if m.b (.CAN_c_FIFOq_STS_bound k q) then m.fail stState
      else
        let l := (m.canc k).fifo.getD q []
        .done (m.setFifoC k q (l.drop n)) stOk (le 1 (min n l.length)) (l.take n).flatten) e m

def execCanStream (c : Cmd) (s : State) : Host.Outcome State Fault Refusal :=
  s.act fun e m => runCmd 0x76 c false false (fun _ m =>
    let k := c.u8 0
    let f := c.u8 1
    let q := c.u8 2
    if 4 ≤ k || 2 ≤ f || !queueOk q then m.fail stRange
    else if q != 0xFF && !m.b (qEn .stq q) then m.fail stState
    else .ok ((m.setCan k fun x => { x with bound := upd x.bound f fun _ => if q = 0xFF then none else some q }).sb
      (.CAN_c_FIFOq_STS_bound k f) (q != 0xFF))) e m

/-- A bound FIFO is drained into its stream queue (R418, R559). -/
def Mach.canDrain (m : Mach) (e : Env) (c q : Nat) : Mach :=
  match (m.canc c).bound.getD q none with
  | none => m
  | some j => (((m.canc c).fifo.getD q []).foldl (fun m r => m.stream e j 7 c q r) m).setFifoC c q []

def execCanStatusGet (c : Cmd) (s : State) : Host.Outcome State Fault Refusal :=
  s.act fun e m => runCmd 0x77 c false true (fun _ m =>
    let data := (List.range 4).flatMap fun k => m.regBytes [Reg.CAN_c_STS k, Reg.CAN_c_ERR k, Reg.CAN_c_CNT0 k,
      Reg.CAN_c_CNT1 k, Reg.CAN_c_FIFOq_STS k 0, Reg.CAN_c_FIFOq_STS k 1]
    let m1 := if c.u8 0 % 2 = 1 then
        iter 4 (fun k m => (((m.wr (Reg.CAN_c_CNT0 k) 0).wr (Reg.CAN_c_CNT1 k) 0).s (.CAN_c_FIFOq_STS_ovf k 0) 0).s
          (.CAN_c_FIFOq_STS_ovf k 1) 0) m
      else m
    .done m1 stOk [] data) e m

/-! ### Host writes (R407, R430) -/

/-- A host write of any other CAN register: refused codes keep the field they would change. -/
def Mach.canWrite (m : Mach) (e : Env) (off : Nat) (v : Word) : Mach :=
  if off < 0x00091000 then
    -- bits 1 and 2 of each controller hold while their condition lasts (R428)
    iter 4 (fun c m => (m.fifoSync c 0).fifoSync c 1) (m.hostPut e.locked true off v)
  else
    let c := (off - 0x00091000) / 0x1000
    let m1 := m.hostPut e.locked (m.canQuiet c && !e.locked) off v
    let keep (q : Nat) (m' : Mach) : Mach :=
      if 64 < m'.g (.CAN_c_FIFOq_STS_wm c q) then m'.s (.CAN_c_FIFOq_STS_wm c q) (m.g (.CAN_c_FIFOq_STS_wm c q)) else m'
    let seg (f : Fld) (m' : Mach) : Mach := if m'.g f = 0 then m'.s f (m.g f) else m'
    ((seg (.CAN_c_NBT_ntseg1 c) (seg (.CAN_c_NBT_ntseg2 c) (keep 1 (keep 0 m1)))).fifoSync c 0).fifoSync c 1

end Sys2Proof.Machine
end

