-- ==== Sys2Proof/Machine/Gns.lean ====
section
/-!
DEFINITION. The GNSS block (R92 to R126): antennas, tracking channels, interference, solutions, corrections and the GNS
commands. Signals, measurements and the solutions that firmware forms from them arrive as operands.
Log: 36 (DEDUCED), 55 (DEDUCED), 56 (DEDUCED), 105 (DEDUCED), 106 (DEDUCED), 107 (DEDUCED).
-/
namespace Sys2Proof.Machine

/-! ### Antennas (R93, R94) -/

def antEn (a : Nat) : Fld := ⟨Reg.GNS_ANT_CFG, 8 * a, 8 * a⟩
def antBias (a : Nat) : Fld := ⟨Reg.GNS_ANT_CFG, 8 * a + 1, 8 * a + 1⟩
def antState (a : Nat) : Fld := ⟨Reg.GNS_ANT_STS, 8 * a + 1, 8 * a⟩
def antBias5 (a : Nat) : Fld := ⟨Reg.GNS_ANT_CFG, 8 * a + 2, 8 * a + 2⟩

/-- The bias a socket supplies in 0.1 V (R93): none without bias_x or while SHORT, 3.3 V, or 5.0 V with bias_5v_x. -/
def Mach.antVolts (m : Mach) (a : Nat) : Nat :=
  if !m.b (antBias a) || m.g (antState a) == 2 then 0 else if m.b (antBias5 a) then 50 else 33

/-- Each socket's bias switches where it is another one than before. -/
def Mach.biasFollow (m : Mach) (was : Nat → Nat) : Mach :=
  iter 2 (fun a m => if m.antVolts a = was a then m else m.emit "ANT_BIAS" a (m.antVolts a)) m

/-- A channel is released: IDLE, with nothing assigned and no spacing stored (R94, R96, R98). -/
def Mach.chRelease (m : Mach) (c : Nat) : Mach :=
  let m1 := { m with gns := { m.gns with spacing := upd m.gns.spacing c fun _ => none, cn0Low := upd m.gns.cn0Low c fun _ => none } }
  m1.wr (Reg.GNS_CHc_STS c) 0

/-- The last code lock was now (R117). -/
def Mach.lockNow (m : Mach) (e : Env) : Mach := { m with gns := { m.gns with lastLock := e.ns } }

/-- A channel in code lock. -/
def Mach.chLocked (m : Mach) (c : Nat) : Bool := m.g (.GNS_CHc_STS_state c) == 3

/-- Channels that some test picks are released; the last lock ends now if one of them held it. -/
def Mach.chReleaseIf (m : Mach) (e : Env) (f : Mach → Nat → Bool) : Mach :=
  iter 96 (fun c m =>
    if (m.rd (Reg.GNS_CHc_STS c)) != 0 && f m c then
      (if m.chLocked c then m.lockNow e else m).chRelease c else m) m

/-- The antenna serves: enabled and not SHORT (R94). -/
def Mach.antOn (m : Mach) (a : Nat) : Bool := m.b (antEn a) && m.g (antState a) != 2

/-- A change of an antenna's state (R93, R94). -/
def Mach.antSet (m : Mach) (e : Env) (a st : Nat) : Mach :=
  if m.g (antState a) = st then m
  else
    let m1 := (((m.s (antState a) st).setBit Reg.GNS_IRQ_STS (3 + a) true).event e 0x2006 (some 3) (le 1 a ++ le 1 st)).biasFollow m.antVolts
    if m1.antOn a then m1 else m1.chReleaseIf e fun _ c => c / 48 == a

/-- The class of a bias current in µA (R93). -/
def biasClass (ua : Nat) : Nat := if ua < 3000 then 1 else if 80000 < ua then 2 else 0

/-- One antenna's bias is classified; a SHORT keeps its state until its retry. -/
def Mach.antCheck (m : Mach) (e : Env) (a ua : Nat) : Mach :=
  if !m.b (antEn a) || !m.b (antBias a) then m.antSet e a 3
  else if m.g (antState a) = 2 then m
  else m.antSet e a (biasClass ua)

def execAntBiasCheck (ua ub : Nat) (s : State) : Host.Outcome State Fault Refusal :=
  s.act fun e m => (m.antCheck e 0 ua).antCheck e 1 ub

def execAntBiasRetry (a ua : Nat) (s : State) : Host.Outcome State Fault Refusal :=
  s.onInst (decide (a < 2)) fun e m =>
    if m.g (antState a) = 2 && m.b (antEn a) && m.b (antBias a) then m.antSet e a (biasClass ua) else m

/-! ### Channels (R95 to R99, R117) -/

/-- A channel of antenna a tracks the satellite. -/
def Mach.chIs (m : Mach) (c a sys sv : Nat) : Bool :=
  c / 48 == a && m.g (.GNS_CHc_STS_state c) != 0 && m.g (.GNS_CHc_STS_sys c) == sys && m.g (.GNS_CHc_STS_sv c) == sv

/-- The signals of a channel's satellite on its antenna are released together (R98). -/
def Mach.chSatRelease (m : Mach) (e : Env) (c : Nat) : Mach :=
  let sys := m.g (.GNS_CHc_STS_sys c)
  let sv := m.g (.GNS_CHc_STS_sv c)
  if m.g (.GNS_CHc_STS_state c) = 0 then m else m.chReleaseIf e fun m k => m.chIs k (c / 48) sys sv

/-- A channel's prompt C/N0, and the instant since which it lies below cn0_mask (R98). -/
def Mach.chCn0 (m : Mach) (e : Env) (c cn0 : Nat) : Mach :=
  let low := since (decide (cn0 < m.g .GNS_CFG_cn0_mask)) (m.gns.cn0Low.getD c none) e.ns
  { m with gns := { m.gns with cn0Low := upd m.gns.cn0Low c fun _ => low } }.s (.GNS_CHc_STS_cn0 c) cn0

/-- A channel changes state (R97, R99): in TRACK a stored spacing takes effect; one that becomes IDLE is released, with the other signal of
its satellite (R98). -/
def Mach.chState (m : Mach) (e : Env) (c st cn0 : Nat) : Mach :=
  if m.g (.GNS_CHc_STS_state c) = 0 then m
  else if st = 0 then m.chSatRelease e c
  else
    let was := m.chLocked c
    let m1 := ((m.s (.GNS_CHc_STS_state c) st).chCn0 e c cn0).s (.GNS_CHc_STS_lock c) 0
    let m2 := if was || st = 3 then m1.lockNow e else m1
    if st != 3 then m2
    else match m2.gns.spacing.getD c none with
      | some k => ({ m2 with gns := { m2.gns with spacing := upd m2.gns.spacing c fun _ => none } }).s (.GNS_CHc_STS_spacing c) k
      | none => m2

/-- The best way to start that the held data allow (R100). DEDUCED (log 106): time lies within 1 s while TIME_STS.valid is set, and within
10 s while AON time-keeping is valid; the last position lies within 10 km, and an approximate one within its uncertainty. -/
def Mach.bestStart (m : Mach) (e : Env) : Nat :=
  let n := m.gns.nav
  let fresh := match n.eph with | some t => decide (e.time.sec < t + 14400) | none => false
  let within (r : Nat) : Bool := n.pos.isSome || (match m.gns.aid with | some (_, _, _, u) => decide (u ≤ r) | none => false)
  if fresh && within 10000 && m.b .TIME_STS_valid then 1
  else if n.alm && within 100000 && (m.b .TIME_STS_valid || m.time.aonValid) then 2 else 3

/-- The signals come back (R117, R118): no_signal clears, with the seconds since the last lock, and the receiver starts in the best way it can. -/
def Mach.signalBack (m : Mach) (e : Env) (secs : Nat) : Mach :=
  let m1 := { m with gns := { m.gns with start := m.bestStart e } }
  ((m1.sb .GNS_STS_no_signal false).setBit Reg.GNS_IRQ_STS 0 true).event e 0x2005 (some 2) (le 4 secs)

def execChannelStateChange (c st cn0 : Nat) (s : State) : Host.Outcome State Fault Refusal :=
  s.onInst (decide (c < 96) && decide (st < 4)) fun e m =>
    let back := st == 3 && m.b .GNS_STS_no_signal && m.g (.GNS_CHc_STS_state c) != 0
    let m1 := m.chState e c st cn0
    if back then m1.signalBack e ((e.ns - m.gns.lastLock) / 1000000000) else m1

/-- The next code-period boundary of a channel in TRACK (R97). -/
def execSpacingApply (c : Nat) (s : State) : Host.Outcome State Fault Refusal :=
  s.onInst (decide (c < 96)) fun _ m =>
    match m.gns.spacing.getD c none with
    | some k =>
      if m.chLocked c then
        ({ m with gns := { m.gns with spacing := upd m.gns.spacing c fun _ => none } }).s (.GNS_CHc_STS_spacing c) k
      else m
    | none => m

/-- A satellite's channels on an antenna are all below cn0_mask, and have been for 5 s (R98). -/
def Mach.satWeak (m : Mach) (e : Env) (a sys sv : Nat) : Bool :=
  (List.range 96).all fun c => !m.chIs c a sys sv || heldFor (m.gns.cn0Low.getD c none) e.ns 5000000000

/-- A satellite below cn0_mask for 5 s on an antenna: its channels are released (R98). -/
def execChannelCn0Release (a sys sv : Nat) (s : State) : Host.Outcome State Fault Refusal :=
  s.onInst (decide (a < 2)) fun e m =>
    if m.satWeak e a sys sv then m.chReleaseIf e fun m c => m.chIs c a sys sv else m

/-- No code lock on either antenna for 1 s (R117). -/
def execGnsNoSignal (s : State) : Host.Outcome State Fault Refusal :=
  s.act fun e m =>
    if m.b .GNS_STS_no_signal || (List.range 96).any m.chLocked || decide (e.ns < m.gns.lastLock + 1000000000) then m
    else
      ((m.sb .GNS_STS_no_signal true).setBit Reg.GNS_IRQ_STS 0 true).event e 0x2004 (some 3)
        (Stamp.ofNs m.gns.lastLock).bytes

/-! ### Interference (R101, R102) -/

/-- The place of notch n of a band of an antenna. -/
def notchAt (a b n : Nat) : Nat := 8 * a + 4 * b + n
def notchReg (i : Nat) : Nat := 0x000C0100 + 4 * i

/-- A notch engages on an interferer: offset in kHz, depth in dB up to 40, and the interferer's power. -/
def Mach.notchSet (m : Mach) (i : Nat) (offset : Int) (power depth : Nat) : Mach :=
  { m with gns := { m.gns with notch := upd m.gns.notch i fun _ => power } }.wr (notchReg i)
    (BitVec.ofNat 32 (2 ^ 31 + min depth 40 * 65536 + ofInt 16 offset))

/-- A notch disengages. -/
def Mach.notchFree (m : Mach) (i : Nat) : Mach := { m with gns := { m.gns with notch := upd m.gns.notch i fun _ => 0 } }.wr (notchReg i) 0

/-- Insertion by power, strongest first. -/
def insertTone (x : Int × Nat × Nat) : List (Int × Nat × Nat) → List (Int × Nat × Nat)
  | [] => [x]
  | y :: l => if y.2.1 < x.2.1 then x :: y :: l else y :: insertTone x l

/-- The interferer nearest to an offset. -/
def nearestTone (off : Int) : List (Int × Nat × Nat) → Option (Int × Nat × Nat)
  | [] => none
  | x :: l => match nearestTone off l with
    | some y => if (y.1 - off).natAbs < (x.1 - off).natAbs then some y else some x
    | none => some x

/-- The offset an engaged notch shows, in kHz. -/
def Mach.notchOff (m : Mach) (i : Nat) : Int := toSigned 16 ((m.rd (notchReg i)).toNat % 65536)

/-- The notches of a list follow the interferers (R101): an engaged one takes the nearest that is left and disengages without one; the free ones
then take what remains. -/
def Mach.notchFollow (m : Mach) (ns : List Nat) (tones : List (Int × Nat × Nat)) : Mach :=
  let used := ns.filter fun i => m.bit (notchReg i) 31
  let r := used.foldl (fun (r : Mach × List (Int × Nat × Nat)) i =>
    match nearestTone (r.1.notchOff i) r.2 with
    | some x => (r.1.notchSet i x.1 x.2.1 x.2.2, r.2.erase x)
    | none => (r.1.notchFree i, r.2)) (m, tones)
  ((ns.filter fun i => !used.contains i).zip r.2).foldl (fun m p => m.notchSet p.1 p.2.1 p.2.2.1 p.2.2.2) r.1

/-- The interferers present in a band: offset in kHz, power in dB above the noise density, and the depth that a notch on it reaches (R101).
Those of 6 dB or more count; the four strongest have the notches. Beyond four, notch_full is set, and told when it comes about. -/
def Mach.notchEngage (m : Mach) (e : Env) (a b : Nat) (found : List (Int × Nat × Nat)) : Mach :=
  if !m.b .GNS_CFG_notch_en then m
  else
    let q := (found.filter fun x => decide (6 ≤ x.2.1)).foldl (fun l x => insertTone x l) []
    let was := m.gns.narrow.getD (2 * a + b) 0
    let m1 := m.notchFollow ((List.range 4).map (notchAt a b)) (q.take 4)
    let m2 := { m1 with gns := { m1.gns with narrow := upd m1.gns.narrow (2 * a + b) fun _ => q.length } }
    let m3 := m2.sb .GNS_STS_notch_full (m2.gns.narrow.any fun n => decide (4 < n))
    if 4 < q.length && was ≤ 4 then (m3.setBit Reg.GNS_IRQ_STS 7 true).event e 0x2009 (some 3) (le 1 a ++ le 1 b) else m3

/-- The notches are off while notch_en is clear. -/
def Mach.notchesFollow (m : Mach) : Mach :=
  if m.b .GNS_CFG_notch_en then m
  else
    let m1 := (iter 16 (fun i m => m.notchFree i) m).sb .GNS_STS_notch_full false
    { m1 with gns := { m1.gns with narrow := List.replicate 4 0 } }

def execNotchEngage (a b : Nat) (found : List (Int × Nat × Nat)) (s : State) : Host.Outcome State Fault Refusal :=
  s.onInst (decide (a < 2) && decide (b < 2)) fun e m => m.notchEngage e a b found

/-- The indicators in 0.25 dB steps, ANT_A upper, lower, ANT_B upper, lower (R102). -/
def Mach.jamUpdate (m : Mach) (e : Env) (q : List Nat) : Mach :=
  let ji := (List.range 4).map fun i => min 255 (q.getD i 0)
  let m1 := m.wr Reg.GNS_JI (BitVec.ofNat 32 (unle (ji.map (BitVec.ofNat 8))))
  let thr := m.g .GNS_THR_ji_thr
  let hi := (List.range 4).map fun i => since (decide (thr ≤ ji.getD i 0)) (m.gns.jiHigh.getD i none) e.ns
  let lo := since (ji.all fun x => decide (x + 8 < thr)) m.gns.jiLow e.ns
  let m2 := { m1 with gns := { m1.gns with jiHigh := hi, jiLow := lo } }
  let set := hi.any fun o => heldFor o e.ns 1000000000
  let clear := heldFor lo e.ns 1000000000
  let was := m.b .GNS_STS_jam_over
  let now := if was then !clear else set
  if now = was then m2
  else ((m2.sb .GNS_STS_jam_over now).setBit Reg.GNS_IRQ_STS 1 true).event e 0x2002 (some (if now then 3 else 2))
    (ji.map (BitVec.ofNat 8) ++ le 1 (if now then 1 else 0))

def execJamIndicatorUpdate (quarters : List Nat) (s : State) : Host.Outcome State Fault Refusal :=
  s.act fun e m => m.jamUpdate e quarters

/-! ### Starts and retained data (R100, R120) -/

/-- The receiver restarts: every channel is released, and it starts in the ordered way or a worse one. -/
def Mach.gnsRestart (m : Mach) (e : Env) (way : Nat) : Mach :=
  let m1 := m.chReleaseIf e fun _ _ => true
  { m1 with gns := { m1.gns with start := max way (m.bestStart e) } }

/-- GNS_CTRL.restart is WO and RWL (R126); it reads 0, so an ignored request is recorded (R9). -/
def execGnsCtrlRestart (value : Word) (s : State) : Host.Outcome State Fault Refusal :=
  s.act fun e m =>
    let way := value.toNat % 4
    if way = 0 then m
    else if e.locked then m.writeIgnored Reg.GNS_CTRL value
    else m.gnsRestart e way

/-! ### Solutions (R98, R103 to R113) -/

/-- The bands enabled, 0 upper and 1 lower. -/
def Mach.gnsBands (m : Mach) : List Nat := (List.range 2).filter fun b => (m.g .GNS_CFG_bands).testBit b

/-- A satellite may be assigned (R98). -/
def Mach.satOk (m : Mach) (x : Nat × Nat × Nat) : Bool :=
  decide (x.1 < 3) && (m.g .GNS_CFG_sys).testBit x.1 && decide (m.g .GNS_CFG_elev_mask ≤ x.2.2)
    && !m.gns.excluded.contains (x.1, x.2.1)

/-- Insertion by elevation, highest first. -/
def insertSat (x : Nat × Nat × Nat) : List (Nat × Nat × Nat) → List (Nat × Nat × Nat)
  | [] => [x]
  | y :: l => if y.2.2 < x.2.2 then x :: y :: l else y :: insertSat x l

/-- The channels of an antenna that can be assigned, lowest first. -/
def Mach.freeChannels (m : Mach) (a : Nat) : List Nat :=
  ((List.range 48).map (· + 48 * a)).filter fun c => m.g (.GNS_CHc_STS_state c) == 0 && !m.gns.bad.contains c && !m.gns.bist.contains c

/-- A channel is assigned to a signal: it searches, with the default spacing (R96). -/
def Mach.chAssign (m : Mach) (c b sys sv : Nat) : Mach :=
  ((((m.chRelease c).s (.GNS_CHc_STS_state c) 1).s (.GNS_CHc_STS_band c) b).s (.GNS_CHc_STS_sys c) sys).s (.GNS_CHc_STS_sv c) sv
    |>.s (.GNS_CHc_STS_spacing c) (m.g .GNS_SPACING_dflt)

/-- The bands that a satellite lacks on an antenna get a channel each, all of them or none (R98). -/
def Mach.satAssign (m : Mach) (a : Nat) (bands : List Nat) (sys sv : Nat) : Mach :=
  let lacks := bands.filter fun b => !((List.range 96).any fun c => m.chIs c a sys sv && m.g (.GNS_CHc_STS_band c) == b)
  let free := m.freeChannels a
  if free.length < lacks.length then m
  else (lacks.zip free).foldl (fun m p => m.chAssign p.2 p.1 sys sv) m

/-- Channels are assigned on an antenna (R98): highest satellites first, both bands of a satellite together, on the lowest
free channels; channels of satellites that no longer qualify are released. -/
def Mach.assignChannels (m : Mach) (e : Env) (a : Nat) (sky : List (Nat × Nat × Nat)) : Mach :=
  let bands := m.gnsBands
  let room := (48 - ((m.gns.bad ++ m.gns.bist).filter fun c => c / 48 == a).length) / max 1 bands.length
  let want := if m.antOn a then (((sky.filter m.satOk).foldl (fun l x => insertSat x l) []).take room) else []
  let m1 := m.chReleaseIf e fun m c => c / 48 == a &&
    !(want.any fun x => x.1 == m.g (.GNS_CHc_STS_sys c) && x.2.1 == m.g (.GNS_CHc_STS_sv c)
        && bands.contains (m.g (.GNS_CHc_STS_band c)))
  want.foldl (fun m x => m.satAssign a bands x.1 x.2.1) m1

/-- The staged configuration of GNS_CFG_SET takes effect (R122). -/
def Mach.gnsApplyCfg (m : Mach) (e : Env) : Mach :=
  match m.gns.staged with
  | none => m
  | some (a, b, c, d) =>
    let m1 := ((({ m with gns := { m.gns with staged := none } }.putImage Reg.GNS_CFG a).putImage Reg.GNS_ANT_CFG b).putImage
      Reg.GNS_BASE c).putImage Reg.GNS_THR d
    let m2 := m1.s .GNS_CFG_elev_mask (min 60 (m1.g .GNS_CFG_elev_mask))
    let m3 := (iter 2 (fun a m => if !m.b (antEn a) || !m.b (antBias a) then m.antSet e a 3 else m) (m2.biasFollow m.antVolts)).notchesFollow
    m3.chReleaseIf e fun m c => !m.antOn (c / 48) || !m.gnsBands.contains (m.g (.GNS_CHc_STS_band c))
      || !(m.g .GNS_CFG_sys).testBit (m.g (.GNS_CHc_STS_sys c))

/-- A channel of antenna a tracks the upper-band signal of the satellite at 35 dB-Hz or more. -/
def Mach.strongUpper (m : Mach) (a sys sv : Nat) : Bool :=
  (List.range 96).any fun c => m.chIs c a sys sv && m.chLocked c && m.g (.GNS_CHc_STS_band c) == 0 && decide (35 ≤ m.g (.GNS_CHc_STS_cn0 c))

/-- The yaw of the baseline in the vessel frame: the mounting of the slot that takes the heading stream (R224); none gives 0. -/
def Mach.baseYaw (m : Mach) : F64 :=
  match (List.range 24).find? fun s => m.lchBound s 5 && m.g (.LCH_Ss_SRC_index s) == 2 with
  | some s => centi (m.gi (.LCH_Ss_MNT1_yaw s))
  | none => 0

/-- The wavelength of the upper band in metres (R92): the speed of light over 1575.42 MHz. -/
def upperWave : F64 := fdOfRatio 299792458 1575420000

/-- The single difference predicted for a satellite, in cycles (R103): the baseline, turned by Lichen's heading, roll and pitch, along the
direction to the satellite (DEDUCED, log 105). -/
def Mach.diffPredict (m : Mach) (t : Nat) (x : SatDiff) : F64 :=
  let y := m.baseYaw
  let len := fdOfRatio (m.g .GNS_BASE_len_mm) 1000
  let att := m.attAt t
  let b := rotVessel att.1 att.2 (m.hdgAt t) (fdMul len (Config.cosDeg y), fdMul len (Config.sinDeg y), 0)
  let az := fdOfRatio x.az 1000
  let el := fdOfRatio x.el 1000
  fdDiv (fdDot [b.1, b.2.1, b.2.2] [fdMul (Config.cosDeg el) (Config.cosDeg az), fdMul (Config.cosDeg el) (Config.sinDeg az),
    fdNegate (Config.sinDeg el)]) upperWave

/-- A residual less its whole cycles, beyond 0.2 cycle either way. -/
def residualFar (r : F64) : Bool :=
  let f := fdSub r (fdOfInt (fdScaleRound r 1 1))
  fdLt (fdOfRatio 1 5) f || fdLt f (fdNegate (fdOfRatio 1 5))

/-- The satellites checked and those that disagree (R103): the measured less the predicted difference, less the common mean. -/
def Mach.fsiCount (m : Mach) (t : Nat) (l : List SatDiff) : Nat × Nat :=
  let sats := l.filter fun x => m.strongUpper 0 x.sys x.sv && m.strongUpper 1 x.sys x.sv
  let r := sats.map fun x => fdSub (fdOfRatio x.phase 4294967296) (m.diffPredict t x)
  let mean := fdDiv (r.foldl fdAdd 0) (fdOfInt r.length)
  (sats.length, (r.filter fun v => residualFar (fdSub v mean)).length)

/-- The false-signal indicator (R103, R104). -/
def Mach.fsiUpdate (m : Mach) (e : Env) (checked disagree : Nat) : Mach :=
  let ind := if checked < 5 || m.g .GNS_BASE_len_mm = 0 then 0 else roundNe (255 * disagree) checked
  let above := decide (m.g .GNS_THR_fsi_thr ≤ ind)
  let hi := if above then m.gns.fsiHigh + 1 else 0
  let lo := if above then 0 else m.gns.fsiLow + 1
  let m1 := { m with gns := { m.gns with fsiHigh := hi, fsiLow := lo } }
  let m2 := (m1.s .GNS_FSI_fsi ind).s .GNS_FSI_sv_checked checked
  let was := m.b .GNS_STS_fsi_over
  let now := if was then decide (lo < 10) else decide (3 ≤ hi)
  if now = was then m2
  else ((m2.sb .GNS_STS_fsi_over now).setBit Reg.GNS_IRQ_STS 2 true).event e 0x2003 (some (if now then 4 else 2))
    (le 1 ind ++ le 1 checked ++ le 1 (if now then 1 else 0))

/-- The age of the newest correction in 0.1 s (R109). -/
def Mach.corrAge (m : Mach) (e : Env) : Nat :=
  match m.gns.corrAt with
  | some t => min 0xFFFE ((e.ns - t) / 100000000)
  | none => 0xFFFF

/-- The corrections are too old (R109). -/
def Mach.corrOld (m : Mach) (e : Env) : Bool :=
  match m.gns.corrAt with
  | some t => decide (t + m.g .GNS_THR_rtk_age_max * 1000000000 < e.ns)
  | none => true

/-- The type of a solution (R106, R109). -/
def Mach.solType (m : Mach) (e : Env) (a : Nat) (x : NavSolution) : Nat :=
  if !m.antOn a || x.used < 4 then 0 else if m.corrOld e then min 1 x.alone else min 4 x.best

/-- The quality of a solution type (R209). -/
def typeQuality (t : Nat) : F64 := fdOfRatio (min t 4) 4

/-- An antenna measures in this epoch: it serves, and one of its channels is in code lock. DEDUCED (log 107): without, its streams are missing
(R94, R117); a solution of type NONE is a sample of quality 0 (R209). -/
def Mach.antMeasures (m : Mach) (a : Nat) : Bool := m.antOn a && (List.range 96).any fun c => c / 48 == a && m.chLocked c

/-- A position stream reaches Lichen (R104, R117, R207, R209). -/
def Mach.posStream (m : Mach) (a t typ : Nat) (x : NavSolution) : Mach :=
  if !m.antMeasures a then m
  else if typ = 0 then m.lchValue 5 a t fun _ => some ⟨0, 0, none, []⟩
  else
    let q := if m.b .GNS_STS_fsi_over then 0 else typeQuality typ
    m.lchValue 5 a t fun _ => some ⟨0, q, none,
      [(1, fdOfRatio x.lat 1000000000), (2, fdOfRatio x.lon 1000000000), (3, fdOfRatio x.hgt 1000)]⟩

/-- The heading solution (R110, R111): its state after the baseline check. -/
def Mach.headSolve (m : Mach) (x : SolutionIn) : Nat × Mach :=
  let len := m.g .GNS_BASE_len_mm
  if len = 0 || x.common < 5 || !m.antOn 0 || !m.antOn 1 then (0, m)
  else if x.head = 2 && 20000 + len < 1000 * ((x.lenMm : Int) - len).natAbs then (0, m.up .GNS_BASE_rejects)
  else (min x.head 2, m)

/-- The quantity code of the baseline's elevation, which R210 does not number (DEDUCED, log 107). -/
def qtyElevation : Nat := 24

/-- The heading stream reaches Lichen (R111, R209), and a change of state is posted. -/
def Mach.headUpdate (m : Mach) (e : Env) (t st : Nat) (x : SolutionIn) : Mach :=
  let old := m.g .GNS_STS_head
  let m1 := if st = old then m
    else ((m.s .GNS_STS_head st).setBit Reg.GNS_IRQ_STS 5 true).event e 0x2008 (some 2) (le 1 old ++ le 1 st)
  if m.g .GNS_BASE_len_mm = 0 || !m.antMeasures 0 || !m.antMeasures 1 then m1
  else if st = 0 then m1.lchValue 5 2 t fun _ => some ⟨0, 0, none, []⟩
  else
    let q := if m.b .GNS_STS_fsi_over then 0 else fdOfRatio st 2
    m1.lchValue 5 2 t fun _ => some ⟨0, q, some (fdOfRatio x.sdev 1000),
      [(10, fdOfRatio x.azimuth 1000), (qtyElevation, fdOfRatio x.elevation 1000)]⟩

/-- The observables of R112, one record of R559 for each tracked signal of the antennas chosen. -/
def Mach.obsStream (m : Mach) (e : Env) (t : Nat) (l : List SignalObs) : Mach :=
  match m.gns.obs with
  | none => m
  | some (q, mask) => l.foldl (fun m o =>
      if o.ch < 96 && mask.testBit (o.ch / 48) && m.g (.GNS_CHc_STS_state o.ch) != 0 then
        m.stream e q 9 o.ch (o.flags % 8) ((Stamp.ofNs t).bytes ++ le 1 (m.g (.GNS_CHc_STS_sys o.ch))
          ++ le 1 (m.g (.GNS_CHc_STS_sv o.ch)) ++ le 1 (m.g (.GNS_CHc_STS_band o.ch) + 2 * (o.ch / 48))
          ++ le 1 o.cn0 ++ le 2 (min o.lock 65535) ++ le 8 o.range.toNat ++ le 8 o.phase.toNat ++ le 4 o.doppler.toNat)
      else m) m

/-- The navigation data are kept in retained DRAM, and in MRAM at a new decoding and every 10 min (R100). -/
def Mach.navKeep (m : Mach) (e : Env) (typ : Nat) (x : SolutionIn) : Mach :=
  let n := m.gns.nav
  let nav : NavData := ⟨if x.eph then some e.time.sec else n.eph, n.alm || x.alm,
    if typ = 0 then n.pos else some (x.a.lat, x.a.lon, x.a.hgt), e.time.sec⟩
  let copy := x.eph || x.alm || (typ != 0 && decide (m.gns.navCopied + 600 ≤ e.time.sec))
  { m with gns := { m.gns with nav := nav, navDram := some nav, aid := if typ = 0 then m.gns.aid else none,
                               navMram := if copy then some nav else m.gns.navMram,
                               navCopied := if copy then e.time.sec else m.gns.navCopied } }

/-- The correction age passes its limit (R109): raised once. -/
def Mach.ageUpdate (m : Mach) (e : Env) (typ : Nat) : Mach :=
  let old := m.corrOld e && m.gns.corrAt.isSome
  let m1 := m.s .GNS_RTCM_STS_age (m.corrAge e)
  let m2 := { m1 with gns := { m1.gns with ageTold := old } }
  if old && !m.gns.ageTold then
    (m2.setBit Reg.GNS_IRQ_STS 6 true).event e 0x2007 (some 2) (le 2 (m.corrAge e) ++ le 1 typ)
  else m2

/-- The period of the solution epochs in ns (R105). -/
def Mach.gnsPeriod (m : Mach) : Nat := [1000000000, 500000000, 200000000, 100000000, 50000000].getD (m.g .GNS_CFG_rate) 100000000

/-- The solution epoch t (R105), a whole multiple of 1/rate. -/
def Mach.solution (m : Mach) (e : Env) (t : Nat) (x : SolutionIn) : Mach :=
  let m0 := { m with gns := { m.gns with epochAt := some t } }
  let m1 := m0.gnsApplyCfg e
  let m2 := (m1.assignChannels e 0 x.sky).assignChannels e 1 x.sky
  let m3 := x.obs.foldl (fun m o =>
    if o.ch < 96 && m.g (.GNS_CHc_STS_state o.ch) != 0
    then (m.chCn0 e o.ch o.cn0).s (.GNS_CHc_STS_lock o.ch) (min o.lock 255) else m) m2
  let f := m3.fsiCount t x.diffs
  let m4 := m3.fsiUpdate e f.1 f.2
  let ta := m4.solType e 0 x.a
  let tb := m4.solType e 1 x.b
  let m5 := if ta = m4.g .GNS_STS_sol_a && tb = m4.g .GNS_STS_sol_b then m4
    else ((m4.s .GNS_STS_sol_a ta).s .GNS_STS_sol_b tb).setBit Reg.GNS_IRQ_STS 8 true
  let tracked := (((List.range 96).filter m5.chLocked).map fun c =>
    (m5.g (.GNS_CHc_STS_sys c), m5.g (.GNS_CHc_STS_sv c))).eraseDups.length
  let m6 := (((m5.s .GNS_STS_sv_used (if ta = 0 then 0 else min x.a.used 255)).s .GNS_STS_sv_tracked tracked).sb
    .GNS_STS_valid_time (x.timing && !m5.b .GNS_STS_fsi_over)).ageUpdate e ta
  let m7 := match x.leap with
    | some l => (m6.sb .GNS_LEAP_utc_valid true).s .GNS_LEAP_tai_utc l
    | none => m6
  let h := m7.headSolve x
  let m8 := ((h.2.posStream 0 t ta x.a).posStream 1 t tb x.b).headUpdate e t h.1 x
  (m8.obsStream e t x.obs).navKeep e ta x

/-- The baseband runs (R37, R616): its domain works, TIME has a 10 MHz reference, and its image verified. -/
def Mach.gnsRuns (m : Mach) : Bool := !m.clkFailed 5 && !m.time.onPll && !m.gns.stopped

/-- A solution epoch without measurements. -/
def emptySolution : SolutionIn :=
  ⟨[], ⟨0, 0, 0, 0, 0, 0⟩, ⟨0, 0, 0, 0, 0, 0⟩, [], 0, 0, 0, 0, 0, 0, false, .none, false, false, []⟩

/-- SOLUTION_EPOCH (R105): the solution of the newest epoch, once, and no later than 15 ms after it; a stopped baseband measures nothing. -/
def execSolutionEpoch (x : SolutionIn) (s : State) : Host.Outcome State Fault Refusal :=
  s.act fun e m =>
    let t := e.ns / m.gnsPeriod * m.gnsPeriod
    if m.gns.epochAt = some t || t + 15000000 < e.ns then m else m.solution e t (if m.gnsRuns then x else emptySolution)

/-- The baseband follows its domain and its reference (R37, R119): when it stops no channel tracks, and when it runs again it restarts HOT if it can. -/
def Mach.gnsFollow (m : Mach) (e : Env) (was : Bool) : Mach :=
  if was && !m.gnsRuns then m.chReleaseIf e fun _ _ => true
  else if !was && m.gnsRuns then m.gnsRestart e 1
  else m

/-! ### Commands (R121, R122) -/

def execGnsRestart (c : Cmd) (s : State) : Host.Outcome State Fault Refusal :=
  s.act fun e m => runCmd 0x20 c e.isSealed false (fun e m =>
    if c.u8 0 = 0 || 3 < c.u8 0 then m.fail stRange else .ok (m.gnsRestart e (c.u8 0))) e m

def execGnsAid (c : Cmd) (s : State) : Host.Outcome State Fault Refusal :=
  s.act fun e m => runCmd 0x21 c false false (fun _ m =>
    let lat := toSigned 64 (c.un 0 8)
    let lon := toSigned 64 (c.un 8 8)
    if 90000000000 < lat.natAbs || 180000000000 < lon.natAbs then m.fail stRange
    else .ok { m with gns := { m.gns with aid := some (lat, lon, toSigned 32 (c.u32 16), c.u32 20) } }) e m

/-- CRC-24Q (R107), MSB first. -/
def crc24q (l : List Byte) : Nat := crcBits 24 0x864CFB 0 (l.flatMap fun b => bitsMsb 8 b.toNat)

/-- The accepted message types (R107): 1 a correction, 2 other accepted, 0 ignored. -/
def rtcmClass (t : Nat) : Nat :=
  if [1074, 1077, 1094, 1097, 1124, 1127].contains t then 1
  else if [1005, 1006, 1019, 1046, 1042].contains t then 2 else 0

/-- The tally of a GNS_RTCM: frames used, discarded and ignored, corrections, and whether a frame was partial. -/
structure RtcmTally where
  used : Nat
  dropped : Nat
  ignored : Nat
  corr : Bool
  partial_ : Bool

/-- The frames of a buffer (R108). -/
def rtcmFrames : Nat → List Byte → RtcmTally → RtcmTally
  | 0, _, r => r
  | n + 1, l, r =>
    match l with
    | [] => r
    | b :: bs =>
      if b != 0xD3 then rtcmFrames n bs r
      else if l.length < 3 then { r with partial_ := true }
      else
        let len := (l.getD 1 0).toNat % 4 * 256 + (l.getD 2 0).toNat
        if l.length < len + 6 then { r with partial_ := true }
        else
          let crc := unle ((l.drop (len + 3)).take 3).reverse
          let rest := l.drop (len + 6)
          if crc24q (l.take (len + 3)) != crc then rtcmFrames n rest { r with dropped := r.dropped + 1 }
          else
            let t := if len < 2 then 0 else (l.getD 3 0).toNat * 16 + (l.getD 4 0).toNat / 16
            match rtcmClass t with
            | 0 => rtcmFrames n rest { r with ignored := r.ignored + 1 }
            | k => rtcmFrames n rest { r with used := r.used + 1, corr := r.corr || k == 1 }

def execGnsRtcm (c : Cmd) (s : State) : Host.Outcome State Fault Refusal :=
  s.act fun e m => runCmd 0x22 c false false (fun e m =>
    let n := c.u32 0
    if n < 6 || 65536 < n || c.data.length < n then m.fail stLen
    else
      let r := rtcmFrames n (c.data.take n) ⟨0, 0, 0, false, false⟩
      let m1 := m.addSat .GNS_RTCM_STS_ignored r.ignored
      let m2 := if r.corr then
          { m1 with gns := { m1.gns with corrAt := some e.ns, ageTold := false } }.s .GNS_RTCM_STS_age 0 else m1
      .done m2 (if r.dropped != 0 then stCrc else if r.partial_ then 0x40 else stOk)
        (le 2 r.used ++ le 2 (r.dropped + if r.partial_ then 1 else 0)) []) e m

/-- A baseline length in range (R110). -/
def baseOk (mm : Nat) : Bool := mm == 0 || (decide (100 ≤ mm) && decide (mm ≤ 50000))

/-- A correction age limit in range (R109). -/
def ageOk (s : Nat) : Bool := decide (1 ≤ s) && decide (s ≤ 120)

def execGnsCfgSet (c : Cmd) (s : State) : Host.Outcome State Fault Refusal :=
  s.act fun e m => runCmd 0x23 c e.isSealed false (fun _ m =>
    let w (i : Nat) : Word := BitVec.ofNat 32 (c.u32 i)
    if 5 ≤ c.u32 0 / 256 % 8 || !baseOk (c.u32 8 % 65536) || !ageOk (c.u32 12 / 65536 % 256) then m.fail stRange
    else .ok { m with gns := { m.gns with staged := some (w 0, w 4, w 8, w 12) } }) e m

/-- A spacing for a channel (R96, R97): stored for its next code-period boundary, or for its entry to TRACK. -/
def Mach.spacingSet (m : Mach) (c code : Nat) : Mach :=
  if m.g (.GNS_CHc_STS_state c) = 0 then m
  else { m with gns := { m.gns with spacing := upd m.gns.spacing c fun _ => some code } }

def execGnsSpacingSet (c : Cmd) (s : State) : Host.Outcome State Fault Refusal :=
  s.act fun e m => runCmd 0x24 c false false (fun _ m =>
    let k := c.u8 0
    let code := c.u8 1
    if 16 ≤ code || (96 ≤ k && k != 0xFF) then m.fail stRange
    else if k = 0xFF then .ok (iter 96 (fun i m => m.spacingSet i code) (m.s .GNS_SPACING_dflt code))
    else .ok (m.spacingSet k code)) e m

def execGnsSvExclude (c : Cmd) (s : State) : Host.Outcome State Fault Refusal :=
  s.act fun e m => runCmd 0x25 c e.isSealed false (fun _ m =>
    let x := (c.u8 0, c.u8 1)
    if 3 ≤ x.1 || x.2 = 0 || 64 ≤ x.2 || 2 ≤ c.u8 2 then m.fail stRange
    else
      let l := m.gns.excluded.filter (· != x)
      .ok { m with gns := { m.gns with excluded := if c.u8 2 = 1 then x :: l else l } }) e m

def execGnsObsStream (c : Cmd) (s : State) : Host.Outcome State Fault Refusal :=
  s.act fun e m => runCmd 0x26 c false false (fun _ m =>
    let q := c.u8 0
    if !queueOk q then m.fail stRange
    else if q != 0xFF && !m.b (qEn .stq q) then m.fail stState
    else .ok { m with gns := { m.gns with obs := if q = 0xFF then none else some (q, c.u8 1) } }) e m

def execGnsStatusGet (c : Cmd) (s : State) : Host.Outcome State Fault Refusal :=
  s.act fun e m => runCmd 0x27 c false true (fun _ m =>
    .done m stOk (m.regBytes [Reg.GNS_STS, Reg.GNS_JI, Reg.GNS_FSI, Reg.GNS_RTCM_STS]) []) e m

/-! ### Host writes (R109, R110, R126) -/

/-- A host write of a GNS register without a row of its own: refused codes keep the field they would change. -/
def Mach.gnsWrite (m : Mach) (e : Env) (off : Nat) (v : Word) : Mach :=
  let m1 := m.hostPut e.locked true off v
  if off = Reg.GNS_CFG then
    let m2 := if 5 ≤ m1.g .GNS_CFG_rate then m1.s .GNS_CFG_rate (m.g .GNS_CFG_rate) else m1
    let m3 := m2.s .GNS_CFG_elev_mask (min 60 (m2.g .GNS_CFG_elev_mask))
    m3.notchesFollow.chReleaseIf e fun m c => !m.gnsBands.contains (m.g (.GNS_CHc_STS_band c))
      || !(m.g .GNS_CFG_sys).testBit (m.g (.GNS_CHc_STS_sys c))
  else if off = Reg.GNS_ANT_CFG then
    iter 2 (fun a m => if !m.b (antEn a) || !m.b (antBias a) then m.antSet e a 3 else m)
      ((m1.biasFollow m.antVolts).chReleaseIf e fun m c => !m.antOn (c / 48))
  else if off = Reg.GNS_BASE then
    if baseOk (m1.g .GNS_BASE_len_mm) then m1 else m1.s .GNS_BASE_len_mm (m.g .GNS_BASE_len_mm)
  else if off = Reg.GNS_THR then
    if ageOk (m1.g .GNS_THR_rtk_age_max) then m1 else m1.s .GNS_THR_rtk_age_max (m.g .GNS_THR_rtk_age_max)
  else m1

end Sys2Proof.Machine
end

