-- ==== Sys2Proof/Machine/Qp.lean ====
section
/-!
DEFINITION. Bracken's problems and its interior-point method (chapter 08): descriptors and their checks, scaling, the starting
point, one iteration, and the result record.
Log: 9 (DESIGN CHOICE), 65 (DEDUCED).
-/
namespace Sys2Proof.Machine

/-! ### Arithmetic of the lanes (R300, R301, R303) -/

/-- The lanes take products in an order, each with a lane; step k takes the next one. -/
def lanesTake (order : Nat → Nat × Nat) : Nat → List (F64 × F64) → List F64 → List F64
  | 0, _, acc => acc
  | k + 1, l, acc =>
    let i := (order k).1 % l.length
    let p := l.getD i (0, 0)
    lanesTake order k (l.eraseIdx i) (acc.modify ((order k).2 % 32) fun x => fdFma p.1 p.2 x)

/-- c + Σ aᵢ bᵢ over the 32 lanes: every lane adds its products onto its own sum, which begins at c in lane 0, and the sums are added (R300, R303). -/
def laneSum (c : F64) (l : List (F64 × F64)) : F64 :=
  let acc := lanesTake (Config.laneOrder l) l.length l (c :: List.replicate 31 0)
  addInOrder fdAdd 0 (Config.sumOrder64 acc) 31 acc

/-- c + Σ aᵢ bᵢ by fused multiply-adds: products of zero change nothing, one term is determined, of more the order is open. -/
def brkDot (c : F64) (a b : List F64) : F64 :=
  match (a.zip b).filter fun p => !(fdFinite p.1 && fdFinite p.2 && (fdMag p.1 == 0 || fdMag p.2 == 0)) with
  | [] => c
  | [p] => fdFma p.1 p.2 c
  | l => laneSum c l

def brkMatVec (a : List (List F64)) (v : List F64) : List F64 := a.map fun r => brkDot 0 r v

/-- The transpose of a matrix of n columns times a vector. -/
def brkTVec (n : Nat) (a : List (List F64)) (v : List F64) : List F64 := (matT n a).map fun r => brkDot 0 r v

def vecSub (a b : List F64) : List F64 := List.zipWith fdSub a b

/-- v + a × d. -/
def vecAxpy (a : F64) (d v : List F64) : List F64 := List.zipWith (fun x y => fdFma a x y) d v

/-- The largest magnitude of a list. -/
def normInf (l : List F64) : F64 := l.foldl (fun m x => fdMax m (fdAbs x)) 0

/-- The first non-finite kind among values: 1 an infinity, 2 a NaN (R328, R335). -/
def badKind (l : List F64) : Option Nat :=
  if l.any fdIsNan then some 2 else if l.any fdIsInf then some 1 else none

/-! ### Descriptors (R304 to R310) -/

/-- The FP64 values of a byte string. -/
def f64At (l : List Byte) (i : Nat) : F64 := BitVec.ofNat 64 (unle ((l.drop (8 * i)).take 8))

def f64s (l : List Byte) (i n : Nat) : List F64 := (List.range n).map fun j => f64At l (i + j)

/-- A matrix of r rows and c columns, row by row from value i. -/
def f64Rows (l : List Byte) (i r c : Nat) : List (List F64) := (List.range r).map fun j => f64s l (i + j * c) c

/-- The place of (i, j) in an upper triangle stored row by row. -/
def triAt (n i j : Nat) : Nat := let a := min i j; let b := max i j; a * n - a * (a - 1) / 2 + (b - a)

/-- A symmetric matrix from its upper triangle at value i. -/
def f64Tri (l : List Byte) (i n : Nat) : List (List F64) :=
  let v := f64s l i (n * (n + 1) / 2)
  (List.range n).map fun a => (List.range n).map fun b => fdAt v (triAt n a b)

/-- The stage records of a body from byte o; none when the bytes do not agree with their dimensions (R309). -/
def parseStages (l : List Byte) (nx last : Nat) : Nat → Nat → Option (List QpStage × List F64 × Nat × Bool)
  | 0, o => some ([], [], o, true)
  | k + 1, o =>
    let n := (l.getD o 0).toNat
    let m := (l.getD (o + 1) 0).toNat
    let i := o / 8 + 1
    let xi := if k = last then nx else 0
    let tri := n * (n + 1) / 2
    let fn := if k = 0 then 0 else nx
    let iH := i + xi
    let iG := iH + tri + n
    let iF := iG + m * n + m
    let next := iF + fn * n + fn
    if l.length < 8 * next then none
    else
      let st : QpStage := ⟨f64Tri l iH n, f64s l (iH + tri) n, f64Rows l iG m n, f64s l (iG + m * n) m, f64Rows l iF fn n, f64s l (iF + fn * n) fn⟩
      match parseStages l nx last k (8 * next) with
      | some (r, _, e, z) => some (st :: r, f64s l i xi, e, z && unle ((l.drop (o + 2)).take 6) == 0)
      | none => none

/-- The number of variables and rows of a stage. -/
def QpStage.n (s : QpStage) : Nat := s.g.length
def QpStage.m (s : QpStage) : Nat := s.hv.length

/-- The equality multipliers of stage k: nx, or p for DENSE. -/
def Qp.ny (q : Qp) : Nat := if q.dense then q.a.length else q.nx

/-- The values of a point, stage by stage (R309). -/
def Qp.pointLen (q : Qp) : Nat := (q.st.map fun s => s.n + 2 * s.m + q.ny).sum

/-- The dimensions a retained point must agree with (R320). -/
def Qp.dims (q : Qp) : List Nat := [if q.dense then 1 else 0, q.nx, q.st.length, q.a.length] ++ q.st.flatMap fun s => [s.n, s.m]

/-- Working storage in bytes (R307). -/
def Qp.storage (q : Qp) : Nat :=
  if q.dense then
    let n := (q.st.map QpStage.n).sum
    let m := (q.st.map QpStage.m).sum
    let p := q.a.length
    8 * ((n + p) ^ 2 + (m + p) * n + 8 * (n + p) + 6 * m)
  else 8 * (q.st.map fun s => s.n ^ 2 + s.m * s.n + 8 * s.n + 6 * s.m + 2 * q.nx ^ 2).sum

/-- The limits of R306, with the tolerance code and the shift. -/
def Qp.sizeOk (q : Qp) : Bool :=
  (q.tol == 0 || (decide (3 ≤ q.tol) && decide (q.tol ≤ 12)))
    && (if q.dense then q.st.all (fun s => decide (1 ≤ s.n) && decide (s.n ≤ 512) && decide (s.m ≤ 512)) && decide (q.a.length ≤ 256)
      else decide (1 ≤ q.st.length) && decide (q.st.length ≤ 64) && decide (1 ≤ q.nx) && decide (q.nx ≤ 16) && decide (q.shift < q.st.length)
        && q.st.all fun s => decide (q.nx ≤ s.n) && decide (s.n ≤ 64) && decide (s.m ≤ 128))

/-- Every value of a problem. -/
def Qp.values (q : Qp) : List F64 :=
  q.xi ++ q.given ++ q.a.flatten ++ q.st.flatMap fun s => s.h.flatten ++ s.g ++ s.gm.flatten ++ s.hv ++ s.f.flatten ++ s.c

/-- The checks of R310 from the limits on: 0 when the problem may be solved. -/
def Qp.check (q : Qp) (banks : Nat) : Nat :=
  if !q.sizeOk then 0x40
  else if 1048576 * banks < q.storage then 0x41
  else if q.values.any fun x => !fdFinite x then 0x42 else 0

/-- The header and body of a descriptor, read without checking them. -/
def qpRead (d : List Byte) : Option (Qp × Bool) :=
  let u (i n : Nat) : Nat := unle ((d.drop i).take n)
  let body := d.drop 64
  let warm := u 7 1
  let base : Qp := ⟨u 5 1 == 1, u 6 1, [], [], [], warm, u 14 1, u 15 1, u 16 1, (u 17 1).testBit 1, []⟩
  if u 5 1 = 0 then
    match parseStages body (u 6 1) (u 8 2 - 1) (u 8 2) 0 with
    | none => none
    | some (st, xi, o, z) =>
      let q := { base with xi := xi, st := st }
      let g := if warm = 1 then q.pointLen else 0
      if body.length = o + 8 * g then some ({ q with given := f64s body (o / 8) g }, z) else none
  else
    let n := u 8 2
    let p := u 10 2
    let m := u 12 2
    let tri := n * (n + 1) / 2
    let iA := tri + n
    let iG := iA + p * n + p
    let e := iG + m * n + m
    let q := { base with
      xi := f64s body (iA + p * n) p, a := f64Rows body iA p n,
      st := [⟨f64Tri body 0 n, f64s body tri n, f64Rows body iG m n, f64s body (iG + m * n) m, [], []⟩] }
    let g := if warm = 1 then q.pointLen else 0
    if body.length = 8 * (e + g) then some ({ q with given := f64s body e g }, true) else none

/-- A host descriptor checked in the order of R310: the problem, or the status it completes with. -/
def qpParse (d : List Byte) (banks : Nat) : Except Nat Qp :=
  let u (i n : Nat) : Nat := unle ((d.drop i).take n)
  let body := d.drop 64
  if d.length < 64 || u 24 4 != body.length then .error 3
  else
    let r := if u 5 1 ≤ 1 then qpRead d else none
    if u 5 1 ≤ 1 && r.isNone then .error 3
    else if crc32c body != u 28 4 then .error 6
    else match r with
      | none => .error 0x42
      | some (q, zero) =>
        if d.take 4 != le 4 0x50514B42 || u 4 1 != 1 || 3 ≤ u 7 1 || 4 ≤ u 17 1 || u 18 2 != 0 || u 32 32 != 0 || !zero
          || (q.dense && u 6 1 != 0) || (!q.dense && (u 10 2 != 0 || u 12 2 != 0)) then .error 0x42
        else match q.check banks with
          | 0 => .ok q
          | st => .error st

/-! ### Scaling (R315) -/

/-- The divisor of a row: its largest coefficient; 1 for a row of zeros, or for an equality row that holds a 1. -/
def rowScale (one : Bool) (r : List F64) : F64 :=
  let x := normInf r
  if one then fdMax x (fdOfInt 1) else if fdMag x = 0 then fdOfInt 1 else x

/-- A problem with its inequality rows, and for DENSE its equality rows, divided; with the divisors of the inequality rows and
of the equality rows of each stage. -/
structure QpScaled where
  q : Qp
  sg : List (List F64)
  sa : List (List F64)

def Qp.scale (q : Qp) : QpScaled :=
  let sg := q.st.map fun s => s.gm.map (rowScale false)
  let divRow (r : List F64) (d : F64) : List F64 := r.map fun x => fdDiv x d
  let st := q.st.map fun s =>
    let d := s.gm.map (rowScale false)
    { s with gm := List.zipWith divRow s.gm d, hv := List.zipWith fdDiv s.hv d }
  if q.dense then
    let d := q.a.map (rowScale false)
    ⟨{ q with st := st, a := List.zipWith divRow q.a d, xi := List.zipWith fdDiv q.xi d }, sg, [d]⟩
  else
    let sa := List.replicate q.nx (fdOfInt 1) :: (q.st.dropLast.map fun s => s.f.map (rowScale true))
    ⟨{ q with st := st }, sg, sa⟩

/-- A row without coefficients that cannot hold (R315). -/
def Qp.zeroRow (q : Qp) : Bool :=
  q.st.any fun s => (s.gm.zip s.hv).any fun p => fdMag (normInf p.1) == 0 && fdLt p.2 0

/-! ### Points (R309, R319) -/

/-- A point from its values, stage by stage. -/
def Qp.point (q : Qp) (l : List F64) : QpPt :=
  let r := q.st.foldl (fun (p : QpPt × List F64) s =>
    let (a, l) := p
    let l1 := l.drop s.n
    let l2 := l1.drop s.m
    let l3 := l2.drop s.m
    (⟨a.z ++ [l.take s.n], a.t ++ [l1.take s.m], a.l ++ [l2.take s.m], a.y ++ [l3.take q.ny]⟩, l3.drop q.ny)) (⟨[], [], [], []⟩, l)
  r.1

/-- A point in the rows of the descriptor, taken to the scaled rows. -/
def QpScaled.into (s : QpScaled) (p : QpPt) : QpPt :=
  { p with t := List.zipWith (List.zipWith fdDiv) p.t s.sg, l := List.zipWith (List.zipWith fdMul) p.l s.sg,
           y := List.zipWith (List.zipWith fdMul) p.y s.sa }

/-- A point in the scaled rows, taken to the rows of the descriptor. -/
def QpScaled.outOf (s : QpScaled) (p : QpPt) : QpPt :=
  { p with t := List.zipWith (List.zipWith fdMul) p.t s.sg, l := List.zipWith (List.zipWith fdDiv) p.l s.sg,
           y := List.zipWith (List.zipWith fdDiv) p.y s.sa }

/-- A point shifted by stages (R319). -/
def shiftPoint (n k : Nat) (p : QpPt) : QpPt :=
  let sh (l : List (List F64)) : List (List F64) := (List.range n).map fun i => l.getD (min (i + k) (n - 1)) []
  ⟨sh p.z, sh p.t, sh p.l, sh p.y⟩

/-- Iterate 0 (R319), and whether a retained point was missing (R320). -/
def QpScaled.start (s : QpScaled) (push : F64) (kept : Option QpPt) : QpPt × Bool :=
  let cold : QpPt :=
    ⟨s.q.st.map fun x => List.replicate x.n 0, s.q.st.map fun x => x.hv.map fun h => fdMax h (fdOfInt 1),
     s.q.st.map fun x => List.replicate x.m (fdOfInt 1), s.q.st.map fun _ => List.replicate s.q.ny 0⟩
  let inside (p : QpPt) : QpPt := { p with t := p.t.map (·.map (fdMax push)), l := p.l.map (·.map (fdMax push)) }
  match s.q.warm, kept with
  | 1, _ => (inside (s.into (s.q.point s.q.given)), false)
  | 2, some p => (inside (s.into (shiftPoint s.q.st.length s.q.shift p)), false)
  | 2, none => (cold, true)
  | _, _ => (cold, false)

/-! ### Residuals and merit (R315) -/

/-- The states of a stage's variables. -/
def Qp.xs (q : Qp) (z : List F64) : List F64 := z.take q.nx

/-- e_k = F_k z_k + c_k − x_(k+1), unscaled (R317), for each stage boundary. -/
def Qp.gaps (q : Qp) (z : List (List F64)) : List (List F64) :=
  (List.range (q.st.length - 1)).map fun k =>
    let s := q.st.getD k ⟨[], [], [], [], [], []⟩
    List.zipWith (fun r (p : F64 × F64) => fdSub (brkDot p.1 r (z.getD k [])) p.2) s.f (s.c.zip (q.xs (z.getD (k + 1) [])))

/-- The equality residuals on the scaled rows. -/
def QpScaled.eqRes (s : QpScaled) (z : List (List F64)) : List (List F64) :=
  if s.q.dense then [vecSub (brkMatVec s.q.a (z.getD 0 [])) s.q.xi]
  else vecSub (s.q.xs (z.getD 0 [])) s.q.xi
    :: List.zipWith (fun e d => List.zipWith (fun a b => fdNegate (fdDiv a b)) e d) (s.q.gaps z) (s.sa.drop 1)

/-- r_i = Gz + t − h of each stage. -/
def QpScaled.inRes (s : QpScaled) (p : QpPt) : List (List F64) :=
  (List.range s.q.st.length).map fun k =>
    let x := s.q.st.getD k ⟨[], [], [], [], [], []⟩
    vecSub (vecAdd (brkMatVec x.gm (p.z.getD k [])) (p.t.getD k [])) x.hv

/-- Aᵀy of each stage, for multipliers of the scaled rows. -/
def QpScaled.eqT (s : QpScaled) (y : List (List F64)) : List (List F64) :=
  if s.q.dense then [brkTVec ((s.q.st.map QpStage.n).sum) s.q.a (y.getD 0 [])]
  else
    let yu := List.zipWith (List.zipWith fdDiv) y s.sa
    (List.range s.q.st.length).map fun k =>
      let x := s.q.st.getD k ⟨[], [], [], [], [], []⟩
      let own := yu.getD k [] ++ List.replicate (x.n - s.q.nx) 0
      if k + 1 < s.q.st.length then vecSub own (brkTVec x.n x.f (yu.getD (k + 1) [])) else own

/-- Hz + g + Aᵀy + Gᵀλ of each stage. -/
def QpScaled.dual (s : QpScaled) (p : QpPt) : List (List F64) :=
  (List.range s.q.st.length).map fun k =>
    let x := s.q.st.getD k ⟨[], [], [], [], [], []⟩
    let hz := List.zipWith (fun r g => brkDot g r (p.z.getD k [])) x.h x.g
    vecAdd (vecAdd hz ((s.eqT p.y).getD k [])) (brkTVec x.n x.gm (p.l.getD k []))

/-- ½ zᵀHz + gᵀz. -/
def Qp.objective (q : Qp) (z : List (List F64)) : F64 :=
  let parts := (List.range q.st.length).map fun k =>
    let x := q.st.getD k ⟨[], [], [], [], [], []⟩
    let v := z.getD k []
    (brkDot 0 v (brkMatVec x.h v), brkDot 0 x.g v)
  fdFma (fdOfRatio 1 2) (fdSum (parts.map (·.1))) (fdSum (parts.map (·.2)))

/-- What phase E gives (R315): scaled primal and dual residual, gap, merit and objective. -/
def QpScaled.evaluate (s : QpScaled) (p : QpPt) : QpEval :=
  let one := fdOfInt 1
  let bs := if s.q.dense then s.q.xi else s.q.xi ++ (List.zipWith (fun x d => List.zipWith fdDiv x.c d) s.q.st.dropLast (s.sa.drop 1)).flatten
  let rp := fdDiv (fdMax (normInf (s.eqRes p.z).flatten) (normInf (s.inRes p).flatten))
    (fdAdd one (fdMax (normInf bs) (normInf (s.q.st.flatMap fun x => x.hv))))
  let rd := fdDiv (normInf (s.dual p).flatten) (fdAdd one (normInf (s.q.st.flatMap fun x => x.g)))
  let obj := s.q.objective p.z
  let m := (s.q.st.map QpStage.m).sum
  let gap := if m = 0 then 0 else fdDiv (fdDiv (brkDot 0 p.t.flatten p.l.flatten) (fdOfInt m)) (fdAdd one (fdAbs obj))
  ⟨rp, rd, gap, fdMax (fdMax rp rd) gap, obj⟩

/-! ### Factorisation (R317, R318, R327) -/

/-- The pivot rule: thresholds of R327, with a count of replacements. -/
structure PivRule where
  thr : F64
  repl : F64

/-- 10^(s − code) × d. -/
def pivValue (s code : Nat) (d : F64) : F64 := fdMul (fdOfRatio (10 ^ s : Nat) (10 ^ code)) d

/-- The diagonal norm d, never below 1.0 (R327). -/
def diagNorm (a : List (List F64)) : F64 := fdMax (fdOfInt 1) (normInf (a.mapIdx fun i r => fdAt r i))

/-- A pivot of expected sign: the value used, and 1 when it was replaced. -/
def PivRule.take (r : PivRule) (neg : Bool) (p : F64) : F64 × Nat :=
  let v := if neg then fdNegate p else p
  if fdLe v r.thr then (if neg then fdNegate r.repl else r.repl, 1) else (p, 0)

/-- A Cholesky factor: its rows, the reciprocals of its diagonal, and the replacements. -/
structure Chol where
  rows : List (List F64)
  inv : List F64
  count : Nat

/-- Row i of a factor: entries (a_ij − Σ l_ik l_jk) / l_jj for j below i. -/
def cholRow (c : Chol) (a : List F64) : List F64 :=
  (List.range c.rows.length).foldl (fun r j =>
    r ++ [fdMul (brkDot (fdAt a j) (r.map fdNegate) (c.rows.getD j [])) (fdAt c.inv j)]) []

/-- M = L Lᵀ with the pivot rule. -/
def cholesky (r : PivRule) (a : List (List F64)) : Chol :=
  (List.range a.length).foldl (fun c i =>
    let row := cholRow c (a.getD i [])
    let (p, n) := r.take false (brkDot (fdAt (a.getD i []) i) (row.map fdNegate) row)
    let inv := fdRsqrt p
    ⟨c.rows ++ [row ++ [fdMul p inv]], c.inv ++ [inv], c.count + n⟩) ⟨[], [], 0⟩

/-- L x = b. -/
def cholForward (c : Chol) (b : List F64) : List F64 :=
  (List.range c.rows.length).foldl (fun x i => x ++ [fdMul (brkDot (fdAt b i) (x.map fdNegate) (c.rows.getD i [])) (fdAt c.inv i)]) []

/-- Lᵀ x = b. -/
def cholBackward (c : Chol) (b : List F64) : List F64 :=
  let n := c.rows.length
  (List.range n).foldl (fun x k =>
    let i := n - 1 - k
    let col := (List.range k).map fun j => fdAt (c.rows.getD (i + 1 + j) []) i
    fdMul (brkDot (fdAt b i) (x.map fdNegate) col) (fdAt c.inv i) :: x) []

def Chol.solve (c : Chol) (b : List F64) : List F64 := cholBackward c (cholForward c b)

/-- The L D Lᵀ factors of a DENSE problem: rows below the diagonal, D, and the replacements. -/
structure Ldl where
  rows : List (List F64)
  d : List F64
  count : Nat

/-- L D Lᵀ without pivoting; the first n pivots are expected positive, the rest negative. -/
def ldl (r : PivRule) (n : Nat) (a : List (List F64)) : Ldl :=
  (List.range a.length).foldl (fun f i =>
    let src := a.getD i []
    let u := (List.range i).foldl (fun u j => u ++ [brkDot (fdAt src j) (u.map fdNegate) (f.rows.getD j [])]) []
    let row := List.zipWith fdDiv u f.d
    let (p, k) := r.take (decide (n ≤ i)) (brkDot (fdAt src i) (row.map fdNegate) u)
    ⟨f.rows ++ [row], f.d ++ [p], f.count + k⟩) ⟨[], [], 0⟩

def Ldl.solve (f : Ldl) (b : List F64) : List F64 :=
  let n := f.rows.length
  let x := (List.range n).foldl (fun x i => x ++ [brkDot (fdAt b i) (x.map fdNegate) (f.rows.getD i [])]) []
  let y := List.zipWith fdDiv x f.d
  (List.range n).foldl (fun x k =>
    let i := n - 1 - k
    let col := (List.range k).map fun j => fdAt (f.rows.getD (i + 1 + j) []) i
    brkDot (fdAt y i) (x.map fdNegate) col :: x) []

/-- One stage's factors (R317): the Cholesky factor of M_ww, M_xw, K and P. -/
structure StageFac where
  ch : Chol
  mxw : List (List F64)
  k : List (List F64)
  p : List (List F64)

/-- H + GᵀΣG of a stage. -/
def QpStage.hs (s : QpStage) (sig : List F64) : List (List F64) :=
  let sg := List.zipWith (fun d r => r.map (fdMul d)) sig s.gm
  let cols := matT s.n s.gm
  let cs := matT s.n sg
  (List.range s.n).map fun i => (List.range s.n).map fun j => brkDot (fdAt (s.h.getD i []) j) (cols.getD i []) (cs.getD j [])

/-- The product a × b of matrices, b with n columns. -/
def brkMul (n : Nat) (a b : List (List F64)) : List (List F64) := let bt := matT n b; a.map fun r => bt.map fun c => brkDot 0 r c

/-- The backward recursion of phase F over the stages, last stage first. -/
def stagedFactor (nx s thr reg : Nat) (st : List QpStage) (sig : List (List F64)) : List StageFac × Nat :=
  let n := st.length
  (List.range n).foldl (fun (acc : List StageFac × Nat) j =>
    let k := n - 1 - j
    let x := st.getD k ⟨[], [], [], [], [], []⟩
    let m0 := x.hs (sig.getD k [])
    let m := match acc.1.head? with
      | some f => matAdd m0 (brkMul x.n (matT x.n x.f) (brkMul x.n f.p x.f))
      | none => m0
    let mww := (m.drop nx).map (·.drop nx)
    let mxw := (m.take nx).map (·.drop nx)
    let mxx := (m.take nx).map (·.take nx)
    let d := diagNorm mww
    let ch := cholesky ⟨pivValue s thr d, pivValue s reg d⟩ mww
    let cols := mxw.map fun r => (ch.solve r).map fdNegate
    let kk := matT (x.n - nx) cols
    let p := List.zipWith (fun r row => List.zipWith (fun a c => brkDot a row c) r (matT nx kk)) mxx mxw
    (⟨ch, mxw, kk, p⟩ :: acc.1, acc.2 + ch.count)) ([], 0)

/-- Phases P and C of a STAGED problem: the direction for a right-hand side q of each stage (R317). -/
def stagedSolve (q : Qp) (fac : List StageFac) (rhs : List (List F64)) (e : List (List F64)) (x0 : List F64) : List (List F64) × List (List F64) :=
  let n := q.st.length
  let back := (List.range n).foldl (fun (acc : List (List F64 × List F64)) j =>
    let k := n - 1 - j
    let x := q.st.getD k ⟨[], [], [], [], [], []⟩
    let f := fac.getD k ⟨⟨[], [], 0⟩, [], [], []⟩
    let qk := match acc.head?, fac[k + 1]? with
      | some (p, _), some nx => vecAdd (rhs.getD k []) (brkTVec x.n x.f (vecAdd (brkMatVec nx.p (e.getD k [])) p))
      | _, _ => rhs.getD k []
    let kv := (f.ch.solve (qk.drop q.nx)).map fdNegate
    (List.zipWith (fun a r => brkDot a r kv) (qk.take q.nx) f.mxw, kv) :: acc) []
  let fwd := (List.range n).foldl (fun (acc : List (List F64) × List (List F64) × List F64) k =>
    let (zs, ys, dx) := acc
    let x := q.st.getD k ⟨[], [], [], [], [], []⟩
    let f := fac.getD k ⟨⟨[], [], 0⟩, [], [], []⟩
    let (p, kv) := back.getD k ([], [])
    let dz := dx ++ List.zipWith (fun r c => brkDot c r dx) f.k kv
    let dy := (List.zipWith (fun r c => brkDot c r dx) f.p p).map fdNegate
    (zs ++ [dz], ys ++ [dy], List.zipWith (fun r c => brkDot c r dz) x.f (e.getD k []))) ([], [], x0)
  (fwd.1, fwd.2.1)

/-! ### One iteration (R316, R321, R323, R328) -/

/-- The largest a ≤ cap that keeps every v + a × d at 0 or above. -/
def stepTo (cap : Option F64) (v d : List F64) : Option F64 :=
  (v.zip d).foldl (fun a p =>
    if fdLt p.2 0 then
      let r := fdDiv (fdNegate p.1) p.2
      match a with | some x => some (fdMin x r) | none => some r
    else a) cap

/-- Bracken's numeric settings (SLV_CFG) and the scale exponent. -/
structure BrkCfg where
  thr : Nat
  reg : Nat
  pivMax : Nat
  s : Nat

/-- The factors of phase F, the replacements, and their values for the check of R328. -/
inductive Factor where
  | staged (f : List StageFac)
  | dense (f : Ldl)
  | plain (c : Chol)

def QpScaled.factor (s : QpScaled) (c : BrkCfg) (sig : List (List F64)) : Factor × Nat × List F64 :=
  if !s.q.dense then
    let (f, n) := stagedFactor s.q.nx c.s c.thr c.reg s.q.st sig
    (.staged f, n, f.flatMap fun x => x.ch.rows.flatten ++ x.k.flatten ++ x.p.flatten)
  else
    let x := s.q.st.getD 0 ⟨[], [], [], [], [], []⟩
    let hs := x.hs (sig.getD 0 [])
    let d := diagNorm hs
    let rule : PivRule := ⟨pivValue c.s c.thr d, pivValue c.s c.reg d⟩
    if s.q.a.isEmpty && x.m = 0 then
      let ch := cholesky rule hs
      (.plain ch, ch.count, ch.rows.flatten)
    else
      let p := s.q.a.length
      let low := s.q.a.mapIdx fun i r => r ++ (List.range p).map fun j => if i = j then fdNegate rule.repl else 0
      let f := ldl rule x.n (List.zipWith (· ++ ·) hs (if p = 0 then hs.map fun _ => [] else matT x.n s.q.a) ++ low)
      (.dense f, f.count, f.rows.flatten ++ f.d)

/-- The direction (Δz, Δy, Δt, Δλ) for complementarity residuals r_c. -/
def QpScaled.direction (s : QpScaled) (f : Factor) (p : QpPt) (sig rc : List (List F64)) : QpPt :=
  let ri := s.inRes p
  let w := List.zipWith (fun (a : List F64) (b : List F64 × List F64 × List F64) =>
    vecSub (List.zipWith fdMul a b.1) (List.zipWith fdDiv b.2.1 b.2.2)) sig (ri.zip (rc.zip p.t))
  let rhs := List.zipWith (fun d (x : QpStage × List F64) => vecAdd d (brkTVec x.1.n x.1.gm x.2)) (s.dual p) (s.q.st.zip w)
  let (dz, dy) := match f with
    | .staged fac =>
      let (dz, dyu) := stagedSolve s.q fac rhs (s.q.gaps p.z) (vecSub s.q.xi (s.q.xs (p.z.getD 0 [])))
      (dz, List.zipWith (List.zipWith fdMul) dyu s.sa)
    | .plain ch => ([ch.solve ((rhs.getD 0 []).map fdNegate)], [[]])
    | .dense fac =>
      let n := (rhs.getD 0 []).length
      let x := fac.solve (((rhs.getD 0 []) ++ (s.eqRes p.z).getD 0 []).map fdNegate)
      ([x.take n], [x.drop n])
  let gz := List.zipWith (fun x z => brkMatVec x.gm z) s.q.st dz
  let sum := List.zipWith vecAdd gz ri
  let dl := List.zipWith (fun (a : List F64) (b : List F64 × List F64 × List F64) =>
    vecSub (List.zipWith fdMul a b.1) (List.zipWith fdDiv b.2.1 b.2.2)) sig (sum.zip (rc.zip p.t))
  ⟨dz, sum.map (·.map fdNegate), dl, dy⟩

/-- The infeasibility test (R323). -/
def QpScaled.infeasible (s : QpScaled) (p : QpPt) : Bool :=
  let nu := normInf (p.y.flatten ++ p.l.flatten)
  let y := p.y.map (·.map fun x => fdDiv x nu)
  let l := p.l.map (·.map fun x => fdDiv x nu)
  let sum := List.zipWith (fun a (x : QpStage × List F64) => vecAdd a (brkTVec x.1.n x.1.gm x.2)) (s.eqT y) (s.q.st.zip l)
  let bs := if s.q.dense then [s.q.xi] else s.q.xi :: List.zipWith (fun x d => List.zipWith fdDiv x.c d) s.q.st.dropLast (s.sa.drop 1)
  let v := brkDot (brkDot 0 bs.flatten y.flatten) (s.q.st.flatMap fun x => x.hv) l.flatten
  let tiny := fdOfRatio 1 100000000
  fdLt (fdOfInt 10000000000) nu && fdLe (normInf sum.flatten) tiny && fdLe v (fdNegate tiny)

/-- One iteration from a point: its new iterate and evaluation, or the cause of its rejection (0 pivots, 1 overflow, 2 NaN);
with the pivots replaced. -/
structure IterOut where
  pivots : Nat
  out : Except Nat (QpPt × QpEval)

/-- The values of a point or a direction. -/
def QpPt.values (p : QpPt) : List F64 := p.z.flatten ++ p.t.flatten ++ p.l.flatten ++ p.y.flatten

/-- An iteration, its lanes' flags examined at the end of each phase (R328). -/
def QpScaled.iterate (s : QpScaled) (c : BrkCfg) (p : QpPt) : IterOut :=
  let m := (s.q.st.map QpStage.m).sum
  let sig := List.zipWith (List.zipWith fdDiv) p.l p.t
  let (f, n, vals) := s.factor c sig
  if c.pivMax < n then ⟨n, .error 0⟩
  else match badKind (sig.flatten ++ vals) with
    | some k => ⟨n, .error k⟩
    | none =>
      let tl := List.zipWith (List.zipWith fdMul) p.t p.l
      let one := fdOfInt 1
      let aff := s.direction f p sig tl
      match badKind aff.values with
      | some k => ⟨n, .error k⟩
      | none =>
        let d := if m = 0 then aff
          else
            let a := (stepTo (stepTo (some one) p.t.flatten aff.t.flatten) p.l.flatten aff.l.flatten).getD one
            let mu := fdDiv (brkDot 0 p.t.flatten p.l.flatten) (fdOfInt m)
            let muA := fdDiv (brkDot 0 (vecAxpy a aff.t.flatten p.t.flatten) (vecAxpy a aff.l.flatten p.l.flatten)) (fdOfInt m)
            let r := fdDiv muA mu
            let target := fdMul (fdMul (fdMul r r) r) mu
            let rc := List.zipWith (fun (x : List F64) (y : List F64 × List F64) =>
              List.zipWith (fun u (v : F64 × F64) => fdSub (fdFma v.1 v.2 u) target) x (y.1.zip y.2)) tl (aff.t.zip aff.l)
            s.direction f p sig rc
        match badKind d.values with
        | some k => ⟨n, .error k⟩
        | none =>
          let a := if m = 0 then one
            else match stepTo (stepTo none p.t.flatten d.t.flatten) p.l.flatten d.l.flatten with
              | some x => fdMin one (fdMul (fdOfRatio 99 100) x)
              | none => one
          let go (x y : List (List F64)) : List (List F64) := List.zipWith (fun d v => vecAxpy a d v) x y
          let p' : QpPt := ⟨go d.z p.z, go d.t p.t, go d.l p.l, go d.y p.y⟩
          let ev := s.evaluate p'
          match badKind (p'.values ++ [ev.rp, ev.rd, ev.gap, ev.obj]) with
          | some k => ⟨n, .error k⟩
          | none => ⟨n, .ok (p', ev)⟩

/-! ### The result record (R311) -/

/-- The little-endian bytes of a binary64 value. -/
def f64Bytes (x : F64) : List Byte := le 8 x.toNat

/-- The length of a problem's result record. -/
def Qp.resultLen (q : Qp) : Nat :=
  64 + 8 * (q.st.map fun s => s.n + if q.ret then s.m + q.ny else 0).sum

/-- The values of a result: z, then λ and y stage by stage when multipliers are asked for. -/
def Qp.resultBytes (q : Qp) (p : QpPt) : List Byte :=
  (p.z.flatten.flatMap f64Bytes)
    ++ (if q.ret then ((p.l.zip p.y).flatMap fun x => x.1 ++ x.2).flatMap f64Bytes else [])

end Sys2Proof.Machine
end

