-- ==== Sys2Proof/Machine/Slv.lean ====
section
/-!
DEFINITION. Bracken as an engine (chapter 08): which problem it serves, its iterations, how a solve ends, scratch memory errors
and tests, and the commands of the SLV block.
Log: 7 (DESIGN CHOICE), 65 (DEDUCED), 66 (DEDUCED), 67 (DESIGN CHOICE).
-/
namespace Sys2Proof.Machine

/-! ### Settings, banks and the status registers -/

/-- Bracken's numeric settings with a scale exponent (R327, R338). -/
def Mach.brk (m : Mach) (s : Nat) : BrkCfg := ⟨m.g .SLV_CFG_piv_thr, m.g .SLV_CFG_delta_reg, m.g .SLV_CFG_piv_max, s⟩

/-- The banks in service (R307, R331). -/
def Mach.slvBanks (m : Mach) : Nat := ((List.range 8).filter fun b => !(m.g .SLV_ECC_isolated).testBit b).length

/-- Storing the solve in progress; SLV_STS shows its progress (R338). -/
def Mach.setRun (m : Mach) (r : Option QpRun) : Mach :=
  let m1 := { m with slv := { m.slv with run := r } }
  match r with
  | some r =>
    (((m1.s .SLV_STS_iter r.k).s .SLV_STS_scale_exp (min r.s 15)).s .SLV_STS_state (r.job.src + 1)).sb .SLV_STS_paced (r.flags.testBit 7)
  | none => ((((m1.s .SLV_STS_iter 0).s .SLV_STS_scale_exp 0).s .SLV_STS_state 0).sb .SLV_STS_paced false)

/-- The solve ends with a status; its result record is still to be written (R321, R325). -/
def QpRun.endAs (r : QpRun) (now st flags : Nat) : QpRun := { r with ended := some st, stop := now, flags := r.flags ||| flags }

/-- The flags of bits 4 to 14 of SLV_LAST_STS. -/
def fMidfact : Nat := 2
def fPreempt : Nat := 4
def fEcc : Nat := 8
def fWarmMiss : Nat := 16
def fCancel : Nat := 32
def fRegUp : Nat := 64
def fPaced : Nat := 128
def fFmtErr : Nat := 1024

/-- The retained point, SLV_RET following it (R320). -/
def Mach.setKept (m : Mach) (k : Option (List Nat × QpPt)) : Mach :=
  ({ m with slv := { m.slv with kept := k } }.sb .SLV_RET_valid k.isSome).s .SLV_RET_age 0

/-! ### Starting a solve (R310, R313, R315, R319, R320, R324, R326) -/

/-- The nanoseconds from an instant to a short stamp ahead of or behind it. -/
def nsTo (e : Env) (short : Nat) : Int := shortDiff short e.now.short * 8

/-- A law problem fails a check: its status and flags, or none (R310, R326). -/
def Mach.lawFails (m : Mach) (e : Env) (j : QpJob) : Option Nat :=
  let c := j.qp.check m.slvBanks
  let long := match j.deadline with | some d => decide (10000000000 < nsTo e d) | none => false
  if c = 0x41 then some (fFmtErr + fEcc) else if c != 0 || long then some fFmtErr else none

/-- A problem starts: checked, scaled, its start formed. It may end at once. -/
def Mach.slvStart (m : Mach) (e : Env) (j : QpJob) : Mach :=
  let toD : Option Int := if j.src = 1 then some (j.limit * 1000) else j.deadline.map (nsTo e)
  let dl := match toD with | some d => (e.now.move d).short | none => 0
  let m0 := match toD with
    | some d => ((m.s .SLV_DEADLINE_deadline dl).s .SLV_BUDGET_budget (clampInt 0 0xFFFFFF (d / 1000)).toNat)
    | none => m
  let keeps := match m0.slv.kept with | some (d, _) => decide (d = j.qp.dims) | none => false
  let m1 := if j.qp.warm = 2 && m0.slv.kept.isSome && !keeps then m0.setKept none else m0
  let (pt, miss) := j.qp.scale.start (fdOfF32 (m1.rd Reg.SLV_PUSH)) (if keeps then m1.slv.kept.map (·.2) else none)
  let paced := j.own && m1.shadows
  let flags := j.src * 256 + (if miss then fWarmMiss else 0) + (if paced then fPaced else 0)
  let r : QpRun := ⟨j, pt, [(0, pt, none)], 0, 0, 0, 0, 0, 0, flags, e.ns, e.ns, none, 0, e.ns, none⟩
  let late := match toD with | some d => decide (d - 10000 < 54) | none => false
  let r1 := match (if j.src = 0 then m1.lawFails e j else none) with
    | some f => { r with flags := j.src * 256 }.endAs e.ns 3 f
    | none => if j.qp.zeroRow then r.endAs e.ns 4 0 else if late then r.endAs e.ns 5 0 else r
  m1.setRun (some r1)

/-- Nothing runs: the next problem or test starts, law before host before tests (R312). -/
def Mach.slvNext (m : Mach) (e : Env) : Mach :=
  if m.slv.run.isSome then m
  else match m.slv.law, m.slv.host with
    | j :: l, _ => ({ m with slv := { m.slv with law := l } }.sb .SLV_STS_bank_testing false).slvStart e j
    | [], some j =>
      (({ m with slv := { m.slv with host := none } }.sb .SLV_STS_host_pending false).sb .SLV_STS_bank_testing false).slvStart e j
    | [], none =>
      if m.slv.selfTest.isSome then (m.s .SLV_STS_state 3).sb .SLV_STS_bank_testing false
      else match m.slv.bankTest with
        | (b, _) :: _ => ((m.s .SLV_STS_state 3).sb .SLV_STS_bank_testing true).s .SLV_STS_test_bank b
        | [] => (m.s .SLV_STS_state 0).sb .SLV_STS_bank_testing false

/-- The stop instant lands (R325) in phase F (0), P to E (1) or between iterations (2). -/
def Mach.slvStop (m : Mach) (e : Env) (phase flags : Nat) : Mach :=
  match m.slv.run with
  | some r =>
    if r.ended.isSome then m
    else m.setRun (some (if r.k = 0 then r.endAs e.ns 5 flags else r.endAs e.ns 1 (flags ||| if phase = 0 then fMidfact else 0)))
  | none => m

/-- A law problem is submitted (R312, R313): it preempts a host problem, in the phase the solve has reached, and any test. -/
def Mach.slvSubmit (m : Mach) (e : Env) (j : QpJob) (phase : Nat) : Mach :=
  let m1 := { m with slv := { m.slv with law := m.slv.law ++ [j] } }
  match m.slv.run with
  | some r => if r.job.src = 1 then m1.slvStop e phase fPreempt else m1
  | none => m1.slvNext e

/-! ### Iterations (R314, R316, R321, R329) -/

/-- The event of a rejection (R335): NOTICE for the first of a solve, none after. -/
def Mach.slvRejected (m : Mach) (e : Env) (r : QpRun) (cause : Nat) : Mach :=
  let p := le 1 r.job.src ++ le 1 (r.k + 1) ++ le 1 cause ++ le 1 (r.s + 1)
  let m1 := m.event e 0x5801 (if r.rejected = 0 then some 2 else none) p
  (m1.setBit Reg.SLV_IRQ_STS 4 true).up .SLV_CNT_REJ_rejected

/-- The active's result reaches a paced solve that has completed its iterations (R314). -/
def QpRun.follow (r : QpRun) (now : Nat) : QpRun :=
  match r.summary with
  | some (st, k, fl) =>
    if r.ended.isNone && decide (k ≤ r.k) then { r with ended := some st, stop := now, flags := r.flags / 256 * 256 + (fl % 256 ||| fPaced) }
    else r
  | none => r

/-- An iterate is complete: the tests in the order of R321. -/
def Mach.slvComplete (m : Mach) (e : Env) (r : QpRun) (sc : QpScaled) (pt : QpPt) (ev : QpEval) : Mach :=
  let better := match r.bests with
    | (_, _, some b) :: _ => fdLt ev.merit b.merit
    | _ => true
  let k := r.k + 1
  let r1 := { r with pt := pt, k := k, rejRun := 0, heard := e.ns, bests := if better then (k, pt, some ev) :: r.bests else r.bests }
  let code := if r.job.qp.tol = 0 then m.g .SLV_CFG_tol else r.job.qp.tol
  let most := if r.job.qp.maxIter = 0 then m.g .SLV_CFG_max_iter else r.job.qp.maxIter
  let r2 := if fdLe ev.merit (fdOfRatio 1 (10 ^ code)) then r1.endAs e.ns 0 0
    else if sc.infeasible pt then r1.endAs e.ns 4 0
    else if most ≤ k then r1.endAs e.ns 2 0 else r1
  let m1 := if r.job.own && m.isActive then m.linkSend 5 m.otherController (le 1 0 ++ le 1 k) else m
  m1.setRun (some (r2.follow e.ns))

/-- An iteration completes or is rejected. A paced solve does not iterate ahead of the active's marks. -/
def Mach.slvIterate (m : Mach) (e : Env) : Mach :=
  match m.slv.run with
  | some r =>
    if r.ended.isSome || (r.flags.testBit 7 && decide (r.mark < r.k)) then m
    else
      let sc := r.job.qp.scale
      let o := sc.iterate (m.brk r.s) r.pt
      let r1 := { r with piv := r.piv + o.pivots, pivMax := max r.pivMax o.pivots }
      match o.out with
      | .ok (pt, ev) => m.slvComplete e r1 sc pt ev
      | .error cause =>
        let back := match r1.bests with | (_, p, _) :: _ => p | [] => r1.pt
        let r2 := { r1 with
          pt := back, s := r1.s + 1, rejected := r1.rejected + 1, rejRun := r1.rejRun + 1, flags := r1.flags ||| fRegUp }
        let r3 := if m.g .SLV_CFG_rej_max ≤ r2.rejRun then r2.endAs e.ns 3 0 else r2
        (m.slvRejected e r1 cause).setRun (some r3)
  | none => m

/-- BRACKEN_ITERATION_END (R316). -/
def execBrackenIterationEnd (s : State) : Host.Outcome State Fault Refusal := s.act fun e m => m.slvIterate e

/-- The solve in progress has a deadline, and its stop instant, 1 250 counts before it, has come (R12, R324). -/
def Mach.stopReached (m : Mach) (e : Env) : Bool :=
  match m.slv.run with
  | some r => (r.job.src == 1 || r.job.deadline.isSome)
      && decide (0 ≤ shortDiff e.now.short ((m.g .SLV_DEADLINE_deadline + 2 ^ 32 - 1250) % 2 ^ 32))
  | none => false

/-- SOLVE_STOP_INSTANT (R324, R325): where the stop instant landed. -/
def execSolveStopInstant (phase : Nat) (s : State) : Host.Outcome State Fault Refusal :=
  s.act fun e m => if m.stopReached e then m.slvStop e phase 0 else m

/-- The active's mark for an iteration arrives (R314). -/
def Mach.paceMark (m : Mach) (e : Env) (k : Nat) : Mach :=
  match m.slv.run with
  | some r => if r.flags.testBit 7 then m.setRun (some { r with mark := max r.mark k, heard := e.ns }) else m
  | none => m

/-- The active's summary of its result arrives (R314). -/
def Mach.paceSummary (m : Mach) (e : Env) (st k flags : Nat) : Mach :=
  match m.slv.run with
  | some r =>
    if r.flags.testBit 7 then m.setRun (some ({ r with summary := some (st, k, flags), mark := max r.mark k, heard := e.ns }.follow e.ns)) else m
  | none => m

/-- Pacing ends for the solve in progress: at a change of role to ACTIVE, or as lost (R314). -/
def Mach.slvUnpace (m : Mach) : Mach :=
  match m.slv.run with
  | some r => m.setRun (some { r with flags := if r.flags.testBit 7 then r.flags - fPaced else r.flags })
  | none => m

/-- PACE_LOST (R314): nothing heard for 2 ms while Bracken waits, since the wait began. -/
def execPaceLost (s : State) : Host.Outcome State Fault Refusal :=
  s.act fun e m => match m.slv.run with
    | some r =>
      if r.flags.testBit 7 && r.ended.isNone && decide (r.mark < r.k) && decide (r.heard + 2000000 ≤ e.ns) then
        (((m.slvUnpace.sb .SLV_STS_pace_lost true).event e 0x5806 (some 2) (le 1 r.mark)).setBit Reg.SLV_IRQ_STS 9 true)
      else m
    | none => m

/-! ### The end of a solve (R311, R321) -/

/-- The improvement a solve returns: the best of its iterates, of the active's k when it followed a summary. -/
def QpRun.pick (r : QpRun) : Option (Nat × QpPt × Option QpEval) :=
  let k := match r.summary with | some (_, k, _) => k | none => r.k
  r.bests.find? fun b => decide (b.1 ≤ k)

/-- Four FP64 values that the spec leaves open. -/
def Mach.free64 (m : Mach) : F64 × Mach := let a := m.free; let b := a.2.free; (b.1 ++ a.1, b.2)

/-- The evaluation of what is returned; without a completed iterate its residuals, gap and objective are open. -/
def Mach.endEval (m : Mach) (b : Option (Nat × QpPt × Option QpEval)) : QpEval × Bool × Mach :=
  match b with
  | some (_, _, some ev) => (ev, true, m)
  | _ =>
    let a := m.free64
    let b := a.2.free64
    let c := b.2.free64
    let d := c.2.free64
    (⟨a.1, b.1, c.1, fdNan, d.1⟩, false, d.2)

/-- The last-solve registers, the counters and the interrupt bits. -/
def Mach.slvLast (m : Mach) (r : QpRun) (st flags cyc : Nat) (ev : QpEval) (valid : Bool) : Mach :=
  let w := st + flags * 16 + r.k * 65536 + r.rejected * 2 ^ 24
  let m1 := (((m.wr Reg.SLV_LAST_STS (BitVec.ofNat 32 w)).wr Reg.SLV_LAST_MERIT (if valid then fdToF32 ev.merit else fpNan)).wr
    Reg.SLV_LAST_RP (fdToF32 ev.rp)).wr Reg.SLV_LAST_RD (fdToF32 ev.rd)
  let m2 := ((m1.wr Reg.SLV_LAST_GAP (fdToF32 ev.gap)).s .SLV_LAST_CYC_cycles (min cyc 0xFFFFFFFF)).wr Reg.SLV_LAST_PIV
    (BitVec.ofNat 32 (min r.piv 65535 + min r.pivMax 255 * 65536 + min r.s 15 * 2 ^ 24))
  let m3 := if st = 1 then m2.up .SLV_CNT_END_deadline else if st = 5 then m2.up .SLV_CNT_END_noiter
    else if st = 3 then m2.up .SLV_CNT_END_numeric else m2
  let m4 := if flags.testBit 1 then m3.up .SLV_CNT_REJ_midfact else m3
  let m5 := if r.job.src = 0 then let m := m4.upWrap .SLV_CNT_SOLVE_solves; if m.slv.kept.isSome then m.up .SLV_RET_age else m else m4
  let m6 := m5.setBit Reg.SLV_IRQ_STS r.job.src true
  if st = 3 then m6.setBit Reg.SLV_IRQ_STS 2 true else if st = 4 then m6.setBit Reg.SLV_IRQ_STS 3 true else m6

/-- The record header (R311). -/
def recordHead (r : QpRun) (st flags cyc : Nat) (ev : QpEval) : List Byte :=
  le 1 st ++ le 1 flags ++ le 1 r.k ++ le 1 r.rejected ++ le 4 (min cyc 0xFFFFFFFF) ++ f64Bytes ev.merit ++ f64Bytes ev.rp
    ++ f64Bytes ev.rd ++ f64Bytes ev.gap ++ f64Bytes ev.obj ++ le 1 (flags / 1024) ++ List.replicate 15 0

/-- The result record of a solve that ended with a status: registers, counters and event, the host's completion, the active's
summary, and the result as the law judges it. -/
def Mach.slvReport (m : Mach) (e : Env) (r : QpRun) (st : Nat) : Mach × QpResult :=
  let b := r.pick
  let (ev, valid, m0) := m.endEval b
  let flags := (if r.summary.isSome && r.flags.testBit 7 then r.flags else r.flags / 2 * 2) ||| (if valid then 1 else 0)
  let cyc := (r.stop - r.start) * 6 / 5
  let m1 := m0.slvLast r st flags cyc ev valid
  let m2 := if st = 3 then m1.event e 0x5802 (some 3) (le 1 r.job.src ++ le 1 r.k ++ le 1 flags) else m1
  let sc := r.job.qp.scale
  let out := b.map fun x => sc.outOf x.2.1
  let data := recordHead r st flags cyc ev ++ match out with | some p => r.job.qp.resultBytes p | none => []
  let m3 := match r.job.cmd with
    | some c => m2.complete e 0x58 c stOk (le 1 st ++ le 1 flags ++ le 1 r.k ++ le 1 r.rejected
        ++ le 4 (if valid then fdToF32 ev.merit else fpNan).toNat ++ le 4 (min cyc 0xFFFFFFFF)) data
    | none => m2
  let m4 := if r.job.own && m.isActive then m3.linkSend 5 m.otherController (le 1 1 ++ le 1 st ++ le 1 r.k ++ le 1 flags) else m3
  (m4, ⟨st, if valid then some ev.merit else none, flags, out.getD ⟨[], [], [], []⟩⟩)

/-- The result record of the solve in progress is written once it has ended; a law result goes to the law, and the next problem
starts. -/
def Mach.slvFinish (m : Mach) (e : Env) : Mach × Option QpResult :=
  match m.slv.run with
  | some r =>
    match r.ended with
    | some st =>
      let (m1, res) := m.slvReport e r st
      ((m1.setRun none).slvNext e, if r.job.src = 0 then some res else none)
    | none => (m, none)
  | none => (m, none)

/-! ### Scratch memory (R330, R331) and tests (R332) -/

/-- A march test is scheduled, unless the bank waits for one or is isolated. -/
def Mach.bankQueue (m : Mach) (e : Env) (b : Nat) (c : Option Cmd) : Mach :=
  { m with slv := { m.slv with bankTest := m.slv.bankTest ++ [(b, c)] } }.slvNext e

/-- A bank's verdict (R331, R639). -/
def Mach.bankVerdict (m : Mach) (e : Env) (b : Nat) (lasting pass : Bool) : Mach :=
  let mine := m.slv.bankTest.filter fun x => x.1 == b
  let m1 := { m with slv := { m.slv with bankTest := m.slv.bankTest.filter fun x => x.1 != b } }
  let m2 := (m1.faultVerdict 2 b (lasting || (m1.g .SLV_ECC_isolated).testBit b)).event e 0x5804 (some (if lasting then 4 else 2)) (le 1 b ++ le 1 (if lasting then 1 else 0))
  let m3 := if lasting then m2.s .SLV_ECC_isolated (m2.g .SLV_ECC_isolated ||| 2 ^ b) else m2
  let m4 := mine.foldl (fun m x => match x.2 with
    | some c => m.complete e 0x5D c stOk (le 1 (if pass then 0 else 1)) [] | none => m) (m3.setBit Reg.SLV_IRQ_STS 7 true)
  m4.slvNext e

/-- The bank under test. -/
def Mach.bankNow (m : Mach) : Option Nat :=
  if m.b .SLV_STS_bank_testing then m.slv.bankTest.head?.map (·.1) else none

/-- Errors at one address of a bank in three tests within 24 h. -/
def Mach.bankThrice (m : Mach) (e : Env) (b : Nat) : Bool :=
  m.faults.any fun f => f.cls == 2 && f.inst == b && decide (3 ≤ m.faultRecent e 2 b f.addr)

/-- SCRATCH_ECC_ERROR (R330, R640): `readable` whether the best completed iterate can be read without error. -/
def execScratchEccError (bank addr : Nat) (uncorrectable readable : Bool) (s : State) : Host.Outcome State Fault Refusal :=
  s.onInst (decide (bank < 8)) fun e m =>
    let p := le 1 bank ++ le 1 (if uncorrectable then 1 else 0) ++ le 4 addr
    let m1 := (m.faultNote e 2 bank addr).event e 0x5803 (some (if uncorrectable then 5 else 3)) p
    let m2 := if uncorrectable then (m1.up .SLV_ECC_ue).setBit Reg.SLV_IRQ_STS 6 true
      else (m1.up .SLV_ECC_ce).setBit Reg.SLV_IRQ_STS 5 true
    let m3 := match m2.slv.run with
      | some r =>
        if uncorrectable && r.ended.isNone then
          m2.setRun (some ({ r with bests := if readable then r.bests else [] }.endAs e.ns 3 fEcc))
        else m2
      | none => m2
    if m3.bankNow == some bank then m3.bankVerdict e bank true false
    else if m3.slv.bankTest.any (fun x => x.1 == bank) || (m3.g .SLV_ECC_isolated).testBit bank then m3
    else m3.bankQueue e bank none

/-- BANK_MARCH_TEST (R331): the march test of a bank ends. -/
def execBankMarchTest (bank : Nat) (pass : Bool) (s : State) : Host.Outcome State Fault Refusal :=
  s.onInst (decide (bank < 8)) fun e m =>
    if m.bankNow == some bank then m.bankVerdict e bank (!pass || m.bankThrice e bank) pass else m

/-- The last-solve registers after a self-test, whose problems lie in the firmware image (R332, R337): the source is the test, the rest is open. -/
def Mach.selfTestLast (m : Mach) : Mach :=
  let word (off : Nat) (m : Mach) : Mach := let f := m.free; f.2.wr off f.1
  let f := m.free
  let w := f.1.toNat
  let sts := w % 6 + w / 16 % 2 * 16 + w / 32 % 2 * 1024 + 2 * 4096 + w / 256 % 256 * 65536 + w / 65536 % 256 * 2 ^ 24
  let m1 := f.2.wr Reg.SLV_LAST_STS (BitVec.ofNat 32 sts)
  ([Reg.SLV_LAST_MERIT, Reg.SLV_LAST_RP, Reg.SLV_LAST_RD, Reg.SLV_LAST_GAP, Reg.SLV_LAST_CYC].foldl (fun m off => word off m) m1)
    |> fun m => let f := m.free; f.2.wr Reg.SLV_LAST_PIV (f.1 &&& 0x0FFFFFFF)

/-- The self-test ends (R332): the failing parts, and whether a command ordered it. -/
def Mach.selfTestEnd (m : Mach) (e : Env) (parts : Nat) : Mach :=
  let bad := parts % 8 != 0
  let p := le 1 (if bad then 1 else 0) ++ le 1 (parts % 8)
  let m1 := (m.event e 0x5805 (some (if bad then 5 else 2)) p).setBit Reg.SLV_IRQ_STS 8 true
  let m2 := if bad then (m1.sb .SLV_STS_selftest_fail true).sb .SLV_STS_selftest_ok false else m1.sb .SLV_STS_selftest_ok true
  let cmd := m.slv.selfTest
  let m3 := { m2.selfTestLast with slv := { m2.slv with selfTest := none } }
  (match cmd with | some (some c) => m3.complete e 0x5A c stOk p [] | _ => m3).slvNext e

/-- The self-test is the test in progress. -/
def Mach.selfTesting (m : Mach) : Bool := m.g .SLV_STS_state == 3 && !m.b .SLV_STS_bank_testing && m.slv.selfTest.isSome

/-! ### Commands (R333, R334) -/

/-- The module states in which Bracken serves the host. -/
def Mach.slvServes (m : Mach) : Bool := let st := m.g .GEN_STATE_state; st == 3 || st == 4 || st == 5

/-- SLV_SOLVE (0x58). -/
def execSlvSolve (c : Cmd) (s : State) : Host.Outcome State Fault Refusal :=
  s.act fun e m => runCmd 0x58 c false false (fun e m =>
    let busy := m.slv.host.isSome || match m.slv.run with | some r => r.job.src == 1 | none => false
    if c.u32 0 != c.data.length then m.fail stLen
    else if c.u32 4 = 0 || 10000000 < c.u32 4 then m.fail stRange
    else if !m.slvServes then m.fail stState
    else if busy then m.fail stBusy
    else match qpParse c.data m.slvBanks with
      | .error st => m.fail st
      | .ok q =>
        if c.bufLen < q.resultLen then m.fail stLen
        else .wait (({ m with slv := { m.slv with host := some ⟨1, false, q, none, some c, c.u32 4⟩ } }.sb .SLV_STS_host_pending true).slvNext e))
    e m

/-- SLV_CANCEL (0x59): a running host solve ends as at its stop instant; a pending one completes with NOITER. -/
def execSlvCancel (c : Cmd) (phase : Nat) (s : State) : Host.Outcome State Fault Refusal :=
  s.act fun e m => runCmd 0x59 c false false (fun e m =>
    let running := match m.slv.run with | some r => r.job.src == 1 && r.ended.isNone | none => false
    if running then .ok (m.slvStop e phase fCancel)
    else match m.slv.host with
      | some j =>
        let m1 := { m with slv := { m.slv with host := none } }.sb .SLV_STS_host_pending false
        let pt := (j.qp.scale.start (fdOfF32 (m.rd Reg.SLV_PUSH)) none).1
        let r : QpRun := ⟨j, pt, [(0, pt, none)], 0, 0, 0, 0, 0, 0, 256 + fCancel, e.ns, e.ns, none, 0, e.ns, none⟩
        .ok (m1.slvReport e r 5).1
      | none => m.fail stState) e m

/-- SLV_SELFTEST (0x5A). -/
def execSlvSelftest (c : Cmd) (s : State) : Host.Outcome State Fault Refusal :=
  s.act fun e m => runCmd 0x5A c false false (fun e m =>
    if !m.slvServes then m.fail stState
    else if m.slv.selfTest.isSome || !m.slv.bankTest.isEmpty then m.fail stBusy
    else .wait ({ m with slv := { m.slv with selfTest := some (some c) } }.slvNext e)) e m

/-- SLV_STATUS_GET (0x5C): SLV_STS to SLV_ECC, 72 bytes. -/
def execSlvStatusGet (c : Cmd) (s : State) : Host.Outcome State Fault Refusal :=
  s.act fun e m => runCmd 0x5C c false true (fun _ m =>
    let data := m.words Reg.SLV_STS 18
    let m1 := if c.u8 0 % 2 = 1 then
        (((m.wr Reg.SLV_CNT_SOLVE 0).wr Reg.SLV_CNT_END 0).wr Reg.SLV_CNT_REJ 0 |>.s .SLV_ECC_ue 0).s .SLV_ECC_ce 0
      else m
    .done m1 stOk [] data) e m

/-- SLV_BANK_TEST (0x5D). -/
def execSlvBankTest (c : Cmd) (s : State) : Host.Outcome State Fault Refusal :=
  s.act fun e m => runCmd 0x5D c false false (fun e m =>
    if 8 ≤ c.u8 0 then m.fail stRange
    else if !m.slvServes then m.fail stState
    else if m.slv.selfTest.isSome || !m.slv.bankTest.isEmpty then m.fail stBusy
    else .wait (m.bankQueue e (c.u8 0) (some c))) e m

end Sys2Proof.Machine
end

