-- ==== Sys2Proof/Machine/Dio.lean ====
section
/-!
DEFINITION. Field inputs and outputs (chapter 12): supply groups, digital inputs, digital and analogue outputs, their
commands, and a generator's trip input (R283).
Log: 76 (DEDUCED).
-/
namespace Sys2Proof.Machine

/-- The base tick in ns (R342). -/
def Mach.tickNs (m : Mach) : Nat := if m.b .STR_STS_slow_tick then 200000 else 50000

/-- The output delay in ns (R344). -/
def Mach.outDly (m : Mach) : Nat := m.g .STR_TIMING_out_dly * 1000

/-- The first base tick after the present instant. -/
def Mach.nextTick (m : Mach) (e : Env) : Nat := (e.ns / m.tickNs + 1) * m.tickNs

/-- The first base tick at or after an instant. -/
def Mach.tickAt (m : Mach) (t : Nat) : Nat := (t + m.tickNs - 1) / m.tickNs * m.tickNs

/-- The module state (R612). -/
def Mach.state (m : Mach) : Nat := m.g .GEN_STATE_state

def Mach.grp (m : Mach) (g : Nat) : VGroup := nth VGroup.reset m.dio.grp g
def Mach.setGrp (m : Mach) (g : Nat) (f : VGroup → VGroup) : Mach := { m with dio := { m.dio with grp := upd m.dio.grp g f } }
def Mach.di (m : Mach) (i : Nat) : DiSt := nth ⟨false, 0, 0, 0⟩ m.dio.di i
def Mach.setDi (m : Mach) (i : Nat) (f : DiSt → DiSt) : Mach := { m with dio := { m.dio with di := upd m.dio.di i f } }

/-- A DIO interrupt bit is raised (R455). -/
def Mach.dioIrq (m : Mach) (i : Nat) : Mach := m.setBit Reg.DIO_IRQ_STS i true

/-! ### Outputs (R442 to R449) -/

/-- The supply group of a digital output (R433). -/
def doGroup (j : Nat) : Nat := if j < 12 then 2 else 3

/-- The row of R445 that decides digital output j. -/
def Mach.doRow (m : Mach) (j : Nat) : Nat :=
  if (m.grp (doGroup j)).latch then 1
  else if m.state != 3 && m.state != 4 then 2
  else if m.bit Reg.DIO_DO_FLT j then 3
  else if !m.gate && !m.bit Reg.DIO_DO_UNGATED j then 4
  else 6

/-- The row of R445 that decides analogue output k. -/
def Mach.aoRow (m : Mach) (k : Nat) : Nat :=
  if (m.grp 3).latch then 1
  else if m.state != 3 && m.state != 4 then 2
  else if m.b (.DIO_AOk_CFG_flt k) then 3
  else if !m.gate then 4
  else if !m.b (.DIO_AOk_CFG_en k) || nth false m.dio.aoFree k then 5
  else if m.b (.DIO_AOk_CFG_claimed k) && (nth none m.dio.aoStr k).isNone then 5
  else 6

/-- A value driven by an analogue output (R446): the converter's value, exact, and whether it was clipped. -/
def aoConvert (current : Bool) (v : Word) : Word × Bool :=
  let full := if current then 24 else 21
  let lo : Int := if current then 0 else -32768
  let hi : Int := if current then 65535 else 32767
  let code : Int := if fpIsInf v then (if fpNeg v then lo - 1 else hi + 1) else fpScaleRound v 65536 full
  let code' := clampInt lo hi code
  (fpOfRatio (code' * full) 65536, code' != code)

/-- What output k drives for a value: a NaN drives the off value and sets clip (R446). -/
def Mach.aoValue (m : Mach) (k : Nat) (v : Word) : Word × Bool :=
  let current := m.b (.DIO_AOk_CFG_mode k)
  let off := m.rd (Reg.DIO_AOk_OFF k)
  if !fpIsNan v then aoConvert current v
  else if fpIsNan off then (Config.aoNanOff k, true)
  else ((aoConvert current off).1, true)

/-- Digital output j switches. -/
def Mach.doDrive (m : Mach) (j : Nat) (v : Bool) : Mach :=
  if m.bit Reg.DIO_DO_STATE j = v then m else (m.setBit Reg.DIO_DO_STATE j v).emit "DO" j (if v then 1 else 0)

/-- Analogue output k takes a value; none is high impedance, and DIO_AOk_OUT then reads 0.0 (R446). -/
def Mach.aoDrive (m : Mach) (k : Nat) (v : Option Word) (live : Bool) : Mach :=
  let (w, clip) := match v with | some x => m.aoValue k x | none => (0, false)
  let m1 := (m.sb (.DIO_AOk_CFG_live k) live).sb (.DIO_AOk_CFG_clip k) clip
  (m1.wr (Reg.DIO_AOk_OUT k) w).emit "AO" k (match v with | some _ => (w.toNat : Int) | none => -1)

/-- An analogue output under rows 1 to 5 of R445. -/
def Mach.aoOff (m : Mach) (k : Nat) : Mach :=
  match m.aoRow k with
  | 1 => m.aoDrive k none false
  | 3 => m.aoDrive k none false
  | _ => if m.state ≤ 1 then m.aoDrive k none false else m.aoDrive k (some (m.rd (Reg.DIO_AOk_OFF k))) false

/-- Every output that rows 1 to 5 of R445 hold leaves its commanded state at once. -/
def Mach.dioWithdraw (m : Mach) : Mach :=
  let m1 := iter 16 (fun j m => if m.doRow j < 6 then m.doDrive j false else m) m
  iter 8 (fun k m => if m.aoRow k < 6 && (m.b (.DIO_AOk_CFG_live k) || m.rd (Reg.DIO_AOk_OUT k) != 0) then m.aoOff k else m) m1

/-- The value an analogue output takes when row 6 of R445 decides (R447). -/
def Mach.aoWanted (m : Mach) (k : Nat) : Word :=
  if m.b (.DIO_AOk_CFG_claimed k) then (nth none m.dio.aoStr k).getD 0 else m.rd (Reg.DIO_AOk_VAL k)

/-- The sets that are due at a base tick are stored in the command and value registers (R442, R447). -/
def Mach.dioSets (m : Mach) (tk : Nat) : Mach :=
  m.dio.sets.foldl (fun m x =>
    if tk < x.1 then m
    else if x.2.1 < 16 then m
    else if x.2.1 = 16 then
      let mask := x.2.2.1
      m.s .DIO_DO_CMD_cmd ((m.g .DIO_DO_CMD_cmd &&& (65535 - mask)) ||| (x.2.2.2.toNat &&& mask))
    else
      let k := x.2.1 - 17
      if m.b (.DIO_AOk_CFG_claimed k) then m
      else { m.wr (Reg.DIO_AOk_VAL k) x.2.2.2 with dio := { m.dio with aoFree := upd m.dio.aoFree k fun _ => false } })
    { m with dio := { m.dio with sets := m.dio.sets.filter fun x => decide (tk < x.1) } }

/-- What a base tick takes for the outputs it will drive at its output instant (R442, R445). -/
def Mach.dioTick (m : Mach) (tk : Nat) : Mach :=
  let m1 := m.dioSets tk
  let do_ := (List.range 16).map fun j => if m1.doRow j = 6 then some (m1.bit Reg.DIO_DO_CMD j) else none
  let ao := (List.range 8).map fun k => if m1.aoRow k = 6 then some (m1.aoWanted k) else none
  { m1 with dio := { m1.dio with doTick := do_, aoTick := ao, rearmTick := m1.dio.rearmTick ||| m1.dio.rearm, rearm := 0 } }

/-- An analogue output at an output instant: a string's value drives at the instant of its computation (R447). -/
def Mach.aoInstant (m : Mach) (k : Nat) (fresh : Bool) : Mach :=
  if m.aoRow k != 6 then m.aoOff k
  else if fresh || (m.b (.DIO_AOk_CFG_claimed k) && (nth none m.dio.aoTick k).isSome) then m.aoDrive k (some (m.aoWanted k)) true
  else match nth none m.dio.aoTick k with
    | some v => m.aoDrive k (some v) true
    | none => m

/-- An output instant: each output takes what its tick decided, unless a row of R445 holds it by now; then the DIO_REARM of
the groups whose clear took effect is posted. -/
def Mach.dioInstant (m : Mach) (e : Env) (fresh : List Nat) : Mach :=
  let m1 := iter 16 (fun j m =>
    if m.doRow j < 6 then m.doDrive j false
    else match nth none m.dio.doTick j with
      | some v => m.doDrive j v
      | none => m) m
  let m2 := iter 8 (fun k m => m.aoInstant k (fresh.contains k)) m1
  if m2.dio.rearmTick = 0 then m2
  else ({ m2 with dio := { m2.dio with rearmTick := 0 } }).event e 0x7802 (some 2) (le 1 m2.dio.rearmTick)

def execDioDoCmdWrite (value : Word) (s : State) : Host.Outcome State Fault Refusal :=
  s.act fun e m => m.hostPut e.locked true Reg.DIO_DO_CMD value

def execDoOverload (j : Nat) (s : State) : Host.Outcome State Fault Refusal :=
  s.onInst (decide (j < 16)) fun e m =>
    if m.bit Reg.DIO_DO_FLT j then m
    else (((m.setBit Reg.DIO_DO_FLT j true).doDrive j false).dioIrq 9).event e 0x7803 (some 3) (le 1 j ++ le 1 1)

def execAoFault (k : Nat) (s : State) : Host.Outcome State Fault Refusal :=
  s.onInst (decide (k < 8)) fun e m =>
    if m.b (.DIO_AOk_CFG_flt k) || m.aoRow k = 1 then m
    else (((m.sb (.DIO_AOk_CFG_flt k) true).aoOff k).dioIrq 10).event e 0x7804 (some 3)
      (le 1 k ++ le 1 (m.g (.DIO_AOk_CFG_mode k)) ++ le 1 1)

/-- An analogue output in fault for a string (R356, R448). -/
def Mach.aoFaulty (m : Mach) (k : Nat) : Bool := m.b (.DIO_AOk_CFG_flt k) || (m.grp 3).latch

/-! ### Supply groups (R433 to R437) -/

/-- The measured voltage of a group in mV. -/
def Mach.vfMv (m : Mach) (g : Nat) : Nat :=
  match g with
  | 0 => m.g .DIO_VF_MEAS0_mv_lo | 1 => m.g .DIO_VF_MEAS0_mv_hi | 2 => m.g .DIO_VF_MEAS1_mv_lo | _ => m.g .DIO_VF_MEAS1_mv_hi

/-- DIO_VFIELD for a group (R436, R454). -/
def Mach.vfEvent (m : Mach) (e : Env) (g old : Nat) : Mach :=
  let l := (m.grp g).level
  m.event e 0x7801 (some (match l with | 0 => 2 | 1 => 3 | _ => 4)) (le 1 g ++ le 1 old ++ le 1 l ++ le 2 (m.vfMv g))

/-- The groups for which a property holds, as a mask. -/
def Mach.grpMask (m : Mach) (f : VGroup → Bool) : Nat :=
  ((List.range 4).map fun g => if f (m.grp g) then 2 ^ g else 0).sum

/-- Reporting follows the module state and the field test (R436). -/
def Mach.dioReport (m : Mach) (e : Env) : Mach :=
  let per := m.state == 4 && m.dio.test.isNone
  let was := m.b .DIO_STS_per_group
  let mask (f : VGroup → Bool) : Nat := if per then m.grpMask f else 0
  let common := !per && m.grpMask (fun g => g.level != 0 || g.latch) != 0
  let old := m.b .DIO_STS_vf_common
  let m1 := (((((m.sb .DIO_STS_testing m.dio.test.isSome).sb .DIO_STS_per_group per).sb .DIO_STS_vf_common common).s .DIO_STS_vf_warn
    (mask fun g => g.level != 0)).s .DIO_STS_vf_off (mask fun g => g.latch)).s .DIO_STS_vf_missing (mask fun g => g.level == 3)
  let m2 := if common != old then m1.dioIrq 8 else m1
  let m3 := if common != old && !per then
      m2.event e 0x7801 (some (if common then 3 else 2)) (le 1 0xF ++ le 1 (if old then 1 else 0) ++ le 1 (if common then 1 else 0)
        ++ le 2 ((List.range 4).foldl (fun a g => min a (m.vfMv g)) 65535))
    else m2
  if per && !was then iter 4 (fun g m => if (m.grp g).level != 0 then m.vfEvent e g (m.grp g).level else m) m3 else m3

/-- The inputs of a group are not valid (R437). -/
def Mach.diInvalid (m : Mach) (g : Nat) : Mach :=
  iter 16 (fun i m =>
    let n := 16 * g + i
    let m1 := m.setDi n fun d => { d with phase := if d.phase = 0 then 0 else 1 }
    (m1.setBit Reg.DIO_DI_VALID n false).sb (.DIO_DIi_STS_valid n) false) m

/-- An input restarts its filter (R437): counter and state 0. -/
def Mach.diRestart (m : Mach) (i : Nat) : Mach :=
  (((m.setDi i fun d => { d with cnt := 0, n := 0, phase := 2 }).setBit Reg.DIO_DI_STATE i false).sb (.DIO_DIi_STS_state i) false)

/-- The group of an input has been OK for 100 ms. -/
def Mach.grpReady (m : Mach) (g : Nat) : Bool := (m.grp g).level == 0 && decide (10000 ≤ (m.grp g).okFor)

/-- A group enters a level (R434 to R437). -/
def Mach.grpEnter (m : Mach) (e : Env) (g lvl : Nat) : Mach :=
  let old := (m.grp g).level
  if old = lvl then m
  else
    let m1 := (m.setGrp g fun x => { x with level := lvl, okFor := 0, latch := x.latch || decide (2 ≤ lvl) }).dioIrq (4 + g)
    let m2 := if 2 ≤ lvl then (if g < 2 then m1.diInvalid g else m1.dioWithdraw) else m1
    (if m2.b .DIO_STS_per_group then m2.vfEvent e g old else m2).dioReport e

/-- One measurement of a group (R434): a level holds when its condition has held at measurements that span its time; 18 V to
19 V keeps the level. -/
def Mach.grpMeasure (m : Mach) (e : Env) (g mv : Nat) : Mach :=
  let run (c : Bool) (n : Nat) : Nat := if c then min (n + 1) 20000 else 0
  let m1 := m.setGrp g fun x =>
    { x with okRun := run (decide (19000 ≤ mv)) x.okRun, warnRun := run (decide (mv < 18000)) x.warnRun,
             offRun := run (decide (mv < 14000)) x.offRun, missRun := run (decide (mv < 5000)) x.missRun,
             okFor := if x.level = 0 then min (x.okFor + 1) 20000 else 0 }
  let x := m1.grp g
  let low := if 11 ≤ x.missRun then 3 else if 11 ≤ x.offRun then 2 else if 101 ≤ x.warnRun then 1 else 0
  let m2 := if 10001 ≤ x.okRun then m1.grpEnter e g 0 else if x.level < low then m1.grpEnter e g low else m1
  if g < 2 && (m2.grp g).okFor = 10000 && m2.grpReady g then
    iter 16 (fun i m => if (m.di (16 * g + i)).phase = 1 then m.diRestart (16 * g + i) else m) m2
  else m2

/-- The field side measures and samples every 10 µs (R433, R439): 2 500 TIME cycles after the last time. -/
def fieldDue (last : Option Nat) (e : Env) : Bool := match last with | some t => decide (t + 2500 ≤ e.powered) | none => true

/-- The four voltages in mV are measured, and the levels follow. -/
def Mach.vfMeasure (m : Mach) (e : Env) (v : Nat → Nat) : Mach :=
  let m0 := { m with dio := { m.dio with vfAt := some e.powered } }
  let m1 := (((m0.s .DIO_VF_MEAS0_mv_lo (v 0)).s .DIO_VF_MEAS0_mv_hi (v 1)).s .DIO_VF_MEAS1_mv_lo (v 2)).s .DIO_VF_MEAS1_mv_hi (v 3)
  iter 4 (fun g m => m.grpMeasure e g (v g)) m1

def execVfieldMeasure (mv : List Nat) (s : State) : Host.Outcome State Fault Refusal :=
  s.act fun e m => if fieldDue m.dio.vfAt e then m.vfMeasure e fun g => min (mv.getD g 0) 65535 else m

/-! ### Generator trip inputs (R283, R285) -/

/-- The generators of a bus with a property, as a mask. -/
def Mach.genMask (m : Mach) (b : Nat) (f : Nat → Bool) : Nat :=
  ((List.range 8).map fun g => if m.b (.STR_PL_GENg_CFG_en g) && m.g (.STR_PL_GENg_CFG_bus g) == b && f g then 2 ^ g else 0).sum

/-- BUSb_STS shows the generators of each bus (R299). -/
def Mach.busSync (m : Mach) : Mach :=
  iter 4 (fun b m => (m.s (.STR_PL_BUSb_STS_online b) (m.genMask b fun g => m.b (.STR_PL_GENg_CFG_online g))).s
    (.STR_PL_BUSb_STS_tripped b) (m.genMask b fun g => m.b (.STR_PL_GENg_CFG_tripped g))) m

/-- A generator trips: it stays offline, its capacity leaves the bus, PL_TRIP is posted, and its trip set waits for the next base
tick. -/
def Mach.genTrip (m : Mach) (e : Env) (g : Nat) : Mach :=
  if m.b (.STR_PL_GENg_CFG_tripped g) then m
  else
    let b := m.g (.STR_PL_GENg_CFG_bus g)
    let k := match nth none m.pl.trips g with | some t => t.1 | none => 0x3F800000
    let m1 := ((m.sb (.STR_PL_GENg_CFG_tripped g) true).sb (.STR_PL_GENg_CFG_online g) false).busSync
    let m2 := m1.wr (Reg.STR_PL_BUSb_EFF b) (fpSub (m1.rd (Reg.STR_PL_BUSb_EFF b)) (m1.rd (Reg.STR_PL_GENg_CAP g)))
    let m3 := { m2 with pl := { m2.pl with tripDue := m2.pl.tripDue ++ [g], tripped := m2.pl.tripped ++ [g] } }
    ((m3.sb .STR_PL_STS_trip true).setBit Reg.STR_PL_IRQ_STS 6 true).event e 0x5007 (some 4) (le 1 g ++ le 1 b ++ le 4 k.toNat)

/-- An active trip input trips the generators it belongs to. -/
def Mach.tripInput (m : Mach) (e : Env) (i : Nat) : Mach :=
  iter 8 (fun g m =>
    if m.b (.STR_PL_GENg_CFG_en g) && m.b (.STR_PL_GENg_CFG_trip_en g) && m.g (.STR_PL_GENg_CFG_trip_in g) == i
    then m.genTrip e g else m) m

/-! ### Digital inputs (R437 to R441) -/

/-- Bits 0 to 3 of DIO_IRQ_STS hold while an edge of their inputs is latched (R455). -/
def Mach.diIrq (m : Mach) : Mach :=
  iter 4 (fun q m => m.setBit Reg.DIO_IRQ_STS q ((m.rd Reg.DIO_DI_EVT).toNat / 256 ^ q % 256 != 0)) m

/-- An accepted edge (R440, R441). -/
def Mach.diEdge (m : Mach) (e : Env) (i : Nat) (v : Bool) : Mach :=
  let m1 := ((m.upWrap (.DIO_DIi_STS_edges i)).s (.DIO_DIi_STMP_stmp i) e.now.short)
  let m2 := if (m1.g (.DIO_DIi_CFG_edge i)).testBit (if v then 0 else 1) then (m1.setBit Reg.DIO_DI_EVT i true).diIrq else m1
  let m3 := match m2.dio.stream with
    | some (q, mask) => if mask.toNat.testBit i then m2.stream e q 8 i (if v then 1 else 0) e.now.bytes else m2
    | none => m2
  if v then m3.tripInput e i else m3

/-- An input's filtered state. -/
def Mach.diState (m : Mach) (i : Nat) (v : Bool) : Mach := (m.setBit Reg.DIO_DI_STATE i v).sb (.DIO_DIi_STS_state i) v

/-- One sample of an input at a pin voltage in mV (R438, R439). -/
def Mach.diSample (m : Mach) (e : Env) (i mv : Nat) : Mach :=
  let d := m.di i
  let comp := if m.g (.DIO_DIi_CFG_thr_on i) * 250 < mv then true
    else if mv < m.g (.DIO_DIi_CFG_thr_off i) * 250 then false else d.comp
  if d.phase < 2 then m.setDi i fun d => { d with comp := comp }
  else
    let lim := m.g (.DIO_DIi_CFG_limit i)
    let x := comp != m.b (.DIO_DIi_CFG_invert i)
    let cnt := if x then min (d.cnt + 1) lim else d.cnt - 1
    let was := m.bit Reg.DIO_DI_STATE i
    let v := if cnt = lim then true else if cnt = 0 then false else was
    let m1 := m.setDi i fun d => { d with comp := comp, cnt := cnt, n := min (d.n + 1) 2000 }
    if d.phase = 2 then
      if d.n + 1 < lim then m1
      else (((m1.setDi i fun d => { d with phase := 3 }).diState i (cnt == lim)).setBit Reg.DIO_DI_VALID i true).sb
        (.DIO_DIi_STS_valid i) true
    else if v = was then m1 else (m1.diState i v).diEdge e i v

def execDiSample (mv : List Nat) (s : State) : Host.Outcome State Fault Refusal :=
  s.act fun e m =>
    if fieldDue m.dio.diAt e then iter 32 (fun i m => m.diSample e i (mv.getD i 0)) { m with dio := { m.dio with diAt := some e.powered } }
    else m

/-- The checks of R438 and R457 on an input's fields. -/
def diOk (w : Nat) : Bool :=
  let on := w / 256 % 128
  let off := w % 128
  w / 2 ^ 20 % 1024 != 0 && decide (20 ≤ on) && decide (on ≤ 80) && decide (20 ≤ off) && decide (off < on)

/-- What follows a change of an input's en (R437, R457). -/
def Mach.diEnChange (m : Mach) (i : Nat) (was : Bool) : Mach :=
  let now_ := m.b (.DIO_DIi_CFG_en i)
  if was = now_ then m
  else if now_ then if m.grpReady (i / 16) then m.diRestart i else m.setDi i fun d => { d with phase := 1 }
  else ((m.setDi i fun d => { d with phase := 0 }).diState i false |>.setBit Reg.DIO_DI_VALID i false).sb (.DIO_DIi_STS_valid i) false

/-- A host write of an input's CFG (R438, R457). -/
def Mach.diCfgWrite (m : Mach) (e : Env) (i : Nat) (v : Word) : Mach :=
  let was := m.b (.DIO_DIi_CFG_en i)
  let m1 := m.hostPut e.locked (!was && !e.locked) (Reg.DIO_DIi_CFG i) v
  let m2 := if m1.g (.DIO_DIi_CFG_limit i) = 0 then m1.s (.DIO_DIi_CFG_limit i) (m.g (.DIO_DIi_CFG_limit i)) else m1
  if !was && m2.b (.DIO_DIi_CFG_en i) && !diOk (m2.rd (Reg.DIO_DIi_CFG i)).toNat then
    (m2.sb (.DIO_DIi_CFG_en i) false).sb (.DIO_DIi_STS_cfg_err i) true
  else m2.diEnChange i was

def execDioDiEnable (n : Nat) (value : Word) (s : State) : Host.Outcome State Fault Refusal :=
  s.onInst (decide (n < 32)) fun e m => m.diCfgWrite e n value

/-! ### Commands (R451 to R453) -/

/-- An apply-at (R452): the base tick at which it applies, or the status it completes with. -/
def Mach.applyAt (m : Mach) (e : Env) (short : Nat) : Except Nat Nat :=
  if short = 0 then .ok (m.nextTick e)
  else
    let d := shortDiff short e.now.short
    let t := e.expand short
    if d < 0 || t < m.nextTick e then .error stLate
    else if 1250000000 < d then .error stRange
    else .ok (m.tickAt t)

/-- The short stamp of the output instant of a base tick. -/
def Mach.outShort (m : Mach) (tk : Nat) : List Byte := le 4 ((tk + m.outDly) / 8 % 2 ^ 32)

def execDioCfg (c : Cmd) (s : State) : Host.Outcome State Fault Refusal :=
  s.act fun e m => runCmd 0x78 c e.isSealed false (fun _ m =>
    let di (i : Nat) : Nat := c.d32 (4 + 4 * i)
    let ao (k : Nat) : Nat := c.d32 (132 + 8 * k)
    let off (k : Nat) : Word := BitVec.ofNat 32 (c.d32 (136 + 8 * k))
    let busyDi := (List.range 32).any fun i => m.b (.DIO_DIi_CFG_en i)
      && ((m.rd (Reg.DIO_DIi_CFG i) ^^^ BitVec.ofNat 32 (di i)) &&& 0x3FF27F7F) != 0
    let busyAo := (List.range 8).any fun k => (m.b (.DIO_AOk_CFG_en k) || m.b (.DIO_AOk_CFG_claimed k))
      && (m.g (.DIO_AOk_CFG_mode k) != ao k / 2 % 2 || m.rd (Reg.DIO_AOk_OFF k) != off k)
    if c.data.length != 196 then m.fail stLen
    else if busyDi || busyAo then m.fail stState
    else if (List.range 32).any fun i => di i / 2 ^ 20 % 1024 == 0 || ((di i).testBit 16 && !diOk (di i)) then m.fail stRange
    else
      let m1 := m.s .DIO_DO_UNGATED_ungated (c.d32 0)
      let m2 := iter 32 (fun i m =>
        let was := m.b (.DIO_DIi_CFG_en i)
        (m.putImage (Reg.DIO_DIi_CFG i) (BitVec.ofNat 32 (di i))).diEnChange i was) m1
      let m3 := iter 8 (fun k m =>
        ((m.s (.DIO_AOk_CFG_mode k) (ao k / 2)).s (.DIO_AOk_CFG_en k) (ao k)).wr (Reg.DIO_AOk_OFF k) (off k)) m2
      .ok m3.dioWithdraw) e m

/-- A set joins those that wait. -/
def Mach.dioSet (m : Mach) (tk out mask : Nat) (v : Word) : Mach :=
  { m with dio := { m.dio with sets := m.dio.sets ++ [(tk, out, mask, v)] } }

def execDioDoSet (c : Cmd) (s : State) : Host.Outcome State Fault Refusal :=
  s.act fun e m => runCmd 0x79 c false false (fun e m =>
    match m.applyAt e (c.u32 4) with
    | .error st => m.fail st
    | .ok tk => .done (m.dioSet tk 16 (c.u16 0) (BitVec.ofNat 32 (c.u16 2))) stOk (m.outShort tk) []) e m

def execDioAoSet (c : Cmd) (s : State) : Host.Outcome State Fault Refusal :=
  s.act fun e m => runCmd 0x7A c false false (fun e m =>
    let k := c.u8 0
    if 8 ≤ k then m.fail stRange
    else if m.b (.DIO_AOk_CFG_claimed k) || !m.b (.DIO_AOk_CFG_en k) then m.fail stState
    else match m.applyAt e (c.u32 8) with
      | .error st => m.fail st
      | .ok tk => .done (m.dioSet tk (17 + k) 0 (BitVec.ofNat 32 (c.u32 4))) stOk (m.outShort tk) []) e m

def execDioRearm (c : Cmd) (s : State) : Host.Outcome State Fault Refusal :=
  s.act fun e m => runCmd 0x7B c false false (fun e m =>
    let named (g : Nat) : Bool := (c.u8 0).testBit g
    let service := m.state == 4
    if service && (List.range 4).any fun g => named g && ((m.grp g).level != 0 || (m.grp g).bad) then m.fail stState
    else if (List.range 4).any fun g => named g && (m.grp g).bad then m.fail stState
    else
      let take (g : Nat) : Bool := (named g || !service) && (m.grp g).level == 0 && (m.grp g).latch && !(m.grp g).bad
      let mask := ((List.range 4).map fun g => if take g then 2 ^ g else 0).sum
      let m1 := iter 4 (fun g m => if mask.testBit g then m.setGrp g fun x => { x with latch := false } else m) m
      .done (({ m1 with dio := { m1.dio with rearm := m1.dio.rearm ||| mask } }).dioReport e) stOk (le 1 mask) []) e m

def execDioFaultClr (c : Cmd) (hot : Nat) (s : State) : Host.Outcome State Fault Refusal :=
  s.act fun e m => runCmd 0x7C c false false (fun e m =>
    let dos := c.u16 0 &&& m.g .DIO_DO_FLT_flt
    if dos &&& hot != 0 then m.fail stState
    else
      let m1 := iter 16 (fun j m =>
        if dos.testBit j then (m.setBit Reg.DIO_DO_FLT j false).event e 0x7803 (some 3) (le 1 j ++ le 1 0) else m) m
      .ok (iter 8 (fun k m =>
        if (c.u8 2).testBit k && m.b (.DIO_AOk_CFG_flt k) then
          (m.sb (.DIO_AOk_CFG_flt k) false).event e 0x7804 (some 3) (le 1 k ++ le 1 (m.g (.DIO_AOk_CFG_mode k)) ++ le 1 0)
        else m) m1)) e m

def execDioStream (c : Cmd) (s : State) : Host.Outcome State Fault Refusal :=
  s.act fun e m => runCmd 0x7D c false false (fun _ m =>
    let q := c.u8 0
    if !queueOk q then m.fail stRange
    else if q != 0xFF && !m.b (qEn .stq q) then m.fail stState
    else .ok { m with dio := { m.dio with stream := if q = 0xFF then none else some (q, BitVec.ofNat 32 (c.u32 4)) } }) e m

/-- An output of a group is on (R451). -/
def Mach.grpOn (m : Mach) (g : Nat) : Bool :=
  (List.range 16).any (fun j => doGroup j == g && m.bit Reg.DIO_DO_STATE j)
    || (g == 3 && (List.range 8).any fun k => m.b (.DIO_AOk_CFG_live k))

def execDioTest (c : Cmd) (s : State) : Host.Outcome State Fault Refusal :=
  s.act fun e m => runCmd 0x7E c false false (fun e m =>
    let g := c.u8 0
    if 4 ≤ g then m.fail stRange
    else if m.dio.test.isSome then m.fail stBusy
    else if m.grpOn g then m.fail stState
    else .wait (({ m with dio := { m.dio with test := some (g, c) } }).dioReport e)) e m

/-- A field test ends with the parts that failed (R451, R638): bit 0 inputs, bit 1 outputs; a group that fails keeps its latch
set until a test passes. -/
def Mach.fieldTestEnd (m : Mach) (e : Env) (part : Nat) : Mach :=
  match m.dio.test with
  | none => m
  | some (g, c) =>
    let bad := part % 4 != 0
    let m1 := ({ m with dio := { m.dio with test := none } }.setGrp g fun x => { x with bad := bad, latch := x.latch || bad }).dioIrq 11
    let m2 := if bad then ((m1.faultNote e 7 g 0).faultVerdict 7 g true).dioWithdraw.event e 0x7805 (some 5) (le 1 g ++ le 1 (part % 4))
      else m1.faultVerdict 7 g false
    (m2.dioReport e).complete e 0x7E c stOk (le 1 (if bad then 1 else 0) ++ le 1 (part % 4)) []

def execFieldTestEnd (part : Nat) (s : State) : Host.Outcome State Fault Refusal := s.act fun e m => m.fieldTestEnd e part

def execDioStatusGet (c : Cmd) (s : State) : Host.Outcome State Fault Refusal :=
  s.act fun e m => runCmd 0x7F c false true (fun _ m =>
    .done m stOk [] (m.words Reg.DIO_STS 10 ++ m.regBytes ((List.range 8).map Reg.DIO_AOk_CFG))) e m

/-! ### Host writes (R456, R457) -/

/-- A host write of any other DIO register. -/
def Mach.dioWrite (m : Mach) (e : Env) (off : Nat) (v : Word) : Mach :=
  if off < 0x000A0100 then ((m.hostPut e.locked true off v).diIrq).dioWithdraw
  else if off < 0x000A0400 then m.hostPut e.locked true off v
  else
    let k := (off - 0x000A0400) / 16
    let claimed := m.b (.DIO_AOk_CFG_claimed k)
    if off = Reg.DIO_AOk_VAL k then
      if claimed then m
      else { m.hostPut e.locked true off v with dio := { m.dio with aoFree := upd m.dio.aoFree k fun _ => false } }
    else
      let en := m.b (.DIO_AOk_CFG_en k)
      (m.hostPut e.locked (!en && !claimed && !e.locked) off v).dioWithdraw

end Sys2Proof.Machine
end

