-- ==== Sys2Proof/Machine/Drn.lean ====
section
/-!
DEFINITION. Drone (chapter 10): a learner's phase, term, learning and decay within its string's computation, and what its
commands do to it.
Log: 43 (DEDUCED), 73 (DEDUCED).
-/
namespace Sys2Proof.Machine

/-- String t. -/
def Mach.sg (m : Mach) (t : Nat) : StrSt := nth StrSt.reset m.str.st t
def Mach.setSg (m : Mach) (t : Nat) (f : StrSt → StrSt) : Mach := { m with str := { m.str with st := upd m.str.st t f } }

/-- The learner of string t. -/
def Mach.dr (m : Mach) (t : Nat) : DrnSt := nth DrnSt.reset m.str.drn t
def Mach.setDr (m : Mach) (t : Nat) (f : DrnSt → DrnSt) : Mach := { m with str := { m.str with drn := upd m.str.drn t f } }

/-- A Drone interrupt bit is raised (R398). -/
def Mach.drIrq (m : Mach) (i : Nat) : Mach := m.setBit Reg.STR_DRN_IRQ_STS i true

def Mach.strState (m : Mach) (t : Nat) : Nat := m.g (.STR_Ss_STS_state t)

/-- Nt of a learner. -/
def Mach.drNt (m : Mach) (t : Nat) : Nat := m.g (.STR_DRN_Ss_CFG_nt t)

/-! ### Allocation (R381, R382) -/

/-- The allocation is valid for the configured Nt (R381), and none of its pages is isolated (R638). -/
def Mach.drAllocOk (m : Mach) (t : Nat) : Bool :=
  let nt := m.drNt t
  let n := m.g (.STR_DRN_Ss_ALLOC_count t)
  decide (8 ≤ nt) && decide (nt ≤ 4096) && decide (1 ≤ n) && decide (n ≤ 64) && decide (nt ≤ 64 * n)
    && decide (m.g (.STR_DRN_Ss_ALLOC_base t) + n ≤ 256)
    && (List.range n).all fun j => !m.str.badPages.contains (m.g (.STR_DRN_Ss_ALLOC_base t) + j)

/-- Page p belongs to learner t. -/
def Mach.drHolds (m : Mach) (t p : Nat) : Bool :=
  let b := m.g (.STR_DRN_Ss_ALLOC_base t)
  decide (b ≤ p) && decide (p < b + m.g (.STR_DRN_Ss_ALLOC_count t))

/-- STR_DRN_MAPw, free_pages and alloc_ok follow the allocations (R382, R400). -/
def Mach.drSync (m : Mach) (t : Nat) : Mach :=
  let used (m : Mach) (p : Nat) : Bool := (List.range 48).any fun k => m.drHolds k p
  let m1 := iter 8 (fun w m => m.wr (Reg.STR_DRN_MAPw w)
    (BitVec.ofNat 32 ((List.range 32).map fun b => if used m (32 * w + b) then 2 ^ b else 0).sum)) m
  let n := ((List.range 48).map fun k => m.g (.STR_DRN_Ss_ALLOC_count k)).sum
  (m1.s .STR_DRN_STS_free_pages (256 - n)).sb (.STR_DRN_Ss_STS_alloc_ok t) (m1.drAllocOk t)

/-- Every entry of a table is 0.0; passes count anew (R382, R400). -/
def Mach.drZero (m : Mach) (t : Nat) : Mach :=
  (m.setDr t fun x => { x with table := List.replicate (64 * m.g (.STR_DRN_Ss_ALLOC_count t)) 0, commits := [] }).s
    (.STR_DRN_Ss_STS_passes t) 0

/-- A table is reset (R390, R397): causes 0 HOST, 1 STATE_ACTION, 2 NONFINITE, 3 ECC, 4 RESTORE; bit 1 stands for the resets the
module makes. -/
def Mach.drReset (m : Mach) (e : Env) (t cause : Nat) : Mach :=
  let m1 := (m.drZero t).event e 0x6803 (some (if cause ≤ 1 then 2 else 3)) (le 1 t ++ le 1 cause)
  let m2 := if cause = 0 then m1 else m1.drIrq 1
  if cause = 4 then m2.drIrq 5 else m2

/-! ### Phase and period (R383 to R385) -/

/-- The nominal computation period of a string in ns. -/
def Mach.strTs (m : Mach) (t : Nat) : Nat := m.g (.STR_Ss_DIV_div t) * m.tickNs

/-- The period source of a learner: the period and whether it is valid (R384). -/
def Mach.drPeriod (m : Mach) (t : Nat) : Word × Bool :=
  if m.b (.STR_DRN_Ss_CFG_per_src t) then
    let p := m.rd (Reg.STR_DRN_Ss_HPER t)
    (p, fpLt 0 p && fpIsFinite p)
  else m.lchOut 10

/-- The wanted step in Q12.20, when it is valid (R384). -/
def Mach.drWanted (m : Mach) (t : Nat) : Option Nat :=
  let (p, ok) := m.drPeriod t
  let mag := fpMag p
  if !ok || mag = 0 then none
  else
    let w := roundNe (m.drNt t * m.strTs t * 2 ^ 20 * 2 ^ 149) (mag * 1000000000)
    if 131072 ≤ w && w ≤ 1048576 then some w else none

/-- per_hold changes (R385, R397). -/
def Mach.drHold (m : Mach) (e : Env) (t : Nat) (v : Bool) : Mach :=
  if m.b (.STR_DRN_Ss_STS_per_hold t) = v then m
  else
    let m1 := (m.sb (.STR_DRN_Ss_STS_per_hold t) v).drIrq 0
    (if v then m1.up (.STR_DRN_Ss_CNT_holds t) else m1).event e 0x6801 (some (if v then 3 else 2))
      (le 1 t ++ le 1 (if v then 1 else 0) ++ le 4 (m.drPeriod t).1.toNat)

/-- A wanted step becomes the step in use at a wrap (R384, R385). -/
def Mach.drTake (m : Mach) (e : Env) (t : Nat) : Mach :=
  match m.drWanted t with
  | none => m
  | some w =>
    let old := m.g (.STR_DRN_Ss_STEP_step t)
    let m1 := m.drHold e t false
    if w = old then m1
    else ((m1.s (.STR_DRN_Ss_STEP_step t) w).drIrq 4).note e 0x6802
      (le 1 t ++ le 4 old ++ le 4 w ++ le 4 (m.drPeriod t).1.toNat)

/-- The phase advance of a computation tick of index c (R383, R384): the computation at which φ wraps still uses the old step (R386). -/
def Mach.drAdvance (m : Mach) (e : Env) (t c : Nat) : Mach :=
  let nt := m.drNt t
  if nt = 0 then m
  else
    let old := m.g (.STR_DRN_Ss_PHASE_phi t)
    let follow := m.b (.STR_DRN_Ss_CFG_follow t)
    let sum := old + m.g (.STR_DRN_Ss_STEP_step t)
    let phi := if follow then sum % (nt * 2 ^ 20) else c % nt * 2 ^ 20
    let wrapped := if follow then decide (nt * 2 ^ 20 ≤ sum) else decide (phi < old)
    let step := if follow then m.g (.STR_DRN_Ss_STEP_step t) else 1048576
    let m1 := (m.s (.STR_DRN_Ss_PHASE_phi t) phi).setDr t fun x => { x with used := step }
    let m2 := if wrapped then m1.up (.STR_DRN_Ss_STS_passes t) else m1
    if !follow then m2.s (.STR_DRN_Ss_STEP_step t) 1048576
    else if (m2.drWanted t).isNone then m2.drHold e t true
    else if wrapped then m2.drTake e t else m2

/-- ENABLE of a string with a learner (R384, R385): φ is 0, and a source that is not valid gives the step 1.0 and per_hold. -/
def Mach.drEnable (m : Mach) (e : Env) (t : Nat) : Mach :=
  if !m.b (.STR_Ss_CFG_drone_en t) then m
  else
    let m1 := (m.s (.STR_DRN_Ss_PHASE_phi t) 0).setDr t fun x => { x with i0 := none, seen := 0 }
    if !m.b (.STR_DRN_Ss_CFG_follow t) then (m1.s (.STR_DRN_Ss_STEP_step t) 1048576).drHold e t false
    else match m1.drWanted t with
      | some w => (m1.s (.STR_DRN_Ss_STEP_step t) w).drHold e t false
      | none => (m1.s (.STR_DRN_Ss_STEP_step t) 1048576).drHold e t true

/-! ### The term, learning and decay (R386, R387, R390) -/

/-- Entry i of a table of Nt entries, indices modulo Nt. -/
def drEntry (tab : List Word) (nt : Nat) (i : Int) : Word := nth 0 tab (i % (nt : Int)).toNat

/-- The term q read at φ, before the clamp (R386). -/
def drRead (tab : List Word) (nt phi : Nat) : Word :=
  let f := fpOfRatio (phi % 2 ^ 20 : Nat) (2 ^ 20)
  let i : Int := (phi / 2 ^ 20 : Nat)
  fpAdd (fpMul (fpSub 0x3F800000 f) (drEntry tab nt i)) (fpMul f (drEntry tab nt (i + 1)))

/-- What the learner answers a computation: the machine, the term, and whether a non-finite entry was read (R390). -/
structure DrnTerm where
  m : Mach
  q : Word
  bad : Bool

/-- The treatment of the table by string state (R390): 0 keep, 1 decay, 2 reset. -/
def Mach.drAction (m : Mach) (t : Nat) : Nat :=
  match m.strState t with
  | 1 => m.g (.STR_DRN_Ss_CFG_act_open t)
  | 3 => m.g (.STR_DRN_Ss_CFG_act_open t)
  | 4 => m.g (.STR_DRN_Ss_CFG_act_fault t)
  | 2 => if m.g (.STR_DRN_Ss_CFG_mode t) = 2 then 1 else 0
  | _ => 0

/-- The learner's part before the law (R386): the term of the present φ, clamped by QMAX. -/
def Mach.drTerm (m : Mach) (e : Env) (t : Nat) : DrnTerm :=
  let nt := m.drNt t
  let st := m.strState t
  if !m.b (.STR_Ss_CFG_drone_en t) || !m.drAllocOk t || m.b .STR_STS_slow_tick then ⟨m, 0, false⟩
  else
    let act := m.drAction t
    let m1 := if act = 2 && (m.dr t).seen != st then m.drReset e t 1 else m
    let m2 := (m1.setDr t fun x => { x with seen := st }).sb (.STR_DRN_Ss_STS_decaying t) (act == 1)
    let raw := drRead (m2.dr t).table nt (m2.g (.STR_DRN_Ss_PHASE_phi t))
    if !fpIsFinite raw then ⟨m2.drReset e t 2, 0, true⟩
    else
      let qmax := m2.rd (Reg.STR_DRN_Ss_QMAX t)
      let q := fpClamp raw (fpNegate qmax) qmax
      let clip := q != raw
      let was := m2.b (.STR_DRN_Ss_STS_q_clip t)
      let m3 := m2.sb (.STR_DRN_Ss_STS_q_clip t) clip
      let m4 := if clip then m3.up (.STR_DRN_Ss_CNT_clips t) else m3
      let m5 := if clip && !was then m4.drIrq 6 else m4
      ⟨if clip != was then m5.event e 0x6805 (some 2) (le 1 t ++ le 1 (if clip then 1 else 0)) else m5, q, false⟩

/-- An entry is written and told to the standby with the next record (R394). -/
def Mach.drPut (m : Mach) (t i : Nat) (v : Word) : Mach :=
  m.setDr t fun x => { x with table := upd x.table i fun _ => v, commits := x.commits ++ [(i, v)] }

/-- The learner's part after the law, of a computation that completes (R386, R387): learning with the error, then decay; the
answer says whether a learned entry was not finite (R390). -/
def Mach.drLearn (m : Mach) (e : Env) (t : Nat) (err : Word) (may : Bool) : Mach × Bool :=
  let nt := m.drNt t
  if !m.b (.STR_Ss_CFG_drone_en t) || !m.drAllocOk t || m.b .STR_STS_slow_tick then (m, false)
  else
    let phi := m.g (.STR_DRN_Ss_PHASE_phi t)
    let step := (m.dr t).used
    let lead := (m.g (.STR_DRN_Ss_LEAD_lead_int t) * 64 + m.g (.STR_DRN_Ss_LEAD_lead_frac t)) * step
    let half := nt * 2 ^ 25
    let lam := min lead half
    let learning := may && m.strState t == 2 && m.g (.STR_DRN_Ss_CFG_mode t) == 0 && !m.b (.STR_DRN_Ss_STS_per_hold t)
      && !m.b (.STR_Ss_STS_gate_hold t) && !(m.dr t).ecc
    let m1 := (m.sb (.STR_DRN_Ss_STS_lead_clip t) (decide (half < lead))).sb (.STR_DRN_Ss_STS_learning t) learning
    let tab := (m1.dr t).table
    let j : Int := ((phi * 64 : Nat) - (lam : Int) + 2 ^ 25) / 2 ^ 26
    let T (d : Int) : Word := drEntry tab nt (j + d)
    let q2 := if m1.b (.STR_DRN_Ss_CFG_qtaps t) then m1.rd (Reg.STR_DRN_Ss_Q2 t) else 0
    let base := fpAdd (fpAdd (fpMul (m1.rd (Reg.STR_DRN_Ss_Q0 t)) (T 0))
      (fpMul (m1.rd (Reg.STR_DRN_Ss_Q1 t)) (fpAdd (T (-1)) (T 1)))) (fpMul q2 (fpAdd (T (-2)) (T 2)))
    let v := fpAdd base (fpMul (fpMul (m1.rd (Reg.STR_DRN_Ss_GAIN t)) (fpOfRatio step (2 ^ 20))) err)
    if learning && !fpIsFinite v then (m1.drReset e t 2, true)
    else
      let m2 := if learning then m1.drPut t (j % (nt : Int)).toNat v else m1
      let i0 := phi / 2 ^ 20
      let m3 := if m2.drAction t = 1 && (m2.dr t).i0 != some i0 then
          m2.drPut t i0 (fpMul (m2.rd (Reg.STR_DRN_Ss_DECAY t)) (nth 0 (m2.dr t).table i0))
        else m2
      (m3.setDr t fun x => { x with i0 := some i0, ecc := false }, false)

/-! ### Memory errors and the retained copy (R392, R393, R638) -/

/-- The learner that owns page p. -/
def Mach.drOwner (m : Mach) (p : Nat) : Option Nat := (List.range 48).find? fun t => m.drHolds t p

/-- An ECC error in an entry of the Drone memory (R392); its page is to be tested (R638). -/
def Mach.drEcc (m : Mach) (e : Env) (page entry : Nat) (uncorrectable : Bool) : Mach :=
  let m1 := (((m.faultNote e 3 page entry).up (if uncorrectable then .STR_DRN_ECC_ue else .STR_DRN_ECC_ce)).drIrq (if uncorrectable then 3 else 2)).event e 0x6804
    (some (if uncorrectable then 5 else 3)) (le 1 page ++ le 1 entry ++ le 1 (if uncorrectable then 1 else 0))
  let m2 := { m1 with str := { m1.str with testPages := m1.str.testPages ++ [page] } }
  match uncorrectable, m2.drOwner page with
  | true, some t => (m2.drReset e t 3).setDr t fun x => { x with ecc := true }
  | _, _ => m2

def execDroneEccError (page entry : Nat) (uncorrectable : Bool) (s : State) : Host.Outcome State Fault Refusal :=
  s.onInst (decide (page < 256) && decide (entry < 64)) fun e m => m.drEcc e page entry uncorrectable

/-- Allocated tables are copied to retained DRAM with their phase and step (R393). -/
def execDroneTableBackup (s : State) : Host.Outcome State Fault Refusal :=
  s.act fun _ m => iter 48 (fun t m =>
    if m.g (.STR_DRN_Ss_ALLOC_count t) = 0 then m.setDr t fun x => { x with copy := none }
    else m.setDr t fun x => { x with copy := some (x.table, m.g (.STR_DRN_Ss_PHASE_phi t), m.g (.STR_DRN_Ss_STEP_step t)) }) m

/-! ### What the commands do (R388, R395, R396) -/

/-- The Q-filter is accepted (R388). -/
def qFilterOk (five : Bool) (q0 q1 q2 : Word) : Bool :=
  let i (w : Word) : Int := fpMag w
  fpIsFinite q0 && fpIsFinite q1 && (!five || fpIsFinite q2)
    && decide (i q0 + 2 * i q1 + (if five then 2 * i q2 else 0) ≤ fpInt 0x3F800000)

/-- The registers of a DRN_CFG_SET image: CFG, then GAIN to DECAY. -/
def drCfgRegs (t : Nat) : List Nat :=
  [Reg.STR_DRN_Ss_CFG t, Reg.STR_DRN_Ss_GAIN t, Reg.STR_DRN_Ss_LEAD t, Reg.STR_DRN_Ss_Q0 t, Reg.STR_DRN_Ss_Q1 t,
   Reg.STR_DRN_Ss_Q2 t, Reg.STR_DRN_Ss_QMAX t, Reg.STR_DRN_Ss_DECAY t]

/-- The ranges of a DRN_CFG_SET (R386, R388, R389, R390, R400). -/
def drCfgOk (c : Cmd) : Bool :=
  let w (i : Nat) : Word := BitVec.ofNat 32 (c.d32 (4 * i))
  let cfg := c.d32 0
  let nt := cfg / 65536 % 8192
  decide (8 ≤ nt) && decide (nt ≤ 4096) && decide (cfg / 2 ^ 14 % 4 < 3) && decide (cfg / 2 ^ 12 % 4 < 3) && decide (cfg / 2 ^ 10 % 4 < 3)
    && fpLe 0 (w 1) && qFilterOk (cfg.testBit 9) (w 3) (w 4) (w 5) && fpLt 0 (w 6) && fpLe 0 (w 7) && fpLe (w 7) 0x3F800000

/-- The bits of a coefficient or configuration image that differ from the registers in force. -/
def Mach.imageDiffers (m : Mach) (off : Nat) (v keep : Word) : Bool := ((m.rd off ^^^ v) &&& cfgMask off &&& keep) != 0

/-- The check of a Drone command at its application tick, against the strings of this module (R396): 0 when it applies. -/
def Mach.drCheck (m : Mach) (op : Nat) (c : Cmd) (t : Nat) : Nat :=
  let st := m.strState t
  let w (i : Nat) : Word := BitVec.ofNat 32 (c.d32 (4 * i))
  match op with
  | 0x68 =>
    if st != 0 && m.imageDiffers (Reg.STR_DRN_Ss_CFG t) (w 0) 0xFFFFF3FF then stState
    else if (st == 2 || st == 3) && (List.range 7).any fun i => m.imageDiffers ((drCfgRegs t).getD (i + 1) 0) (w (i + 1)) 0xFFFFFFFF
    then stState else 0
  | 0x69 =>
    let b := c.u8 2
    let n := c.u8 3
    if st != 0 then stState
    else if n != 0 && (decide (256 < b + n) || decide (64 * n < m.drNt t)
        || (List.range n).any (fun i => m.str.badPages.contains (b + i)
          || (List.range 48).any fun k => k != t && m.drHolds k (b + i))) then 0x40
    else 0
  | 0x6B => if m.g (.STR_DRN_Ss_ALLOC_count t) = 0 then 0x41 else 0
  | 0x6D =>
    if !m.drAllocOk t then 0x41
    else if c.data.length != 4 * m.drNt t then stLen
    else if st == 2 && m.g (.STR_DRN_Ss_CFG_mode t) != 1 then stState else 0
  | 0x6E => if !m.drAllocOk t then 0x41 else 0
  | _ => 0

/-- A Drone command applied to one string (R391). -/
def Mach.drApply (m : Mach) (e : Env) (op : Nat) (c : Cmd) (t : Nat) : Mach :=
  match op with
  | 0x68 =>
    let m1 := (List.range 8).foldl (fun m i => m.putImage ((drCfgRegs t).getD i 0) (BitVec.ofNat 32 (c.d32 (4 * i)))) m
    m1.sb (.STR_DRN_Ss_STS_alloc_ok t) (m1.drAllocOk t)
  | 0x69 =>
    let n := c.u8 3
    (((m.s (.STR_DRN_Ss_ALLOC_base t) (c.u8 2)).s (.STR_DRN_Ss_ALLOC_count t) n).drZero t).drSync t
  | 0x6A => m.s (.STR_DRN_Ss_CFG_mode t) (c.u8 1)
  | 0x6B => m.drReset e t 0
  | 0x6C => m.wr (Reg.STR_DRN_Ss_HPER t) (BitVec.ofNat 32 (c.u32 4))
  | 0x6D => m.setDr t fun x =>
      { x with table := (List.range x.table.length).map fun i =>
          if i < m.drNt t then BitVec.ofNat 32 (c.d32 (4 * i)) else nth 0 x.table i }
  | _ => m

end Sys2Proof.Machine
end

