-- ==== Sys2Proof/Machine/StrLaw.lean ====
section
/-!
DEFINITION. One computation of a string (chapter 09): its set-point and feedback, the law, its states and faults, and its
sink.
Log: 68 (DEDUCED), 69 (DEDUCED), 70 (DEDUCED), 71 (DESIGN CHOICE), 116 (DESIGN CHOICE).
-/
namespace Sys2Proof.Machine

/-! ### Copies (R339, R372, R512) -/

/-- The modules that hold the strings of a position, as a destination mask. -/
def Mach.strGroup (m : Mach) (p : Nat) : Nat :=
  if p < 2 then 3 else if p < 4 && m.b .STK_CFG_pair23 then 12 else if 4 ≤ p && m.b .STK_CFG_pair45 then 48 else 2 ^ p

/-- This module holds the strings of a position. -/
def Mach.strLocal (m : Mach) (p : Nat) : Bool := (m.strGroup p).testBit (m.g .STK_STS_pos)

/-- The position belongs to a pair of expansions. -/
def Mach.paired (m : Mach) : Bool :=
  let p := m.g .STK_STS_pos
  (p / 2 == 1 && m.b .STK_CFG_pair23) || (p / 2 == 2 && m.b .STK_CFG_pair45)

/-- The module's strings shadow another module's. -/
def Mach.strShadow (m : Mach) : Bool :=
  m.shadowRole || (m.g .STK_STS_role == 3 && m.paired && !m.b .STK_STS_xprimary)

/-- Where shadow records go: to the standby, or to the partner of a pair's primary. -/
def Mach.shadowDest (m : Mach) : Nat :=
  if m.isActive then m.otherController
  else if m.g .STK_STS_role = 3 && m.paired && m.b .STK_STS_xprimary then 2 ^ (m.g .STK_STS_pos ^^^ 1) else 0

/-! ### Status, events and states (R362, R376 to R379) -/

/-- STR_IRQ_STS0 and STS1 hold while an event bit of a string is set (R377). -/
def Mach.strIrqSync (m : Mach) (t : Nat) : Mach :=
  m.setBit (if t < 32 then Reg.STR_IRQ_STS0 else Reg.STR_IRQ_STS1) (t % 32) (m.rd (Reg.STR_Ss_EVT t) != 0)

/-- An event bit of a string is set. -/
def Mach.strEvt (m : Mach) (t : Nat) (f : Fld) : Mach := (m.sb f true).strIrqSync t

/-- The record severity of a cause (R376). -/
def causeSev (c : Nat) : Nat := if c = 0 || c = 9 || c = 10 then 2 else if c = 6 || c = 8 then 3 else 4

/-- A string's state is told to the copies that shadow it (R372), and by an expansion to the controllers, whose law it may serve (R282, R347). -/
def Mach.strReport (m : Mach) (t state cause : Nat) : Mach :=
  let dest := m.shadowDest ||| (if m.g .STK_STS_pos < 2 then 0 else 3)
  if dest = 0 then m else m.linkSend 7 dest (le 1 1 ++ le 1 t ++ le 1 state ++ le 1 cause)

/-- A string enters a state: STS, the maps, STR_STATE, and a note to the module that shadows it (R362, R372). -/
def Mach.strEnter (m : Mach) (e : Env) (t new cause : Nat) : Mach :=
  let old := m.strState t
  let m1 := if old = 2 then m.sb (.STR_Ss_STS_was_sat t) (m.b (.STR_Ss_STS_sat t)) else m
  let m2 := if new = 2 then (m1.setSg t fun x => { x with feT := 0, fbRun := 0, spRun := 0, missRun := 0 }).sb (.STR_Ss_STS_fe_run t) false
    else m1
  let m3 := (m2.s (.STR_Ss_STS_state t) new).s (.STR_Ss_STS_cause t) cause
  let m4 := (m3.setBit (Reg.STR_CLOSED_LO + 4 * (t / 32)) (t % 32) (new == 2)).setBit (Reg.STR_FAULT_LO + 4 * (t / 32)) (t % 32) (new == 4)
  let m5 := (m4.strEvt t (.STR_Ss_EVT_state t)).event e 0x6001 (some (causeSev cause))
    (le 1 t ++ le 1 old ++ le 1 new ++ le 1 cause ++ le 4 (m.rd (Reg.STR_Ss_ERRV t)).toNat)
  m5.strReport t new cause

/-- The CLOSED outer string of string t (R359). -/
def Mach.strOuter (m : Mach) (t : Nat) : Option Nat :=
  (List.range 48).find? fun o => m.strState o == 2 && m.g (.STR_Ss_CFG_sink_type o) == 4 && m.g (.STR_Ss_SINK_index o) == t

/-- The cause a copy shows for what the active's string does: PEER on a copy that shadows (R362, R372). -/
def Mach.strCause (m : Mach) (c : Nat) : Nat := if m.strShadow then 10 else c

/-- Outer strings go to OPEN with cause INNER, holding their output, when the inner leaves CLOSED (R361). -/
def openOuters (e : Env) : Nat → Nat → Mach → Mach
  | 0, _, m => m
  | n + 1, t, m => match m.strOuter t with
    | some o => openOuters e n o (m.strEnter e o 1 (m.strCause 6))
    | none => m

/-- A state change with what it does to the outer string. -/
def Mach.strMove (m : Mach) (e : Env) (t new cause : Nat) : Mach :=
  let old := m.strState t
  let m1 := m.strEnter e t new cause
  if old = 2 && new != 2 then openOuters e 4 t m1 else m1

/-! ### Sinks (R355 to R357) -/

/-- The value a sink holds now (R357). -/
def Mach.strPresent (m : Mach) (t : Nat) : Word :=
  let k := m.g (.STR_Ss_SINK_index t)
  match m.g (.STR_Ss_CFG_sink_type t) with
  | 1 => if m.b (.DIO_AOk_CFG_live k) then m.rd (Reg.DIO_AOk_OUT k) else m.rd (Reg.DIO_AOk_OFF k)
  | 4 => m.rd (Reg.STR_Ss_SPV k)
  | _ => 0

/-- Emulator k is enabled with a string for its source (R192). -/
def Mach.emuString (m : Mach) (k : Nat) : Bool := m.b (.FBK_EMUe_CFG_en k) && m.g (.FBK_EMUe_CFG_src k) == 15

/-- Counts of a string-driven emulator up to an instant, exact, at the rate in force; none without GATE (R192, R196). -/
def Mach.emuAdvance (m : Mach) (e : Env) (t k : Nat) : Mach :=
  let u := m.emu k
  let unit : Int := 2 ^ 149 * 1000000000
  if !m.emuString k then m
  else
    let sum : Int := if m.gate && !fpIsNan u.rate then u.frac + fpInt u.rate * ((t - u.at_ : Nat) : Int) else u.frac
    let n := sum.fdiv unit
    let m1 := m.setEmu k fun u => { u with frac := sum - n * unit, at_ := t }
    if n = 0 then m1 else m1.setQueue e k (u.queue ++ [.counts n])

/-- The rate of an emulator changes (R192). -/
def Mach.emuRate (m : Mach) (e : Env) (t k : Nat) (v : Word) : Mach :=
  if m.emuString k then (m.emuAdvance e t k).setEmu k fun u => { u with rate := v } else m

/-- Enabling claims the sink and names the objects (R356, R409, R447). -/
def Mach.strClaim (m : Mach) (t : Nat) : Mach :=
  let k := m.g (.STR_Ss_SINK_index t)
  let m1 := if m.g (.STR_Ss_CFG_sink_type t) = 1 then
      { m.sb (.DIO_AOk_CFG_claimed k) true with
        dio := { m.dio with aoFree := upd m.dio.aoFree k fun _ => false, aoStr := upd m.dio.aoStr k fun _ => none } }
    else m
  (m1.ownSync k (m.g (.STR_Ss_SINK_object t))).ownSync (m.g (.STR_Ss_FB_SRC_index t)) (m.g (.STR_Ss_FB_SRC_object t))

/-- Another enabled string drives the same sink. -/
def Mach.strShares (m : Mach) (t : Nat) : Bool :=
  (List.range 48).any fun o => o != t && m.strState o != 0 && m.g (.STR_Ss_CFG_sink_type o) == m.g (.STR_Ss_CFG_sink_type t)
    && m.g (.STR_Ss_SINK_index o) == m.g (.STR_Ss_SINK_index t) && m.g (.STR_Ss_SINK_object o) == m.g (.STR_Ss_SINK_object t)

/-- An IDLE string gives up its claims: its AO stays at its off value (R357, R447). -/
def Mach.strUnclaim (m : Mach) (t : Nat) : Mach :=
  let k := m.g (.STR_Ss_SINK_index t)
  let m1 := if m.g (.STR_Ss_CFG_sink_type t) = 1 && !m.strShares t then
      { m.sb (.DIO_AOk_CFG_claimed k) false with
        dio := { m.dio with aoFree := upd m.dio.aoFree k fun _ => true, aoStr := upd m.dio.aoStr k fun _ => none } }
    else m
  (m1.ownSync k (m.g (.STR_Ss_SINK_object t))).ownSync (m.g (.STR_Ss_FB_SRC_index t)) (m.g (.STR_Ss_FB_SRC_object t))

/-- The sink of a string is released at an output instant (R357): its AO goes to the off value, its CAN object sends no
further frame, its emulator emits no edges. -/
def Mach.strRelease (m : Mach) (e : Env) (t : Nat) : Mach :=
  let k := m.g (.STR_Ss_SINK_index t)
  if m.strShares t then m
  else match m.g (.STR_Ss_CFG_sink_type t) with
    | 1 => { m with dio := { m.dio with aoStr := upd m.dio.aoStr k fun _ => none } }
    | 2 => m.sb (.CAN_c_OBJo_CFG_pending k (m.g (.STR_Ss_SINK_object t))) false
    | 3 => m.emuRate e e.ns k 0
    | _ => m

/-- The bytes of a value in an encoding of R281. -/
def encValue (enc : Nat) (n : Int) (v : Word) : List Byte :=
  match enc with
  | 0 => le 2 (ofInt 16 (clampInt (-32768) 32767 n))
  | 1 => (le 2 (ofInt 16 (clampInt (-32768) 32767 n))).reverse
  | 2 => le 4 (ofInt 32 (clampInt (-2147483648) 2147483647 n))
  | 3 => (le 4 (ofInt 32 (clampInt (-2147483648) 2147483647 n))).reverse
  | _ => le 4 v.toNat

/-- The bytes an encoding takes. -/
def encLen (enc : Nat) : Nat := if enc < 2 then 2 else 4

/-- The number that bytes spell in an encoding of R281. -/
def decValue (enc : Nat) (b : List Byte) : Word :=
  match enc with
  | 0 => fpOfInt (toSigned 16 (unle (b.take 2)))
  | 1 => fpOfInt (toSigned 16 (unle (b.take 2).reverse))
  | 2 => fpOfInt (toSigned 32 (unle (b.take 4)))
  | 3 => fpOfInt (toSigned 32 (unle (b.take 4).reverse))
  | _ => BitVec.ofNat 32 (unle (b.take 4))

/-- A value's rounded integer, an infinity beyond every type, a NaN 0. -/
def fpSatInt (v : Word) : Int := if fpIsNan v then 0 else if fpIsInf v then (if fpNeg v then -(2 ^ 40) else 2 ^ 40) else fpToInt v

/-- A sink takes a fresh value at the output instant (R355). -/
def Mach.strDrive (m : Mach) (e : Env) (t : Nat) (u : Word) : Mach :=
  let k := m.g (.STR_Ss_SINK_index t)
  match m.g (.STR_Ss_CFG_sink_type t) with
  | 1 => { m with dio := { m.dio with aoStr := upd m.dio.aoStr k fun _ => some u } }
  | 2 =>
    let enc := m.g (.STR_Ss_SINK_enc t)
    m.canPut k (m.g (.STR_Ss_SINK_object t)) (m.g (.STR_Ss_SINK_offset t))
      (encValue enc (fpSatInt (fpMul u (m.rd (Reg.STR_Ss_OUT_SCALE t)))) u)
  | 3 => m.emuRate e e.ns k u
  | _ => m

/-- The sink is gated (R355). -/
def Mach.strGated (m : Mach) (t : Nat) : Bool := let k := m.g (.STR_Ss_CFG_sink_type t); k == 1 || k == 2 || k == 3

/-- The sink is in fault (R356): its AO, or its CAN controller bus-off. -/
def Mach.strSinkFault (m : Mach) (t : Nat) : Bool :=
  let k := m.g (.STR_Ss_SINK_index t)
  match m.g (.STR_Ss_CFG_sink_type t) with
  | 1 => m.aoFaulty k
  | 2 => m.g (.CAN_c_STS_state k) == 2
  | _ => false

/-! ### Set-point and feedback (R346 to R351) -/

/-- The set-point source of a string (R346): its raw value and whether it is present (R349). -/
def Mach.strSp (m : Mach) (t : Nat) : Word × Bool :=
  let k := m.g (.STR_Ss_SP_SRC_index t)
  let scaled (v : Word) : Word := fpAdd (fpMul v (m.rd (Reg.STR_Ss_SP_SCALE t))) (m.rd (Reg.STR_Ss_SP_OFF t))
  match m.g (.STR_Ss_CFG_sp_type t) with
  | 0 => (m.rd (Reg.STR_Ss_SPH t), true)
  | 1 => ((m.sg t).law, true)
  | 2 => (scaled (m.rd (Reg.FIL_ANk_VAL k)), m.b (.FIL_ANk_STS_valid k))
  | 3 =>
    let count := toSigned 48 (m.rd64 (Reg.FBK_CHc_POS_LO k) (Reg.FBK_CHc_POS_HI k))
    (scaled (fpMul (fpOfInt count) (m.rd (Reg.FBK_CHc_SCALE k))), m.b (.FBK_CHc_FLAGS_valid k))
  | _ => (m.rd (Reg.STR_Ss_OUT k), m.strState k == 2 || (m.sg k).closing)

/-- The instant of the newest value of a Lichen output (R237). -/
def Mach.lchOutAt (m : Mach) (i : Nat) : Option Nat :=
  if i = 10 then m.lch.crossings.head?
  else if (6 ≤ i && i ≤ 9) || i = 11 || i = 12 then m.lch.history.head?.map (·.1)
  else some (((m.rd64 Reg.LCH_OUT_SL Reg.LCH_OUT_SH) % 2 ^ 48) * 1000000000 + (m.rd Reg.LCH_OUT_NS).toNat)

/-- A value is younger than TMO.fb_age (R351). -/
def Mach.strFresh (m : Mach) (e : Env) (t : Nat) (at_ : Option Nat) : Bool :=
  match at_ with | some x => decide (e.ns ≤ x + m.g (.STR_Ss_TMO_fb_age t) * 1000000) | none => false

/-- The feedback of a string (R350); none when it is missing (R351). -/
def Mach.strFb (m : Mach) (e : Env) (t : Nat) : Option Word :=
  let k := m.g (.STR_Ss_FB_SRC_index t)
  let scaled (v : Word) : Word := fpAdd (fpMul v (m.rd (Reg.STR_Ss_FB_SCALE t))) (m.rd (Reg.STR_Ss_FB_OFF t))
  let when_ (ok : Bool) (v : Word) : Option Word := if ok then some (scaled v) else none
  match m.g (.STR_Ss_CFG_fb_type t) with
  | 0 =>
    let pos := m.rd64 (Reg.FBK_CHc_POS_LO k) (Reg.FBK_CHc_POS_HI k)
    let d := diff48 (pos % 2 ^ 48) (ofInt 48 (m.gi (.STR_Ss_FB_REF_ref t)))
    when_ (m.b (.FBK_CHc_FLAGS_valid k)) (fpMul (fpOfInt d) (m.rd (Reg.FBK_CHc_SCALE k)))
  | 1 => when_ (m.b (.FBK_CHc_FLAGS_valid k)) (fpMul (m.rd (Reg.FBK_CHc_SPD k)) (m.rd (Reg.FBK_CHc_SCALE k)))
  | 2 => when_ (m.b (.FIL_ANk_STS_valid k)) (m.rd (Reg.FIL_ANk_VAL k))
  | 3 =>
    let x := m.canObj k (m.g (.STR_Ss_FB_SRC_object t))
    let since_ := match x.at_ with | some a => decide ((m.sg t).enAt ≤ a) | none => false
    when_ (since_ && m.strFresh e t x.at_ && !m.clkFailed 8)
      (decValue (m.g (.STR_Ss_FB_SRC_enc t)) (x.payload.drop (m.g (.STR_Ss_FB_SRC_offset t))))
  | _ =>
    let (v, ok) := m.lchOut k
    when_ (ok && m.strFresh e t (m.lchOutAt k)) v

/-! ### The law (R352 to R354, R367) -/

/-- A difference mapped into [−W/2, W/2), exact before its one rounding. -/
def fpWrap (w x : Word) : Word :=
  if !fpIsFinite x || !fpIsFinite w || fpMag w = 0 then x
  else
    let n : Int := 2 * fpInt x + fpMag w
    let r := n % (2 * (fpMag w : Int)) - fpMag w
    if r = 2 * fpInt x then x else if r = 0 then 0 else fpRound (decide (r < 0)) r.natAbs 2

/-- The wrap of a string. -/
def Mach.strWrap (m : Mach) (t : Nat) (x : Word) : Word :=
  if m.b (.STR_Ss_CFG_wrap_en t) then fpWrap (m.rd (Reg.STR_Ss_WRAP t)) x else x

/-- The errors of a computation: e, ep, ed, rdot and rddot. -/
structure StrErr where
  e : Word
  ep : Word
  ed : Word
  rdot : Word
  rddot : Word

/-- The errors of R352 for a set-point, a feedback and the previous values. -/
def Mach.strErrs (m : Mach) (t : Nat) (dt r y : Word) (x : StrSt) : StrErr :=
  let w := m.strWrap t
  let rdot := fpDiv (w (fpSub r x.rP)) dt
  ⟨w (fpSub r y), w (fpSub (fpMul (m.rd (Reg.STR_Ss_WB t)) r) y), w (fpSub (fpMul (m.rd (Reg.STR_Ss_WC t)) r) y), rdot,
    fpDiv (fpSub rdot x.rdP) dt⟩

/-- What the law gives. -/
structure StrOut where
  u : Word
  un : Word
  d : Word
  int_ : Word
  intc : Word

/-- The derivative term (R352). -/
def Mach.strDeriv (m : Mach) (t : Nat) (dt : Word) (er : StrErr) (x : StrSt) : Word :=
  let tf := m.rd (Reg.STR_Ss_TF t)
  let den := fpAdd tf dt
  fpAdd (fpMul (fpDiv tf den) x.dP) (fpMul (fpDiv (m.rd (Reg.STR_Ss_KD t)) den) (m.strWrap t (fpSub er.ed x.edP)))

/-- R352 from the line of u_un; `frozen` leaves the integrator alone (R358). -/
def Mach.strEval (m : Mach) (t : Nat) (dt q d int_ intc : Word) (frozen : Bool) (er : StrErr) (x : StrSt) : StrOut :=
  let k (r : Nat → Nat) : Word := m.rd (r t)
  let un := fpAdd (fpAdd (fpAdd (fpAdd (fpAdd (fpAdd (fpMul (k Reg.STR_Ss_KP) er.ep) int_) d) (fpMul (k Reg.STR_Ss_KVFF) er.rdot))
    (fpMul (k Reg.STR_Ss_KAFF) er.rddot)) q) (k Reg.STR_Ss_UOFF)
  let lim := fpClamp un (k Reg.STR_Ss_UMIN) (k Reg.STR_Ss_UMAX)
  let rate := k Reg.STR_Ss_URATE
  let u := if fpLt 0 rate then fpClamp lim (fpSub x.uP (fpMul rate dt)) (fpAdd x.uP (fpMul rate dt)) else lim
  let sat := !fpEq u un
  let aw := m.g (.STR_Ss_CFG_aw t)
  let inc0 := fpMul (fpMul (k Reg.STR_Ss_KI) dt) er.e
  let inc1 := if aw = 2 then fpAdd inc0 (fpMul (fpMul (k Reg.STR_Ss_KAW) dt) (fpSub u un)) else inc0
  let push := fpSub un u
  let same := (fpLt 0 inc1 && fpLt 0 push) || (fpLt inc1 0 && fpLt push 0)
  let inc := if aw = 1 && sat && same then 0 else inc1
  let yc := fpSub inc intc
  let tc := fpAdd int_ yc
  if frozen then ⟨u, un, d, int_, intc⟩ else ⟨u, un, d, tc, fpSub (fpSub tc int_) yc⟩

/-- The integrator of a close (R367): the first output equals the held output within the limits. -/
def Mach.strSeed (m : Mach) (t : Nat) (q uh : Word) (er : StrErr) : Word :=
  let k (r : Nat → Nat) : Word := m.rd (r t)
  fpSub uh (fpAdd (fpAdd (fpAdd (fpAdd (fpAdd (fpMul (k Reg.STR_Ss_KP) er.ep) 0) (fpMul (k Reg.STR_Ss_KVFF) er.rdot))
    (fpMul (k Reg.STR_Ss_KAFF) er.rddot)) q) (k Reg.STR_Ss_UOFF))

/-! ### Faults (R364, R365, R372) -/

/-- The ramp target of a fault action (R365). -/
def Mach.strTarget (m : Mach) (t : Nat) : Word := if m.g (.STR_Ss_CFG_fault_act t) = 3 then m.rd (Reg.STR_Ss_SAFE t) else 0

/-- A string starts its ramp. -/
def Mach.strRamp (m : Mach) (t : Nat) (target : Word) (stop : Bool) : Mach := m.setSg t fun x => { x with ramp := some ⟨target, stop, none⟩ }

/-- The state a fault action leads to, with its ramp (R365). -/
def Mach.strAct (m : Mach) (e : Env) (t cause : Nat) : Mach :=
  let act := m.g (.STR_Ss_CFG_fault_act t)
  let m1 := if act = 1 || act = 3 then (m.strRamp t (m.strTarget t) false).strMove e t 3 cause
    else (m.setSg t fun x => { x with rel := if act = 2 then some false else x.rel }).strMove e t 4 cause
  if cause = 7 && m1.b (.STR_Ss_CFG_drone_en t) && m1.g (.STR_DRN_Ss_ALLOC_count t) != 0 then m1.drReset e t 2 else m1

/-- A fault is detected (R362, R365, R372): a copy that shadows only tells it; a STOP ramp records its first. -/
def Mach.strFault (m : Mach) (e : Env) (t cause : Nat) : Mach :=
  if m.strShadow then
    if m.b (.STR_Ss_EVT_shadow_fault t) then m
    else (m.strEvt t (.STR_Ss_EVT_shadow_fault t)).event e 0x6006 (some 3) (le 1 t ++ le 1 cause)
  else if m.strState t = 2 then (m.up (.STR_Ss_CNT1_faults t)).strAct e t cause
  else if m.strState t = 3 then
    m.setSg t fun x => { x with ramp := x.ramp.map fun r => if r.stop && r.fault.isNone then { r with fault := some cause } else r }
  else m

/-! ### A computation (R343, R348 to R354, R358, R364 to R368) -/

/-- The record of STR_STREAM for a completed computation (R559). -/
def Mach.strStreamOut (m : Mach) (e : Env) (t tk : Nat) (q : Word) : Mach :=
  match m.str.stream with
  | none => m
  | some (j, mask, n) =>
    if !mask.testBit t then m
    else if (m.sg t).streamCount + 1 < n then m.setSg t fun x => { x with streamCount := x.streamCount + 1 }
    else
      let sts := (m.rd (Reg.STR_Ss_STS t)).toNat
      let bit (i : Nat) : Nat := sts / 2 ^ i % 2
      (m.setSg t fun x => { x with streamCount := 0 }).stream e j 6 t (bit 8 + 2 * bit 12 + 4 * bit 11 + 8 * bit 15)
        (le 4 (tk / 8) ++ le 1 (m.strState t) ++ le 1 (m.g (.STR_Ss_STS_cause t)) ++ le 2 0
          ++ [Reg.STR_Ss_SPV t, Reg.STR_Ss_FBV t, Reg.STR_Ss_ERRV t, Reg.STR_Ss_OUT t, Reg.STR_Ss_INT t].flatMap (fun r => le 4 (m.rd r).toNat)
          ++ le 4 q.toNat)

/-- The set-point of a computation (R348, R349): r, and whether the source is missing. -/
def Mach.strR (m : Mach) (t : Nat) (dt : Word) (closed first : Bool) : Word × Bool :=
  let (raw, ok) := m.strSp t
  let rate := m.rd (Reg.STR_Ss_SPRATE t)
  let x := m.sg t
  if !ok then (m.rd (Reg.STR_Ss_SPV t), true)
  else if closed && !first && fpLt 0 rate then (fpClamp raw (fpSub x.rP (fpMul rate dt)) (fpAdd x.rP (fpMul rate dt)), false)
  else (raw, false)

/-- What every completed computation stores (R352, R354, R378). -/
def Mach.strStore (m : Mach) (t tk : Nat) (r y u : Word) (er : StrErr) (o : Option StrOut) (uP : Word) : Mach :=
  let m1 := ((((m.wr (Reg.STR_Ss_SPV t) r).wr (Reg.STR_Ss_FBV t) y).wr (Reg.STR_Ss_ERRV t) er.e).wr (Reg.STR_Ss_OUT t) u).wr
    (Reg.STR_Ss_TICK t) (BitVec.ofNat 32 (tk / 8))
  let m2 := match o with
    | some o => (m1.wr (Reg.STR_Ss_INT t) o.int_).wr (Reg.STR_Ss_INTC t) o.intc
    | none => m1
  let d := match o with | some o => o.d | none => (m.sg t).dP
  let sum := fpAdd (m2.rd (Reg.STR_Ss_INT t)) (m2.rd (Reg.STR_Ss_INTC t))
  m2.setSg t fun x =>
    { x with done := some tk, rP := r, edP := er.ed, rdP := er.rdot, dP := d, uP := uP, missRun := 0,
             hist := (⟨tk, sum, d, u⟩ :: x.hist).take 16, fresh := if x.rel = some true then none else some u }

/-- The following-error timer of a CLOSED computation (R364); the answer says whether it ran out. -/
def Mach.strFollow (m : Mach) (t dtNs : Nat) (err : Word) : Mach × Bool :=
  let above := fpLt (m.rd (Reg.STR_Ss_FE_LIM t)) (fpAbs err)
  let n := if above then (m.sg t).feT + dtNs else 0
  ((m.setSg t fun x => { x with feT := n }).sb (.STR_Ss_STS_fe_run t) above,
    decide (m.g (.STR_Ss_TMO_fe_time t) * 1000000 ≤ n) && above)

/-- STS of a missing set-point, and the start of a hold (R349, R379). -/
def Mach.strHoldSp (m : Mach) (t : Nat) (miss : Bool) : Mach :=
  let m1 := if miss && !m.b (.STR_Ss_STS_sp_hold t) then m.strEvt t (.STR_Ss_EVT_sp_hold t) else m
  m1.sb (.STR_Ss_STS_sp_hold t) miss

/-- A computation in CLOSED with feedback (R352, R353, R358, R364, R367, R368). -/
def Mach.strClosed (m : Mach) (e : Env) (t tk dtNs : Nat) (dt r y q : Word) (er : StrErr) (x : StrSt) (spMiss qBad : Bool) : Mach :=
  let hold := m.b (.STR_Ss_STS_gate_hold t)
  let held := m.rd (Reg.STR_Ss_OUT t)
  let uh := fpClamp held (m.rd (Reg.STR_Ss_UMIN t)) (m.rd (Reg.STR_Ss_UMAX t))
  let int0 := m.rd (Reg.STR_Ss_INT t)
  let int1 := if x.closing then m.strSeed t q uh er else int0
  let intc := if x.closing then 0 else m.rd (Reg.STR_Ss_INTC t)
  let d := if x.closing then 0 else m.strDeriv t dt er x
  let o := m.strEval t dt q d int1 intc hold er x
  if !fpIsFinite o.un || !fpIsFinite o.int_ || !fpIsFinite o.d then m.strFault e t 7
  else
    let clip := x.closing && !fpEq uh held
    let sat0 := m.b (.STR_Ss_STS_was_sat t)
    let m1 := m.strStore t tk r y o.u er (some o) (if hold then m.strPresent t else o.u)
    let m2 := (m1.sb (.STR_Ss_STS_sat t) (!fpEq o.u o.un)).setSg t fun x =>
      { x with closing := false, fbRun := 0, spRun := if spMiss then x.spRun + 1 else 0 }
    let m3 := if x.closing then m2.sb (.STR_Ss_STS_was_sat t) false else m2
    let m4 := if x.closing && (sat0 || clip) then
        ((m3.strEvt t (.STR_Ss_EVT_reseed t)).up (.STR_Ss_CNT1_reseed t)).event e 0x6003 (some 2)
          (le 1 t ++ le 4 int0.toNat ++ le 4 int1.toNat ++ le 1 (if clip then 1 else 0) ++ le 1 (if sat0 then 1 else 0))
      else m3
    let (m5, fe) := m4.strFollow t dtNs er.e
    let (m6, lbad) := m5.drLearn e t er.e true
    let m7 := m6.strStreamOut e t tk q
    if fe then m7.strFault e t 1
    else if m7.g (.STR_Ss_LIM_sp_lim t) ≤ (m7.sg t).spRun && spMiss then m7.strFault e t 3
    else if m7.strSinkFault t then m7.strFault e t 5
    else if lbad || qBad then m7.strFault e t 7
    else m7

/-- The ramp of a RAMPDOWN computation (R365): the output, and whether the target is reached. -/
def Mach.strRampStep (m : Mach) (t : Nat) (dt : Word) (target : Word) : Word × Bool :=
  let u := (m.sg t).uP
  let rate := m.rd (Reg.STR_Ss_RAMP t)
  let step := fpMul rate dt
  if !fpLt 0 rate || fpEq u target then (target, true)
  else
    let v := fpClamp target (fpSub u step) (fpAdd u step)
    (v, fpEq v target)

/-- Where a ramp ends (R362): the state and the cause. -/
def Mach.strRampEnd (m : Mach) (t : Nat) (r : StrRamp) : Nat × Nat :=
  if !r.stop then (4, m.g (.STR_Ss_STS_cause t)) else match r.fault with | some c => (4, c) | none => (0, m.strCause 9)

/-- A computation in OPEN, RAMPDOWN or FAULT (R354, R357, R365). -/
def Mach.strOpen (m : Mach) (e : Env) (t tk : Nat) (dt r y q : Word) (er : StrErr) (x : StrSt) : Mach :=
  let held := m.rd (Reg.STR_Ss_OUT t)
  let m1 := m.setSg t fun x => { x with rel := x.rel.map fun _ => true }
  let m2 := match x.ramp, m.strState t with
    | some rp, 3 =>
      let (u, reached) := m1.strRampStep t dt rp.target
      let m2 := m1.strStore t tk r y u er none u
      let m3 := if reached then m2.setSg t fun z => { z with endAs := some (m2.strRampEnd t rp) } else m2
      if m3.strSinkFault t then m3.strFault e t 5 else m3
    | _, _ => m1.strStore t tk r y held er none held
  ((m2.sb (.STR_Ss_STS_sat t) false).drLearn e t er.e false).1.strStreamOut e t tk q

/-- One computation of string t at base tick tk (R342, R343, R351). -/
def Mach.strCompute (m : Mach) (e : Env) (t tk : Nat) : Mach :=
  let x0 := m.sg t
  let st := m.strState t
  let dtNs := match x0.done with | some d => tk - d | none => m.strTs t
  let dt := match x0.done with | some d => fpOfRatio ((tk : Int) - d) 1000000000 | none => fpOfRatio (m.strTs t) 1000000000
  let first := x0.done.isNone
  let fb := m.strFb e t
  let term := m.drTerm e t
  let m0 := (term.m.sb (.STR_Ss_STS_fb_miss t) fb.isNone).sb (.STR_Ss_STS_slow_tick t) (m.b .STR_STS_slow_tick)
  if st = 2 && fb.isNone then
    let m1 := ((m0.strEvt t (.STR_Ss_EVT_fb_miss t)).up (.STR_Ss_CNT0_fb_miss t)).setSg t fun x => { x with fbRun := x.fbRun + 1, missRun := 0 }
    if m1.g (.STR_Ss_LIM_fb_lim t) ≤ (m1.sg t).fbRun then m1.strFault e t 2 else m1
  else
    let y := fb.getD (m.rd (Reg.STR_Ss_FBV t))
    let (r, spMiss) := m0.strR t dt (st == 2) first
    let m1 := m0.strHoldSp t spMiss
    let er0 := m1.strErrs t dt r y x0
    let x := if first then { x0 with rP := r, edP := er0.ed, rdP := 0 } else x0
    let er := if first then { er0 with rdot := 0, rddot := 0 } else er0
    if st = 2 then m1.strClosed e t tk dtNs dt r y term.q er x spMiss term.bad
    else m1.strOpen e t tk dt r y term.q er x

end Sys2Proof.Machine
end

