-- ==== Sys2Proof/Machine/PlQp.lean ====
section
/-!
DEFINITION. What the positioning law computes (R260 to R276, R279, R280, R632 to R634): the reference, joystick, thrusters, model
matrices, the two problems handed to Bracken, and set-points from forces.
Log: 63 (DEDUCED), 72 (DESIGN CHOICE).
-/
namespace Sys2Proof.Machine

/-! ### Numbers -/

/-- An FP32 register in FP64. -/
def Mach.fd (m : Mach) (off : Nat) : F64 := fdOfF32 (m.rd off)

/-- Nanoseconds in seconds. -/
def nsF (n : Nat) : F64 := fdOfRatio n 1000000000

/-! ### The reference (R260, R261) -/

/-- A target: pose, speed and yaw rate. -/
structure PlTarget where
  n : F64
  e : F64
  h : F64
  v : F64
  r : F64

/-- The time a distance takes at a speed. -/
def timeFor (d v : F64) : F64 := if fdMag d = 0 then 0 else fdDiv d v

/-- The reference after a time towards its targets, with how many it reached; the last one is held. -/
def refMove : List PlTarget → F64 → PlRef → PlRef × Nat
  | [], _, r => ({ r with vn := 0, ve := 0, r := 0 }, 0)
  | t :: l, dt, r =>
    let dn := fdSub t.n r.n
    let de := fdSub t.e r.e
    let dist := fdSqrt (fdAdd (fdMul dn dn) (fdMul de de))
    let dh := wrap180 (fdSub t.h r.h)
    let tp := timeFor dist t.v
    let th := timeFor (fdAbs dh) t.r
    let tt := fdMax tp th
    if fdLe tt dt then
      let at_ : PlRef := ⟨t.n, t.e, t.h, 0, 0, 0⟩
      match l with
      | [] => (at_, 1)
      | _ => let p := refMove l (fdSub dt tt) at_; (p.1, p.2 + 1)
    else
      let f := if fdLe tp dt then fdOfInt 1 else fdDiv dt tp
      let moving := fdLt dt tp
      let k := if moving then fdDiv t.v dist else 0
      let turn := fdLt dt th
      let sgn := if fdNeg dh then fdNegate t.r else t.r
      (⟨fdAdd r.n (fdMul f dn), fdAdd r.e (fdMul f de), if turn then wrap360 (fdAdd r.h (fdMul sgn dt)) else t.h,
        fdMul k dn, fdMul k de, if turn then sgn else 0⟩, 0)

/-- A waypoint as a target, its speed and rate clamped (R295). -/
def Mach.wayTarget (m : Mach) (w : Waypoint) : PlTarget :=
  ⟨fdMilli w.n, fdMilli w.e, fdMilli w.hdg, fdMin (fdMilli w.speed) (m.fd Reg.STR_PL_VMAX), fdMin (fdOfRatio w.rate 100) (m.fd Reg.STR_PL_RMAX)⟩

/-- The law's mode. -/
def Mach.plMode (m : Mach) : Nat := m.g .STR_PL_STS_mode

/-- A QP mode is in force (R255). -/
def qpMode (k : Nat) : Bool := k == 1 || k == 2 || k == 3 || k == 4

/-- The heading is tracked. -/
def Mach.plHeads (m : Mach) : Bool := let k := m.plMode; k == 1 || k == 2 || k == 3 || (k == 4 && m.b .STR_PL_STS_auto_head)

/-- The targets of the mode. -/
def Mach.plTargets (m : Mach) : List PlTarget :=
  let p := m.pl
  let v := m.fd Reg.STR_PL_VMAX
  let r := m.fd Reg.STR_PL_RMAX
  match m.plMode with
  | 1 => [⟨fdMilli p.setN, fdMilli p.setE, fdMilli p.setH, v, r⟩]
  | 2 => p.way.map m.wayTarget
  | _ => if m.plHeads then [⟨p.ref.n, p.ref.e, fdMilli p.autoH, v, r⟩] else []

/-! ### The estimate and the joystick (R26, R262, R264) -/

/-- The estimate of the newest closed epoch, predicted to an instant: pose, velocity, bias and wind force. -/
def Mach.plEstimate (m : Mach) (at_ : Nat) : List F64 :=
  let x : List F64 := [fdMilli (m.gi .LCH_OUT_N_pos), fdMilli (m.gi .LCH_OUT_E_pos), m.fd Reg.LCH_OUT_HDG, m.fd Reg.LCH_OUT_U,
    m.fd Reg.LCH_OUT_V, m.fd Reg.LCH_OUT_R, m.fd Reg.LCH_OUT_BN, m.fd Reg.LCH_OUT_BE, m.fd Reg.LCH_OUT_BPSI]
  let wind := Config.windForce (m.rd Reg.LCH_OUT_WSPD) (m.rd Reg.LCH_OUT_WDIR) (fdAt x 2)
  let tau := [m.fd Reg.STR_PL_TAU_X, m.fd Reg.STR_PL_TAU_Y, m.fd Reg.STR_PL_TAU_N]
  estPredict m.pl.model (tau ++ wind) (at_ - (m.lchOutAt 0).getD 0) x ++ wind

/-- The deflection of a bound axis; none when its sample is not valid. -/
def Mach.joyAxis (m : Mach) (ch : Nat) : Option Word :=
  if !m.b (.FIL_ANk_STS_valid ch) then none
  else
    let one := fpOfInt 1
    let a := fpMax (fpNegate one) (fpMin one (fpDiv (m.rd (Reg.FIL_ANk_VAL ch)) (fpOfInt 10)))
    let db := m.rd Reg.STR_PL_JOY_DB
    let x := fpAbs a
    if fpLe x db then some 0
    else
      let y := fpDiv (fpSub x db) (fpSub one db)
      some (if fpNeg a then fpNegate y else y)

/-- The channels of surge, sway and yaw, with their full-deflection registers. -/
def Mach.joyChannels (m : Mach) : List (Nat × Nat) :=
  [(m.g .STR_PL_JOY_ch_x, Reg.STR_PL_JOY_FX), (m.g .STR_PL_JOY_ch_y, Reg.STR_PL_JOY_FY), (m.g .STR_PL_JOY_ch_n, Reg.STR_PL_JOY_FN)]

/-- The commanded force on the three axes. -/
def Mach.joyForce (m : Mach) : List F64 :=
  m.joyChannels.map fun p => if p.1 < 16 then fdOfF32 (fpMul ((m.joyAxis p.1).getD 0) (m.rd p.2)) else 0

/-- The bound axes whose sample is not valid, as a mask. -/
def Mach.joyMask (m : Mach) : Nat :=
  ((List.range 3).map fun i =>
    let c := (m.joyChannels.getD i (0xFF, 0)).1
    if c < 16 && (m.joyAxis c).isNone then 2 ^ i else 0).sum

/-- A joystick axis is bound. -/
def Mach.joyBound (m : Mach) : Bool := m.joyChannels.any fun p => decide (p.1 < 16)

/-- tau_cmd (R268): the held force of R258 turned into the vessel frame, or the joystick. -/
def Mach.plCommand (m : Mach) : List F64 :=
  let j := m.joyForce
  match m.plMode, m.pl.held with
  | 3, some (n, e) => let p := rotT (fdAt m.pl.est 2) n e; [p.1, p.2, 0]
  | _, _ => j

/-- The axes that are commanded directly. -/
def Mach.plAxes (m : Mach) : List Bool :=
  match m.plMode with
  | 3 => [true, true, false]
  | 4 => [true, true, !m.b .STR_PL_STS_auto_head]
  | _ => [false, false, false]

/-! ### Thrusters (R267, R270 to R273) -/

/-- A thruster as the law sees it: its settings, the last released thrust and the azimuth α_c, and whether it may be used. -/
structure Thr where
  i : Nat
  fixed : Bool
  x : F64
  y : F64
  fmax : F64
  frev : F64
  rate : F64
  azr : F64
  a1 : F64
  a2 : F64
  kappa : F64
  wt : F64
  sides : Nat
  sector : Bool
  side : Nat
  rot : Bool
  bus : Nat
  use : Bool
  tc : F64
  ac : F64

/-- The azimuth α_c (R270): the feedback of the sink string where this module holds it, the last released azimuth otherwise. -/
def Mach.plAzimuth (m : Mach) (i : Nat) : F64 :=
  let sink := (m.rd (Reg.STR_PL_THRi_SINK2 i)).toNat
  let t := sink / 65536 % 64
  if m.b (.STR_PL_THRi_CFG_az_fb i) && sink / 2 ^ 30 == 1 && m.strLocal (sink / 2 ^ 24 % 8) && decide (t < 48)
  then m.fd (Reg.STR_Ss_FBV t) else m.fd (Reg.STR_PL_THRi_AZ i)

/-- Thruster i. -/
def Mach.plThr (m : Mach) (i : Nat) : Thr :=
  { i := i, fixed := m.b (.STR_PL_THRi_CFG_type i), x := fdMilli (m.gi (.STR_PL_THRi_POS_X_pos i)),
    y := fdMilli (m.gi (.STR_PL_THRi_POS_Y_pos i)), fmax := m.fd (Reg.STR_PL_THRi_FMAX i), frev := m.fd (Reg.STR_PL_THRi_FREV i),
    rate := m.fd (Reg.STR_PL_THRi_RATE i), azr := m.fd (Reg.STR_PL_THRi_AZR i),
    a1 := centi (m.g (.STR_PL_THRi_SECTOR_a1 i)), a2 := centi (m.g (.STR_PL_THRi_SECTOR_a2 i)),
    kappa := m.fd (Reg.STR_PL_THRi_KAPPA i), wt := m.fd (Reg.STR_PL_THRi_WEIGHT i), sides := 4 + 2 * m.g (.STR_PL_THRi_CFG_poly i),
    sector := m.b (.STR_PL_THRi_CFG_sector_en i) && !m.b (.STR_PL_THRi_CFG_type i), side := m.g (.STR_PL_THRi_CFG_side i),
    rot := m.b (.STR_PL_THRi_CFG_rotating i), bus := m.g (.STR_PL_THRi_CFG_bus i),
    use := m.b (.STR_PL_THRi_CFG_en i) && !m.b (.STR_PL_THRi_CFG_unavail i),
    tc := m.fd (Reg.STR_PL_THRi_CMD i), ac := m.plAzimuth i }

/-- The force variables of a thruster. -/
def Thr.nv (t : Thr) : Nat := if t.fixed then 1 else 2

/-- The thrusters that have variables. -/
def Mach.plThrs (m : Mach) : List Thr := m.pl.vars.map m.plThr

/-- A unit vector at an azimuth. -/
def unitAt (a : F64) : List F64 := [Config.cosDeg a, Config.sinDeg a]

/-- The columns of B (R267). -/
def Thr.cols (t : Thr) : List (List F64) :=
  if t.fixed then
    let c := Config.cosDeg t.a1
    let s := Config.sinDeg t.a1
    [[c, s, fdSub (fdMul t.x s) (fdMul t.y c)]]
  else [[fdOfInt 1, 0, fdNegate t.y], [0, fdOfInt 1, t.x]]

/-- B as three rows. -/
def bRows (l : List Thr) : List (List F64) := matT 3 (l.flatMap Thr.cols)

/-- The part of a force vector that belongs to each thruster. -/
def splitForces : List Thr → List F64 → List (Thr × List F64)
  | [], _ => []
  | t :: l, f => (t, f.take t.nv) :: splitForces l (f.drop t.nv)

/-- The bound of a row, 0 for a thruster that may not be used (R275). -/
def Thr.bound (t : Thr) (b : F64) : F64 := if t.use then b else 0

/-- A row of a problem: its coefficients on the thruster's own variables, and its bound. -/
abbrev ThrRow := List F64 × F64

/-- The sector row (R271). -/
def Thr.sectorRow (t : Thr) (relaxed : Bool) : List ThrRow :=
  if !t.sector then []
  else
    let n := if t.side = 0 then fdAdd t.a1 (fdOfInt 90) else fdSub t.a2 (fdOfInt 90)
    [(unitAt n, if relaxed then t.bound (fdOfInt 1000000) else 0)]

/-- The rows of the later stages (R269). -/
def Thr.rows (t : Thr) : List ThrRow :=
  if t.fixed then [([fdOfInt 1], t.bound t.fmax), ([fdOfInt (-1)], t.bound t.frev)]
  else
    let b := fdMul t.fmax (Config.cosDeg (fdDiv (fdOfInt 180) (fdOfInt t.sides)))
    ((List.range t.sides).map fun j => (unitAt (fdOfRatio (360 * (j : Nat) : Nat) t.sides), t.bound b)) ++ t.sectorRow false

/-- The half-angle β in degrees (R270, R272). -/
def Thr.beta (t : Thr) (h : F64) : F64 := if t.rot then 0 else fdMin (fdOfInt 80) (fdMul t.azr h)

/-- The largest thrust of stage 0. -/
def Thr.top (t : Thr) (rotF h : F64) : F64 :=
  if t.rot then fdMul rotF t.fmax else fdMin t.fmax (fdAdd t.tc (fdMul t.rate h))

/-- The rows of stage 0 (R270). -/
def Thr.rows0 (t : Thr) (rotF h : F64) : List ThrRow :=
  if t.fixed then
    [([fdOfInt 1], t.bound (fdMin t.fmax (fdAdd t.tc (fdMul t.rate h)))),
     ([fdOfInt (-1)], t.bound (fdMin t.frev (fdAdd (fdNegate t.tc) (fdMul t.rate h))))]
  else
    let b := t.beta h
    [(unitAt (fdAdd (fdAdd t.ac b) (fdOfInt 90)), 0), (unitAt (fdSub (fdSub t.ac b) (fdOfInt 90)), 0),
     (unitAt t.ac, t.bound (t.top rotF h))] ++ t.sectorRow t.rot

/-- x^1.5. -/
def pow15 (x : F64) : F64 := fdMul x (fdSqrt x)

/-- The size of a force. -/
def forceNorm (f : List F64) : F64 :=
  match f with
  | [x] => fdAbs x
  | _ => fdSqrt (fdAdd (fdMul (fdAt f 0) (fdAt f 0)) (fdMul (fdAt f 1) (fdAt f 1)))

/-- Power linearised about a force (R273), available or not: coefficients on the thruster's variables and the constant taken to the bound. -/
def Thr.power (t : Thr) (f : List F64) : List F64 × F64 :=
  let low := fdMul (fdOfRatio 5 100) t.fmax
  let size := forceNorm f
  let tb := fdMax size low
  let d := if t.fixed then [if fdLt (fdAt f 0) 0 then fdOfInt (-1) else fdOfInt 1]
    else if fdLt size low then unitAt t.ac else f.map fun x => fdDiv x size
  (d.map fun x => fdMul (fdMul t.kappa (fdMul (fdOfRatio 3 2) (fdSqrt tb))) x, fdMul t.kappa (fdMul (fdOfRatio 1 2) (pow15 tb)))

/-! ### The model image (R266, R292) -/

/-- The period set for T and m_s, by its byte. -/
def modelSet (img : List Byte) (t ms : Nat) : Option Nat :=
  ((List.range (imgN img 6 1)).map fun k => 288 + 872 * k).find? fun o => imgN img o 2 == t && imgN img (o + 2) 2 == ms

/-- Φ, Γ, Ψ and Λ. -/
structure Stage4 where
  phi : List (List F64)
  gam : List (List F64)
  psi : List (List F64)
  lam : List (List F64)

/-- The matrices of stage length k of a set: 0 for T, 1 for 0.75 T, 2 for m_s × T. -/
def stageMats (img : List Byte) (o k : Nat) : Stage4 :=
  let b := o + 8 + 288 * k
  ⟨mdl3 img b, mdl3 img (b + 72), mdl3 img (b + 144), mdl3 img (b + 216)⟩

/-- Stage 0 interpolated between 0.75 T and T. -/
def lerpMats (w : F64) (a b : Stage4) : Stage4 :=
  let f (x y : List (List F64)) : List (List F64) := List.zipWith (List.zipWith fun p q => fdAdd p (fdMul w (fdSub q p))) x y
  ⟨f a.phi b.phi, f a.gam b.gam, f a.psi b.psi, f a.lam b.lam⟩

/-! ### The STAGED problem (R263 to R276) -/

/-- Rot(ψ) × a 3 × c matrix of rows. -/
def rotRows (h : F64) (a : List (List F64)) : List (List F64) :=
  let r0 := a.getD 0 []
  let r1 := a.getD 1 []
  let p := List.zipWith (rotF h) r0 r1
  [p.map (·.1), p.map (·.2), a.getD 2 []]

/-- The forces of the last accepted solution at a stage, clamped to its last stage; zero without one. -/
def Mach.plPast (m : Mach) (k n : Nat) : List F64 :=
  match m.pl.hist with
  | [] => List.replicate n 0
  | h => (h.getD (min k (h.length - 1)) []).drop 1

/-- The cost of a stage on its variables: diagonal of H, and g, for the six states and the slacks; the force block with its gradient. -/
structure StageCost where
  diag : List F64
  grad : List F64

/-- H and g of the force variables (R268): effort, and the allocation term on the commanded axes. -/
def forceCost (h : F64) (l : List Thr) (w : F64) (axes : List Bool) (tau : List F64) : List (List F64) × List F64 :=
  let b := bRows l
  let two := fdMul (fdOfInt 2) h
  let used := (b.zip (axes.zip tau)).filterMap fun p => if p.2.1 then some (p.1, p.2.2) else none
  let r := l.flatMap fun t => List.replicate t.nv t.wt
  let k := fdMul two w
  let n := r.length
  ((List.range n).map fun i => (List.range n).map fun j =>
      fdSum ((if i = j then [fdMul two (fdAt r i)] else []) ++ used.map fun p => fdMul k (fdMul (fdAt p.1 i) (fdAt p.1 j))),
   (List.range n).map fun i => fdSum (used.map fun p => fdNegate (fdMul k (fdMul (fdAt p.1 i) p.2))))

/-- A matrix placed in a larger one, from row and column o, with a diagonal elsewhere. -/
def embed (n o : Nat) (a : List (List F64)) (d : List F64) : List (List F64) :=
  (List.range n).map fun i => (List.range n).map fun j =>
    if o ≤ i && decide (i < o + a.length) && o ≤ j && decide (j < o + a.length) then fdAt (a.getD (i - o) []) (j - o)
    else if i = j then fdAt d i else 0

/-- Rows on the thrusters' variables, placed in a stage of n variables from variable o. -/
def placeRows (n o : Nat) (l : List (Thr × List ThrRow)) : List (List F64 × F64) :=
  (l.foldl (fun (a : List (List F64 × F64) × Nat) p =>
    (a.1 ++ p.2.map fun r => (List.replicate a.2 0 ++ r.1 ++ List.replicate (n - a.2 - r.1.length) 0, r.2), a.2 + p.1.nv)) ([], o)).1

/-- The bus rows, from force variables at o and slacks at so. -/
def Mach.busRows (m : Mach) (n o so : Nat) (l : List (Thr × List F64)) : List (List F64 × F64) :=
  m.pl.buses.mapIdx fun j b =>
    let parts := l.map fun p => if p.1.bus = b then p.1.power p.2 else (p.2.map fun _ => 0, 0)
    let c := List.replicate o (0 : F64) ++ parts.flatMap (·.1)
    let row := c ++ List.replicate (n - c.length) 0
    (row.mapIdx fun i x => if i = so + j then fdOfInt (-1) else x, fdSum (m.fd (Reg.STR_PL_BUSb_EFF b) :: parts.map (·.2)))

/-- A row with one coefficient. -/
def oneAt (n i : Nat) (v : F64) : List F64 := (List.range n).map fun j => if j = i then v else 0

/-- The slack weights ρ s + 0.01 ρ s². -/
def slackCost (rho : F64) : F64 × F64 := (fdMul (fdOfRatio 2 100) rho, rho)

/-- The budgets and the shape of the problem of this cycle: N, m_s, and the nanoseconds of T. -/
def Mach.plN (m : Mach) : Nat := m.g .STR_PL_HORIZON_stages
def Mach.plMs (m : Mach) : Nat := m.g .STR_PL_HORIZON_m_s
def Mach.plT (m : Mach) : Nat := m.grid.periodMs * 1000000

/-- rot_f. -/
def Mach.rotFrac (m : Mach) : F64 := fdOfRatio (m.g .STR_PL_SECTOR_rot_f) 100

/-- Stage k of the problem: `r0` the reference at stage 0, `rk` at stage k, its length, heading, matrices and bias force, and whether it
is the first or the last. -/
def Mach.plStage (m : Mach) (k : Nat) (first last : Bool) (h hd : F64) (mats : Stage4) (r0 rk : PlRef) (x : List F64) : QpStage :=
  let l := m.plThrs
  let nf := (l.map Thr.nv).sum
  let nb := m.pl.buses.length
  let n := 6 + nf + nb + 1
  let sx := n - 1
  let mode := m.plMode
  let posOn := mode == 1 || mode == 2
  let hdgOn := m.plHeads
  let z (on : Bool) (r : Nat) : F64 := if on then m.fd r else 0
  let c := if last then m.fd Reg.STR_PL_W_TERM else fdOfInt 1
  let q := [z posOn Reg.STR_PL_Q_POS, z posOn Reg.STR_PL_Q_POS, z hdgOn Reg.STR_PL_Q_HDG, z posOn Reg.STR_PL_Q_U, z posOn Reg.STR_PL_Q_V,
    z hdgOn Reg.STR_PL_Q_R]
  let vel := rotT rk.h rk.vn rk.ve
  let want := [fdSub rk.n r0.n, fdSub rk.e r0.e, toRad (wrap180 (fdSub rk.h r0.h)), vel.1, vel.2, toRad rk.r]
  let qd := q.map fun v => fdMul (fdOfInt 2) (fdMul (fdMul h c) v)
  let fc := forceCost h l (m.fd Reg.STR_PL_W_ALLOC) m.plAxes m.plCommand
  let sb := slackCost (m.fd Reg.STR_PL_RHO_BUS)
  let se := slackCost (m.fd Reg.STR_PL_RHO_EXC)
  let diag := qd ++ List.replicate nf 0 ++ List.replicate nb sb.1 ++ [se.1]
  let g := List.zipWith (fun a b => fdNegate (fdMul a b)) qd want ++ fc.2 ++ List.replicate nb sb.2 ++ [se.2]
  let thr := placeRows n 6 (l.map fun t => (t, if first then t.rows0 m.rotFrac h else t.rows))
  let bus := m.busRows n 6 (6 + nf) (splitForces l (m.plPast (k + 1) nf))
  let slk := (List.range (nb + 1)).map fun j => (oneAt n (6 + nf + j) (fdOfInt (-1)), (0 : F64))
  let exc := if posOn then m.fd Reg.STR_PL_EXC else fdOfInt 1000000
  let lim (i : Nat) (s v : F64) : List F64 × F64 :=
    ((oneAt n i s).mapIdx fun j y => if j = sx then fdOfInt (-1) else y, fdAdd exc (fdMul s v))
  let excRows := [lim 0 (fdOfInt 1) (fdAt want 0), lim 0 (fdOfInt (-1)) (fdAt want 0), lim 1 (fdOfInt 1) (fdAt want 1),
    lim 1 (fdOfInt (-1)) (fdAt want 1)]
  let rows := thr ++ bus ++ slk ++ excRows
  let b := bRows l
  let bias := rotT hd (fdAt x 6) (fdAt x 7)
  let w0 := [fdAdd (fdAt x 9) bias.1, fdAdd (fdAt x 10) bias.2, fdAdd (fdAt x 11) (fdAt x 8)]
  let pad := List.replicate (nb + 1) (0 : F64)
  let eta := (rotRows hd (List.zipWith (· ++ ·) mats.psi (matMul nf mats.lam b))).mapIdx fun i r => oneAt 3 i (fdOfInt 1) ++ r ++ pad
  let nu := (List.zipWith (· ++ ·) mats.phi (matMul nf mats.gam b)).map fun r => [0, 0, 0] ++ r ++ pad
  let lw := matVec mats.lam w0
  let lr := rotF hd (fdAt lw 0) (fdAt lw 1)
  ⟨embed n 6 fc.1 diag, g, rows.map (·.1), rows.map (·.2), if last then [] else eta ++ nu,
   if last then [] else [lr.1, lr.2, fdAt lw 2] ++ matVec mats.gam w0⟩

/-- The start of stage k after the planned release instant, in seconds. -/
def Mach.stageStart (m : Mach) (k : Nat) : F64 :=
  if k = 0 then 0 else nsF (m.pl.h0 + (k - 1) * m.plMs * m.plT)

/-- The QP of the cycle; none without a model set. -/
def Mach.plProblem (m : Mach) : Option Qp :=
  match modelSet m.pl.model (m.g .STR_PL_TIMING_period) m.plMs with
  | none => none
  | some o =>
    let n := m.plN
    let x := estPredict m.pl.model ([m.fd Reg.STR_PL_TAU_X, m.fd Reg.STR_PL_TAU_Y, m.fd Reg.STR_PL_TAU_N] ++ m.pl.est.drop 9)
      (m.pl.planned - m.pl.t0) (m.pl.est.take 9) ++ m.pl.est.drop 9
    let ts := m.plTargets
    let r0 := m.pl.ref
    let ref (k : Nat) : PlRef := if k = 0 then r0 else (refMove ts (m.stageStart k) r0).1
    let w := fdDiv (fdOfRatio (4 * (m.pl.h0 : Int) - 3 * m.plT) 4) (fdOfRatio m.plT 4)
    let first := lerpMats w (stageMats m.pl.model o 1) (stageMats m.pl.model o 0)
    let later := stageMats m.pl.model o 2
    let hd (k : Nat) : F64 :=
      if k = 0 then fdAt x 2 else match m.pl.hist with
        | [] => fdAt x 2
        | h => fdAt (h.getD (min (k + 1) (h.length - 1)) []) 0
    let xi := [fdSub (fdAt x 0) r0.n, fdSub (fdAt x 1) r0.e, toRad (wrap180 (fdSub (fdAt x 2) r0.h)), fdAt x 3, fdAt x 4, toRad (fdAt x 5)]
    let st := (List.range n).map fun k =>
      m.plStage k (k == 0) (k + 1 == n) (if k = 0 then nsF m.pl.h0 else nsF (m.plMs * m.plT)) (hd k) (if k = 0 then first else later) r0
        (ref k) x
    some ⟨false, 6, xi, [], st, 2, min m.pl.age (n - 1), 0, 0, true, []⟩

/-! ### The reduced law (R632 to R634) -/

/-- The law runs on the 200 ms grid: in FIDDLEHEAD, and in SERVICE until the first DP boundary (R631, R635). -/
def Mach.onReduced (m : Mach) : Bool := m.g .GEN_STATE_state == 3 || (m.g .GEN_STATE_state == 4 && (!m.grid.running || m.grid.first))

/-- The law period of the reduced law in seconds: 200 ms in FIDDLEHEAD, T in FALLBACK. -/
def Mach.redPeriod (m : Mach) : F64 := if m.onReduced then fdOfRatio 2 10 else nsF m.plT

/-- The gains of axis k: Kp, Ki, Kd (R633). -/
def redGains (img : List Byte) (k : Nat) : F64 × F64 × F64 :=
  let mk := mdl img 32 (4 * k)
  let dk := mdl img 104 (4 * k)
  let w := fdDiv (fdMul (fdOfInt 2) piF) (if k = 2 then fdOfInt 80 else fdOfInt 100)
  let kp := fdMul mk (fdMul w w)
  (kp, fdDiv (fdMul kp w) (fdOfInt 10), fdMax 0 (fdSub (fdMul (fdMul (fdOfRatio 16 10) w) mk) dk))

/-- C_k: the force the available thrusters can give on an axis. -/
def Mach.redCap (m : Mach) (k : Nat) : F64 :=
  fdSum ((m.plThrs.filter Thr.use).map fun t => fdMul t.fmax (normInf (t.cols.map fun c => fdAt c k)))

/-- The demand τ_c and the integrators after it (R632). -/
def Mach.redDemand (m : Mach) : List F64 × List F64 :=
  let x := m.pl.est
  let r := m.pl.ref
  let hd := fdAt x 2
  let h := m.redPeriod
  let p := rotT hd (fdSub r.n (fdAt x 0)) (fdSub r.e (fdAt x 1))
  let err := [p.1, p.2, toRad (wrap180 (fdSub r.h hd))]
  let v := rotT hd r.vn r.ve
  let nuRef := [v.1, v.2, toRad r.r]
  let nu := [fdAt x 3, fdAt x 4, toRad (fdAt x 5)]
  let b := rotT hd (fdAt x 6) (fdAt x 7)
  let bias := [b.1, b.2, fdAt x 8]
  let cmd := m.plCommand
  let axis (k : Nat) : F64 × F64 :=
    if m.plAxes.getD k false then (fdAt cmd k, 0)
    else
      let g := redGains m.pl.model k
      let lim := fdMul (fdOfRatio 2 10) (m.redCap k)
      let i := fdMax (fdNegate lim) (fdMin lim (fdAdd (fdAt m.pl.integ k) (fdMul (fdMul g.2.1 h) (fdAt err k))))
      (fdSum [fdMul g.1 (fdAt err k), i, fdMul g.2.2 (fdSub (fdAt nuRef k) (fdAt nu k)), fdNegate (fdAt bias k), fdNegate (fdAt x (9 + k))], i)
  let l := (List.range 3).map axis
  (l.map (·.1), l.map (·.2))

/-- The DENSE allocation problem (R634). -/
def Mach.redProblem (m : Mach) (tau : List F64) : Qp :=
  let l := m.plThrs
  let nf := (l.map Thr.nv).sum
  let nb := m.pl.buses.length
  let n := nf + nb
  let h := m.redPeriod
  let fc := forceCost (fdOfInt 1) l (m.fd Reg.STR_PL_W_ALLOC) [true, true, true] tau
  let sb := slackCost (m.fd Reg.STR_PL_RHO_BUS)
  let past := splitForces l (l.flatMap fun t => if t.fixed then [t.tc] else (unitAt t.ac).map (fdMul t.tc))
  let rows := placeRows n 0 (l.map fun t => (t, t.rows0 m.rotFrac h)) ++ m.busRows n 0 nf past
    ++ (List.range nb).map fun j => (oneAt n (nf + j) (fdOfInt (-1)), (0 : F64))
  ⟨true, 0, [], [], [⟨embed n 0 fc.1 (List.replicate nf 0 ++ List.replicate nb sb.1), fc.2 ++ List.replicate nb sb.2, rows.map (·.1),
    rows.map (·.2), [], []⟩], 0, 0, 0, 0, false, []⟩

/-- An azimuth lies inside the forbidden sector, and the nearer edge. -/
def Thr.outOfSector (t : Thr) (a : F64) : F64 :=
  let w := wrap360 (fdSub t.a2 t.a1)
  let d := wrap360 (fdSub a t.a1)
  if t.sector && fdLt 0 d && fdLt d w then (if fdLe (fdMul (fdOfInt 2) d) w then t.a1 else t.a2) else a

/-- A force clipped to the bounds and rate limits of R270. -/
def Thr.clip (t : Thr) (rotF h : F64) (f : List F64) : List F64 :=
  if !t.use then f.map fun _ => 0
  else if t.fixed then
    [fdMax (fdNegate (fdMin t.frev (fdAdd (fdNegate t.tc) (fdMul t.rate h)))) (fdMin (fdMin t.fmax (fdAdd t.tc (fdMul t.rate h))) (fdAt f 0))]
  else
    let size := fdMin (forceNorm f) (t.top rotF h)
    let b := t.beta h
    let off := wrap180 (fdSub (Config.atan2Deg (fdAt f 1) (fdAt f 0)) t.ac)
    let a := t.outOfSector (fdAdd t.ac (fdMax (fdNegate b) (fdMin b off)))
    (unitAt a).map (fdMul size)

/-- The pseudo-inverse allocation (R634). -/
def Mach.redPseudo (m : Mach) (tau : List F64) : List F64 :=
  let l := m.plThrs
  let b := bRows l
  let wi := l.flatMap fun t => List.replicate t.nv (fdDiv (fdOfInt 1) t.wt)
  let bw := b.map fun r => List.zipWith fdMul r wi
  let s := (List.range 3).map fun i => (List.range 3).map fun j =>
    fdAdd (fdDot (bw.getD i []) (b.getD j [])) (if i = j then fdOfRatio 1 1000000 else 0)
  let y := matVec (Config.inv3 s) tau
  let f := (List.range wi.length).map fun i => fdDot (bw.map fun r => fdAt r i) y
  (splitForces l f).flatMap fun p => p.1.clip m.rotFrac m.redPeriod p.2

/-! ### From forces to set-points (R279, R280) -/

/-- The table of a thruster at a thrust: rpm and pitch; none when no table was loaded. -/
def Mach.plTable (m : Mach) (i : Nat) (t : F64) : Option (Word × Word) :=
  let tab := nth [] m.pl.tables i
  if tab.isEmpty then none
  else
    let lo := fdNegate (m.fd (Reg.STR_PL_THRi_FREV i))
    let span := fdAdd (m.fd (Reg.STR_PL_THRi_FMAX i)) (m.fd (Reg.STR_PL_THRi_FREV i))
    let u := fdDiv (fdMul (fdSub t lo) (fdOfInt 511)) span
    let u' := fdMax 0 (fdMin (fdOfInt 511) u)
    let j : Nat := min (fdMag u' / 2 ^ 1074) 510
    let w := fdSub u' (fdOfInt (j : Nat))
    let at_ (k o : Nat) : F64 := fdOfF32 (BitVec.ofNat 32 (unle ((tab.drop (8 * k + o)).take 4)))
    let v (o : Nat) : Word := fdToF32 (fdAdd (at_ j o) (fdMul w (fdSub (at_ (j + 1) o) (at_ j o))))
    some (v 0, v 4)

/-- The set-points of a thruster for a signed thrust and an azimuth. -/
def Mach.plSet (m : Mach) (i : Nat) (t : F64) (az : Option Word) : ThrSet :=
  let x := m.plTable i t
  ⟨fdToF32 t, x.map (·.1), x.map (·.2), az⟩

/-- The azimuth as it is sent: in [0°, 360°), or unwrapped about the present one (R281). -/
def Mach.plAzOut (m : Mach) (t : Thr) (a : F64) : Word :=
  if m.b (.STR_PL_THRi_CFG_az_cont t.i) then fdToF32 (fdAdd t.ac (wrap180 (fdSub a t.ac))) else headingF32 a

/-- The edge of the selected side. -/
def Thr.edge (t : Thr) : F64 := if t.side = 1 then t.a2 else t.a1

/-- The way still to go to the new edge while ROTATING; the arc avoids the sector (R272). -/
def Thr.rotLeft (t : Thr) (a : F64) : F64 := if t.side = 1 then wrap360 (fdSub a t.edge) else wrap360 (fdSub t.edge a)

/-- The new edge is reached: the azimuth is the edge in the FP32 in which azimuths are released, or has passed it into the sector. -/
def Thr.rotDone (t : Thr) (a : F64) : Bool :=
  headingF32 a == headingF32 t.edge || fdLt (fdSub (fdOfInt 360) (wrap360 (fdSub t.a2 t.a1))) (t.rotLeft a)

/-- The azimuth of a ROTATING thruster after a time: the edge itself where the time suffices. -/
def Thr.rotNext (t : Thr) (a h : F64) : F64 :=
  let d := fdMul t.azr h
  if t.rotDone a || fdLe (t.rotLeft a) d then t.edge else if t.side = 1 then fdSub a d else fdAdd a d

/-- The set-points of one thruster for its force (R279). -/
def Mach.plDispatch (m : Mach) (t : Thr) (f : List F64) : ThrSet :=
  if t.fixed then m.plSet t.i (fdMax (fdNegate t.frev) (fdMin t.fmax (fdAt f 0))) none
  else
    let size := fdMin (forceNorm f) t.fmax
    let small := fdLt size (fdMul (fdOfRatio 1 100) t.fmax)
    let last := m.fd (Reg.STR_PL_THRi_AZ t.i)
    let az := if t.rot then m.plAzOut t (t.rotNext last m.redPeriod)
      else if small then m.rd (Reg.STR_PL_THRi_AZ t.i) else m.plAzOut t (Config.atan2Deg (fdAt f 1) (fdAt f 0))
    m.plSet t.i (if small then 0 else size) (some az)

/-- Zero thrust with the azimuth held (R256, R291). -/
def Mach.plZero (m : Mach) (i : Nat) : ThrSet :=
  m.plSet i 0 (if m.b (.STR_PL_THRi_CFG_type i) then none else some (m.rd (Reg.STR_PL_THRi_AZ i)))

/-- The planned power of a bus for a list of set-points: Σ κ |T|^1.5. -/
def Mach.plPower (m : Mach) (b : Nat) (l : List (Nat × ThrSet)) : F64 :=
  fdSum ((l.filter fun p => m.g (.STR_PL_THRi_CFG_bus p.1) == b).map fun p =>
    fdMul (m.fd (Reg.STR_PL_THRi_KAPPA p.1)) (pow15 (fdAbs (fdOfF32 p.2.thrust))))

/-- The trip set of a generator (R284): the factor, and the set-points of the thrusters on its bus. The capacity of a generator that
has tripped is gone from EFF already (R283). -/
def Mach.plTrip (m : Mach) (g : Nat) (l : List (Nat × ThrSet)) : Word × List (Nat × ThrSet) :=
  let b := m.g (.STR_PL_GENg_CFG_bus g)
  let mine := l.filter fun p => m.g (.STR_PL_THRi_CFG_bus p.1) == b
  let plan := m.plPower b l
  let cap : F64 := if m.b (.STR_PL_GENg_CFG_tripped g) then 0 else m.fd (Reg.STR_PL_GENg_CAP g)
  let after := fdSub (m.fd (Reg.STR_PL_BUSb_EFF b)) cap
  if fdLe plan after then (fpOfInt 1, mine)
  else
    let k := if fdLe after 0 then 0 else fdMax 0 (fdMin (fdOfInt 1) (fdPow23 (fdDiv after plan)))
    (fdToF32 k, mine.map fun p => (p.1, m.plSet p.1 (fdMul k (fdOfF32 p.2.thrust)) p.2.az))

end Sys2Proof.Machine
end

