-- ==== Sys2Proof/Machine/Str.lean ====
section
/-!
DEFINITION. The strings' base tick: changes that reach their application tick, the computations of the tick, its output
instant, and the commands and register writes of the STR block (chapters 09 and 10).
Log: 47 (DEDUCED), 68 (DEDUCED), 69 (DEDUCED).
-/
namespace Sys2Proof.Machine

/-! ### Where a change applies (R339, R340) -/

/-- The set bits of a mask of strings. -/
def maskList (n : Nat) : List Nat := (List.range 48).filter fun i => n.testBit i

/-- The entries of an STR_SP_SET: string and value. -/
def spEntries (c : Cmd) : List (Nat × Word) :=
  (List.range (c.u8 1)).map fun i => (c.dn (8 * i) 1, BitVec.ofNat 32 (c.d32 (8 * i + 4)))

/-- The string a register belongs to. -/
def strOfReg (off : Nat) : Nat := if off < 0x00044000 then (off - 0x00041000) / 256 else (off - 0x00044100) / 64

/-- The strings a change names. -/
def jobStrings (op : Nat) (c : Cmd) : List Nat :=
  if op = 1 then [strOfReg (c.u32 0)]
  else if op = 0x61 || op = 0x6A || op = 0x6B then maskList (c.un 8 6)
  else if op = 0x62 then (spEntries c).map (·.1)
  else if op = 0x66 then [] else [c.u8 1]

/-- String t computes at base tick tk (R342). -/
def Mach.strDue (m : Mach) (t tk : Nat) : Bool :=
  let div := m.g (.STR_Ss_DIV_div t)
  div != 0 && ((tk / m.tickNs : Nat) - (m.g (.STR_Ss_DIV_phase t) : Int)) % (div : Int) == 0

/-! ### Checks (R356, R359, R361, R374, R375) -/

/-- The fields of the i-th register from STR_Ss_CFG are admissible (R346, R350, R355, R379). -/
def strFieldOk (i : Nat) (w : Word) : Bool :=
  let n := w.toNat
  match i with
  | 0 => decide (n % 8 < 5) && decide (n / 16 % 8 < 5) && decide (n / 256 % 8 < 5) && decide (n / 4096 % 4 < 3)
  | 1 => n % 65536 != 0
  | 2 => decide (n / 65536 % 16 < 5)
  | 4 => decide (n / 65536 % 16 < 5)
  | 6 => fpLt 0 w
  | 14 => fpLe 0 w
  | 17 => fpLe 0 w
  | 23 => fpLe 0 w
  | 24 => fpLe 0 w
  | 27 => fpLe 0 w
  | 25 => fpLt 0 w
  | 29 => n % 65536 != 0 && decide (1 ≤ n / 65536) && decide (n / 65536 ≤ 255)
  | 30 => n / 65536 % 256 != 0 && n / 256 % 256 != 0
  | _ => true

/-- Two strings drive the same sink (R356). -/
def Mach.strClash (m : Mach) (a b : Nat) : Bool :=
  let k := m.g (.STR_Ss_CFG_sink_type a)
  k == m.g (.STR_Ss_CFG_sink_type b) && m.g (.STR_Ss_SINK_index a) == m.g (.STR_Ss_SINK_index b)
    && (k == 1 || k == 3 || k == 4
      || (k == 2 && m.g (.STR_Ss_SINK_object a) == m.g (.STR_Ss_SINK_object b)
        && decide (m.g (.STR_Ss_SINK_offset a) < m.g (.STR_Ss_SINK_offset b) + encLen (m.g (.STR_Ss_SINK_enc b)))
        && decide (m.g (.STR_Ss_SINK_offset b) < m.g (.STR_Ss_SINK_offset a) + encLen (m.g (.STR_Ss_SINK_enc a)))))

/-- An outer and an inner string are an admissible pair (R359). -/
def Mach.strPair (m : Mach) (o i : Nat) : Bool :=
  let di := m.g (.STR_Ss_DIV_div i)
  decide (o < 48) && decide (i < 48) && m.g (.STR_Ss_CFG_sink_type o) == 4 && m.g (.STR_Ss_SINK_index o) == i
    && m.g (.STR_Ss_CFG_sp_type i) == 4 && m.g (.STR_Ss_SP_SRC_index i) == o
    && di != 0 && m.g (.STR_Ss_DIV_div o) % di == 0 && m.g (.STR_Ss_DIV_phase o) % di == m.g (.STR_Ss_DIV_phase i)

/-- The strings of a chain from its end upwards, as far as n links. -/
def Mach.strUp (m : Mach) : Nat → Nat → List Nat
  | 0, _ => []
  | n + 1, t => t :: if m.g (.STR_Ss_CFG_sp_type t) = 4 then m.strUp n (m.g (.STR_Ss_SP_SRC_index t)) else []

/-- The innermost string of a chain, as far as n links. -/
def Mach.strEnd (m : Mach) : Nat → Nat → Nat
  | 0, t => t
  | n + 1, t => if m.g (.STR_Ss_CFG_sink_type t) = 4 then m.strEnd n (m.g (.STR_Ss_SINK_index t)) else t

/-- The configuration admits ENABLE beside the strings enabled, or enabled with it (R341, R356, R359, R375, R381, R447). -/
def Mach.strAdmissible (m : Mach) (t : Nat) (with_ : List Nat) : Bool :=
  let sp := m.g (.STR_Ss_SP_SRC_index t)
  let fb := m.g (.STR_Ss_FB_SRC_index t)
  let k := m.g (.STR_Ss_SINK_index t)
  let spOk := match m.g (.STR_Ss_CFG_sp_type t) with
    | 2 => decide (sp < 16) | 3 => decide (sp < 12) && m.g (.FBK_CHc_CFG_mode sp) == 3 | 4 => m.strPair sp t | _ => true
  let fbOk := match m.g (.STR_Ss_CFG_fb_type t) with
    | 0 => decide (fb < 12) | 1 => decide (fb < 12) | 2 => decide (fb < 16)
    | 3 => decide (fb < 4) && decide (m.g (.STR_Ss_FB_SRC_offset t) + encLen (m.g (.STR_Ss_FB_SRC_enc t)) ≤ 64)
    | _ => decide (fb < 15)
  let skOk := match m.g (.STR_Ss_CFG_sink_type t) with
    | 1 => decide (k < 8) && m.b (.DIO_AOk_CFG_en k)
    | 2 => decide (k < 4) && decide (m.g (.STR_Ss_SINK_offset t) + encLen (m.g (.STR_Ss_SINK_enc t)) ≤ 64)
    | 3 => decide (k < 4) | 4 => m.strPair t k | _ => true
  let chain := m.strUp 6 (m.strEnd 6 t)
  spOk && fbOk && skOk && decide (chain.length ≤ 4)
    && fpLt (m.rd (Reg.STR_Ss_UMIN t)) (m.rd (Reg.STR_Ss_UMAX t))
    && decide (m.g (.STR_Ss_DIV_phase t) < m.g (.STR_Ss_DIV_div t))
    && (!m.b (.STR_Ss_CFG_drone_en t) || m.drAllocOk t)
    && (List.range 48).all fun o => o == t || (m.strState o == 0 && !with_.contains o) || !m.strClash t o

/-- The check of a state request for one string (R361, R362, R375): 0 when it applies. -/
def Mach.strRequest (m : Mach) (e : Env) (req t : Nat) (mask : List Nat) : Nat :=
  let st := m.strState t
  let allowed := match req with
    | 0 => st == 0 | 1 => st == 1 | 2 => st == 2 | 3 => st == 1 || st == 2 | 4 => st == 1 || st == 4 | _ => st == 4
  if !allowed then stState
  else if req = 0 then if m.strAdmissible t mask then 0 else 0x42
  else if req = 1 then
    let inner := m.g (.STR_Ss_SINK_index t)
    let spMiss := !(m.strSp t).2 && !(m.g (.STR_Ss_CFG_sp_type t) == 4 && mask.contains (m.g (.STR_Ss_SP_SRC_index t)))
    if (m.strFb e t).isNone || spMiss then 0x40
    else if m.g (.STR_Ss_CFG_sink_type t) = 4 && m.strState inner != 2 && !mask.contains inner then 0x41 else 0
  else 0

/-- The registers of an STR_CFG_SET image. -/
def strCfgRegs (t : Nat) : List Nat := (List.range 31).map fun i => Reg.STR_Ss_CFG t + 4 * i

/-- STR_CFG_SET against the state of its string (R341, R375). -/
def Mach.strCfgCheck (m : Mach) (c : Cmd) (t : Nat) : Nat :=
  let st := m.strState t
  let differs (i : Nat) : Bool := m.imageDiffers (Reg.STR_Ss_CFG t + 4 * i) (BitVec.ofNat 32 (c.d32 (4 * i))) 0xFFFFFFFF
  if st != 0 && (List.range 7).any differs then stState
  else if (st == 2 || st == 3) && (List.range 31).any (fun i => decide (7 ≤ i) && differs i) then stState else 0

/-- The first check that fails over the strings of a change (R375, R396): 0 when the change applies to all of them. -/
def Mach.strCheck (m : Mach) (e : Env) (op : Nat) (c : Cmd) : Nat :=
  let l := jobStrings op c
  let one (t : Nat) : Nat :=
    match op with
    | 0x60 => m.strCfgCheck c t
    | 0x61 => m.strRequest e (c.u8 1) t l
    | 0x62 => if m.g (.STR_Ss_CFG_sp_type t) = 0 then 0 else stState
    | 0x63 => if m.strState t = 1 then 0 else stState
    | 1 => 0
    | _ => m.drCheck op c t
  if op = 0x66 then
    if ((List.range 48).all fun t => m.strState t == 0) && (m.pl.far.all fun x => x.2 == 0) then 0 else stState
  else (l.map one).foldl (fun a s => if a = 0 then s else a) 0

/-! ### Application (R341, R362, R391) -/

/-- ENABLE (R354, R362): the sink's present value is held. -/
def Mach.strEnable (m : Mach) (e : Env) (t tk : Nat) : Mach :=
  let m1 := m.strClaim t
  let u := m1.strPresent t
  let m2 := (m1.setSg t fun x => { StrSt.reset with law := x.law, uP := u, enAt := tk }).wr (Reg.STR_Ss_OUT t) u
  let m3 := m2.strMove e t 1 (m.strCause 0)
  ((m3.ownSync (m.g (.STR_Ss_SINK_index t)) (m.g (.STR_Ss_SINK_object t))).ownSync (m.g (.STR_Ss_FB_SRC_index t))
    (m.g (.STR_Ss_FB_SRC_object t))).drEnable e t

/-- A string goes IDLE and gives up its claims. -/
def Mach.strIdle (m : Mach) (e : Env) (t cause : Nat) (rel : Bool) : Mach :=
  (((m.strMove e t 0 cause).setSg t fun x => { x with ramp := none, endAs := none, fresh := none, rel := some rel, closing := false })).strUnclaim t

/-- A state request applied to one string (R362). -/
def Mach.strDo (m : Mach) (e : Env) (req t tk : Nat) : Mach :=
  let cause := m.strCause 0
  match req with
  | 0 => m.strEnable e t tk
  | 1 => (m.strMove e t 2 cause).setSg t fun x => { x with closing := true }
  | 2 => (m.strMove e t 1 cause).setSg t fun x => { x with closing := false }
  | 3 => (m.strRamp t 0 true).strMove e t 3 cause
  | 4 => m.strIdle e t cause true
  | _ =>
    let u := m.strPresent t
    ((m.setSg t fun x => { x with uP := u, rel := none, ramp := none }).wr (Reg.STR_Ss_OUT t) u).strMove e t 1 cause

/-- A register whose new value the spec refuses keeps the old one. -/
def Mach.strRefuse (m : Mach) (old : Word) (off t : Nat) : Mach :=
  let i := (off - Reg.STR_Ss_CFG t) / 4
  let w := m.rd off
  let bad :=
    if off < 0x00044000 then !strFieldOk i w
    else if off = Reg.STR_DRN_Ss_CFG t then
      decide (m.g (.STR_DRN_Ss_CFG_act_open t) = 3) || decide (m.g (.STR_DRN_Ss_CFG_act_fault t) = 3) || decide (m.g (.STR_DRN_Ss_CFG_mode t) = 3)
    else if off = Reg.STR_DRN_Ss_ALLOC t then
      let b := m.g (.STR_DRN_Ss_ALLOC_base t)
      let n := m.g (.STR_DRN_Ss_ALLOC_count t)
      decide (64 < n) || (n != 0 && (decide (256 < b + n) || (List.range n).any (fun j => m.str.badPages.contains (b + j)
        || (List.range 48).any fun k => k != t && m.drHolds k (b + j))))
    else if off = Reg.STR_DRN_Ss_GAIN t then !fpLe 0 w
    else if off = Reg.STR_DRN_Ss_QMAX t then !fpLt 0 w
    else if off = Reg.STR_DRN_Ss_DECAY t then !(fpLe 0 w && fpLe w 0x3F800000)
    else if off = Reg.STR_DRN_Ss_HPER t then !(fpIsFinite w && fpLe 0 w)
    else !qFilterOk (m.b (.STR_DRN_Ss_CFG_qtaps t)) (m.rd (Reg.STR_DRN_Ss_Q0 t)) (m.rd (Reg.STR_DRN_Ss_Q1 t)) (m.rd (Reg.STR_DRN_Ss_Q2 t))
  if bad then m.wr off old else m

/-- A register write applied to its string (R340, R341, R382). -/
def Mach.strRegApply (m : Mach) (e : Env) (off t : Nat) (v : Word) : Mach :=
  let st := m.strState t
  let structural := (off < 0x00044000 && decide (off < Reg.STR_Ss_FB_SCALE t)) || off == Reg.STR_DRN_Ss_CFG t || off == Reg.STR_DRN_Ss_ALLOC t
  let quiet := !e.locked && (st == 0 || (!structural && (st == 1 || st == 4)))
  let old := m.rd off
  let m1 := (m.hostPut e.locked quiet off v).strRefuse old off t
  if off = Reg.STR_DRN_Ss_ALLOC t && m1.rd off != old then (m1.drZero t).drSync t
  else if off = Reg.STR_DRN_Ss_CFG t then m1.sb (.STR_DRN_Ss_STS_alloc_ok t) (m1.drAllocOk t)
  else m1

/-- A change applied to one string at its computation tick. -/
def Mach.strApply (m : Mach) (e : Env) (op : Nat) (c : Cmd) (t tk : Nat) : Mach :=
  match op with
  | 1 => m.strRegApply e (c.u32 0) t (BitVec.ofNat 32 (c.u32 4))
  | 0x60 => (List.range 31).foldl (fun m i => m.putImage (Reg.STR_Ss_CFG t + 4 * i) (BitVec.ofNat 32 (c.d32 (4 * i)))) m
  | 0x61 => m.strDo e (c.u8 1) t tk
  | 0x63 => let v : Word := BitVec.ofNat 32 (c.u32 4); (m.setSg t fun x => { x with uP := v }).wr (Reg.STR_Ss_OUT t) v
  | _ => m.drApply e op c t

/-! ### Changes that wait (R340, R374) -/

/-- The result of a change: its application tick (R374), and of DRN_TABLE_READ the snapshot (R395). -/
def Mach.strResult (m : Mach) (op : Nat) (c : Cmd) (tk : Nat) : List Byte × List Byte :=
  if op = 0x66 then ([], [])
  else if op = 0x6E && m.strLocal (c.u8 0) then
    let t := c.u8 1
    let data := ((m.dr t).table.take (m.drNt t)).flatMap fun w => le 4 w.toNat
    (le 4 (tk / 8) ++ le 4 (crc32c data) ++ le 4 (m.g (.STR_DRN_Ss_PHASE_phi t)), data)
  else (le 4 (tk / 8), [])

/-- A change is complete: its command ends when this module took it from a host. -/
def Mach.strDone (m : Mach) (e : Env) (j : StrJob) (st tk : Nat) : Mach :=
  if !j.own then m
  else
    let (res, data) := m.strResult j.op j.cmd (if j.op = 0x6E then tk else j.at_)
    if st != 0 then m.complete e j.op j.cmd st [] []
    else if j.cmd.bufLen < data.length then m.complete e j.op j.cmd stLen [] [] else m.complete e j.op j.cmd stOk res data

/-- The string at whose computation tick a change applies: for a close, the outermost of the chain that closes with it (R361). -/
def Mach.strRoot (m : Mach) (op : Nat) (c : Cmd) (t : Nat) : Nat :=
  if op = 0x61 && c.u8 1 = 1 then ((m.strUp 4 t).takeWhile fun x => (jobStrings op c).contains x).getLastD t else t

/-- One waiting change at base tick tk; the job is kept while strings have still to apply it. `after` is whether the tick's
computations are over, for a table read (R391); `all` applies the change to every string at once, as the configuration replay does (R626). -/
def Mach.strJob (m : Mach) (e : Env) (tk : Nat) (after all : Bool) (j : StrJob) : Mach :=
  let keep (m : Mach) (j : StrJob) : Mach := { m with str := { m.str with jobs := m.str.jobs ++ [j] } }
  if tk < j.at_ then keep m j
  else
    let here := j.op == 1 || j.op == 0x66 || m.strLocal (j.cmd.u8 0)
    let st := if j.open_ || !here then 0 else m.strCheck e j.op j.cmd
    if st != 0 then m.strDone e j st tk
    else
      let left := if j.open_ then j.left else if here && j.op != 0x62 && j.op != 0x66 then jobStrings j.op j.cmd else []
      let m1 := if j.open_ || !here then m
        else if j.op = 0x62 then (spEntries j.cmd).foldl (fun m p => m.wr (Reg.STR_Ss_SPH p.1) p.2) m
        else if j.op = 0x66 then m.s .STR_TIMING_out_dly (j.cmd.u32 0) else m
      let now_ (t : Nat) : Bool := all || m.strDue (m.strRoot j.op j.cmd t) tk && (after == (j.op == 0x6E))
      let m2 := left.foldl (fun m t => if now_ t then m.strApply e j.op j.cmd t tk else m) m1
      let rest := left.filter fun t => !now_ t
      if rest.isEmpty then m2.strDone e j 0 tk else keep m2 { j with open_ := true, left := rest }

/-- Every waiting change, in the order of arrival. -/
def Mach.strJobs (m : Mach) (e : Env) (tk : Nat) (after : Bool) : Mach :=
  m.str.jobs.foldl (fun m j => m.strJob e tk after false j) { m with str := { m.str with jobs := [] } }

/-! ### The computations of a tick (R343, R358, R360, R366, R371) -/

/-- The strings held by GATE follow it (R358). -/
def Mach.strGateHold (m : Mach) (e : Env) : Mach :=
  let want (t : Nat) : Bool := !m.gate && !m.strShadow && m.strState t == 2 && m.strGated t
  let mask (f : Nat → Bool) : Nat := ((List.range 48).map fun t => if f t then 2 ^ t else 0).sum
  let on := mask fun t => want t && !m.b (.STR_Ss_STS_gate_hold t)
  let off := mask fun t => !want t && m.b (.STR_Ss_STS_gate_hold t)
  let m1 := iter 48 (fun t m => m.sb (.STR_Ss_STS_gate_hold t) (want t)) m
  let m2 := if off = 0 then m1 else m1.event e 0x6007 (some 2) (le 6 off ++ le 1 0)
  if on = 0 then m2 else m2.event e 0x6007 (some 2) (le 6 on ++ le 1 1)

/-- The nesting depth of a string: 0 for an outermost one. -/
def Mach.strDepth (m : Mach) (t : Nat) : Nat := (m.strUp 4 t).length - 1

/-- The place of a string in the order of a tick (R343); strings that close with their outer string go innermost first (R361). -/
def Mach.strKey (m : Mach) (t : Nat) : Nat :=
  let d := m.strDepth t
  if !(m.sg t).closing then d
  else
    let above := ((m.strUp 4 t).takeWhile fun x => (m.sg x).closing).length - 1
    let below := (List.range 48).countP fun o => o != t && (m.sg o).closing && ((m.strUp 4 o).takeWhile fun x => (m.sg x).closing).contains t
    d - above + below

/-- The strings due at a tick, in order. -/
def Mach.strOrder (m : Mach) (tk : Nat) : List Nat :=
  let due := (List.range 48).filter fun t => m.strState t != 0 && m.strDue t tk
  (List.range 5).flatMap fun k => due.filter fun t => m.strKey t == k

/-- The due strings compute; one that does not end before the output instant is missed (R343, R344, R366). -/
def Mach.strRun (m : Mach) (e : Env) (tk : Nat) : Mach :=
  let order := m.strOrder tk
  let lim := m.outDly * 2 / 5
  let r := order.foldl (fun (p : Mach × Nat) t =>
    let (m, at_) := p
    let end_ := at_ + if m.b (.STR_Ss_CFG_drone_en t) then 200 else 150
    let m1 := if m.b (.STR_Ss_CFG_drone_en t)
      then m.drAdvance e t (((tk / m.tickNs : Nat) - (m.g (.STR_Ss_DIV_phase t) : Int)) / (m.g (.STR_Ss_DIV_div t) : Int)).toNat else m
    if lim < end_ then ({ m1 with str := { m1.str with missed := m1.str.missed ++ [t] } }, end_) else (m1.strCompute e t tk, end_))
    ({ m with str := { m.str with missed := [], tick := some tk, out := some (tk + m.outDly) } }, 40)
  let last := if order.isEmpty then m.g .STR_LOAD_last else r.2
  (r.1.s .STR_LOAD_last last).s .STR_LOAD_peak (max (r.1.g .STR_LOAD_peak) last)

/-- The shadow record of a CLOSED string, with what its learner committed (R371, R394). -/
def Mach.shadowRec (m : Mach) (t : Nat) : List Byte :=
  let x := m.sg t
  let sum := fpAdd (m.rd (Reg.STR_Ss_INT t)) (m.rd (Reg.STR_Ss_INTC t))
  le 1 0 ++ le 1 t ++ le 8 (x.done.getD 0) ++ le 4 sum.toNat ++ le 4 x.dP.toNat ++ le 4 x.uP.toNat
    ++ (if m.b (.STR_Ss_CFG_drone_en t) then
      le 4 (m.g (.STR_DRN_Ss_PHASE_phi t)) ++ le 4 (m.g (.STR_DRN_Ss_STEP_step t))
        ++ (m.dr t).commits.flatMap fun p => le 2 p.1 ++ le 4 p.2.toNat else [])

/-- Every 20 base ticks shadow records leave (R371, R394). -/
def Mach.shadowSend (m : Mach) (tk : Nat) : Mach :=
  if tk / m.tickNs % 20 != 0 then m
  else if m.shadowDest = 0 then iter 48 (fun t m => if (m.dr t).commits.isEmpty then m else m.setDr t fun x => { x with commits := [] }) m
  else iter 48 (fun t m =>
    if m.strState t = 2 then (m.linkSend 7 m.shadowDest (m.shadowRec t)).setDr t fun x => { x with commits := [] } else m) m

/-! ### The output instant (R344, R357, R362, R366) -/

/-- A miss (R366). -/
def Mach.strMiss (m : Mach) (e : Env) (t : Nat) : Mach :=
  let m1 := (((m.strEvt t (.STR_Ss_EVT_miss t)).up (.STR_Ss_CNT0_miss t)).up .STR_MISS_TOT_misses).setSg t fun x =>
    { x with missRun := x.missRun + 1, missN := x.missN + 1 }
  let x := m1.sg t
  let due := match x.missAt with | some a => decide (a + 1000000000 ≤ e.upNs) | none => true
  let m2 := if due then
      (m1.setSg t fun x => { x with missAt := some e.upNs, missN := 0 }).event e 0x6002 (some 3) (le 1 t ++ le 4 x.missN)
    else m1
  let lim := m2.g (.STR_Ss_LIM_miss_lim t)
  if lim != 0 && decide (lim ≤ x.missRun) then m2.strFault e t 4 else m2

/-- The state that follows a ramp (R362). -/
def Mach.strRampDone (m : Mach) (e : Env) (t : Nat) : Mach :=
  match (m.sg t).endAs with
  | none => m
  | some (0, cause) => m.strIdle e t cause false
  | some (st, cause) => (m.setSg t fun x => { x with ramp := none, endAs := none }).strMove e t st cause

/-- The sinks of the newest tick's computations take their values together, with the digital and analogue outputs; then misses
count and ramps that reached their target end. -/
def Mach.strOutput (m : Mach) (e : Env) : Mach :=
  let aos := (List.range 48).filterMap fun t =>
    if (m.sg t).fresh.isSome && m.g (.STR_Ss_CFG_sink_type t) == 1 then some (m.g (.STR_Ss_SINK_index t)) else none
  let m1 := iter 48 (fun t m => match (m.sg t).fresh with
    | some u => (m.strDrive e t u).setSg t fun x => { x with fresh := none }
    | none => m) m
  let m2 := iter 48 (fun t m =>
    if (m.sg t).rel != some true then m
    else
      let m1 := m.strRelease e t
      if m.strState t = 0 then m1.setSg t fun x => { x with rel := none } else m1) m1
  let m3 := m2.dioInstant e aos
  let m4 := m3.str.missed.foldl (fun m t => m.strMiss e t) { m3 with str := { m3.str with missed := [] } }
  iter 48 (fun t m => m.strRampDone e t) m4

/-- An IDLE string's release follows at the output instant of this tick (R362). -/
def Mach.strRelTick (m : Mach) : Mach :=
  iter 48 (fun t m => if m.strState t = 0 && (m.sg t).rel = some false then m.setSg t fun x => { x with rel := some true } else m) m

/-- Every string goes IDLE with cause MODULE (R363). -/
def Mach.strAllIdle (m : Mach) (e : Env) : Mach :=
  iter 48 (fun t m => if m.strState t = 0 then m else m.strIdle e t 8 true) m

/-! ### Set-points of the law (R347) -/

/-- The law's set-point reaches a string of this module. -/
def Mach.strLawSet (m : Mach) (t : Nat) (v : Word) : Mach :=
  if m.g (.STR_Ss_CFG_sp_type t) = 1 then m.setSg t fun x => { x with law := v } else m.up (.STR_Ss_CNT1_sp_late t)

/-- A remote set-point after the release instant, late µs late. -/
def Mach.strLate (m : Mach) (e : Env) (t late : Nat) : Mach :=
  ((m.strEvt t (.STR_Ss_EVT_sp_late t)).up (.STR_Ss_CNT1_sp_late t)).event e 0x6005 (some 3) (le 1 t ++ le 4 late)

/-! ### Commands (R340, R374, R375, R395, R396) -/

/-- The application tick of a change that arrives now (R340). -/
def Mach.strAppTick (m : Mach) (e : Env) : Nat := m.tickAt (e.ns + 300000)

/-- A change is queued with its tick. -/
def Mach.strQueue (m : Mach) (op : Nat) (c : Cmd) (at_ : Nat) (own : Bool) : Mach :=
  { m with str := { m.str with jobs := m.str.jobs ++ [⟨at_, op, c, own, false, []⟩] } }

/-- An accepted change is queued and forwarded to every module that holds its strings, and to the standby (R340, R515). -/
def Mach.strAccept (m : Mach) (e : Env) (op : Nat) (c : Cmd) (at_ : Nat) : Mach :=
  let dest := (m.strGroup (c.u8 0) ||| m.otherController) &&& (63 - 2 ^ m.g .STK_STS_pos)
  let _ := e
  (m.strQueue op c at_ true).linkSend 8 dest (le 1 op ++ le 8 at_ ++ c.params ++ c.data)

/-- What the string and Drone commands share: `bad` is the status of the parameters, 0 when they are admissible. -/
def strCmd (op : Nat) (c : Cmd) (need : Bool) (bad : Env → Mach → Nat) (at_ : Env → Mach → Nat) (s : State) :
    Host.Outcome State Fault Refusal :=
  s.act fun e m => runCmd op c (need && e.isSealed) false (fun e m =>
    let b := if 6 ≤ c.u8 0 then stRange else bad e m
    if b != 0 then m.fail b
    else if !m.isActive then m.fail stState
    else .wait (m.strAccept e op c (at_ e m))) e m

/-- The parameters name a string. -/
def strNamed (c : Cmd) (k : Nat) : Nat := if 48 ≤ c.u8 1 then stRange else k

def execStrCfgSet (c : Cmd) (s : State) : Host.Outcome State Fault Refusal :=
  strCmd 0x60 c true (fun _ _ => strNamed c (if c.data.length != 124 then stLen
    else if (List.range 31).all fun i => strFieldOk i (BitVec.ofNat 32 (c.d32 (4 * i))) then 0 else stRange)) (fun e m => m.strAppTick e) s

def execStrStateSet (c : Cmd) (s : State) : Host.Outcome State Fault Refusal :=
  strCmd 0x61 c false (fun _ _ => if 6 ≤ c.u8 1 then stRange else 0) (fun e m => m.strAppTick e) s

/-- The apply-at of STR_SP_SET (R375). -/
def Mach.spTick (m : Mach) (e : Env) (c : Cmd) : Nat := if c.u32 4 = 0 then m.strAppTick e else m.tickAt (e.expand (c.u32 4))

def execStrSpSet (c : Cmd) (s : State) : Host.Outcome State Fault Refusal :=
  strCmd 0x62 c false (fun e _ =>
    let d := shortDiff (c.u32 4) e.now.short
    if c.u8 1 = 0 || 16 < c.u8 1 then stRange
    else if c.data.length != 8 * c.u8 1 then stLen
    else if (spEntries c).any fun p => decide (48 ≤ p.1) then stRange
    else if c.u32 4 != 0 && decide (d < 37500) then stLate
    else if c.u32 4 != 0 && decide (1250000000 < d) then stRange else 0) (fun e m => m.spTick e c) s

def execStrOutSet (c : Cmd) (s : State) : Host.Outcome State Fault Refusal :=
  strCmd 0x63 c false (fun _ _ => strNamed c 0) (fun e m => m.strAppTick e) s

def execStrStream (c : Cmd) (s : State) : Host.Outcome State Fault Refusal :=
  s.act fun e m => runCmd 0x64 c false false (fun _ m =>
    let q := c.u8 0
    let n := c.u16 14
    if !queueOk q || (q != 0xFF && n == 0) then m.fail stRange
    else if q != 0xFF && !m.b (qEn .stq q) then m.fail stState
    else .ok { m with str := { m.str with stream := if q = 0xFF then none else some (q, c.un 8 6, n) } }) e m

def execStrStatusGet (c : Cmd) (s : State) : Host.Outcome State Fault Refusal :=
  s.act fun e m => runCmd 0x65 c false true (fun _ m =>
    let data := le 4 (m.rd Reg.STR_STS).toNat
      ++ (List.range 48).flatMap fun t => m.regBytes [Reg.STR_Ss_STS t, Reg.STR_Ss_CNT0 t, Reg.STR_Ss_CNT1 t]
    let m1 := if c.u8 0 % 2 = 1 then
        ((iter 48 (fun t m => (m.wr (Reg.STR_Ss_CNT0 t) 0).wr (Reg.STR_Ss_CNT1 t) 0) m).wr Reg.STR_MISS_TOT 0).s .STR_LOAD_peak 0
      else m
    .done m1 stOk [] data) e m

def execStrTimingSet (c : Cmd) (s : State) : Host.Outcome State Fault Refusal :=
  s.act fun e m => runCmd 0x66 c e.isSealed false (fun e m =>
    let d := c.u32 0 % 64
    if d < 5 || 45 < d then m.fail stRange
    else if !m.isActive then m.fail stState
    else .wait ((m.strQueue 0x66 { c with params := le 4 d } (m.strAppTick e) true).linkSend 8 (63 - 2 ^ m.g .STK_STS_pos)
      (le 1 0x66 ++ le 8 (m.strAppTick e) ++ c.params))) e m

def execDrnCfgSet (c : Cmd) (s : State) : Host.Outcome State Fault Refusal :=
  strCmd 0x68 c true (fun _ _ => strNamed c (if c.data.length != 32 then stLen else if drCfgOk c then 0 else stRange))
    (fun e m => m.strAppTick e) s

def execDrnAlloc (c : Cmd) (s : State) : Host.Outcome State Fault Refusal :=
  strCmd 0x69 c true (fun _ _ => strNamed c (if 64 < c.u8 3 then stRange else 0)) (fun e m => m.strAppTick e) s

def execDrnModeSet (c : Cmd) (s : State) : Host.Outcome State Fault Refusal :=
  strCmd 0x6A c false (fun _ _ => if 3 ≤ c.u8 1 then stRange else 0) (fun e m => m.strAppTick e) s

def execDrnReset (c : Cmd) (s : State) : Host.Outcome State Fault Refusal :=
  strCmd 0x6B c false (fun _ _ => 0) (fun e m => m.strAppTick e) s

def execDrnPeriodSet (c : Cmd) (s : State) : Host.Outcome State Fault Refusal :=
  strCmd 0x6C c false (fun _ _ =>
    let p : Word := BitVec.ofNat 32 (c.u32 4)
    strNamed c (if fpIsFinite p && fpLe 0 p then 0 else stRange)) (fun e m => m.strAppTick e) s

def execDrnTableWrite (c : Cmd) (s : State) : Host.Outcome State Fault Refusal :=
  strCmd 0x6D c true (fun _ _ => strNamed c (if crc32c c.data != c.u32 4 then stCrc else 0)) (fun e m => m.strAppTick e) s

def execDrnTableRead (c : Cmd) (s : State) : Host.Outcome State Fault Refusal :=
  strCmd 0x6E c false (fun _ _ => strNamed c 0) (fun e m => m.strAppTick e) s

def execDrnStatusGet (c : Cmd) (s : State) : Host.Outcome State Fault Refusal :=
  s.act fun e m => runCmd 0x6F c false true (fun _ m =>
    let data := m.regBytes [Reg.STR_DRN_STS, Reg.STR_DRN_ECC]
      ++ (List.range 48).flatMap fun t => m.regBytes [Reg.STR_DRN_Ss_STS t, Reg.STR_DRN_Ss_CNT t, Reg.STR_DRN_Ss_STEP t]
    let m1 := if c.u8 0 % 2 = 1 then (iter 48 (fun t m => m.wr (Reg.STR_DRN_Ss_CNT t) 0) m).wr Reg.STR_DRN_ECC 0 else m
    .done m1 stOk [] data) e m

/-! ### Host writes (R340, R341, R379, R400) -/

/-- A command that stands for a register write of this module. -/
def regCmd (off : Nat) (v : Word) : Cmd := ⟨.queue 0, 0, false, false, [], 0, 0, 0, le 4 off ++ le 4 v.toNat, []⟩

/-- A register write reaches the active: it waits for its application tick and is forwarded (R340). -/
def Mach.strRegQueue (m : Mach) (e : Env) (off : Nat) (v : Word) : Mach :=
  let at_ := m.strAppTick e
  (m.strQueue 1 (regCmd off v) at_ false).linkSend 8 ((m.strGroup (m.g .STK_STS_pos)) &&& (63 - 2 ^ m.g .STK_STS_pos))
    (le 1 1 ++ le 8 at_ ++ le 4 off ++ le 4 v.toNat)

def execStrSphWrite (t : Nat) (value : Word) (s : State) : Host.Outcome State Fault Refusal :=
  s.onInst (decide (t < 48)) fun e m =>
    if m.isActive then m.strRegQueue e (Reg.STR_Ss_SPH t) value
    else if m.rd (Reg.STR_Ss_SPH t) = value then m else m.writeIgnored (Reg.STR_Ss_SPH t) value

/-- A host write of any other register of the strings and learners: event and interrupt bits and the output delay at once,
configuration through the application tick on the active; elsewhere RWQ fields are ignored. -/
def Mach.strWrite (m : Mach) (e : Env) (off : Nat) (v : Word) : Mach :=
  let string := decide (0x00041000 ≤ off) && decide (off < 0x00044000) && decide ((off - 0x00041000) % 256 < 0x7C)
  let learner := decide (0x00044100 ≤ off) && decide (off < 0x00044D00) && decide ((off - 0x00044100) % 64 < 0x28)
  if off = Reg.STR_TIMING then
    let m1 := m.hostPut e.locked true off v
    let d := m1.g .STR_TIMING_out_dly
    if d < 5 || 45 < d then m1.wr off (m.rd off) else m1
  else if string || learner then
    if m.isActive then m.strRegQueue e off v
    else (m.hostPut e.locked false off v).strRefuse (m.rd off) off (strOfReg off)
  else
    let m1 := m.hostPut e.locked true off v
    if 0x00041000 ≤ off && off < 0x00044000 then m1.strIrqSync (strOfReg off) else m1

end Sys2Proof.Machine
end

