-- ==== Sys2Proof/Machine/PlCmd.lean ====
section
/-!
DEFINITION. The positioning law's modes and commands (R255 to R259, R291 to R295), with SLV_CFG_SET (R333): what each checks when it
arrives, and what it does at the cycle boundary at which it applies.
Log: 61 (DEDUCED), 62 (DEDUCED), 64 (DEDUCED), 104 (DESIGN CHOICE), 118 (DEDUCED).
-/
namespace Sys2Proof.Machine

/-- An interrupt source of the law (R297). -/
def Mach.plIrq (m : Mach) (i : Nat) : Mach := m.setBit Reg.STR_PL_IRQ_STS i true

/-! ### Modes (R255 to R259, R278) -/

/-- FALLBACK or continuation ends (R278). -/
def Mach.plLeave (m : Mach) (e : Env) : Mach :=
  let m1 := (m.s .STR_PL_SOLVE_fails 0).sb .STR_PL_STS_continuation false
  if m.b .STR_PL_STS_fallback then ((m1.sb .STR_PL_STS_fallback false).event e 0x5006 (some 2) (le 1 0)).plIrq 5 else m1

/-- The enabled thrusters, with thruster i's setting replaced. -/
def Mach.plEnabled (m : Mach) : List Nat := (List.range 24).filter fun i => m.b (.STR_PL_THRi_CFG_en i)

/-- The variables and rows are fixed on entry into a QP mode from NONE or MANUAL (R275); the retained point becomes invalid and nothing
is left to continue (R278, R320). -/
def Mach.plEnterQp (m : Mach) : Mach :=
  let l := m.plEnabled
  let buses := (List.range 4).filter fun b => l.any fun i => m.g (.STR_PL_THRi_CFG_bus i) == b
  ({ m with pl := { m.pl with vars := l, buses := buses, hist := [], age := 0, okRun := 0, integ := [0, 0, 0] } }.s .STR_PL_SOLVE_fails 0).setKept none

/-- manual_stale clears (R291, R296). -/
def Mach.manualFresh (m : Mach) (e : Env) : Mach :=
  if m.b .STR_PL_STS_manual_stale then ((m.sb .STR_PL_STS_manual_stale false).event e 0x500B (some 3) (le 1 0)).plIrq 10 else m

/-- The law changes its mode, for a reason (R296). MANUAL begins with what was last released, whatever became stale before (R256). -/
def Mach.plModeTo (m : Mach) (e : Env) (new reason : Nat) (autoHead : Bool) : Mach :=
  let old := m.plMode
  let m1 := ((m.s .STR_PL_STS_mode new).s .STR_PL_STS_reason reason).sb .STR_PL_STS_auto_head autoHead
  let m2 := if qpMode old && !qpMode new then m1.plLeave e else m1
  -- outside the QP modes nothing is dispatched, and no trip set is staged (R284)
  let m2 := if qpMode new then m2 else { m2 with pl := { m2.pl with trips := m2.pl.trips.map fun _ => none } }
  let m3 := if !qpMode old && qpMode new then m2.plEnterQp else m2
  let m4 := if new = 5 then { m3 with pl := { m3.pl with manual := m3.pl.rel, manualAt := e.ns } }.manualFresh e else m3
  let m5 := { m4 with pl := { m4.pl with held := none, zeroDue := new == 0 && (old != 0 || m4.pl.zeroDue) } }
  (m5.event e 0x5001 (some (if reason = 0 then 2 else 4)) (le 1 old ++ le 1 new ++ le 1 reason)).plIrq 0

/-- Whether the estimate's position and heading are valid. -/
def Mach.plPos (m : Mach) : Bool := m.b .LCH_OUT_FLAGS_pos_valid
def Mach.plHdg (m : Mach) : Bool := m.b .LCH_OUT_FLAGS_hdg_valid

/-- The heading of the set-point the law is turning to. -/
def Mach.plTurning (m : Mach) : Nat := match m.plMode, m.pl.way with | 2, w :: _ => w.hdg | _, _ => m.pl.setH

/-- The estimate degrades: the mode changes by itself (R258). -/
def Mach.plDegrade (m : Mach) (e : Env) : Mach :=
  let k := m.plMode
  let x := m.pl.est
  if (k == 1 || k == 2 || k == 3) && !m.plHdg then m.plModeTo e (if m.joyBound then 4 else 5) 2 false
  else if k == 4 && m.b .STR_PL_STS_auto_head && !m.plHdg then m.plModeTo e 4 2 false
  else if (k == 1 || k == 2) && !m.plPos then
    let h := m.plTurning
    let m1 := m.plModeTo e 3 1 false
    { m1 with pl := { m1.pl with autoH := h, held := some (fdNegate (fdAt x 6), fdNegate (fdAt x 7)) } }
  else m

/-- A model set for T and m_s is loaded (R266). -/
def Mach.plHasModel (m : Mach) : Bool := (modelSet m.pl.model (m.g .STR_PL_TIMING_period) m.plMs).isSome

/-- What a mode needs (R256): the status of PL_MODE_SET, 0 when it is entered. -/
def Mach.plModeCheck (m : Mach) (k : Nat) (autoHead : Bool) : Nat :=
  let thr := !m.plEnabled.isEmpty
  let ok := match k with
    | 1 => m.plPos && m.plHdg && thr
    | 2 => m.plPos && m.plHdg && thr && !m.pl.way.isEmpty
    | 3 => m.plHdg && thr
    | 4 => m.joyBound && thr && (!autoHead || m.plHdg)
    | _ => true
  if !ok then stState else if qpMode k && !m.plHasModel then 0x41 else 0

/-- Whole millimetres and thousandths of a degree of the estimate. -/
def toMdeg (x : F64) : Nat := (fdScaleRound (wrap360 x) 1000 1).toNat % 360000

/-- PL_MODE_SET takes effect: with keep clear the set-point of the mode becomes the present estimate, with keep set the stored one serves (R256). -/
def Mach.plModeSet (m : Mach) (e : Env) (c : Cmd) : Mach :=
  let k := c.u8 0
  let keep := (c.u8 1).testBit 0
  let ah := k == 4 && (c.u8 1).testBit 1
  let x := m.pl.est
  let m1 := m.plModeTo e k 0 ah
  let p := m1.pl
  let p1 := if keep || !(k == 1 || k == 3 || ah) then p
    else { p with setN := if k = 1 then toMm (fdAt x 0) else p.setN, setE := if k = 1 then toMm (fdAt x 1) else p.setE, setH := toMdeg (fdAt x 2) }
  { m1 with pl := { p1 with fresh := qpMode k, autoH := p1.setH } }

/-! ### Set-point and track (R260, R294) -/

/-- PL_SETPOINT: in HOLD the reference moves to it; in any other mode it is stored for keep (R260). -/
def Mach.plSetpoint (m : Mach) (c : Cmd) : Mach :=
  let p := m.pl
  let pos := (c.u8 12).testBit 0
  { m with pl := { p with
    setN := if pos then toSigned 32 (c.u32 0) else p.setN, setE := if pos then toSigned 32 (c.u32 4) else p.setE,
    setH := if (c.u8 12).testBit 1 then c.u32 8 else p.setH } }

/-- The waypoints of PL_TRACK. -/
def trackPoints (c : Cmd) : List Waypoint :=
  (List.range (c.u8 0)).map fun i =>
    ⟨toSigned 32 (c.dn (16 * i) 4), toSigned 32 (c.dn (16 * i + 4) 4), c.dn (16 * i + 8) 4, c.dn (16 * i + 12) 2, c.dn (16 * i + 14) 2⟩

/-- TRACK_STS follows the queue. -/
def Mach.plTrackSync (m : Mach) : Mach := (m.s .STR_PL_TRACK_STS_queued m.pl.way.length).s .STR_PL_TRACK_STS_index m.pl.reached

/-- PL_TRACK: the queue replaced or appended to; a queue above 16 waypoints is refused. -/
def Mach.plTrack (m : Mach) (c : Cmd) : Mach × Nat :=
  let add := (c.u8 1).testBit 0
  let l := if add then m.pl.way ++ trackPoints c else trackPoints c
  if 16 < l.length then (m, 0x43)
  else
    let gone := add && m.b .STR_PL_TRACK_STS_at_final
    let p := { m.pl with way := if gone then l.drop 1 else l, reached := if !add then 0 else if gone then m.pl.reached + 1 else m.pl.reached }
    (({ m with pl := p }.sb .STR_PL_TRACK_STS_at_final false).plTrackSync, 0)

/-! ### Configuration (R275, R295, R299) -/

/-- The registers of a PL_CFG_SET image, and of its generators. -/
def plCfgRegs : List Nat := (List.range 23).map fun i => Reg.STR_PL_TIMING + 4 * i
def plGenRegs : List Nat := (List.range 8).flatMap fun g => [Reg.STR_PL_GENg_CFG g, Reg.STR_PL_GENg_CAP g]

/-- The bits of a law register that an image sets. -/
def plMask (off : Nat) : Word :=
  if off = Reg.STR_PL_TIMING then 0xFFFF00FF
  else if off = Reg.STR_PL_HORIZON || off = Reg.STR_PL_SECTOR then 0xFFFF
  else if off = Reg.STR_PL_FAIL_CFG || off = Reg.STR_PL_JOY then 0xFFFFFF
  else if off < 0x00048400 && 0x00048200 ≤ off && off % 8 = 0 then 0x3F7
  else if 0x00048400 ≤ off && off % 0x40 = 0 then 0x4FF
  else 0xFFFFFFFF

/-- A register image takes effect; the bits outside its fields stay. -/
def Mach.plImage (m : Mach) (off : Nat) (v : Word) : Mach := m.wr off ((m.rd off &&& ~~~plMask off) ||| (v &&& plMask off))

/-- A finite FP32 value that is not negative. -/
def fpOkPos (w : Word) : Bool := fpIsFinite w && fpLe 0 w

/-- T_rel ≤ 0.8 T (R25), for a TIMING image. -/
def timingOk (w : Nat) : Bool :=
  let t := w % 256
  decide (20 ≤ t) && decide (t ≤ 100) && decide (3500000 + w / 65536 * 50000 ≤ t * 800000)

/-- The ranges of a PL_CFG_SET image (R25, R299). -/
def plCfgOk (c : Cmd) : Bool :=
  let w (i : Nat) : Nat := c.d32 (4 * i)
  let inR (lo hi x : Nat) : Bool := decide (lo ≤ x) && decide (x ≤ hi)
  let ch (x : Nat) : Bool := decide (x < 16) || x == 0xFF
  timingOk (w 0) && inR 8 64 (w 1 % 256) && inR 1 40 (w 1 / 256 % 256) && w 2 / 65536 % 256 != 0 && w 2 / 256 % 256 != 0
    && inR 1 16 (w 2 % 256) && inR 5 100 (w 3 / 256 % 256) && w 3 % 256 != 0 && ch (w 4 % 256) && ch (w 4 / 256 % 256)
    && ch (w 4 / 65536 % 256) && (List.range 18).all (fun i => fpOkPos (BitVec.ofNat 32 (w (5 + i))))
    && (c.data.length == 92 || (List.range 8).all fun g => fpOkPos (BitVec.ofNat 32 (c.d32 (92 + 8 * g + 4))))

/-- The variables and rows of a stage for a set of thrusters fit R275. -/
def Mach.plFits (m : Mach) (l : List Nat) : Bool :=
  let buses := ((List.range 4).filter fun b => l.any fun i => m.g (.STR_PL_THRi_CFG_bus i) == b).length
  let nv := (l.map fun i => if m.b (.STR_PL_THRi_CFG_type i) then 1 else 2).sum
  let rows := (l.map fun i => if m.b (.STR_PL_THRi_CFG_type i) then 2
    else 4 + 2 * m.g (.STR_PL_THRi_CFG_poly i) + m.g (.STR_PL_THRi_CFG_sector_en i)).sum
  decide (6 + nv + buses + 1 ≤ 64) && decide (rows + buses + (buses + 1) + 4 ≤ 128)

/-- PL_CFG_SET against the mode in force (R295). -/
def Mach.plCfgCheck (m : Mach) (c : Cmd) : Nat :=
  let t := c.d32 0
  let hz := c.d32 4
  let gens := c.data.length == 156 && (List.range 8).any fun g =>
    c.d32 (92 + 8 * g) / 2 % 4 != m.g (.STR_PL_GENg_CFG_bus g)
  if !qpMode m.plMode then 0
  else if hz % 65536 != (m.rd Reg.STR_PL_HORIZON).toNat % 65536 || gens then stState
  else if (modelSet m.pl.model (t % 256) (hz / 256 % 256)).isNone then 0x41 else 0

/-- A new TIMING takes effect (R17): at once while no grid runs, at a boundary with CATCHUP clear otherwise. The grid is
re-anchored at the boundary instant. DESIGN CHOICE (log 104): epochs not yet closed keep their numbers, and their instants follow from the
new T and t_origin. -/
def Mach.plTiming (m : Mach) : Mach :=
  match m.pl.timing with
  | none => m
  | some w =>
    if !m.grid.running then { m.plImage Reg.STR_PL_TIMING w with pl := { m.pl with timing := none } }
    else if m.b .STR_PL_STS_catchup || m.grid.first then m
    else
      let t := w.toNat % 256
      let m1 := { m.plImage Reg.STR_PL_TIMING w with pl := { m.pl with timing := none } }
      if t = m.grid.periodMs then m1
      else
        let b := m.grid.next - m.grid.periodMs * 1000000
        let n := m.cycNum
        let m2 := m1.setOrg b
        { m2 with grid := { m2.grid with anchor := n, periodMs := t, next := b + t * 1000000, e0 := b, j0 := 4 * n } }

/-- PL_CFG_SET takes effect. -/
def Mach.plCfgSet (m : Mach) (c : Cmd) : Mach :=
  let regs := plCfgRegs.drop 1
  let m1 := (List.range 22).foldl (fun m i => m.plImage (regs.getD i 0) (BitVec.ofNat 32 (c.d32 (4 * i + 4)))) m
  let m2 := if c.data.length = 156 then
      ((List.range 16).foldl (fun m i => m.plImage (plGenRegs.getD i 0) (BitVec.ofNat 32 (c.d32 (92 + 4 * i)))) m1).busSync
    else m1
  { m2 with pl := { m2.pl with timing := some (BitVec.ofNat 32 (c.d32 0)) } }.plTiming

/-- The registers of a PL_THR_CFG image. -/
def plThrRegs (i : Nat) : List Nat := (List.range 13).map fun j => Reg.STR_PL_THRi_CFG i + 4 * j

/-- A sink word (R281). -/
def sinkOk (w : Nat) : Bool :=
  match w / 2 ^ 30 with
  | 0 => true
  | 1 => decide (w / 2 ^ 24 % 8 < 6) && decide (w / 65536 % 64 < 48)
  | 2 => decide (w / 256 % 16 < 5) && decide (w % 64 + encLen (w / 256 % 16) ≤ 64)
  | _ => false

/-- The ranges of a PL_THR_CFG image (R271, R281, R299). -/
def plThrOk (c : Cmd) : Bool :=
  let w (j : Nat) : Nat := c.d32 (4 * j)
  let f (j : Nat) : Word := BitVec.ofNat 32 (w j)
  let fixed := (w 0).testBit 1
  let a1 := w 7 % 65536
  let a2 := w 7 / 65536
  let width := (a2 + 36000 - a1) % 36000
  w 0 / 16 % 4 != 3 && fpIsFinite (f 3) && fpLt 0 (f 3) && fpOkPos (f 4) && (fixed || fpLe (f 4) 0) && fpOkPos (f 5) && fpOkPos (f 6)
    && decide (a1 < 36000) && (fixed || decide (a2 < 36000)) && (fixed || !(w 0).testBit 6 || (width != 0 && decide (width ≤ 17000)))
    && fpOkPos (f 8) && fpOkPos (f 9) && sinkOk (w 10) && sinkOk (w 11) && sinkOk (w 12)

/-- A PL_THR_CFG image written, whatever the mode: the thruster's side is chosen when it becomes enabled (R271). -/
def Mach.plThrPut (m : Mach) (c : Cmd) : Mach :=
  let i := c.u8 0
  let was := m.b (.STR_PL_THRi_CFG_en i)
  let m1 := (List.range 13).foldl (fun m j => m.plImage ((plThrRegs i).getD j 0) (BitVec.ofNat 32 (c.d32 (4 * j)))) m
  let t := m1.plThr i
  let far (a : F64) : F64 := fdAbs (wrap180 (fdSub t.ac a))
  let m2 := if !was && m1.b (.STR_PL_THRi_CFG_en i) && t.sector then
      (m1.sb (.STR_PL_THRi_CFG_side i) (fdLt (far t.a2) (far t.a1))).sb (.STR_PL_THRi_CFG_rotating i) false
    else m1
  m2.ownSyncAll

/-- PL_THR_CFG against the mode in force (R275, R295). -/
def Mach.plThrCheck (m : Mach) (c : Cmd) : Nat :=
  let i := c.u8 0
  let old := (m.rd (Reg.STR_PL_THRi_CFG i)).toNat
  let new := c.d32 0
  let differs (mask : Nat) : Bool := (old &&& mask) != (new &&& mask)
  let after := m.plThrPut c
  if qpMode m.plMode && ((new.testBit 0 && !old.testBit 0) || differs 0x7E) then stState
  else if !after.plFits after.plEnabled then 0x40 else 0

/-! ### Model image (R292, R293) -/

/-- The layout of a model image. -/
def plModelOk (l : List Byte) : Bool :=
  let p := imgN l 6 1
  let o (k : Nat) : Nat := 288 + 872 * k
  let finite (o n : Nat) : Bool := (List.range n).all fun i => fdFinite (mdl l o i)
  imgN l 0 4 == 0x4C444D50 && imgN l 4 2 == 1 && decide (1 ≤ p) && decide (p ≤ 4) && finite 32 32
    && (List.range p).all fun k => finite (o k + 8) 108 && (List.range k).all fun j => imgN l (o k) 2 != imgN l (o j) 2

/-- A model image takes effect. -/
def Mach.plModelPut (m : Mach) (l : List Byte) : Mach :=
  let p := imgN l 6 1
  let per := ((List.range p).map fun k => imgN l (288 + 872 * k) 2 % 256 * 256 ^ k).sum
  (({ m with pl := { m.pl with model := l } }.s .STR_PL_MODEL_VER_version (imgN l 8 4)).s .STR_PL_MODEL_PER_per per)

/-! ### Commands at the boundary (R257) -/

/-- The checks of SLV_CFG_SET (R327, R338). -/
def slvCfgOk (c : Cmd) : Bool :=
  let w := c.u32 0
  let push : Word := BitVec.ofNat 32 (c.u32 4)
  let inR (lo hi x : Nat) : Bool := decide (lo ≤ x) && decide (x ≤ hi)
  w / 2 ^ 24 != 0 && inR 1 8 (w / 2 ^ 20 % 16) && inR 4 15 (w / 65536 % 16) && inR 3 14 (w / 4096 % 16) && inR 3 12 (w / 256 % 16)
    && w % 256 != 0 && decide (w / 4096 % 16 < w / 65536 % 16) && fpIsFinite push && fpLe (fpOfRatio 1 100000000) push && fpLe push (fpOfInt 1)

/-- One entry of PL_FEED. -/
def Mach.plFeedOne (m : Mach) (sub i : Nat) (c : Cmd) : Mach :=
  let w (o : Nat) : Word := BitVec.ofNat 32 (c.dn o 4)
  match sub with
  | 1 =>
    let o := 16 * i
    let v := c.dn (o + 1) 1
    { m with pl := { m.pl with manual := upd m.pl.manual (c.dn o 1) fun x =>
      { x with rpm := if v.testBit 0 then some (w (o + 4)) else x.rpm, pitch := if v.testBit 1 then some (w (o + 8)) else x.pitch,
               az := if v.testBit 2 then some (w (o + 12)) else x.az } } }
  | 2 => let b := c.dn (8 * i) 1; (m.wr (Reg.STR_PL_BUSb_AVAIL b) (w (8 * i + 4))).wr (Reg.STR_PL_BUSb_EFF b) (w (8 * i + 4))
  | _ =>
    let g := c.dn (2 * i) 1
    let on := c.dn (2 * i + 1) 1 == 1
    let m1 := m.sb (.STR_PL_GENg_CFG_online g) on
    (if on then m1.sb (.STR_PL_GENg_CFG_tripped g) false else m1).busSync

/-- PL_FEED takes effect; a manual feed clears manual_stale (R291). -/
def Mach.plFeed (m : Mach) (e : Env) (c : Cmd) : Mach :=
  let sub := c.u8 0
  let m1 := (List.range (c.u8 1)).foldl (fun m i => m.plFeedOne sub i c) m
  if sub = 1 then m1.manualFresh e else m1

/-- A characteristic table takes effect (R280). -/
def Mach.plTablePut (m : Mach) (c : Cmd) : Mach :=
  { m with pl := { m.pl with tables := upd m.pl.tables (c.u8 0) fun _ => c.data } }.s (.STR_PL_THRi_TABCRC_crc (c.u8 0)) (c.u32 4)

/-- A command applies at the boundary: its status and result. -/
def Mach.plApply (m : Mach) (e : Env) (op : Nat) (c : Cmd) : Mach × Nat × List Byte :=
  match op with
  | 0x50 =>
    match m.plModeCheck (c.u8 0) ((c.u8 1).testBit 1) with
    | 0 => (m.plModeSet e c, stOk, le 8 m.cycNum)
    | st => (m, st, [])
  | 0x51 => (m.plSetpoint c, stOk, [])
  | 0x52 => let r := m.plTrack c; (r.1, r.2, [])
  | 0x53 => match m.plCfgCheck c with | 0 => (m.plCfgSet c, stOk, []) | st => (m, st, [])
  | 0x54 => match m.plThrCheck c with | 0 => (m.plThrPut c, stOk, []) | st => (m, st, [])
  | 0x55 => (m.plTablePut c, stOk, [])
  | 0x56 =>
    if qpMode m.plMode && (modelSet c.data (m.g .STR_PL_TIMING_period) m.plMs).isNone then (m, 0x41, [])
    else (m.plModelPut c.data, stOk, le 4 (imgN c.data 8 4))
  | 0x57 => if c.u8 0 = 1 && m.plMode != 5 then (m, stState, []) else (m.plFeed e c, stOk, [])
  | 0x5B => ((m.wr Reg.SLV_CFG (BitVec.ofNat 32 (c.u32 0))).wr Reg.SLV_PUSH (BitVec.ofNat 32 (c.u32 4)), stOk, [])
  | _ => (m, stOk, [])

/-- A waiting command applies at the boundary of the present cycle: it names that cycle, an earlier one, or none of a grid that counts here. -/
def Mach.plDue (m : Mach) (p : Nat × Nat × Cmd × Bool) : Bool := decide (p.1 ≤ m.cycNum) || decide (m.cycNum + 1 < p.1)

/-- The commands that wait for the boundary of the present cycle apply, in order. -/
def Mach.plApplyAll (m : Mach) (e : Env) : Mach :=
  (m.pl.pend.filter m.plDue).foldl (fun m' p =>
    let (_, op, c, own) := p
    let (m1, st, res) := m'.plApply e op c
    if own then m1.complete e op c st res [] else m1) { m with pl := { m.pl with pend := m.pl.pend.filter fun p => !m.plDue p } }

/-! ### Commands as they arrive (R257, R294) -/

/-- The cycle at whose boundary a command that arrives now applies: the next one of the grid, or 0 for the next boundary while no grid runs. -/
def Mach.plNextCycle (m : Mach) : Nat := if m.grid.running && !m.grid.first then m.cycNum + 1 else 0

/-- A manual feed arrives: the time of R291 begins anew. -/
def Mach.plFed (m : Mach) (e : Env) (op : Nat) (c : Cmd) : Mach :=
  if op = 0x57 && c.u8 0 == 1 then { m with pl := { m.pl with manualAt := e.ns } } else m

/-- A command waits for its boundary. -/
def Mach.plWait (m : Mach) (e : Env) (at_ op : Nat) (c : Cmd) (own : Bool) : Mach :=
  { m with pl := { m.pl with pend := m.pl.pend ++ [(at_, op, c, own)] } }.plFed e op c

/-- A command is held for its boundary and forwarded with it, so that both controllers apply it there (R257). -/
def Mach.plHold (m : Mach) (e : Env) (op : Nat) (c : Cmd) : Mach := (m.plWait e m.plNextCycle op c true).forward op m.plNextCycle c

/-- What the commands of the law share: `bad` is the status of the parameters, 0 when they are admissible. -/
def plCmd (op : Nat) (c : Cmd) (need : Bool) (bad : Nat) (s : State) : Host.Outcome State Fault Refusal :=
  s.act fun e m => runCmd op c (need && e.isSealed) false (fun e m =>
    if bad != 0 then m.fail bad else if !m.isActive then m.fail stState else .wait (m.plHold e op c)) e m

def execPlModeSet (c : Cmd) (s : State) : Host.Outcome State Fault Refusal :=
  plCmd 0x50 c false (if 6 ≤ c.u8 0 then stRange else 0) s

def execPlSetpoint (c : Cmd) (s : State) : Host.Outcome State Fault Refusal :=
  plCmd 0x51 c false (if 360000 ≤ c.u32 8 then stRange else 0) s

def execPlTrack (c : Cmd) (s : State) : Host.Outcome State Fault Refusal :=
  plCmd 0x52 c false (if c.u8 0 = 0 || 16 < c.u8 0 then stRange else if c.data.length != 16 * c.u8 0 then stLen
    else if (trackPoints c).any fun w => decide (360000 ≤ w.hdg) then stRange else 0) s

def execPlCfgSet (c : Cmd) (s : State) : Host.Outcome State Fault Refusal :=
  plCmd 0x53 c true (if c.data.length != 92 && c.data.length != 156 then stLen else if plCfgOk c then 0 else stRange) s

def execPlThrCfg (c : Cmd) (s : State) : Host.Outcome State Fault Refusal :=
  plCmd 0x54 c true (if 24 ≤ c.u8 0 then stRange else if c.data.length != 52 then stLen else if plThrOk c then 0 else stRange) s

/-- PL_TABLE_LOAD (R257, R280, R295): it applies at the next boundary, and so serves the dispatch of that cycle on both controllers. -/
def execPlTableLoad (c : Cmd) (s : State) : Host.Outcome State Fault Refusal :=
  plCmd 0x55 c true (if 24 ≤ c.u8 0 then stRange else if c.data.length != 4096 then stLen
    else if crc32c c.data != c.u32 4 then stCrc else 0) s

/-- PL_MODEL_LOAD (R293): length, CRC, signature and layout in that order. -/
def execPlModelLoad (c : Cmd) (s : State) : Host.Outcome State Fault Refusal :=
  let p := imgN c.data 6 1
  let len := c.u32 0 == c.data.length && c.data.length == 384 + 872 * p
  let crc := crc32c ((c.data.drop 32).take (256 + 872 * p)) == imgN c.data 12 4
  plCmd 0x56 c false (if !len then stLen else if !crc then stCrc else if !s.env.imageOk c.data then stAuth
    else if !plModelOk c.data then 0x42 else 0) (if len && crc then { s with m := s.m.otpNote s.env [1, 2, 3] } else s)

/-- SLV_CFG_SET (R333). -/
def execSlvCfgSet (c : Cmd) (s : State) : Host.Outcome State Fault Refusal := plCmd 0x5B c true (if slvCfgOk c then 0 else stRange) s

/-- The entries of PL_FEED are in range. -/
def feedOk (sub n : Nat) (c : Cmd) : Bool :=
  (List.range n).all fun i => match sub with
    | 1 => decide (c.dn (16 * i) 1 < 24)
    | 2 => decide (c.dn (8 * i) 1 < 4) && fpOkPos (BitVec.ofNat 32 (c.dn (8 * i + 4) 4))
    | _ => decide (c.dn (2 * i) 1 < 8) && decide (c.dn (2 * i + 1) 1 < 2)

/-- PL_FEED (R283, R291): manual entries outside MANUAL complete with STATE at the boundary. -/
def execPlFeed (c : Cmd) (s : State) : Host.Outcome State Fault Refusal :=
  let sub := c.u8 0
  let n := c.u8 1
  plCmd 0x57 c false (if sub = 0 || 3 < sub then stRange
    else if c.data.length != n * (if sub = 1 then 16 else if sub = 2 then 8 else 2) then stLen
    else if !feedOk sub n c then stRange else 0) s

/-- PL_MANUAL_TMO (R291): no manual feed within manual_tmo. -/
def execPlManualTmo (s : State) : Host.Outcome State Fault Refusal :=
  s.act fun e m =>
    if m.plMode != 5 || m.b .STR_PL_STS_manual_stale || decide (e.ns < m.pl.manualAt + m.g .STR_PL_FAIL_CFG_manual_tmo * 100000000) then m
    else ((m.sb .STR_PL_STS_manual_stale true).event e 0x500B (some 3) (le 1 1)).plIrq 10

end Sys2Proof.Machine
end

