-- ==== Sys2Proof/Machine/Pl.lean ====
section
/-!
DEFINITION. The cycle of the positioning law (R19 to R27, R256 to R291): the work of a boundary, assembly, judging a result,
dispatch, release, trips, catch-up, and the reduced law of Fiddlehead service.
Log: 32 (DEDUCED), 61 (DEDUCED), 62 (DEDUCED), 63 (DEDUCED), 64 (DEDUCED), 66 (DEDUCED), 116 (DESIGN CHOICE), 117 (DEDUCED), 118 (DEDUCED), 119 (DEDUCED), 120 (DEDUCED).
-/
namespace Sys2Proof.Machine

/-- Milliseconds in ns. -/
def ms (n : Nat) : Nat := n * 1000000

/-! ### Availability, joystick, reference (R260 to R262, R282) -/

/-- The sinks of a thruster, with the values of a set-point for them, the scale of an integer encoding, and whether that integer is an azimuth of
[0°, 360°) (R281). -/
def Mach.plSinks (m : Mach) (i : Nat) (x : ThrSet) : List (Nat × Option Word × Nat × Bool) :=
  [((m.rd (Reg.STR_PL_THRi_SINK0 i)).toNat, x.rpm, 10, false), ((m.rd (Reg.STR_PL_THRi_SINK1 i)).toNat, x.pitch, 100, false),
   ((m.rd (Reg.STR_PL_THRi_SINK2 i)).toNat, x.az, 100, qpMode m.plMode && !m.b (.STR_PL_THRi_CFG_az_cont i))]

/-- A sink string cannot take a set-point of the law: it is IDLE or in FAULT, or not of sp_type LAW; one at another position as its module reported it
(R282, R347). -/
def Mach.plSinkBad (m : Mach) (w : Nat) : Bool :=
  let p := w / 2 ^ 24 % 8
  let t := w / 65536 % 64
  if w / 2 ^ 30 != 1 then false
  else if m.strLocal p then m.strState t == 0 || m.strState t == 4 || m.g (.STR_Ss_CFG_sp_type t) != 1
  else match m.pl.far.find? fun x => x.1 == 64 * p + t with | some x => x.2 == 0 || x.2 == 4 | none => false

/-- Why an enabled thruster is not available, as a mask of the causes of R296 (R280, R282). -/
def Mach.plCauses (m : Mach) (i : Nat) : Nat :=
  let sinks := (m.plSinks i ThrSet.reset).map (·.1)
  let badCan (w : Nat) : Bool := w / 2 ^ 30 == 2 && m.g (.CAN_c_STS_state (w / 2 ^ 24 % 4)) == 2
  let f (b : Bool) (n : Nat) : Nat := if b then n else 0
  if !m.b (.STR_PL_THRi_CFG_en i) then 0
  else f (nth [] m.pl.tables i).isEmpty 1 + f (sinks.any m.plSinkBad) 2 + f (sinks.any badCan) 4

/-- The lowest code of a mask. -/
def lowCause (k : Nat) : Nat := if k.testBit 0 then 0 else if k.testBit 1 then 1 else 2

/-- The causes of a thruster are seen anew: one that has ended is the one that ended last (R296). -/
def Mach.plSee (m : Mach) (i : Nat) : Mach :=
  let old := nth 0 m.pl.lost i
  let new := m.plCauses i
  let gone := old &&& (7 ^^^ (new &&& 7))
  { m with pl := { m.pl with lost := upd m.pl.lost i fun _ => new
                             ended := if gone = 0 then m.pl.ended else upd m.pl.ended i fun _ => lowCause gone } }

/-- Between the boundaries the causes of the thrusters that are not available are followed, so that the one that ended last is known. -/
def Mach.plFollow (m : Mach) : Mach := iter 24 (fun i m => if nth 0 m.pl.lost i = 0 then m else m.plSee i) m

/-- Availability at the start of a cycle. A thruster whose causes all ended since the boundary before is regained now. -/
def Mach.plAvail (m : Mach) (e : Env) : Mach :=
  iter 24 (fun i m =>
    let was := m.b (.STR_PL_THRi_CFG_unavail i)
    let m0 := m.plSee i
    let new := nth 0 m0.pl.lost i
    let m1 := m0.sb (.STR_PL_THRi_CFG_unavail i) (new != 0)
    let tell (on cause sev : Nat) : Mach := (m1.event e 0x500D (some sev) (le 1 i ++ le 1 on ++ le 1 cause)).plIrq 12
    if !was && new != 0 then tell 0 (lowCause new) 4
    else if was && new = 0 && m1.b (.STR_PL_THRi_CFG_en i) then tell 1 (nth 0 m1.pl.ended i) 2
    else m1) m

/-- The joystick axes whose sample is not valid (R262). -/
def Mach.plJoyCheck (m : Mach) (e : Env) : Mach :=
  let new := m.joyMask
  let old := m.pl.joyBad
  let m1 := { m with pl := { m.pl with joyBad := new } }.sb .STR_PL_STS_joy_invalid (new != 0)
  iter 3 (fun i m =>
    if new.testBit i != old.testBit i then (m.event e 0x500C (some 3) (le 1 i ++ le 1 (if new.testBit i then 1 else 0))).plIrq 11 else m) m1

/-- Waypoints reached: each is told, and the next one is approached; the last one is held. -/
def Mach.plReach (m : Mach) (e : Env) (n : Nat) : Mach :=
  if m.plMode != 2 then m
  else iter n (fun _ m =>
    let tell (m : Mach) : Mach := (m.note e 0x500A (le 1 m.pl.reached)).plIrq 9
    match m.pl.way with
    | _ :: b :: l => let m1 := tell m; { m1 with pl := { m1.pl with way := b :: l, reached := m1.pl.reached + 1 } }.plTrackSync
    | [_] => if m.b .STR_PL_TRACK_STS_at_final then m else (tell m).sb .STR_PL_TRACK_STS_at_final true
    | [] => m) m

/-- The reference at stage 0: moved to an instant, or started at the estimate; the registers show it. -/
def Mach.plReference (m : Mach) (e : Env) (at_ : Nat) : Mach :=
  let x := m.pl.est
  let p := m.pl
  let r := if p.fresh then (⟨fdAt x 0, fdAt x 1, fdAt x 2, 0, 0, 0⟩, 0) else refMove m.plTargets (nsF (at_ - p.refAt)) p.ref
  let r0 : PlRef := if m.plMode = 3 || m.plMode = 4 then { r.1 with n := fdAt x 0, e := fdAt x 1, vn := 0, ve := 0 } else r.1
  let r1 : PlRef := if m.plHeads then r0 else { r0 with h := fdAt x 2, r := 0 }
  let m1 := { m with pl := { p with ref := r1, refAt := at_, fresh := false } }.plReach e r.2
  ((m1.wr Reg.STR_PL_REF_N (BitVec.ofInt 32 (toMm r1.n))).wr Reg.STR_PL_REF_E (BitVec.ofInt 32 (toMm r1.e))).wr Reg.STR_PL_REF_HDG (fdToF32 r1.h)

/-! ### The work of a cycle (R22, R23, R263, R287, R288) -/

/-- T_rel in ns (R23). -/
def Mach.plRel (m : Mach) : Nat := 3500000 + m.g .STR_PL_TIMING_budget * 50000

/-- What MANUAL and NONE release: the manual values, or zero thrust with azimuths held. -/
def Mach.plDirect (m : Mach) : List ThrSet :=
  (List.range 24).map fun i =>
    if m.plMode = 5 && !m.b .STR_PL_STS_manual_stale then nth ThrSet.reset m.pl.manual i else m.plZero i

/-- The set-points of the enabled thrusters. -/
def Mach.plSets (m : Mach) (l : List ThrSet) : List (Nat × ThrSet) := m.plEnabled.map fun i => (i, nth ThrSet.reset l i)

/-- A set-point for a string at another position leaves, with its instant (R282). -/
def Mach.plRemote (m : Mach) (at_ : Nat) (sets : List (Nat × ThrSet)) : Mach :=
  if !m.isActive then m
  else (sets.flatMap fun p => m.plSinks p.1 p.2).foldl (fun m s =>
    match s.2.1 with
    | some v =>
      if s.1 / 2 ^ 30 = 1 && !m.strLocal (s.1 / 2 ^ 24 % 8) then m.linkSend 9 (2 ^ (s.1 / 2 ^ 24 % 8)) (le 8 at_ ++ le 1 (s.1 / 65536 % 64) ++ le 4 v.toNat) else m
    | none => m) m

/-- The active announces the release instant of its cycle to the standby (R290). -/
def Mach.plAnnounce (m : Mach) (at_ : Nat) : Mach :=
  if m.isActive then m.linkSend 4 m.otherController (le 8 m.pl.num ++ le 8 at_) else m

/-- MANUAL and NONE stage their set-points when the work of the cycle starts (R256, R291): those for other positions leave, and in SERVICE the release is
announced. -/
def Mach.plStageDirect (m : Mach) : Mach :=
  if m.pl.stage != 4 then m
  else
    let m1 := { m with pl := { m.pl with thr := m.plDirect } }
    let m2 := m1.plRemote m1.pl.planned (m1.plSets m1.pl.thr)
    if m2.onReduced then m2 else m2.plAnnounce m2.pl.planned

/-! ### Records (R27, R594) -/

/-- The payload of a CYCLE record. -/
def CycleRec.bytes (c : CycleRec) : List Byte :=
  le 8 c.num ++ le 1 c.status ++ le 1 (if c.accepted then 1 else 0) ++ le 1 c.mode ++ le 1 c.steps ++ le 4 c.lag ++ le 4 c.merit.toNat
    ++ le 4 c.digest ++ le 1 c.flags ++ List.replicate 7 0

/-- A cycle record is written to the write buffer: INFO, or NOTICE when it is late, which it is once the next boundary has passed (R27). -/
def Mach.commitRec (m : Mach) (c : CycleRec) (late : Bool) : Mach :=
  m.record ⟨if late || c.num != m.cycNum then 2 else 1, 0x13, typCycle, c.bytes, none⟩

/-- The record of the present cycle is committed. -/
def Mach.cycleCommit (m : Mach) (late : Bool) : Mach :=
  if m.pl.cyc.done then m else { m with pl := { m.pl with cyc := { m.pl.cyc with done := true } } }.commitRec m.pl.cyc late

/-- The record of a cycle that the next boundary has overtaken waits for its comparison; one that still waited is written. -/
def Mach.tailPut (m : Mach) (c : CycleRec) : Mach :=
  let m1 := match m.pl.tail with | some t => m.commitRec t true | none => m
  { m1 with pl := { m1.pl with tail := some c } }


/-! ### The start of the work -/

/-- The work every boundary shares: the estimate predicted to it, the law's own mode changes, the commands that wait, the thrusters. -/
def Mach.plWork (m : Mach) (e : Env) (t0 : Nat) : Mach :=
  let m0 := if m.pl.cyc.formed && !m.pl.cyc.done then m.tailPut m.pl.cyc else m
  let m1 := { m0 with pl := { m0.pl with est := m0.plEstimate t0, t0 := t0, num := m0.cycNum, late := none, tripped := [], dense := false } }
  let m2 := (((m1.plDegrade e).plApplyAll e).plAvail e).plJoyCheck e
  let steps := m2.g .LCH_STS_pstep + 16 * m2.g .LCH_STS_hstep
  { m2 with pl := { m2.pl with
      cyc := ⟨m2.cycNum, 0, false, 255, false, 0, fpNan, 0, m2.plMode, steps, false, 0⟩
      stage := if qpMode m2.plMode then 1 else if m2.plMode = 5 || m2.pl.zeroDue then 4 else 0 } }

/-- The lag of the last release: that of a cycle still to be released, or the one in force under catch-up (R287). -/
def Mach.plOwed (m : Mach) : Nat :=
  match m.pl.ahead with
  | some o => o.at_ - (o.t0 + m.plRel)
  | none => if m.b .STR_PL_STS_catchup then m.pl.lag else 0

/-- A cycle of SERVICE starts its work, with the lag it carries (R287 to R289). Its estimate is late where it is not taken within 1 ms of the boundary
and that lag, or while the clock of Lichen has failed (R26). -/
def Mach.plStart (m : Mach) (e : Env) (t0 : Nat) : Mach :=
  let m1 := m.plWork e t0
  let q := m1.plT / 4
  let lam := if m1.b .STR_PL_STS_skip then 0 else m.plOwed - min m.plOwed q
  let planned := t0 + m1.plRel + lam
  let late := if m.clkFailed 2 || decide (t0 + 1000000 + lam < e.ns) then some 0 else none
  let m2 := { m1 with pl := { m1.pl with planned := planned, plan := lam, h0 := m1.plT - min lam q, waits := false, due := false, late := late,
                                         age := m1.pl.age + 1 } }
  ((m2.sb .STR_PL_STS_skip false).plReference e planned).plStageDirect

/-- The release instant of the cycle where it is known: the planned one, or on a standby the one announced for the cycle (R290). -/
def Mach.plAt (m : Mach) : Option Nat :=
  if !m.shadows then some m.pl.planned
  else match m.pl.announced with
    | some (n, a) => if n = m.pl.num then some a else none
    | none => none

/-- The set-points a release puts in force, trips aside. -/
def Mach.plStaged (m : Mach) : List (Nat × ThrSet) := m.plSets (if qpMode m.plMode then m.pl.thr else m.plDirect)

/-- A dispatched cycle gives way to the work of the next one before its release: it keeps its set-points, its instant and its record. -/
def Mach.plYield (m : Mach) (e : Env) : Mach :=
  let at_ := if m.pl.due && !m.shadows then m.nextTick e else m.plAt.getD m.pl.planned
  { m with pl := { m.pl with ahead := some ⟨at_, m.pl.due, m.plAt.isSome, m.pl.t0, m.pl.plan, m.pl.late.getD 3, m.pl.cyc, m.plStaged, m.pl.tripped⟩ } }

/-- A cycle boundary of SERVICE: the work starts, or waits for the dispatch before it (R289). -/
def Mach.plBoundary (m : Mach) (e : Env) (t0 : Nat) : Mach :=
  if 1 ≤ m.pl.stage && m.pl.stage ≤ 3 then { m with pl := { m.pl with waits := true } }
  else if m.pl.stage = 4 then (m.plYield e).plStart e t0
  else m.plStart e t0

/-! ### Failure, continuation and FALLBACK (R277, R278) -/

/-- FALLBACK is entered: the reduced law runs from this cycle on, whose demand it allocates by the pseudo-inverse (R278, R634). -/
def Mach.plFallback (m : Mach) (e : Env) : Mach :=
  if m.b .STR_PL_STS_fallback then m
  else
    let m1 := ((m.sb .STR_PL_STS_fallback true).sb .STR_PL_STS_continuation false).up .STR_PL_CNT_fallbacks
    let m2 := { m1 with pl := { m1.pl with okRun := 0, integ := [0, 0, 0], redF := [] } }
    let d := m2.redDemand
    ({ m2 with pl := { m2.pl with demand := d.1, integ := d.2 } }.event e 0x5006 (some 4) (le 1 1)).plIrq 5

/-- STR_PL_SOLVE and STR_PL_MERIT report a solve; a failure is posted. -/
def Mach.plReport (m : Mach) (e : Env) (r : QpResult) (ok : Bool) (fails : Nat) : Mach :=
  let merit := match r.merit with | some x => fdToF32 x | none => fpNan
  let m1 := ((((m.s .STR_PL_SOLVE_status r.status).sb .STR_PL_SOLVE_accepted ok).s .STR_PL_SOLVE_fails (min fails 255)).s .STR_PL_SOLVE_iter
    (m.g .SLV_LAST_STS_iter)).wr Reg.STR_PL_MERIT merit
  let m2 := { m1 with pl := { m1.pl with cyc := { m1.pl.cyc with status := r.status, accepted := ok, merit := merit } } }
  if ok then m2 else (m2.event e 0x5005 (some 3) (le 1 r.status ++ le 4 merit.toNat ++ le 1 (min fails 255))).plIrq 4

/-- The rule of R277. -/
def Mach.plAccepts (m : Mach) (r : QpResult) : Bool :=
  match r.status with
  | 0 => true
  | 1 | 2 => match r.merit with | some x => fdLe x (m.fd Reg.STR_PL_RES_MAX) | none => false
  | _ => false

/-- A side change begins: ROTATING (R272). -/
def Mach.plFlip (m : Mach) (e : Env) (i : Nat) : Mach :=
  let side := 1 - m.g (.STR_PL_THRi_CFG_side i)
  let m1 := ((m.s (.STR_PL_THRi_CFG_side i) side).sb (.STR_PL_THRi_CFG_rotating i) true).sb .STR_PL_STS_rotating true
  ({ m1 with pl := { m1.pl with swRun := upd m1.pl.swRun i fun _ => 0 } }.event e 0x5008 (some 2) (le 1 i ++ le 1 side ++ le 1 1)).plIrq 7

/-- The hysteresis of the sector sides over an accepted solution (R272). -/
def Mach.plSectors (m : Mach) (e : Env) (f lam : List F64) : Mach :=
  (splitForces m.plThrs f).foldl (fun (a : Mach × Nat) p =>
    let (m, o) := a
    let t := p.1
    let next := o + (t.rows0 m.rotFrac 0).length
    if !t.sector || t.rot || !t.use then ({ m with pl := { m.pl with swRun := upd m.pl.swRun t.i fun _ => 0 } }, next)
    else
      let edge := if t.side = 0 then t.a1 else t.a2
      let az := Config.atan2Deg (fdAt p.2 1) (fdAt p.2 0)
      let hit := fdLe (fdMul (fdOfRatio 1 10) t.fmax) (forceNorm p.2) && fdLe (fdAbs (wrap180 (fdSub az edge))) (fdOfRatio 1 2)
        && fdLt (m.fd Reg.STR_PL_SW_MULT) (fdAt lam (o + 3))
      let run := if hit then nth 0 m.pl.swRun t.i + 1 else 0
      let m1 := { m with pl := { m.pl with swRun := upd m.pl.swRun t.i fun _ => run } }
      (if m.g .STR_PL_SECTOR_sw_hold ≤ run then m1.plFlip e t.i else m1, next)) (m, 0) |>.1

/-- A slack flag follows the stage-0 slack (R274); the code of the excursion slack in PL_SLACK is 4. -/
def Mach.plSlack (m : Mach) (e : Env) (code : Nat) (f : Fld) (v : F64) : Mach :=
  let on := fdLt (fdOfRatio 1 1000) v
  if m.b f = on then m
  else ((m.sb f on).event e 0x5009 (some (if on then 3 else 2)) (le 1 code ++ le 1 (if on then 1 else 0))).plIrq 8

/-- The slack flags of the buses and of the excursion, from the stage-0 variables, the slacks from variable o. -/
def Mach.plSlackBus (m : Mach) (e : Env) (z : List F64) (o : Nat) : Mach :=
  let m1 := (m.pl.buses.mapIdx fun j b => (j, b)).foldl (fun (m : Mach) (p : Nat × Nat) =>
    m.plSlack e p.2 (.STR_PL_BUSb_STS_slack p.2) (fdAt z (o + p.1))) m
  let any := (List.range 4).any fun b => m1.b (.STR_PL_BUSb_STS_slack b)
  (m1.plSlack e 4 .STR_PL_STS_slack_exc (fdAt z (o + m1.pl.buses.length))).sb .STR_PL_STS_slack_bus any

/-- FALLBACK ends after `recover` accepted solves in a row. -/
def Mach.plRecover (m : Mach) (e : Env) : Mach :=
  if m.b .STR_PL_STS_fallback && decide (m.g .STR_PL_FAIL_CFG_recover ≤ m.pl.okRun)
  then ((m.sb .STR_PL_STS_fallback false).event e 0x5006 (some 2) (le 1 0)).plIrq 5 else m

/-- An accepted solution: kept for the stages to come, the sectors and slacks judged (R272, R274, R278, R320). -/
def Mach.plTake (m : Mach) (e : Env) (q : Qp) (r : QpResult) : Mach :=
  let nf := (m.plThrs.map Thr.nv).sum
  let turn (z : List F64) : F64 := wrap360 (fdAdd m.pl.ref.h (fdDiv (fdMul (fdAt z 2) (fdOfInt 180)) piF))
  let hist := r.pt.z.map fun z => turn z :: (z.drop 6).take nf
  let z0 := r.pt.z.getD 0 []
  let f := (z0.drop 6).take nf
  let m1 := { m with pl := { m.pl with hist := hist, age := 0, okRun := m.pl.okRun + 1, force := f } }.setKept (some (q.dims, r.pt))
  let m2 := ((m1.plSectors e f (r.pt.l.getD 0 [])).sb .STR_PL_STS_continuation false)
  let m3 := m2.plSlackBus e z0 (6 + nf)
  m3.plRecover e

/-- A failed solve: continuation, or FALLBACK (R278). -/
def Mach.plFail (m : Mach) (e : Env) (n : Nat) : Mach :=
  let m1 := { m with pl := { m.pl with okRun := 0 } }
  if m1.pl.hist.isEmpty || m1.g .STR_PL_FAIL_CFG_fail_max < n then m1.plFallback e
  else if m1.b .STR_PL_STS_fallback then m1
  else { m1 with pl := { m1.pl with force := (m1.pl.hist.getD (min n (m1.pl.hist.length - 1)) []).drop 1 } }.sb .STR_PL_STS_continuation true

/-- The law judges the result of its own problem. -/
def Mach.plJudge (m : Mach) (e : Env) (q : Qp) (r : QpResult) : Mach :=
  let ok := m.plAccepts r
  let fails := if ok then 0 else m.g .STR_PL_SOLVE_fails + 1
  let m1 := m.plReport e r ok fails
  if ok then m1.plTake e q r else m1.plFail e fails

/-! ### The reduced law (R631 to R634) -/

/-- The demand of the reduced law is formed; the problem it gives is submitted when Bracken may serve it. -/
def Mach.redSubmit (m : Mach) (e : Env) (deadline phase : Nat) : Mach :=
  let d := m.redDemand
  let use := m.b .SLV_STS_selftest_ok && m.b .GEN_START_CFG_fh_dense
  let m1 := { m with pl := { m.pl with demand := d.1, integ := d.2, redF := [], dense := use } }
  let j : QpJob := ⟨0, false, m1.redProblem d.1, some (deadline / 8 % 2 ^ 32), none, 0⟩
  if use then m1.slvSubmit e j phase else m1

/-- The result of the DENSE problem; in FIDDLEHEAD it is the solve that is reported. -/
def Mach.redJudge (m : Mach) (e : Env) (r : QpResult) : Mach :=
  let ok := m.plAccepts r
  let nf := (m.plThrs.map Thr.nv).sum
  let m1 := if m.onReduced then m.plReport e r ok 0 else m
  { m1 with pl := { m1.pl with dense := false, redF := if ok then (r.pt.z.getD 0 []).take nf else [] } }

/-- The force of the reduced law: what DENSE gave, or the pseudo-inverse. -/
def Mach.redForce (m : Mach) : List F64 := if m.pl.redF.isEmpty then m.redPseudo m.pl.demand else m.pl.redF

/-- The boundary of the 200 ms grid plans its release. -/
def Mach.redPlan (m : Mach) (e : Env) (rel : Nat) : Mach :=
  let p := m.pl
  let h := ms 200
  let m1 : Mach := { m with pl := { p with planned := rel, plan := 0, h0 := h, waits := false, due := false } }
  (m1.plReference e rel).plStageDirect

/-- The stage the reduced law has reached: it waits for DENSE, or its force is ready. -/
def Mach.redStage (m : Mach) : Mach :=
  let st := if m.pl.dense then 2 else 3
  { m with pl := { m.pl with stage := st } }

/-- A boundary of the 200 ms grid (R631): the work, and the reduced law in the QP modes. -/
def Mach.plReduced (m : Mach) (e : Env) (t0 : Nat) : Mach :=
  let m2 := (m.plWork e t0).redPlan e (t0 + ms 20)
  if m2.pl.stage = 1 then (m2.redSubmit e (t0 + ms 15) 2).redStage else m2

/-! ### Assembly and the end of a solve (R22, R277, R288) -/

/-- The end of assembly: the deadline, and the problem submitted; in FALLBACK the reduced law's problem goes first. -/
def Mach.plAssemble (m : Mach) (e : Env) (phase : Nat) : Mach :=
  if m.pl.stage != 1 || m.onReduced || m.plT = 0 then m
  else
    let budget := m.g .STR_PL_TIMING_budget * 50000 * m.pl.h0 / m.plT
    let late := if m.pl.late.isNone && decide (m.pl.t0 + 3000000 + m.pl.plan < e.ns) then some 1 else m.pl.late
    let m1 := { m with pl := { m.pl with stage := 2, late := late } }
    let m2 := if m1.b .STR_PL_STS_fallback then m1.redSubmit e (e.ns + budget) phase else m1
    match m2.plProblem with
    | some q => m2.slvSubmit e ⟨0, true, q, some ((e.ns + budget) / 8 % 2 ^ 32), none, 0⟩ phase
    | none =>
      let m3 := m2.plJudge e ⟨false, 0, [], [], [], 0, 0, 0, 0, false, []⟩ ⟨3, none, 0, ⟨[], [], [], []⟩⟩
      { m3 with pl := { m3.pl with stage := if m3.pl.dense then 2 else 3 } }

/-- A law result arrives. -/
def Mach.plResult (m : Mach) (e : Env) (j : QpJob) (r : QpResult) : Mach :=
  let m1 := if j.own then m.plJudge e j.qp r else m.redJudge e r
  let more := !m1.slv.law.isEmpty
  if more || m1.pl.stage != 2 then m1
  else
    let late := if m1.pl.planned < e.ns + 500000 && m1.pl.late.isNone then some 2 else m1.pl.late
    { m1 with pl := { m1.pl with stage := 3, late := late } }

/-- BRACKEN_SOLVE_END (R321): the result record and status are written, the law judges its result, and the next problem starts. -/
def execBrackenSolveEnd (s : State) : Host.Outcome State Fault Refusal :=
  s.act fun e m => match m.slv.run with
    | some r =>
      match r.ended with
      | some st =>
        let (m1, res) := m.slvReport e r st
        let m2 := if r.job.src = 0 then m1.plResult e r.job res else m1
        (m2.setRun none).slvNext e
      | none => m
    | none => m

/-- QP_ASSEMBLY_COMPLETE (R22): the phase in which a host problem is preempted. -/
def execQpAssemblyComplete (phase : Nat) (s : State) : Host.Outcome State Fault Refusal := s.act fun e m => m.plAssemble e phase

/-! ### Dispatch (R279 to R284) -/

/-- The integer a CAN sink carries for a value. -/
def sinkInt (v : Word) (scale : Nat) (turn : Bool) : Int :=
  let i := fpSatInt (fpMul v (fpOfInt scale))
  if turn && i == 36000 then 0 else i

/-- Sinks of this module take values: strings their law set-point, CAN objects their payload. -/
def Mach.plDrive (m : Mach) (sets : List (Nat × ThrSet)) : Mach :=
  (sets.flatMap fun p => m.plSinks p.1 p.2).foldl (fun m s =>
    match s.2.1 with
    | some v =>
      let w := s.1
      if w / 2 ^ 30 = 1 then (if m.strLocal (w / 2 ^ 24 % 8) then m.strLawSet (w / 65536 % 64) v else m)
      else if w / 2 ^ 30 = 2 then
        m.canPut (w / 2 ^ 24 % 4) (w / 65536 % 128) (w % 64) (encValue (w / 256 % 16) (sinkInt v s.2.2.1 s.2.2.2) v)
      else m
    | none => m) m

/-- ROTATING ends where the new edge is reached (R272). -/
def Mach.plRotEnd (m : Mach) (e : Env) : Mach :=
  let m1 := m.plThrs.foldl (fun m t =>
    if t.rot && t.rotDone t.ac then
      ((m.sb (.STR_PL_THRi_CFG_rotating t.i) false).event e 0x5008 (some 2) (le 1 t.i ++ le 1 t.side ++ le 1 0)).plIrq 7
    else m) m
  m1.sb .STR_PL_STS_rotating ((List.range 24).any fun i => m1.b (.STR_PL_THRi_CFG_rotating i))

/-- Forces become set-points, with the trip set of each generator that may trip; they are staged here and sent ahead elsewhere. -/
def Mach.plStage4 (m : Mach) (e : Env) : Mach :=
  let m0 := m.plRotEnd e
  let reduced := m0.onReduced || m0.b .STR_PL_STS_fallback
  let f := if reduced then m0.redForce else m0.pl.force
  let new := (splitForces m0.plThrs f).map fun p => (p.1.i, m0.plDispatch p.1 p.2)
  let thr := (List.range 24).map fun i => match new.find? fun p => p.1 == i with | some p => p.2 | none => m0.plZero i
  let sets := m0.plSets thr
  let trips := (List.range 8).map fun g =>
    if m0.b (.STR_PL_GENg_CFG_en g) && m0.b (.STR_PL_GENg_CFG_trip_en g) then some (m0.plTrip g sets) else none
  let m1 := iter 4 (fun b m => m.wr (Reg.STR_PL_BUSb_PLAN b) (fdToF32 (m.plPower b sets))) m0
  { m1 with pl := { m1.pl with thr := thr, trips := trips, stage := 4 } }.plRemote m1.pl.planned sets

/-- DISPATCH_COMPLETE (R24, R282, R289, R290): the set-points are staged, the active announces their release instant, and the work that waited for
the dispatch starts. -/
def execDispatchComplete (s : State) : Host.Outcome State Fault Refusal :=
  s.act fun e m =>
    if m.pl.stage != 3 || m.onReduced then m
    else
      let m1 := m.plStage4 e
      let m2 := m1.plAnnounce (if m1.pl.due then m1.nextTick e else m1.pl.planned)
      if m2.pl.waits then (m2.plYield e).plStart e (m2.grid.next - m2.plT) else m2

/-! ### Release (R23, R43, R279, R286 to R290) -/

/-- The released set-points are in force: the registers show them, and B applied to them. -/
def Mach.plShow (m : Mach) (sets : List (Nat × ThrSet)) : Mach :=
  let m1 := sets.foldl (fun m p =>
    let m1 := { m with pl := { m.pl with rel := upd m.pl.rel p.1 fun _ => p.2 } }.wr (Reg.STR_PL_THRi_CMD p.1) p.2.thrust
    match p.2.az with | some a => m1.wr (Reg.STR_PL_THRi_AZ p.1) a | none => m1) m
  let l := m1.plEnabled.map m1.plThr
  let f := l.flatMap fun t => if t.fixed then [t.tc] else (unitAt (m1.fd (Reg.STR_PL_THRi_AZ t.i))).map (fdMul t.tc)
  let tau := (bRows l).map fun r => fdToF32 (fdDot r f)
  ((m1.wr Reg.STR_PL_TAU_X (tau.getD 0 0)).wr Reg.STR_PL_TAU_Y (tau.getD 1 0)).wr Reg.STR_PL_TAU_N (tau.getD 2 0)

/-- The set-points with the trip sets of generators laid over them; of two sets each thruster takes the lower thrust (R286). -/
def Mach.plTripped (m : Mach) (gens : List Nat) (sets : List (Nat × ThrSet)) : List (Nat × ThrSet) :=
  sets.map fun p =>
    let alt := gens.filterMap fun g => (nth none m.pl.trips g).bind fun t => (t.2.find? fun q => q.1 == p.1).map (·.2)
    match alt with
    | [] => p
    | a :: l => (p.1, l.foldl (fun b x => if fpLt (fpAbs x.thrust) (fpAbs b.thrust) then x else b) a)

/-- The bytes of the output digest of a cycle, from what is released (R516). -/
def Mach.digestBytes (m : Mach) (c : CycleRec) : List Byte :=
  le 8 c.num ++ le 1 c.status ++ le 1 (if c.accepted then 1 else 0) ++ le 1 c.mode
    ++ (m.plSets m.pl.rel).flatMap fun p =>
      le 1 p.1 ++ (m.plSinks p.1 p.2).flatMap fun s => le 4 (if s.1 / 2 ^ 30 = 0 then 0 else (s.2.1.getD 0).toNat)

/-- The record of a cycle with its digest, its lag and its flags, as they are at its release at r. -/
def Mach.plFormed (m : Mach) (c : CycleRec) (r : Nat) : CycleRec :=
  { c with digest := crc32c (m.digestBytes c), formed := true, at_ := r, lag := m.pl.lag / 1000,
           flags := c.flags / 2 % 2 * 2 + (if m.b .STR_PL_STS_catchup then 1 else 0) + (if m.b .STR_PL_STS_fallback then 4 else 0)
             + (if m.b .STR_PL_STS_continuation then 8 else 0) }

/-- The digest of a cycle goes to the peer (R43, R516). -/
def Mach.digestSend (m : Mach) (c : CycleRec) : Mach :=
  if m.isActive || m.shadows then
    m.linkSend 6 m.otherController (le 8 c.num ++ le 4 c.digest ++ le 1 c.status ++ le 1 (c.flags / 2 % 2))
  else m

/-- The digest of the present cycle, released at r, is formed and sent. -/
def Mach.plDigest (m : Mach) (r : Nat) : Mach :=
  let c := m.plFormed m.pl.cyc r
  { m with pl := { m.pl with cyc := c } }.digestSend c

/-- STR_PL_LAG shows the lag (R289). -/
def Mach.plLag (m : Mach) (lam : Nat) : Mach :=
  let q := m.plT / 4
  let m1 := { m with pl := { m.pl with lag := lam } }
  (m1.s .STR_PL_LAG_lag (min (lam / 1000) 0xFFFFFF)).s .STR_PL_LAG_releases (if q = 0 then 0 else (lam + q - 1) / q)

/-- The schedule after the release at r of a cycle with boundary t0 and planned lag `plan`, late or not (R287, R289). A standby follows the instants
the active announced (R290). -/
def Mach.plCatch (m : Mach) (e : Env) (r t0 plan late num : Nat) : Mach :=
  let lam := r - (t0 + m.plRel)
  let m1 := m.plLag lam
  if t0 + m.plRel + plan < r then
    let m2 := { m1 with pl := { m1.pl with taken := if m.b .STR_PL_STS_catchup then m.pl.taken + 1 else 1 } }
    (((m2.sb .STR_PL_STS_catchup true).up .STR_PL_CNT_overruns).event e 0x5002 (some 3) (le 8 num ++ le 4 (lam / 1000) ++ le 1 late)).plIrq 1
  else if m.b .STR_PL_STS_catchup then
    let m2 := { m1 with pl := { m1.pl with taken := m.pl.taken + 1 } }
    if lam = 0 then ((m2.sb .STR_PL_STS_catchup false).event e 0x5003 (some 2) (le 8 num ++ le 2 (m.pl.taken + 1))).plIrq 2 else m2
  else m1

/-- Set-points take effect at r, the trip sets of the generators that tripped laid over them; what differs from what had been sent ahead leaves for
other positions. STR_PL_STS.trip ends with the first release without a trip. -/
def Mach.plOut (m : Mach) (r : Nat) (gens : List Nat) (ahead base : List (Nat × ThrSet)) : Mach :=
  let sets := m.plTripped gens base
  let m1 := ((m.plRemote r (sets.filter fun p => !ahead.contains p)).plDrive sets).plShow sets
  if gens.isEmpty then m1.sb .STR_PL_STS_trip false else m1

/-- The staged set-points of the present cycle replace the active ones at r_n. -/
def Mach.plRelease (m : Mach) (e : Env) (r : Nat) : Mach :=
  let m2 := m.plOut r m.pl.tripped (m.plSets m.pl.thr) m.plStaged
  let m3 := if m2.onReduced then m2 else m2.plCatch e r m.pl.t0 m.pl.plan (m.pl.late.getD 3) m.pl.num
  let m4 := ({ m3 with pl := { m3.pl with stage := 5, due := false, zeroDue := false } }.plIrq 13)
  if m4.onReduced then m4 else m4.plDigest r

/-- The set-points of a cycle that the next boundary had overtaken replace the active ones at r. -/
def Mach.plReleaseOver (m : Mach) (e : Env) (o : PlOver) (r : Nat) : Mach :=
  let m1 := { m with pl := { m.pl with ahead := none } }.plOut r (o.tripped ++ m.pl.tripped) o.sets o.sets
  let m2 := (m1.plCatch e r o.t0 o.plan o.late o.cyc.num).plIrq 13
  let c := m2.plFormed o.cyc r
  (m2.tailPut c).digestSend c

/-- A cycle that leaves UNSHADOWED (R42, R290). -/
def Mach.plUnshadow (m : Mach) : Mach :=
  let c := m.pl.cyc
  { m with pl := { m.pl with cyc := { c with flags := if c.flags.testBit 1 then c.flags else c.flags + 2 } } }

/-- The stage a late cycle had reached: 1 assembly, 2 Bracken, 3 dispatch. -/
def lateStage (stage : Nat) : Nat := if stage = 1 then 1 else if stage = 2 then 2 else 3

/-- The result is not ready at the release instant: an overrun, whose release waits for a base tick (R24); on a standby the cycle is UNSHADOWED (R290). -/
def Mach.plMiss (m : Mach) : Mach :=
  let m1 := { m with pl := { m.pl with due := true, late := some (m.pl.late.getD (lateStage m.pl.stage)) } }
  if m.shadows then m1.plUnshadow else m1

/-- The release instant of the present cycle (R23, R24): the release, or an overrun. -/
def Mach.plInstant (m : Mach) (e : Env) : Mach :=
  if m.pl.stage = 0 then if m.pl.cyc.formed || m.pl.cyc.done || decide (e.ns < m.pl.planned) then m else m.plDigest m.pl.planned
  else if m.pl.stage = 5 || m.pl.due then m
  else match m.plAt with
    | some r => if e.ns < r then m else if m.pl.stage = 4 then m.plRelease e r else m.plMiss
    | none => m

/-- The release instant of a cycle that the next boundary has overtaken. -/
def Mach.plOverInstant (m : Mach) (e : Env) : Mach :=
  match m.pl.ahead with
  | some o => if !o.due && (o.known || !m.shadows) && o.at_ ≤ e.ns then m.plReleaseOver e o o.at_ else m
  | none => m

/-- RELEASE_INSTANT (R23). -/
def execReleaseInstant (s : State) : Host.Outcome State Fault Refusal :=
  s.act fun e m => if m.onReduced then m else (m.plOverInstant e).plInstant e

/-- The active announces that cycle n is released at an instant (R290). -/
def Mach.plAnnounced (m : Mach) (e : Env) (n at_ : Nat) : Mach :=
  let m1 := { m with pl := { m.pl with announced := some (n, at_) } }
  let passed := decide (at_ < e.ns)
  match m1.pl.ahead with
  | some o =>
    if o.cyc.num = n then { m1 with pl := { m1.pl with ahead := some { o with at_ := at_, known := true, due := o.due || passed } } } else m1
  | none =>
    if n != m1.pl.num || !passed then m1
    else if m1.pl.stage = 4 then { m1 with pl := { m1.pl with due := true } }
    else if 1 ≤ m1.pl.stage && m1.pl.stage ≤ 3 && !m1.pl.due then m1.plMiss else m1

/-! ### The base tick (R24, R282, R285, R631) -/

/-- The trip sets of the generators that tripped replace the active set-points of their buses (R285, R286); where none is staged, nothing is released. -/
def Mach.plTrips (m : Mach) (tk : Nat) : Mach :=
  let buses := m.pl.tripDue.map fun g => m.g (.STR_PL_GENg_CFG_bus g)
  let now := m.plSets m.pl.rel |>.filter fun p => buses.contains (m.g (.STR_PL_THRi_CFG_bus p.1))
  let gens := m.pl.tripped.filter fun g => buses.contains (m.g (.STR_PL_GENg_CFG_bus g))
  let act := if gens.isEmpty then m.pl.tripDue else gens
  let m0 := { m with pl := { m.pl with tripDue := [] } }
  if act.all fun g => (nth none m.pl.trips g).isNone then m0
  else
    let sets := m.plTripped act now
    ((m0.plDrive sets).plRemote tk sets).plShow sets

/-- Set-points that came from the active and have reached their instant (R282); a string that takes none is reported to the law as IDLE (R347). -/
def Mach.plArrived (m : Mach) (tk : Nat) : Mach :=
  let ready := m.pl.remote.filter fun x => decide (x.1 ≤ tk)
  let m1 := ready.foldl (fun m x =>
    let m1 := m.strLawSet x.2.1 x.2.2
    if m.g (.STR_Ss_CFG_sp_type x.2.1) = 1 then m1 else m1.strReport x.2.1 0 0) m
  { m1 with pl := { m1.pl with remote := m.pl.remote.filter fun x => decide (tk < x.1) } }

/-- The reduced law at a base tick: a force that is ready is staged, and at the planned instant the release follows, with the pseudo-inverse where DENSE
has not answered (R631, R634). -/
def Mach.redTick (m : Mach) (e : Env) (tk : Nat) : Mach :=
  let m1 := if m.pl.stage = 3 || (m.pl.stage = 2 && decide (m.pl.planned ≤ tk)) then m.plStage4 e else m
  if m1.pl.stage = 4 && decide (m1.pl.planned ≤ tk) then m1.plRelease e tk else m1

/-- The late releases of SERVICE at a base tick (R24, R290): of a cycle that the boundary overtook, then of the present one. An active whose planned
instant has passed without a release, as after a takeover, releases too. -/
def Mach.plLate (m : Mach) (e : Env) (tk : Nat) : Mach :=
  let m1 := match m.pl.ahead with
    | some o => if (o.due || (!m.shadows && decide (o.at_ < tk))) && o.at_ ≤ tk then m.plReleaseOver e o (if m.shadows then o.at_ else tk) else m
    | none => m
  if m1.pl.stage = 4 && (m1.pl.due || (!m1.shadows && decide (m1.pl.planned < tk)))
  then m1.plRelease e (if m1.shadows then m1.plAt.getD tk else tk) else m1

/-- What the law does at a base tick. -/
def Mach.plTick (m : Mach) (e : Env) (tk : Nat) : Mach :=
  let m1 := ((m.plFollow).plArrived tk).plTrips tk
  if m1.onReduced then m1.redTick e tk else m1.plLate e tk

/-! ### Skips (R289) -/

/-- CYCLE_SKIP (R289): the dispatch before is still incomplete at t0 + T/4. The commands of the skipped boundary apply, as they do at the other
controller (R257). -/
def execCycleSkip (s : State) : Host.Outcome State Fault Refusal :=
  s.act fun e m =>
    if !m.pl.waits || decide (e.ns < m.grid.next - m.plT + m.plT / 4) then m
    else
      let n := m.cycNum
      let m1 := (((m.sb .STR_PL_STS_skip true).up .STR_PL_CNT_skips).event e 0x5004 (some 4) (le 8 n)).plIrq 3
      let c : CycleRec := ⟨n, 0, false, 255, false, m1.pl.lag / 1000, fpNan,
        16 + (if m1.b .STR_PL_STS_catchup then 1 else 0) + (if m1.b .STR_PL_STS_fallback then 4 else 0), m1.plMode, m1.pl.cyc.steps, false, 0⟩
      ({ m1 with pl := { m1.pl with waits := false } }.record ⟨1, 0x13, typCycle, c.bytes, none⟩).plApplyAll e

end Sys2Proof.Machine
end

