-- ==== Sys2Proof/Machine/Gate.lean ====
section
/-!
DEFINITION. What several blocks share when a happening goes beyond one of them: GATE (R28, R480, R481), the lines of BRIDGE (R504
to R509), roles (R501, R503), and module states (R612).
Log: 29 (DEDUCED), 38 (DEDUCED), 46 (DEDUCED), 80 (DEDUCED), 81 (DEDUCED).
-/
namespace Sys2Proof.Machine

def Mach.safIrq (m : Mach) (i : Nat) : Mach := m.setBit Reg.SAF_IRQ_STS i true
def Mach.stkIrq (m : Mach) (i : Nat) : Mach := m.setBit Reg.STK_IRQ_STS i true
def Mach.role (m : Mach) : Nat := m.g .STK_STS_role
def Mach.pos (m : Mach) : Nat := m.g .STK_STS_pos

/-! ### GATE (R480, R481, R488) -/

/-- SAF_GATE: GATE, permit, bridge condition, cause. -/
def Mach.gateEvent (m : Mach) (e : Env) (on : Bool) (cause : Nat) : Mach :=
  let f (b : Bool) : Nat := if b then 1 else 0
  (m.safIrq 1).event e 0x8002 (some (if on then 2 else 6)) (le 1 (f on) ++ le 1 (f m.saf.permit) ++ le 1 (f (m.b .STK_BRG_cond)) ++ le 1 cause)

/-- GATE goes at once when the permit or the bridge condition is missing; every output it covers leaves its commanded state. -/
def Mach.gateDrop (m : Mach) (e : Env) (cause : Nat) : Mach :=
  if m.gate && !(m.saf.permit && m.b .STK_BRG_cond) then ((m.sb .STR_STS_gate false).emuHolds.dioWithdraw).gateEvent e false cause else m

/-- The end of a safety cycle restores GATE when every condition holds. -/
def Mach.gateRestore (m : Mach) (e : Env) : Mach :=
  if !m.gate && m.saf.permit && m.b .STK_BRG_cond then (m.sb .STR_STS_gate true).emuHolds.gateEvent e true 0 else m

/-- The permit changes. -/
def Mach.setPermit (m : Mach) (e : Env) (v : Bool) (cause : Nat) : Mach :=
  { m with saf := { m.saf with permit := v } }.gateDrop e cause

/-- The bridge condition changes. -/
def Mach.setBridge (m : Mach) (e : Env) (v : Bool) : Mach := (m.sb .STK_BRG_cond v).gateDrop e 0

/-! ### Lines (R504 to R509, R512) -/

/-- The line of this module: BRG_0, BRG_1, or PBR_OUT of a pair module. -/
def Mach.ownLow (m : Mach) : Bool := if m.pos = 0 then m.b .STK_BRG_brg0_low else m.b .STK_BRG_brg1_low

/-- A controller's or pair module's line is pulled low or let go. -/
def Mach.lineDrive (m : Mach) (on : Bool) : Mach :=
  if m.b .STK_BRG_own_drv = on then m
  else (m.sb .STK_BRG_own_drv on).emit (if m.pos < 2 then "BRG" else "PBR_OUT") m.pos (if on then 0 else 1)

/-- The own line is let go; the condition held by it is lost (R505, R506, R512). -/
def Mach.lineRelease (m : Mach) (e : Env) : Mach :=
  let m1 := (m.lineDrive false).sb .STK_BRG_claiming false
  if m.pos < 2 then m1.setBridge e false
  else if m.paired then ((m1.sb .STK_BRG_pair_cond false).sb .STK_STS_xprimary false).setBridge e false else m1

/-- What must hold for the line to be driven, apart from role and claim (R505, R518). -/
def Mach.lineAllowed (m : Mach) : Bool := m.saf.state == 2 && m.saf.clk == 0 && m.stk.hold

/-- The line is let go when a condition of R505 is lost. -/
def Mach.lineCheck (m : Mach) (e : Env) : Mach :=
  if m.b .STK_BRG_own_drv && !m.lineAllowed then m.lineRelease e else m

/-! ### Roles (R501, R503, R529) -/

/-- The phase of a resynchronisation (R532), with STK_SYNC: phase, attempt, failure cause, saf_diff. -/
def Mach.syncPhase (m : Mach) (e : Env) (phase cause : Nat) (diff : Bool) : Mach :=
  let old := m.g .STK_SYNC_STS_phase
  let m1 := ((m.s .STK_SYNC_STS_phase phase).s .STK_STS_sync_phase phase).s .STK_SYNC_STS_cause cause
  if old = phase && !diff then m1
  else (m1.stkIrq 3).event e 0x8804 (some (if phase = 7 || diff then 3 else 2))
    (le 1 phase ++ le 1 (m1.g .STK_SYNC_STS_attempts) ++ le 1 cause ++ le 1 (if diff then 1 else 0))

/-- A retained string goes on OPEN after a warm start, once its module is ACTIVE (R363): INT, INTC and the output as retained. -/
def Mach.strResume (m : Mach) (e : Env) : Mach :=
  let l := m.boot.strKept
  let m0 := { m with boot := { m.boot with strKept := [] } }
  iter 48 (fun t m => match l[t]? with
    | some k =>
      if k.state = 0 || m.strState t != 0 then m
      else
        let m1 := ((m.setSg t fun x => { x with uP := k.u }).wr (Reg.STR_Ss_INT t) k.int_).wr (Reg.STR_Ss_INTC t) k.intc
        (m1.wr (Reg.STR_Ss_OUT t) k.u).strEnter e t 1 8
    | none => m) m0

/-- The bits of the strings that show whether the module shadows (R375, R376). -/
def Mach.shadowSync (m : Mach) : Mach :=
  let m1 := m.sb .STR_STS_shadow m.shadowRole
  iter 48 (fun t m => m.sb (.STR_Ss_STS_shadow t) m.shadowRole) m1

/-- In SERVICE and ACTIVE the grid begins (R15): t_origin is the first whole second ahead, with cycle 0; the epochs of T/4 are aligned to it. -/
def Mach.gridStart (m : Mach) (e : Env) : Mach :=
  if m.state != 4 || m.role != 0 || m.grid.running then m
  else
    let t := m.g .STR_PL_TIMING_period
    let ep := t * 250000
    let org := (e.ns / 1000000000 + 1) * 1000000000
    let e0 := org - (org - e.ns - 1) / max 1 ep * ep
    let g : Grid := ⟨true, true, 0, t, org, e0, m.lch.next, m.grid.fh⟩
    { (m.setOrg org).wr64 Reg.GEN_CYC_LO Reg.GEN_CYC_HI 0 with grid := g }

/-- The module takes a role (R501, R503): `cause` is that of an isolation. A controller that is not ACTIVE lets its line go; one that
becomes ACTIVE is master (R91), and its Bracken is no longer paced (R314); the effective source follows the role (R79). -/
def Mach.setRole (m : Mach) (e : Env) (new cause : Nat) : Mach :=
  let old := m.role
  if old = new then m
  else
    let m1 := ((((m.s .STK_STS_role new).sb .STK_STS_master (new == 0)).s .STK_STS_iso_cause (if new = 4 then cause else 0)).sb
      .STK_STS_shadowing (new == 1)).shadowSync
    let m2 := if new = 0 || new = 3 then m1 else m1.lineRelease e
    let m3 := if new = 0 then ({ m2 with stk := { m2.stk with sync := none, unsh := 0 } }.slvUnpace).strResume e else m2
    let m4 := if new = 2 then
        let m' := m3.syncPhase e 1 0 false
        { m' with stk := { m'.stk with sync := some ⟨e.upNs, none, none, none, [], false, 0⟩ } }
      else if old = 2 && new = 4 then { m3 with stk := { m3.stk with sync := none } } else m3
    let m5 := (m4.sb .TIME_STS_master (new == 0)).effSource e
    ((if new = 0 then m5.gridStart e else m5).stkIrq 0).event e 0x8801 (some (if new = 4 then 4 else 2)) (le 1 old ++ le 1 new ++ le 1 cause)

/-- The module becomes ISOLATED (R503); an isolated module shows its newest cause. -/
def Mach.isolate (m : Mach) (e : Env) (cause : Nat) : Mach :=
  if m.role = 4 then m.s .STK_STS_iso_cause cause else m.setRole e 4 cause

/-- The role a controller takes when its claim is withdrawn or may not be made (R508, R509). -/
def Mach.claimRole (m : Mach) (e : Env) : Mach :=
  if 2 ≤ m.pos then m else if m.b .STK_STS_peer_ok then m.setRole e 2 0 else m.isolate e 3

/-- STK_BRIDGE: 0 won, 1 withdrawn, 2 stuck_own, 3 stuck_peer (R529). -/
def Mach.bridgeEvent (m : Mach) (e : Env) (outcome : Nat) : Mach :=
  (m.stkIrq (if outcome < 2 then 6 else 7)).event e 0x8806 (some (if outcome < 2 then 2 else 4)) (le 1 outcome)

/-- A claim is withdrawn (R507 to R509). -/
def Mach.claimWithdraw (m : Mach) (e : Env) : Mach :=
  (((m.lineRelease e).up .STK_BRG_backoffs).bridgeEvent e 1).claimRole e

/-- A claim (R507): the line is driven from now, without the condition. `cause` is that of a takeover. -/
def Mach.claim (m : Mach) (e : Env) (cause : Nat) : Mach :=
  if !m.lineAllowed || m.b .STK_BRG_claiming || m.b .STK_BRG_cond then m
  else if m.b .STK_BRG_stuck_peer then m.claimWithdraw e
  else
    { (m.lineDrive true).sb .STK_BRG_claiming true with
      stk := { m.stk with drvAt := e.upNs, take := if m.role = 1 || m.role = 2 then some (cause, e.ns) else none } }

/-! ### Module states (R612, R642) -/

/-- The module enters a state: `cause` is its halt or maint cause. Command outputs leave their commanded states where GATE or the state
withholds them (R443); in MAINT and SAFE_HALT strings are IDLE and the role is ISOLATED (R363, R503). -/
def Mach.enterState (m : Mach) (e : Env) (new cause : Nat) : Mach :=
  let old := m.state
  if old = new then m
  else
    let m1 := (m.s .GEN_STATE_state new).sb .STR_STS_slow_tick (new == 3)
    let m2 := if new = 6 then m1.s .GEN_STATE_halt_cause cause else if new = 5 then m1.s .GEN_STATE_maint_cause cause else m1
    let m3 := if new = 3 then m2.s .GEN_STATE_step 10 else if new = 2 then m2 else m2.s .GEN_STATE_step 0
    let m4 := if new = 5 || new = 6 then (m3.strAllIdle e).isolate e 7 else m3
    let m5 := (if new = 6 then m4.setPermit e false 0 else m4).dioWithdraw.dioReport e
    m5.event e 0x0001 (some (if new = 6 then 7 else if new = 5 then 4 else 2)) (le 1 old ++ le 1 new ++ le 1 cause)

/-- SAFE_HALT (R37, R612, R641). -/
def Mach.safeHalt (m : Mach) (e : Env) (cause : Nat) : Mach := (m.enterState e 6 cause).lineCheck e

/-! ### The island's failure and clock domains (R37, R459, R460) -/

/-- A failed domain is kept for the island (R480): nothing the host writes takes it back. -/
def Mach.clkMark (m : Mach) (d : Nat) : Mach :=
  { m with saf := { m.saf with clk := if m.saf.clk.testBit d then m.saf.clk else m.saf.clk + 2 ^ d } }

end Sys2Proof.Machine
end

