-- ==== Sys2Proof/Machine/Irq.lean ====
section
/-!
DEFINITION. The interrupt controller (chapter 16): sources, coalescing windows, deliveries, claims, repeats, masks and target
changes.
Log: 87 (PRESUMED), 88 (DEDUCED), 123 (DEDUCED).
-/
namespace Sys2Proof.Machine

/-! ### Sources and targets (R577 to R579) -/

def Mach.irqLevel (m : Mach) (n : Nat) : Bool := m.bit (Reg.IRQ_LEVELw (n / 32)) (n % 32)
def Mach.irqPend (m : Mach) (n : Nat) : Bool := m.bit (Reg.IRQ_PENDw (n / 32)) (n % 32)
def Mach.irqClaimed (m : Mach) (n : Nat) : Bool := m.bit (Reg.IRQ_CLAIMEDw (n / 32)) (n % 32)
def Mach.setLevel (m : Mach) (n : Nat) (v : Bool) : Mach := m.setBit (Reg.IRQ_LEVELw (n / 32)) (n % 32) v
def Mach.setPend (m : Mach) (n : Nat) (v : Bool) : Mach := m.setBit (Reg.IRQ_PENDw (n / 32)) (n % 32) v
def Mach.setClaimed (m : Mach) (n : Nat) (v : Bool) : Mach := m.setBit (Reg.IRQ_CLAIMEDw (n / 32)) (n % 32) v
def Mach.setIrq (m : Mach) (f : Irq → Irq) : Mach := { m with irq := f m.irq }

/-- The word of IRQ_SRCs_TGT in force: the register, or what it held before a staged change (R587). -/
def Mach.tgtWord (m : Mach) (n : Nat) : Word :=
  match m.irq.staged.find? fun p => p.1 == n with
  | some (_, w) => w
  | none => m.rd (Reg.IRQ_SRCs_TGT n)

/-- The group in force of a source. -/
def Mach.irqGrp (m : Mach) (n : Nat) : Nat := fldGet (.IRQ_SRCs_TGT_grp n) (m.tgtWord n)

/-- The target in force of a source. -/
def Mach.irqTarget (m : Mach) (n : Nat) : Target :=
  ⟨fldGet (.IRQ_SRCs_TGT_kind n) (m.tgtWord n) != 0, fldGet (.IRQ_SRCs_TGT_num n) (m.tgtWord n)⟩

/-- A source is enabled. -/
def Mach.irqEn (m : Mach) (n : Nat) : Bool := m.b (.IRQ_SRCs_TGT_en n)

/-- The sources of a list of numbers that a condition holds of. -/
def irqAll (f : Nat → Bool) : List Nat := (List.range 512).filter f

/-! ### Windows (R580) -/

/-- A window opens with a count. -/
def Mach.irqOpen (m : Mach) (e : Env) (g n : Nat) : Mach :=
  (((m.sb (.IRQ_GRPg_STS_open g) true).s (.IRQ_GRPg_STS_count g) n).s (.IRQ_GRPg_STS_elapsed g) 0).setIrq fun x =>
    { x with opened := setAssoc g e.powered x.opened }

/-- The µs a window has been open (800 CORE cycles each), taken from the TIME cycles of 4 ns. -/
def Mach.irqElapsed (m : Mach) (e : Env) (g : Nat) : Nat := (e.powered - assoc e.powered m.irq.opened g) / 250

/-- A source becomes PENDING and opens or counts in a window of its group. -/
def Mach.irqPending (m : Mach) (e : Env) (n : Nat) : Mach :=
  let g := m.irqGrp n
  let m1 := m.setPend n true
  if m1.b (.IRQ_GRPg_STS_open g) then
    (m1.up (.IRQ_GRPg_STS_count g)).s (.IRQ_GRPg_STS_elapsed g) (m1.irqElapsed e g)
  else m1.irqOpen e g 1

/-- The owner of each range of sources: the first source, and the register whose bit 0 is its level; later registers follow (R577, R588). -/
def irqOwners : List (Nat × Nat) :=
  [(0, Reg.HIF_IRQ_STS), (32, Reg.TIME_IRQ_STS), (64, Reg.GNS_IRQ_STS), (96, Reg.FIL_IRQ_STS), (128, Reg.FBK_IRQ_STS0), (160, Reg.FBK_IRQ_STS1),
   (176, Reg.LCH_IRQ_STS), (192, Reg.STR_PL_IRQ_STS), (208, Reg.SLV_IRQ_STS), (224, Reg.STR_IRQ_STS0), (256, Reg.STR_IRQ_STS1),
   (272, Reg.STR_DRN_IRQ_STS), (288, Reg.CAN_IRQ_STS), (320, Reg.DIO_IRQ_STS), (352, Reg.SAF_IRQ_STS), (368, Reg.STK_IRQ_STS),
   (384, Reg.LOG_IRQ_STS), (400, Reg.UPD_IRQ_STS), (416, Reg.IRQ_SWR_SETx 0), (448, Reg.IRQ_SWR_SETx 1), (480, Reg.IRQ_SWR_SETx 2)]

/-- The register and the bit that hold the level of a source at its owner (R89, R124, R161, R202, R252, R297, R336, R377, R398, R428, R455, R489, R530,
R574, R588, R609, R678). -/
def irqOwner (n : Nat) : Nat × Nat := irqOwners.foldl (fun r p => if p.1 ≤ n then (p.2, n - p.1) else r) (Reg.HIF_IRQ_STS, n)

/-- A source is high at its owner: its condition lasts, or has not been served (R577). -/
def Mach.irqHigh (m : Mach) (n : Nat) : Bool := m.bit (irqOwner n).1 (irqOwner n).2

/-- IRQ_SOURCE_RISE (R577, R578): the level that the owner holds arrives in CORE. -/
def execIrqSourceRise (n : Nat) (s : State) : Host.Outcome State Fault Refusal :=
  s.onInst (decide (n < 512)) fun e m =>
    if m.irqLevel n || !m.irqHigh n then m
    else
      let m1 := m.setLevel n true
      if m1.irqEn n && !m1.irqClaimed n then m1.irqPending e n else m1

/-- A claim ends (R578): the source is IDLE and no held message covers it. -/
def Mach.irqUnclaim (m : Mach) (n : Nat) : Mach :=
  (m.setClaimed n false).setIrq fun x =>
    { x with owner := delAssoc n x.owner, sent := delAssoc n x.sent, looked := x.looked.filter fun a => a != n,
             heldMsg := x.heldMsg.map fun p => (p.1, p.2.filter fun a => a != n) }

/-- SPURIOUS_AFTER_CLAIM counts for the source's target and in total (R584). -/
def Mach.irqSpurious (m : Mach) (t : Target) : Mach :=
  (if t.core then m.up (.IRQ_COREc_SPUR_count t.num) else m.up (.IRQ_VECv_SPUR_count t.num)).up
    .IRQ_SPUR_TOT_spurious_after_claim

/-- IRQ_SOURCE_FALL (R577, R578, R584): the owner's level is low, as its condition has ended or been served, and the low level arrives in CORE. -/
def execIrqSourceFall (n : Nat) (s : State) : Host.Outcome State Fault Refusal :=
  s.onInst (decide (n < 512)) fun _ m =>
    if !m.irqLevel n || m.irqHigh n then m
    else
      let m1 := (m.setLevel n false).setPend n false
      if !m1.irqClaimed n then m1
      else
        let m2 := if m1.irq.looked.contains n then m1 else m1.irqSpurious (assoc ⟨false, 0⟩ m1.irq.owner n)
        m2.irqUnclaim n

/-! ### Delivery (R581 to R583) -/

/-- Host messages are discarded (R582): MSI-X disabled, Bus Master Enable clear, or the link down. -/
def Mach.msiLost (m : Mach) : Bool := !m.b .HIF_STS_msix_en || !m.b .HIF_STS_bus_master || !m.b .HIF_STS_link_up

/-- A discarded message: its sources return to PENDING, where they are still high and enabled, and their groups open a window later. -/
def Mach.msiDiscard (m : Mach) (ns : List Nat) : Mach :=
  (ns.foldl (fun (m : Mach) n =>
    ((m.irqUnclaim n).setPend n (m.irqLevel n && m.irqEn n)).setIrq fun x => { x with lost := (x.lost.filter fun a => a != m.irqGrp n) ++ [m.irqGrp n] }) m).sb
    .IRQ_STS_lost_msg true

/-- The vector or the function is masked. -/
def Mach.msiMasked (m : Mach) (v : Nat) : Bool := m.irq.funcMask || m.irq.masked.contains v

/-- A message held covers more sources. -/
def holdMsg (v : Nat) (ns : List Nat) (l : List (Nat × List Nat)) : List (Nat × List Nat) :=
  setAssoc v (assoc [] l v ++ ns.filter fun n => !(assoc [] l v).contains n) l

/-- The message of a vector for claimed sources. -/
def Mach.msiSend (m : Mach) (v : Nat) (ns : List Nat) : Mach :=
  if m.msiLost then m.msiDiscard ns
  else if m.msiMasked v then m.setIrq fun x => { x with heldMsg := holdMsg v ns x.heldMsg }
  else m.emit "MSI" v 1

/-- One delivery to a target for its sources, which become CLAIMED and unlooked. -/
def Mach.irqDeliver (e : Env) (ns : List Nat) (m : Mach) (t : Target) : Mach :=
  let mine := ns.filter fun n => m.irqTarget n == t
  let m1 := (mine.foldl (fun (m : Mach) n => (m.setClaimed n true).setPend n false) m).setIrq fun x =>
    { x with owner := mine.foldl (fun l n => setAssoc n t l) x.owner,
             sent := mine.foldl (fun l n => setAssoc n e.powered l) x.sent, looked := x.looked.filter fun a => !mine.contains a }
  let m2 := m1.upWrap .IRQ_DELIV_CNT_deliveries
  if t.core then m2.emit "CORE" t.num 1 else m2.msiSend t.num mine

/-- The distinct targets of a list of sources. -/
def Mach.irqTargets (m : Mach) (ns : List Nat) : List Target := (ns.map m.irqTarget).eraseDups

/-- Staged changes of the sources of closing groups take effect after the snapshot (R587). -/
def Mach.irqTakeStaged (m : Mach) (gs : List Nat) : Mach :=
  let due := (m.irq.staged.filter fun p => gs.contains (m.irqGrp p.1)).map Prod.fst
  (due.foldl (fun (m : Mach) n => m.sb (.IRQ_SRCs_TGT_stg n) false) m).setIrq fun x =>
    { x with staged := x.staged.filter fun p => !due.contains p.1 }

/-- A group closes. -/
def Mach.irqClose (m : Mach) (g : Nat) : Mach :=
  (m.wr (Reg.IRQ_GRPg_STS g) 0).setIrq fun x => { x with opened := delAssoc g x.opened }

/-- A threshold of an open window is reached (R580, R592: 0 is taken as 1). -/
def Mach.irqDue (m : Mach) (e : Env) (g : Nat) : Bool :=
  m.b (.IRQ_GRPg_STS_open g) && (decide (max 1 (m.g (.IRQ_GRPg_CFG_count_thr g)) ≤ m.g (.IRQ_GRPg_STS_count g))
    || decide (max 1 (m.g (.IRQ_GRPg_CFG_time_thr g)) ≤ m.irqElapsed e g))

/-- The commit of one CORE cycle (R581): every PENDING source of the groups is claimed and delivered to its target in force, the groups close, and staged
targets follow. -/
def Mach.irqCommit (m : Mach) (e : Env) (gs : List Nat) : Mach :=
  let ns := irqAll fun n => m.irqPend n && gs.contains (m.irqGrp n)
  let m1 := (m.irqTargets ns).foldl (Mach.irqDeliver e ns) m
  (gs.foldl Mach.irqClose m1).irqTakeStaged gs

/-- IRQ_WINDOW_COMMIT (R580, R581): the groups of the list whose windows reached a threshold commit in one CORE cycle. -/
def execIrqWindowCommit (gs : List Nat) (s : State) : Host.Outcome State Fault Refusal :=
  s.onInst (gs.all fun g => decide (g < 16)) fun e m => m.irqCommit e (gs.filter fun g => m.irqDue e g)

/-- The groups of discarded messages open their windows once messages pass again (R582): their PENDING sources count. -/
def Mach.msiResume (m : Mach) (e : Env) : Mach :=
  if m.msiLost then m
  else
    (m.irq.lost.foldl (fun (m : Mach) g =>
      let n := (irqAll fun n => m.irqPend n && m.irqGrp n == g).length
      if m.b (.IRQ_GRPg_STS_open g) || n = 0 then m else m.irqOpen e g (min n 255)) m).setIrq fun x => { x with lost := [] }

/-- Held messages whose masks are clear are sent while a source they cover is still CLAIMED (R582). -/
def Mach.msiRelease (m : Mach) : Mach :=
  m.irq.heldMsg.foldl (fun (m : Mach) p =>
    if m.msiMasked p.1 then m
    else
      let m1 := m.setIrq fun x => { x with heldMsg := delAssoc p.1 x.heldMsg }
      let ns := (assoc [] m.irq.heldMsg p.1).filter fun n => m.irqClaimed n
      if ns.isEmpty then m1 else m1.msiSend p.1 ns) m

/-- MSIX_UNMASK: a write of a vector's mask bit in the table of BAR2 (R535, R582). -/
def execMsixUnmask (v : Nat) (mask : Bool) (s : State) : Host.Outcome State Fault Refusal :=
  s.onInst (decide (v < 32)) fun _ m =>
    let others := m.irq.masked.filter fun a => a != v
    let m1 := m.setIrq fun x => { x with masked := if mask then others ++ [v] else others }
    if mask then m1 else m1.msiRelease

/-- A claimed source is due for a repeat: `repeat` ms of TIME cycles have passed since its latest delivery. -/
def Mach.irqRepeatDue (m : Mach) (e : Env) (n : Nat) : Bool :=
  let ms := m.g (.IRQ_GRPg_CFG_repeat (m.irqGrp n))
  m.irqClaimed n && m.irqEn n && ms != 0 && decide (assoc 0 m.irq.sent n + ms * 250000 ≤ e.powered)

/-- IRQ_REPEAT (R585): the sources of the list whose repeat interval ends in one CORE cycle. -/
def execIrqRepeat (ns : List Nat) (s : State) : Host.Outcome State Fault Refusal :=
  s.onInst (ns.all fun n => decide (n < 512)) fun e m =>
    let due := ns.filter fun n => m.irqRepeatDue e n
    (m.irqTargets due).foldl (Mach.irqDeliver e due) m

/-! ### Claims (R584) -/

/-- What a read of IRQ_VECv_CLAIM leaves: the lowest unlooked source of the vector is looked, and the register holds what the read returns. -/
def Mach.vecClaim (m : Mach) (v : Nat) : Mach :=
  match (irqAll fun n => m.irqClaimed n && !m.irq.looked.contains n && assoc ⟨true, 0⟩ m.irq.owner n == ⟨false, v⟩).head? with
  | some n =>
    ((m.setIrq fun x => { x with looked := x.looked ++ [n] }).sb (.IRQ_VECv_CLAIM_valid v) true).s (.IRQ_VECv_CLAIM_source v) n
  | none => m.wr (Reg.IRQ_VECv_CLAIM v) 0

/-- IRQ_VEC_CLAIM_READ. -/
def execIrqVecClaimRead (v : Nat) (s : State) : Host.Outcome State Fault Refusal :=
  s.onInst (decide (v < 32)) fun _ m =>
    let m1 := m.vecClaim v
    m1.emit "READ" (Reg.IRQ_VECv_CLAIM v) (m1.rd (Reg.IRQ_VECv_CLAIM v)).toNat

/-- The claimed sources of a word that no handler has looked at. -/
def Mach.unlookedIn (m : Mach) (w : Nat) : List Nat := irqAll fun n => n / 32 == w && m.irqClaimed n && !m.irq.looked.contains n

/-- IRQ_CLAIMED_READ. -/
def execIrqClaimedRead (w : Nat) (s : State) : Host.Outcome State Fault Refusal :=
  s.onInst (decide (w < 16)) fun _ m =>
    (m.emit "READ" (Reg.IRQ_CLAIMEDw w) (m.rd (Reg.IRQ_CLAIMEDw w)).toNat).setIrq fun x => { x with looked := x.looked ++ m.unlookedIn w }

/-! ### Masking and target changes (R579, R586, R587) -/

/-- The bits of IRQ_SRCs_TGT that aim a source: group, kind and number. -/
def tgtAim : Word := 0x00000F3F

/-- A host write that R579 ignores: to a firmware source, to a core, or to a group of firmware. -/
def irqBadWrite (n : Nat) (v : Word) : Bool := fldGet (.IRQ_SRCs_TGT_kind n) v != 0 || decide (14 ≤ fldGet (.IRQ_SRCs_TGT_grp n) v)

/-- The write of a source's target: aim, then enable. -/
def Mach.irqTgt (m : Mach) (e : Env) (n : Nat) (v : Word) : Mach :=
  let old := m.rd (Reg.IRQ_SRCs_TGT n)
  let en := m.irqEn n
  let new := (old &&& ~~~(0x00010F3F : Word)) ||| (v &&& 0x00010F3F)
  let moved := (old ^^^ new) &&& tgtAim != 0
  let stage := en && moved && m.b (.IRQ_GRPg_STS_open (m.irqGrp n))
  let now := m.tgtWord n
  let m1 := m.wr (Reg.IRQ_SRCs_TGT n) new
  let m2 := if stage then (m1.sb (.IRQ_SRCs_TGT_stg n) true).setIrq fun x => { x with staged := setAssoc n now x.staged }
    else if moved then (m1.sb (.IRQ_SRCs_TGT_stg n) false).setIrq fun x => { x with staged := delAssoc n x.staged }
    else m1
  let en' := m2.irqEn n
  if en && !en' then m2.setPend n false
  else if !en && en' && m2.irqLevel n && !m2.irqClaimed n then m2.irqPending e n
  else m2

/-- IRQ_SRC_TGT_WRITE (R579, R586, R587). -/
def execIrqSrcTgtWrite (n : Nat) (value : Word) (s : State) : Host.Outcome State Fault Refusal :=
  s.onInst (decide (n < 512)) fun e m =>
    if m.b (.IRQ_SRCs_TGT_fw n) then m
    else if irqBadWrite n value then m.sb .IRQ_STS_bad_tgt true
    else m.irqTgt e n value

/-! ### Software-raised sources (R588) -/

/-- IRQ_SWR_SET: both registers show the levels. -/
def execIrqSwrSet (x : Nat) (value : Word) (s : State) : Host.Outcome State Fault Refusal :=
  s.onInst (decide (x < 3)) fun _ m =>
    let v := m.rd (Reg.IRQ_SWR_SETx x) ||| value
    (m.wr (Reg.IRQ_SWR_SETx x) v).wr (Reg.IRQ_SWR_CLRx x) v

/-- IRQ_SWR_CLR. -/
def execIrqSwrClr (x : Nat) (value : Word) (s : State) : Host.Outcome State Fault Refusal :=
  s.onInst (decide (x < 3)) fun _ m =>
    let v := m.rd (Reg.IRQ_SWR_SETx x) &&& ~~~value
    (m.wr (Reg.IRQ_SWR_SETx x) v).wr (Reg.IRQ_SWR_CLRx x) v

/-! ### The host link's resets (R590) -/

/-- A function-level reset, a hot reset or a link-down event. -/
def Mach.irqHostReset (m : Mach) : Mach :=
  let mine := irqAll fun n => !m.b (.IRQ_SRCs_TGT_fw n) && !m.b (.IRQ_SRCs_TGT_kind n)
  let m1 := mine.foldl (fun (m : Mach) n =>
    if m.rd (Reg.IRQ_SRCs_TGT n) = 0 && !m.irqClaimed n && !m.irqPend n then m
    else (((m.sb (.IRQ_SRCs_TGT_en n) false).sb (.IRQ_SRCs_TGT_stg n) false).setPend n false).irqUnclaim n) m
  let m2 := iter 14 (fun g m => (m.wr (Reg.IRQ_GRPg_CFG g) (resetOf (Reg.IRQ_GRPg_CFG g))).irqClose g) m1
  m2.setIrq fun x => { x with staged := x.staged.filter fun p => !mine.contains p.1, masked := List.range 32, funcMask := false,
                              heldMsg := [], lost := [] }

end Sys2Proof.Machine
end

