-- ==== Sys2Proof/Machine/Hif.lean ====
section
/-!
DEFINITION. The host link (chapter 15): the endpoint, queues, the doorbell poll, fetching, and the commands on rings and general
state.
Log: 39 (DEDUCED), 54 (DEDUCED), 85 (DEDUCED), 86 (DEDUCED), 121 (DESIGN CHOICE).
-/
namespace Sys2Proof.Machine

/-! ### The host link (R533 to R536) -/

/-- A reset or link change of R536 raises source 29. -/
def Mach.hifChange (m : Mach) : Mach := m.setBit Reg.HIF_IRQ_STS 29 true

/-- HIF_LINK: up or down, speed, width, reset seen. The return after a failure of the HIF domain is an ALARM (R37). -/
def Mach.hifLinkEvent (m : Mach) (e : Env) (up : Bool) : Mach :=
  let m1 := if up then { m with hif := { m.hif with lost := false } } else m
  m1.event e 0x0103 (some (if !up then 3 else if m.hif.lost then 4 else 2))
    (le 1 (if up then 1 else 0) ++ le 1 (m.g .HIF_PCIE_STS_speed) ++ le 1 (m.g .HIF_PCIE_STS_width) ++ le 1 (m.g .HIF_STS_flr))

/-- The registers of the HIF block proper take their reset values; those of the Ethernet ports, which only NET_CFG and the configuration image
change (R576), stay. -/
def hifRegsReset (l : List (Nat × Word)) : List (Nat × Word) := l.filter fun p => decide (p.1 < 0x10000) || decide (0x10800 ≤ p.1)

/-- R536: every queue is disabled and the HIF block takes its reset values; commands fetched run on, and their completions are discarded. -/
def Mach.hifReset (m : Mach) : Mach :=
  let h := m.hif
  let r := Hif.reset
  { m with regs := hifRegsReset m.regs,
           hif := { h with sq := r.sq, cq := r.cq, eq := r.eq, stq := r.stq, turn := r.turn, prog := h.prog.map fun p => { p with dead := true } } }

/-- The host link is reset: `link` whether it stays trained, `master` whether Bus Master Enable stays set, `msix` whether MSI-X stays enabled. -/
def Mach.hostReset (m : Mach) (link master msix : Bool) : Mach :=
  let m1 := m.hifReset.hifChange.sb .HIF_STS_flr true
  let m2 := if link then (m1.wr Reg.HIF_PCIE_STS (m.rd Reg.HIF_PCIE_STS)).s .HIF_STS_link_up (m.g .HIF_STS_link_up) else m1
  (m2.sb .HIF_STS_bus_master master).sb .HIF_STS_msix_en msix

/-- HOST_LINK_RESET (R536, R590): kind 0 function-level reset, 1 hot reset, 2 link-down, 3 clear of Bus Master Enable. -/
def execHostLinkReset (kind : Nat) (s : State) : Host.Outcome State Fault Refusal :=
  s.onInst (decide (kind < 4)) fun e m =>
    match kind with
    | 0 => (m.hostReset true false false).irqHostReset
    | 3 => m.hostReset true false (m.b .HIF_STS_msix_en)
    | _ =>
      let m1 := (m.hostReset false false false).irqHostReset
      if m.b .HIF_STS_link_up then m1.hifLinkEvent e false else m1

/-- HOST_LINK_UP: the link trains at a speed and width (R533, R576). -/
def execHostLinkUp (speed width : Nat) (s : State) : Host.Outcome State Fault Refusal :=
  s.act fun e m =>
    let m1 := ((m.sb .HIF_STS_link_up true).s .HIF_PCIE_STS_speed speed).s .HIF_PCIE_STS_width width
    (m1.hifChange.hifLinkEvent e true).msiResume e

/-- PCIE_CONFIG_WRITE (R536, R576, R582): Bus Master Enable, MSI-X enable and function mask, and the Device Control codes in force. Held messages
and lost windows go on. -/
def execPcieConfigWrite (master msix fmask : Bool) (mps mrrs : Nat) (s : State) : Host.Outcome State Fault Refusal :=
  s.act fun e m =>
    let was := m.b .HIF_STS_bus_master
    let m1 := if was && !master then m.hostReset true false msix
      else if !was && master then (m.sb .HIF_STS_bus_master true).hifChange else m
    let m2 := ((m1.sb .HIF_STS_msix_en msix).s .HIF_PCIE_STS_mps mps).s .HIF_PCIE_STS_mrrs mrrs
    let m3 := m2.setIrq fun x => { x with funcMask := fmask }
    m3.msiRelease.msiResume e

/-- BAR0_BAD_ACCESS (R534): the write is ignored, or the read returns all ones. -/
def execBar0BadAccess (s : State) : Host.Outcome State Fault Refusal := s.act fun _ m => m.sb .HIF_STS_bad_access true

/-! ### Queues (R537 to R543) -/

/-- Both page bases are set (R542, R576); the low bits of a base are reserved, so it is aligned. -/
def Mach.pagesSync (m : Mach) : Mach :=
  m.sb .HIF_STS_pages_ok (m.rd64 Reg.HIF_DB_BASE_LO Reg.HIF_DB_BASE_HI != 0 && m.rd64 Reg.HIF_SH_BASE_LO Reg.HIF_SH_BASE_HI != 0)

/-- A queue's level bit in HIF_IRQ_STS (R574). -/
def Mach.levelBit (m : Mach) (t : QType) (n : Nat) (v : Bool) : Mach :=
  match t with
  | .sq => m
  | .cq => m.setBit Reg.HIF_IRQ_STS n v
  | .eq => m.setBit Reg.HIF_IRQ_STS (16 + n) v
  | .stq => m

/-- The cause that refuses an enable (R542); 0 none. -/
def Mach.enableCode (m : Mach) (t : QType) (n : Nat) : Nat :=
  let k := m.g (qK t n)
  if k < 4 || 16 < k then 1
  else if m.rd64 (t.base n) (t.base n + 4) = 0 then 2
  else if !m.b .HIF_STS_pages_ok then 3
  else if t = .sq && !m.b (qEn .cq (m.g (.HIF_SQq_CFG_cq n))) then 4 else 0

/-- An accepted enable: both indices 0 with phase 0. The sequence numbers of events and records run on, and entries stay reserved for the
commands still in progress. -/
def Mach.queueOpen (m : Mach) (t : QType) (n : Nat) : Mach :=
  let r := m.ring t n
  let held := match t with | .cq => (m.hif.prog.filter fun p => p.cq == n && !p.dead).length | _ => 0
  ((((m.s (qCode t n) 0).sb (qErr t n) false).sb (qStall t n) false).setRing t n { Ring.empty with seq := r.seq, reserved := held }).levelBit t n
    false

/-- A write of a queue's CFG register (R542, R543, R575). -/
def Mach.queueWrite (m : Mach) (t : QType) (n : Nat) (v : Word) : Mach :=
  let was := m.b (qEn t n)
  let on := v.toNat % 2 == 1
  let bound := t == .cq && (List.range 16).any fun q => m.b (.HIF_SQq_CFG_en q) && m.g (.HIF_SQq_CFG_cq q) == n
  if was && !on && bound then m.s (qCode t n) 8
  else
    let m1 := m.hostPut false (!was) (qCfg t n) v
    if !was && on then
      let c := m1.enableCode t n
      if c = 0 then m1.queueOpen t n else (m1.sb (qEn t n) false).s (qCode t n) c
    else if was && !on then m1.levelBit t n false
    else m1

/-- The queue types in the order of their codes. -/
def qTypeOf : Nat → QType
  | 0 => .sq | 1 => .cq | 2 => .eq | _ => .stq

/-- QUEUE_ENABLE (R542). -/
def execQueueEnable (typ n : Nat) (value : Word) (s : State) : Host.Outcome State Fault Refusal :=
  s.onInst (decide (typ < 4) && decide (n < (qTypeOf typ).count)) fun _ m => m.queueWrite (qTypeOf typ) n (value ||| 1)

/-- QUEUE_DISABLE (R543). -/
def execQueueDisable (typ n : Nat) (value : Word) (s : State) : Host.Outcome State Fault Refusal :=
  s.onInst (decide (typ < 4) && decide (n < (qTypeOf typ).count)) fun _ m => m.queueWrite (qTypeOf typ) n (value &&& ~~~1)

/-! ### Polling (R544 to R548, R561, R562) -/

/-- A queue error stops a queue (R548). -/
def Mach.queueError (m : Mach) (e : Env) (t : QType) (n code : Nat) : Mach :=
  ((((m.sb (qErr t n) true).s (qCode t n) code).up .HIF_ERR_CNT_q_err).setBit Reg.HIF_IRQ_STS 28 true).event e 0x0101 (some 3)
    (le 1 t.code ++ le 1 n ++ le 1 code)

/-- The entries kept once those in front are consumed, `used` slots remaining. -/
def dropUsed (used : Nat) : List Held → List Held
  | [] => []
  | h :: l => if used ≤ (l.map Held.slots).sum then dropUsed used l else h :: l

/-- A doorbell word's index and phase as a number modulo 2^(k+1) (R539, R540). -/
def doorIndex (size w : Nat) : Nat := w % 65536 + w / 65536 % 2 * size

/-- The doorbell word of a queue, judged (R548) and taken. -/
def Mach.pollQueue (m : Mach) (e : Env) (t : QType) (n : Nat) (w : Option Nat) : Mach :=
  if !m.ringOpen t n then m
  else match w with
    | none => m.queueError e t n 7
    | some w =>
      let size := m.ringSize t n
      let r := m.ring t n
      let host := doorIndex size w
      let count := if t = .sq then ringCount size host r.mod_ else ringCount size r.mod_ host
      if size ≤ w % 65536 then m.queueError e t n 5
      else if size < count then m.queueError e t n 6
      else m.setRing t n { r with host := host, held := if t = .sq then r.held else dropUsed count r.held }

/-- The entries of an SQ not fetched. -/
def Mach.sqCount (m : Mach) (q : Nat) : Nat := let r := m.ring .sq q; ringCount (m.ringSize .sq q) r.host r.mod_

/-- A CQ has a free entry to reserve (R549). -/
def Mach.cqRoom (m : Mach) (n : Nat) : Bool :=
  m.ringOpen .cq n && decide (m.ringUsed .cq n + (m.ring .cq n).reserved < m.ringSize .cq n)

/-- STQ j meets R561. -/
def Mach.stqHigh (m : Mach) (e : Env) (j : Nat) : Bool :=
  let wm := m.g (.HIF_STQj_CFG_wm j)
  let age := m.g (.HIF_STQj_CFG_age j)
  m.b (qEn .stq j) && ((wm != 0 && decide (wm * m.ringSize .stq j ≤ 16 * m.ringUsed .stq j))
    || (age != 0 && (match (m.ring .stq j).held with | h :: _ => decide (h.at_.toNs + age * 1000000 < e.ns) | [] => false)))

/-- The levels of the queues as a poll leaves them (R561, R562). -/
def Mach.pollLevels (m : Mach) (e : Env) : Mach :=
  let lv (t : QType) (n : Nat) (m : Mach) : Mach := m.levelBit t n (m.b (qEn t n) && m.ringUsed t n != 0)
  let m1 := iter 8 (lv .eq) (iter 16 (lv .cq) m)
  let m2 := iter 4 (fun g m => m.setBit Reg.HIF_IRQ_STS (24 + g) ((List.range 4).any fun i => m.stqHigh e (4 * g + i))) m1
  iter 16 (fun q m => m.sb (qStall .sq q) (m.ringOpen .sq q && m.sqCount q != 0 && !m.cqRoom (m.g (.HIF_SQq_CFG_cq q)))) m2

/-- Commands in progress, or entries not consumed (R544). -/
def Mach.hifBusy (m : Mach) : Bool :=
  let any (t : QType) : Bool := (List.range t.count).any fun n => m.ringOpen t n && m.ringUsed t n != 0
  !m.hif.prog.isEmpty || any .cq || any .eq || any .stq

/-- The poll interval (R544): poll_min, or doubled up to poll_max. -/
def Mach.pollNext (m : Mach) (changed : Bool) : Mach :=
  let lo := m.g .HIF_POLL_poll_min
  m.s .HIF_POLL_cur (if changed || m.hifBusy then lo else max lo (min (2 * m.g .HIF_POLL_cur) (max lo (m.g .HIF_POLL_poll_max))))

/-- The reads of the doorbell page that failed, at the read size in force. -/
def Mach.failedReads (m : Mach) (ws : List (Option Nat)) : Nat :=
  let size := 128 * 2 ^ m.g .HIF_PCIE_STS_mrrs
  (((List.range 56).filter fun i => ws.getD i none == none).map fun i => 8 * i / size).eraseDups.length

/-- The queue whose doorbell word is word i of the page (R538). -/
def doorQueue (i : Nat) : QType × Nat :=
  if i < 16 then (.sq, i) else if i < 32 then (.cq, i - 16) else if i < 40 then (.eq, i - 32) else (.stq, i - 40)

/-- A doorbell word differs from the one last read. -/
def Mach.doorChanged (m : Mach) (i : Nat) (w : Option Nat) : Bool :=
  let q := doorQueue i
  match w with
  | some w => m.ringOpen q.1 q.2 && (m.ring q.1 q.2).host != doorIndex (m.ringSize q.1 q.2) w
  | none => false

/-- The copies of serial frames and CAN records that wait reach their stream queues (R154, R420). -/
def Mach.pollStreams (m : Mach) (e : Env) : Mach :=
  iter 4 (fun c m => (m.canDrain e c 0).canDrain e c 1) (iter 8 (fun p m => m.spDrain e p) m)

/-- A poll of the doorbell page can be made: the page is set and reached, and the interval in force has passed since the last one (R544). -/
def Mach.pollDue (m : Mach) (e : Env) : Bool :=
  m.b .HIF_STS_pages_ok && m.b .HIF_STS_bus_master && m.b .HIF_STS_link_up
    && decide (m.hif.polled + m.g .HIF_POLL_cur * 250 ≤ e.powered)

/-- DOORBELL_POLL (R544): the 56 words of the page in its order, `none` where the read failed. -/
def execDoorbellPoll (words : List (Option Nat)) (s : State) : Host.Outcome State Fault Refusal :=
  s.act fun e m =>
    if !m.pollDue e then m
    else
      let word (i : Nat) : Option Nat := words.getD i none
      let changed := (List.range 56).any fun i => m.doorChanged i (word i)
      let bad := m.failedReads words
      let m1 := if bad = 0 then m else (m.addSat .HIF_ERR_CNT_rd_err bad).sb .HIF_STS_host_rd_err true
      let m2 := iter 56 (fun i m => m.pollQueue e (doorQueue i).1 (doorQueue i).2 (word i)) m1
      let m3 := iter 16 (fun j m => m.tellGap e j) (iter 8 (fun q m => m.tellDrops e q) m2)
      let m4 := ((m3.pollStreams e).pollLevels e).pollNext changed
      { m4 with hif := { m4.hif with polled := e.powered } }

/-! ### Fetching (R549 to R553) -/

/-- The opcodes that a command table assigns (R553, R711). -/
def assigned (op : Nat) : Bool :=
  let i (a b : Nat) : Bool := decide (a ≤ op) && decide (op ≤ b)
  i 0x01 0x09 || i 0x10 0x17 || i 0x20 0x27 || i 0x30 0x3E || i 0x40 0x49 || i 0x50 0x5D || i 0x60 0x66 || i 0x68 0x7F || i 0x80 0x85
    || i 0x88 0x8E || i 0x90 0x96 || i 0xA0 0xA8 || i 0xB0 0xB7

/-- The block an opcode belongs to (R711). -/
def blockOfOp (op : Nat) : Nat :=
  if op < 0x10 then 0 else if op < 0x20 then 3 else if op < 0x30 then 12 else if op < 0x38 then 8 else if op < 0x40 then 7
  else if op < 0x50 then 6 else if op < 0x58 then 4 else if op < 0x60 then 5 else if op < 0x70 then 4 else if op < 0x78 then 9
  else if op < 0x80 then 10 else if op < 0x88 then 11 else if op < 0x90 then 15 else if op < 0xA0 then 13 else if op < 0xB0 then 14 else 16

/-- An SQ holds a command that can be fetched: its completion has room in the bound CQ. -/
def Mach.sqReady (m : Mach) (q : Nat) : Bool := m.ringOpen .sq q && m.sqCount q != 0 && m.cqRoom (m.g (.HIF_SQq_CFG_cq q))

/-- The priority class served now: prio 0 before prio 1. -/
def Mach.sqClass (m : Mach) : Nat := if (List.range 16).any fun q => m.sqReady q && !m.b (.HIF_SQq_CFG_prio q) then 0 else 1

/-- The SQ whose command is fetched next (R549): its turn goes on up to 8 commands, then the next one of the class that has any. -/
def Mach.sqServed (m : Mach) : Option Nat :=
  let cl := m.sqClass
  let ready (q : Nat) : Bool := m.sqReady q && m.g (.HIF_SQq_CFG_prio q) == cl
  let (last, n) := nth (15, 8) m.hif.turn cl
  if n < 8 && ready last then some last else ((List.range 16).map fun i => (last + 1 + i) % 16).find? ready

/-- A command is taken from SQ q in its turn. -/
def Mach.sqTaken (m : Mach) (q : Nat) : Mach :=
  let cl := m.sqClass
  let (last, n) := nth (15, 8) m.hif.turn cl
  { m with hif := { m.hif with turn := upd m.hif.turn cl fun _ => (q, if last = q && n < 8 then n + 1 else 1) } }

/-- A host memory access failed. -/
def Mach.hostReadFail (m : Mach) : Mach := (m.up .HIF_ERR_CNT_rd_err).sb .HIF_STS_host_rd_err true

/-- COMMAND_FETCH (R549): it is the turn of SQ q; the entry at the consumer index of SQ q, with its opcode, or none where the read failed. The command itself is a row of its own, which
follows once the ordering of R550 lets it start; an opcode that no table assigns completes here. -/
def execCommandFetch (q : Nat) (entry : Option (Nat × Cmd)) (s : State) : Host.Outcome State Fault Refusal :=
  s.onInst (decide (q < 16)) fun e m =>
    let n := m.g (.HIF_SQq_CFG_cq q)
    if !m.ringOpen .sq q || m.sqCount q = 0 || 256 ≤ m.hif.prog.length then m
    else if !m.cqRoom n then m.sb (qStall .sq q) true
    else if m.sqServed != some q then m
    else match entry with
      | none => m.hostReadFail.queueError e .sq q 7
      | some (op, c0) =>
        let c := { c0 with path := .queue q }
        let r := m.ring .sq q
        let size := m.ringSize .sq q
        let next := (r.mod_ + 1) % (2 * size)
        let cr := m.ring .cq n
        let m1 := (((m.sqTaken q).setRing .sq q { r with mod_ := next }).setRing .cq n { cr with reserved := cr.reserved + 1 }).sb (qStall .sq q) false
        let p : Prog := ⟨q, c.cid, op, next % size, n, c.fence, false⟩
        let m2 := (({ m1 with hif := { m1.hif with prog := m1.hif.prog ++ [p] } } : Mach).sqSync q).storeShadow .sq q e.now
        if assigned op then m2 else m2.complete e op c stUnsupported [] []

/-! ### General commands on state and rings (R563, R564) -/

def execNop (c : Cmd) (s : State) : Host.Outcome State Fault Refusal := s.act (runCmd 0x01 c false true fun _ m => .ok m)

def execGenIdentify (c : Cmd) (s : State) : Host.Outcome State Fault Refusal :=
  s.act (runCmd 0x02 c false true fun e m =>
    let mac (n : Nat) : List Byte := (le 6 (e.vault.mac + n)).reverse
    let data := m.words 0 4 ++ le 16 Config.serial.toNat ++ le 4 (m.rd Reg.UPD_VER_MAIN).toNat ++ le 4 (m.rd Reg.SAF_VER).toNat
      ++ le 4 (m.rd Reg.UPD_VER_GNSS).toNat ++ le 1 e.vault.life ++ le 1 m.pos ++ le 2 0 ++ mac 0 ++ mac 1 ++ le 2 0x1F3C ++ le 2 0x0980 ++ le 64 0
    .done m stOk [] data)

def execGenStateGet (c : Cmd) (s : State) : Host.Outcome State Fault Refusal :=
  s.act (runCmd 0x03 c false true fun e m =>
    .done m stOk (le 1 m.state ++ le 1 m.role ++ le 1 e.vault.life ++ le 1 0 ++ m.words Reg.GEN_CYC_LO 1 ++ m.words Reg.GEN_CYC_HI 1) [])

/-- GEN_RESET: the reset follows 10 ms later (RESET_DELAY_EXPIRE); accepted in MAINT, it clears the attempt counter (R617). -/
def execGenReset (c : Cmd) (s : State) : Host.Outcome State Fault Refusal :=
  s.act fun e m => runCmd 0x04 c e.isSealed false (fun e m =>
    let k := c.u8 0
    if k != 1 && k != 2 then m.fail stRange
    else if c.u8 1 % 2 = 0 && m.role = 0 && !m.b .STK_STS_peer_ok then m.fail stState
    else
      let left := if m.state = 5 then 0 else m.boot.attempts
      .ok { m with boot := { m.boot with restart := some (k == 1, if k = 1 then 4 else 3), restartAt := e.powered + 2500000, attempts := left } }) e m

def execHifStatusGet (c : Cmd) (s : State) : Host.Outcome State Fault Refusal :=
  s.act (runCmd 0x09 c false true fun _ m =>
    let sts (t : QType) : List Byte := (List.range t.count).flatMap fun n => le 4 (m.rd (qSts t n)).toNat
    .done m stOk [] (m.words Reg.HIF_STS 10 ++ sts .sq ++ sts .cq ++ sts .eq ++ sts .stq))

/-! ### Host writes (R575, R576) -/

/-- HIF_POLL's ranges, 1 to 100. -/
def Mach.pollClamp (m : Mach) : Mach :=
  (m.s .HIF_POLL_poll_min (max 1 (min 100 (m.g .HIF_POLL_poll_min)))).s .HIF_POLL_poll_max (max 1 (min 100 (m.g .HIF_POLL_poll_max)))

/-- The queue whose registers hold an offset, and whether it is the CFG register. -/
def queueAt (off : Nat) : Option (QType × Nat × Bool) :=
  if off < 0x10100 || 0x10500 ≤ off then none
  else
    let t : QType := if off < 0x10200 then .sq else if off < 0x10300 then .cq else if off < 0x10400 then .eq else .stq
    let n := off % 0x100 / 0x10
    if t.count ≤ n then none else some (t, n, off % 0x10 == 8)

/-- A host write of a HIF register. -/
def Mach.hifWrite (m : Mach) (off : Nat) (v : Word) : Mach :=
  match queueAt off with
  | some (t, n, true) => m.queueWrite t n v
  | some (t, n, false) => m.hostPut false (!m.b (qEn t n)) off v
  | none =>
    let idle := [QType.sq, .cq, .eq, .stq].all fun t => (List.range t.count).all fun n => !m.b (qEn t n)
    let m1 := m.hostPut false idle off v
    if off = Reg.HIF_POLL then m1.pollClamp else m1.pagesSync

end Sys2Proof.Machine
end

