-- ==== Sys2Proof/Machine/SafCfg.lean ====
section
/-!
DEFINITION. The safety configuration (R483 to R485): its records, the checks of an image, and its application by the island.
Log: 79 (PRESUMED).
-/
namespace Sys2Proof.Machine

/-- Bytes of a record, little-endian. -/
def rb (r : List Byte) (i : Nat) : Nat := (r.getD i 0).toNat
def rh (r : List Byte) (i : Nat) : Nat := unle ((r.drop i).take 2)
def rw (r : List Byte) (i : Nat) : Word := BitVec.ofNat 32 (unle ((r.drop i).take 4))

/-- The record count of an image. -/
def scfgCount (l : List Byte) : Nat := rh l 6

/-- Record i of an image. -/
def scfgRec (l : List Byte) (i : Nat) : List Byte := (l.drop (32 + 32 * i)).take 32

/-- The records of an image. -/
def scfgRecs (l : List Byte) : List (List Byte) := (List.range (scfgCount l)).map (scfgRec l)

/-- The record of a type and instance. -/
def scfgFind (l : List (List Byte)) (typ inst : Nat) : Option (List Byte) := l.find? fun r => rb r 0 == typ && rb r 1 == inst

/-- The island's records in force: none without an accepted configuration. -/
def Saf.recs (x : Saf) : List (List Byte) := match x.cfg with | some l => scfgRecs l | none => []

/-- The bytes a record type lists, and how many instances it has (R483). -/
def scfgUsed : Nat → List (Nat × Nat) × Nat
  | 1 => ([(2, 4)], 1)
  | 2 => ([(2, 7)], 8)
  | 3 => ([(2, 3)], 4)
  | 4 => ([(2, 6), (8, 25), (28, 31)], 8)
  | 5 => ([(2, 8), (10, 21), (24, 27)], 16)
  | 6 => ([(2, 21)], 16)
  | 7 => ([(2, 4), (6, 10), (12, 21)], 16)
  | _ => ([], 0)

/-- Whether byte i of a record of a type is listed. -/
def scfgListed (typ i : Nat) : Bool := decide (i < 2) || (scfgUsed typ).1.any fun p => decide (p.1 ≤ i) && decide (i ≤ p.2)

/-- The layout of a record is right. -/
def scfgRecOk (r : List Byte) : Bool :=
  let typ := rb r 0
  decide (1 ≤ typ) && decide (typ ≤ 7) && decide (rb r 1 < (scfgUsed typ).2)
    && (List.range 32).all fun i => scfgListed typ i || rb r i == 0

/-- No two records share type and instance. -/
def scfgDistinct : List (List Byte) → Bool
  | [] => true
  | r :: l => (l.all fun q => !(rb q 0 == rb r 0 && rb q 1 == rb r 1)) && scfgDistinct l

/-- The layout checks of R484, after length, CRC and signature. -/
def scfgLayout (l : List Byte) : Bool :=
  let n := scfgCount l
  unle (l.take 4) == 0x47464353 && rh l 4 == 1 && decide (1 ≤ n) && decide (n ≤ 53) && ((l.drop 16).take 16).all (· == 0)
    && (scfgRecs l).all scfgRecOk && scfgDistinct (scfgRecs l)

/-- A number lies within a range. -/
def within (lo hi x : Nat) : Bool := decide (lo ≤ x) && decide (x ≤ hi)

/-- The ranges of an input record (R462 to R464, R484). -/
def scfgInput (r : List Byte) : Bool :=
  let mode := rb r 2
  let a := rb r 3
  let b := rb r 4
  match mode with
  | 0 => true
  | 1 => within 1 50 (rb r 5) && within 1 4 a && within 1 4 b && a != b
  | 2 => within 1 50 (rb r 5) && within 1 4 a && within 10 2000 (rh r 6)
  | 3 => within 2 50 (rb r 5) && within 10 2000 (rh r 6)
  | 4 => within 2 50 (rb r 5) && within 10 2000 (rh r 6)
  | _ => false

/-- The word length of a tap: INC, or SSI of 8 to 48 bits. -/
def tapBits (n : Nat) : Bool := n == 0 || within 8 48 n

/-- The ranges of an axis record (R469, R470). -/
def scfgAxis (r : List Byte) : Bool :=
  let b := rb r 3
  decide (rb r 2 ≤ 11) && (decide (b ≤ 11) || within 0x80 0x8F b) && b != rb r 2 && tapBits (rb r 4) && tapBits (rb r 5)
    && decide (rb r 6 ≤ 15) && within 1 1000 (rh r 24)

/-- A request source (R471). -/
def scfgSource (r : List Byte) : Bool :=
  match rb r 4 with
  | 0 => true
  | 1 => decide (rb r 5 ≤ 7)
  | 2 => decide (rb r 5 ≤ 15) && decide (rb r 6 ≤ 31)
  | _ => false

/-- The rules of R484 that one record must pass beside the others. -/
def scfgRule (l : List (List Byte)) (r : List Byte) : Bool :=
  match rb r 0 with
  | 1 => rb r 2 == 0 || (rb r 2 == 1 && decide (rb r 3 ≤ 15) && decide (rb r 4 ≤ 31))
  | 2 => scfgInput r
  | 3 => decide (rb r 2 ≤ 2) && decide (rb r 3 ≤ 1)
  | 4 => scfgAxis r
  | 5 =>
    let axis := rb r 3
    within 1 3 (rb r 2) && scfgSource r && decide (rb r 7 ≤ 3) && decide (rh r 20 ≤ 1000)
      && (axis == 0xFF || (scfgFind l 4 axis).isSome) && !((rb r 2 == 3 || rb r 7 / 2 % 2 == 1) && axis == 0xFF)
      && (scfgFind l 6 (rb r 1)).isNone
  | 6 =>
    within 4 6 (rb r 2) && scfgSource r && (scfgFind l 4 (rb r 3)).isSome && (scfgFind l 5 (rb r 7)).isSome
      && decide (rh r 20 ≤ 1000) && (rb r 2 != 6 || rw r 8 == 0x3F800000 || rw r 8 == 0xBF800000)
  | _ =>
    match rb r 2 with
    | 0 => true
    | 1 => decide (rb r 3 ≤ 2) && decide (rb r 4 ≤ 7) && within 2 500 (rh r 6) && within 5 2000 (rh r 8) && within 1 50 (rb r 10)
    | 2 => decide (rb r 3 ≤ 2) && decide (rb r 4 ≤ 7) && within 2 500 (rh r 6) && within 5 2000 (rh r 8) && within 1 50 (rb r 10)
    | _ => false

/-- The rules of R484. -/
def scfgRules (l : List (List Byte)) : Bool := l.all (scfgRule l)

/-! ### The island's parts -/

def Mach.setSaf (m : Mach) (f : Saf → Saf) : Mach := { m with saf := f m.saf }

def Saf.siRec (x : Saf) (n : Nat) : Option (List Byte) := scfgFind x.recs 2 n
def Saf.soRec (x : Saf) (n : Nat) : Option (List Byte) := scfgFind x.recs 3 n
def Saf.axRec (x : Saf) (n : Nat) : Option (List Byte) := scfgFind x.recs 4 n
def Saf.fnRec (x : Saf) (n : Nat) : Option (List Byte) := scfgFind x.recs 5 n
def Saf.monRec (x : Saf) (n : Nat) : Option (List Byte) := scfgFind x.recs 6 n
def Saf.connRec (x : Saf) (n : Nat) : Option (List Byte) := scfgFind x.recs 7 n

def Saf.sin (x : Saf) (n : Nat) : SafIn := nth SafIn.reset x.si n
def Saf.sout (x : Saf) (n : Nat) : SafOut := nth SafOut.reset x.so n
def Saf.axis (x : Saf) (n : Nat) : SafAx := nth SafAx.reset x.ax n
def Saf.func (x : Saf) (n : Nat) : SafFn := nth SafFn.reset x.fn n
def Saf.kon (x : Saf) (n : Nat) : SafConn := nth SafConn.reset x.conn n

/-- A remote bit of a consumed connection: 0 while it has accepted nothing and in SAFE (R478, R479). -/
def Saf.connBit (x : Saf) (k i : Nat) : Bool :=
  let c := x.kon k
  (c.state == 1 || c.state == 2) && c.bits.testBit i

/-- A request source shows 0; without a source it never does. -/
def Saf.srcLow0 (x : Saf) (r : List Byte) : Bool :=
  match rb r 4 with
  | 1 => !(x.sin (rb r 5)).value
  | 2 => !x.connBit (rb r 5) (rb r 6)
  | _ => false

/-- An output has a latched fault. -/
def SafOut.bad (o : SafOut) : Bool := o.edm || o.test || o.overload

/-- An output is in a mask. -/
def maskHas (mask n : Nat) : Bool := mask.testBit n

/-- The causes that demand a stop function now (R471), lowest code first. -/
def Saf.demands (x : Saf) (f : Nat) (r : List Byte) : List Nat :=
  let when_ (b : Bool) (c : Nat) : List Nat := if b then [c] else []
  when_ (rb r 4 == 1 && x.srcLow0 r) 1 ++ when_ (x.host.testBit f) 2 ++ when_ (rb r 4 == 2 && x.srcLow0 r) 3
    ++ when_ ((List.range 16).any fun i => match x.monRec i with
        | some q => rb q 7 == f && (x.func i).state == 7
        | none => false) 4
    ++ when_ (rb r 3 != 0xFF && (x.axis (rb r 3)).fault) 5
    ++ when_ ((List.range 4).any fun n => maskHas (rb r 8 % 16) n && (x.sout n).bad) 7
    ++ when_ x.low 11

/-! ### The application's side of the island -/

/-- A fault enters the island's log of 64 entries, newest first (R487). -/
def Mach.safLog (m : Mach) (e : Env) (code inst what : Nat) : Mach :=
  m.setSaf fun x => { x with log := (⟨code, inst, what, e.poweredSec⟩ :: x.log).take 64 }

/-- A function changes state, with its cause (R472, R488). -/
def Mach.fnMove (m : Mach) (e : Env) (f new cause : Nat) : Mach :=
  let old := (m.saf.func f).state
  let m1 := m.setSaf fun x => { x with fn := upd x.fn f fun a => { a with state := new, cause := cause } }
  (m1.safIrq (if 5 ≤ new then 5 else 4)).event e 0x8005 (some 6) (le 1 f ++ le 1 old ++ le 1 new ++ le 1 cause)

/-- Both switches of an output turn on or off (R466). -/
def Mach.soSwitch (m : Mach) (n : Nat) (on : Bool) (wait : Bool) : Mach :=
  if (m.saf.sout n).on = on then m
  else (m.setSaf fun x => { x with so := upd x.so n fun o =>
      { o with on := on, wait := if wait then some 1200 else none, hot := 0 } }).emit "SO" n (if on then 1 else 0)

/-- An output's mirror contact is watched. -/
def Saf.edmEn (x : Saf) (n : Nat) : Bool := match x.soRec n with | some r => rb r 3 == 1 | none => false

/-- Every safety output goes off. -/
def Mach.soAllOff (m : Mach) : Mach := iter 4 (fun n m => m.soSwitch n false (m.saf.edmEn n)) m

/-- The island changes state (R460, R488); in SAFE its outputs are off, and the module is in SAFE_HALT. -/
def Mach.setIsland (m : Mach) (e : Env) (new : Nat) : Mach :=
  let old := m.saf.state
  if old = new then m
  else
    let m1 := ((m.setSaf fun x => { x with state := new }).safIrq 0).event e 0x8001 (some (if new = 3 then 7 else 6)) (le 1 old ++ le 1 new)
    if new = 3 then (((m1.safLog e 0x8001 0 3).soAllOff.setPermit e false 0).safeHalt e 2) else m1.lineCheck e

/-- The object of a connection on CAN 3 and CAN 4 is set up (R477); its identifier has the layout of OBJo_ID (R404, R430). -/
def Mach.safObj (m : Mach) (k : Nat) (r : List Byte) : Mach :=
  if rb r 2 = 0 || rb r 3 = 0 then m
  else
    let o := 112 + k
    let id := (rw r 16).toNat
    iter 4 (fun c m =>
      if !m.canSafe c o then m
      else
        let m1 := m.wr (Reg.CAN_c_OBJo_CFG c o) (BitVec.ofNat 32 (13 * 256 + 4 + (if rb r 2 = 1 then 2 else 0) + 1))
        (m1.s (.CAN_c_OBJo_ID_id c o) (id % 2 ^ 29)).sb (.CAN_c_OBJo_ID_ide c o) (id.testBit 29)) m

/-- The state a function starts in at boot or acceptance (R485). -/
def Mach.fnStart (m : Mach) (e : Env) (f : Nat) : Mach :=
  let m0 := m.setSaf fun x => { x with fn := upd x.fn f fun _ => SafFn.reset }
  match m0.saf.fnRec f with
  | some r =>
    let d := !(m0.saf.demands f r).isEmpty
    (m0.fnMove e f (if d then 3 else 4) 10).setSaf fun x => { x with fn := upd x.fn f fun a => { a with dem := d, seen := d } }
  | none => if (m0.saf.monRec f).isSome then m0.fnMove e f 5 10 else m0

/-- The configuration in force is applied: histories empty, inputs 0, outputs off, counts of its axes from 0, and each stop function in STOPPED or
READY (R485). -/
def Mach.safApply (m : Mach) (e : Env) : Mach :=
  let m1 := m.soAllOff.setSaf fun x =>
    { x with full := false, si := List.replicate 8 SafIn.reset,
             so := x.so.map fun o => { SafOut.reset with mirror := o.mirror },
             ax := (List.range 8).map fun a => match scfgFind x.recs 4 a with
               | some r => { SafAx.reset with offB := rw r 16 }
               | none => SafAx.reset,
             conn := (List.range 16).map fun k => match scfgFind x.recs 7 k with
               | some r => { SafConn.reset with state := if rb r 2 = 1 then 1 else 0, heard := [some e.upNs, some e.upNs], acc := e.upNs }
               | none => SafConn.reset }
  let m2 := iter 16 (fun k m => match m.saf.connRec k with | some r => m.safObj k r | none => m) m1
  iter 16 (fun f m => m.fnStart e f) m2

end Sys2Proof.Machine
end

