-- ==== Sys2Proof/Machine/SafCyc.lean ====
section
/-!
DEFINITION. The safety cycle of the island (R459 to R480): inputs, axes, monitors, stop functions, outputs, resets, the permit,
and the status image.
Log: 77 (DEDUCED), 78 (DEDUCED), 80 (DEDUCED).
-/
namespace Sys2Proof.Machine

/-! ### Inputs (R462 to R465) -/

/-- Safety cycles of a number of milliseconds. -/
def cyc4 (n : Nat) : Nat := 4 * n

/-- A channel is fed from a test-pulse source: channel A in the PULSED modes, channel B in PULSED_EQ. -/
def siPulsed (mode : Nat) (b : Bool) : Bool := mode == 1 || (mode == 2 && !b)

/-- The run level of a channel. -/
def siRun (mode : Nat) (b : Bool) : Bool := !b || mode == 1 || mode == 3

/-- The level of a channel is sampled, its filter runs, and in its own source's window it is frozen (R463, R464). -/
def SafChan.sample (h : SafChan) (frozen level : Bool) (filter : Nat) : SafChan :=
  let l := if frozen then h.raw else level
  let run := if l = h.raw then h.run + 1 else 0
  { h with raw := l, run := run, taken := if filter ≤ run then some l else h.taken }

/-- What the sample in a window finds: a missing pulse in the own source's window, a foreign pulse in another's. -/
def SafChan.window (h : SafChan) (own level : Bool) : SafChan :=
  if own && level then { h with cur := true }
  else if !own && !level && h.taken == some true then { h with cur := true }
  else h

/-- A 40 ms period ends. -/
def SafChan.period (h : SafChan) : SafChan := { h with prev := h.cur, cur := false }

/-- One channel in one safety cycle at position p of the period. -/
def siChan (x : SafetyIn) (r : List Byte) (full : Bool) (p n : Nat) (b : Bool) (h : SafChan) : SafChan :=
  let bit := 2 * n + (if b then 1 else 0)
  let pulsed := siPulsed (rb r 2) b
  let tp := rb r (if b then 4 else 3)
  let k := p / 40 + 1
  let own := pulsed && tp == k
  let h0 := if p = 0 then h.period else h
  let h1 := h0.sample (own && decide (p % 40 < 2)) (x.si.testBit bit) (cyc4 (rb r 5))
  if pulsed && full && p % 40 == 2 then h1.window own (x.tp.testBit bit) else h1

/-- An input in one safety cycle: its channels, discrepancy, faults and value. -/
def SafIn.step (x : SafetyIn) (r : List Byte) (full : Bool) (p n : Nat) (i : SafIn) : SafIn :=
  let mode := rb r 2
  let a := siChan x r full p n false i.a
  let b := siChan x r full p n true i.b
  let demA := a.taken == some (!siRun mode false)
  let demB := b.taken == some (!siRun mode true)
  let runA := a.taken == some (siRun mode false)
  let runB := b.taken == some (siRun mode true)
  let pulse := i.pulse || (a.cur && a.prev) || (b.cur && b.prev)
  let two := mode != 1
  let dem := i.dem || demA || demB
  let both := i.both || (demA && demB)
  let apart := if two && ((runA && demB) || (demA && runB)) then i.apart + 1 else 0
  let back := two && runA && runB && dem && !both
  let disc := i.disc || back || (two && decide (cyc4 (rh r 6) < apart))
  let value := mode != 0 && runA && runB && !pulse && !disc
  ⟨a, b, pulse, disc, value, dem && !value, both && !value, apart⟩

/-- SAF_INPUT (R488). -/
def Mach.siTell (m : Mach) (e : Env) (n kind : Nat) (was is : Bool) : Mach :=
  if was = is then m
  else
    let m1 := if is then m.safLog e 0x8003 n kind else m
    (m1.safIrq 2).event e 0x8003 (some 6) (le 1 n ++ le 1 kind ++ le 1 (if is then 1 else 0))

/-- An input stored, with what has changed told. -/
def Mach.setSi (m : Mach) (e : Env) (n : Nat) (i : SafIn) : Mach :=
  let old := m.saf.sin n
  ((m.setSaf fun x => { x with si := upd x.si n fun _ => i }).siTell e n 0 old.pulse i.pulse).siTell e n 1 old.disc i.disc

/-- Every input in one safety cycle; an input without a record is OFF. -/
def Mach.siStep (m : Mach) (e : Env) (x : SafetyIn) : Mach :=
  iter 8 (fun n m => match m.saf.siRec n with
    | some r => if rb r 2 = 0 then m else m.setSi e n ((m.saf.sin n).step x r m.saf.full m.saf.cyc n)
    | none => m) m

/-! ### Axes (R469, R470) -/

/-- A tap's count after a safety cycle. -/
def tapCount (bits : Nat) (gray : Bool) (old : Int) (t : TapIn) : Int :=
  if bits = 0 then old + t.steps
  else match t.word with
    | some w => ((if gray then grayDecode bits (w % 2 ^ bits) else w % 2 ^ bits : Nat) : Int)
    | none => old

/-- A position or a difference under the axis's wrap flag. -/
def axWrap (r : List Byte) (v : Word) : Word := if rb r 6 % 2 = 1 then fpWrap (rw r 28) v else v

/-- Source B is a connection. -/
def axConn (r : List Byte) : Option Nat := if 0x80 ≤ rb r 3 then some (rb r 3 - 0x80) else none

/-- Position B with offset 0, and whether it is valid. -/
def Saf.posB (x : Saf) (r : List Byte) (cb : Int) (fail : Bool) : Word × Bool :=
  match axConn r with
  | some k =>
    let c := x.kon k
    match c.pos with
    | some p => (fpMul p (rw r 12), c.state == 1 || c.state == 2)
    | none => (0, false)
  | none => (fpMul (fpOfInt cb) (rw r 12), !fail)

/-- An axis in one safety cycle. -/
def Saf.axStep (x : Saf) (y : SafetyIn) (r : List Byte) (a : Nat) (s : SafAx) : SafAx :=
  let ta := nth ⟨0, none, false⟩ y.taps (2 * a)
  let tb := nth ⟨0, none, false⟩ y.taps (2 * a + 1)
  let ca := tapCount (rb r 4) (rb r 6 / 4 % 2 == 1) s.ca ta
  let cb := if (axConn r).isSome then s.cb else tapCount (rb r 5) (rb r 6 / 8 % 2 == 1) s.cb tb
  let pa := axWrap r (fpMul (fpOfInt ca) (rw r 8))
  let (b0, okB) := x.posB r cb tb.fail
  let pb := axWrap r (fpAdd b0 s.offB)
  let spd := match s.hist[15]? with | some p => fpMul (axWrap r (fpSub pa p)) 0x437A0000 | none => 0
  let diff := fpAbs (axWrap r (fpSub pa pb))
  let apart := if fpLe diff (rw r 20) then 0 else s.apart + 1
  let okA := !ta.fail
  { s with ca := ca, cb := cb, hist := (pa :: s.hist).take 16, pa := pa, pb := pb, spd := spd, diff := diff, okA := okA, okB := okB,
           apart := apart, fault := s.fault || !okA || !okB || decide (cyc4 (rh r 24) < apart) }

/-- SAF_AXIS: axis, |pA − pB|, failed sources (bit 0 A, bit 1 B). -/
def Mach.axTell (m : Mach) (e : Env) (a : Nat) (was : Bool) : Mach :=
  let s := m.saf.axis a
  if was = s.fault then m
  else
    let bad := (if s.okA then 0 else 1) + (if s.okB then 0 else 2)
    let m1 := if s.fault then m.safLog e 0x8007 a bad else m
    (m1.safIrq 7).event e 0x8007 (some 6) (le 1 a ++ le 4 s.diff.toNat ++ le 1 bad)

/-- Every configured axis in one safety cycle. -/
def Mach.axStepAll (m : Mach) (e : Env) (y : SafetyIn) : Mach :=
  iter 8 (fun a m => match m.saf.axRec a with
    | some r =>
      let was := (m.saf.axis a).fault
      (m.setSaf fun x => { x with ax := upd x.ax a (x.axStep y r a) }).axTell e a was
    | none => m) m

/-! ### Monitors (R474) -/

/-- A monitor's condition of violation. -/
def Saf.monBad (x : Saf) (r : List Byte) (p0 : Word) : Bool :=
  let s := x.axis (rb r 3)
  let ax := (x.axRec (rb r 3)).getD []
  match rb r 2 with
  | 4 => fpLt (rw r 8) (fpAbs s.spd)
  | 5 =>
    let reach := fpAdd s.pa (fpDiv (fpMul s.spd (fpAbs s.spd)) (fpMul 0x40000000 (rw r 16)))
    fpLt reach (rw r 8) || fpLt (rw r 12) reach
  | _ => fpLt (fpMul (axWrap ax (fpSub s.pa p0)) (rw r 8)) (fpNegate (rw r 12))

/-- A monitor is active: its source shows 0, or it has none. -/
def Saf.monActive (x : Saf) (r : List Byte) : Bool := rb r 4 == 0 || x.srcLow0 r

/-- A monitor in one safety cycle. -/
def Mach.monStep (m : Mach) (e : Env) (f : Nat) (r : List Byte) : Mach :=
  let act := m.saf.monActive r
  let a := m.saf.func f
  let put (m : Mach) (g : SafFn → SafFn) : Mach := m.setSaf fun x => { x with fn := upd x.fn f g }
  if a.state = 7 then put m fun b => { b with dem := act }
  else if !act then
    let m1 := put m fun b => { b with viol := 0, dem := false }
    if a.state = 5 then m1 else m1.fnMove e f 5 0
  else
    let p0 := if a.state = 5 then (m.saf.axis (rb r 3)).pa else a.p0
    let m1 := if a.state = 5 then m.fnMove e f 6 0 else m
    let viol := if m.saf.monBad r p0 then a.viol + 1 else 0
    let m2 := put m1 fun b => { b with p0 := p0, viol := viol, dem := true }
    if cyc4 (rh r 20) < viol || (m.saf.axis (rb r 3)).fault then
      (m2.fnMove e f 7 4).safLog e 0x8005 f 4
    else m2

/-! ### Stop functions (R471 to R473) -/

/-- The envelope of SS1-r at t safety cycles after entry. -/
def ss1Limit (r : List Byte) (v0 : Word) (t : Nat) : Word :=
  let top := fpAdd v0 (rw r 16)
  let dly := cyc4 (rh r 20)
  if t < dly then top else fpSub top (fpMul (rw r 12) (fpOfRatio (t - dly : Nat) 4000))

/-- The speed of a function's axis. -/
def Saf.fnSpeed (x : Saf) (r : List Byte) : Word := if rb r 3 = 0xFF then 0 else fpAbs (x.axis (rb r 3)).spd

/-- The outputs of a function's STO mask are off, with their mirrors closed where watched. -/
def Saf.stoDone (x : Saf) (r : List Byte) : Bool :=
  (List.range 4).all fun n => !maskHas (rb r 8 % 16) n || (!(x.sout n).on && (!x.edmEn n || (x.sout n).mirror))

/-- An output of a function's STO mask has an edm fault. -/
def Saf.stoEdm (x : Saf) (r : List Byte) : Bool := (List.range 4).any fun n => maskHas (rb r 8 % 16) n && (x.sout n).edm

/-- A demand withdrawn too early (R472): refused, and the early flag is set. -/
def Mach.fnEarly (m : Mach) (e : Env) (f : Nat) : Mach :=
  let a := m.saf.func f
  if a.early then m
  else ((m.setSaf fun x => { x with fn := upd x.fn f fun b => { b with early := true } }).safIrq 6).event e 0x8006 (some 6)
    (le 1 f ++ le 1 a.state)

/-- A stop function in one safety cycle. -/
def Mach.fnStep (m : Mach) (e : Env) (f : Nat) (r : List Byte) : Mach :=
  let a := m.saf.func f
  let ds := m.saf.demands f r
  let d := !ds.isEmpty
  let cause := ds.headD 0
  let put (m : Mach) (g : SafFn → SafFn) : Mach := m.setSaf fun x => { x with fn := upd x.fn f g }
  let m0 := put m fun b => { b with dem := d }
  let v := m.saf.fnSpeed r
  match a.state with
  | 0 =>
    if !d then m0
    else if rb r 2 = 1 then m0.fnMove e f 2 cause
    else (put m0 fun b => { b with t := 0, still := 0, v0 := v }).fnMove e f 1 cause
  | 1 =>
    let m1 := if d then m0 else m0.fnEarly e f
    let t := a.t + 1
    let still := if fpLt v (rw r 24) then a.still + 1 else 0
    let m2 := put m1 fun b => { b with t := t, still := still }
    if cyc4 (rh r 10) ≤ t || (rb r 2 == 3 && fpLt (ss1Limit r a.v0 t) v) || (rb r 7 / 2 % 2 == 1 && decide (40 < still))
    then m2.fnMove e f 2 6 else m2
  | 2 =>
    let m1 := if d then m0 else m0.fnEarly e f
    if m.saf.stoEdm r then (put m1 fun b => { b with seen := d }).fnMove e f 3 7
    else if m.saf.stoDone r then (put m1 fun b => { b with seen := d }).fnMove e f 3 9
    else m1
  | 3 =>
    if a.early then (if d && !a.dem then put m0 fun b => { b with early := false, seen := true } else m0)
    else if d then put m0 fun b => { b with seen := true }
    else if a.seen then m0.fnMove e f 4 0
    else m0
  | _ => if d then (put m0 fun b => { b with seen := true }).fnMove e f 3 cause else m0

/-- Monitors, then stop functions. -/
def Mach.fnStepAll (m : Mach) (e : Env) : Mach :=
  let m1 := iter 16 (fun f m => match m.saf.monRec f with | some r => m.monStep e f r | none => m) m
  iter 16 (fun f m => match m.saf.fnRec f with | some r => m.fnStep e f r | none => m) m1

/-! ### Outputs (R466 to R468) -/

/-- SAF_OUTPUT: output, fault, set or clear. -/
def Mach.soTell (m : Mach) (e : Env) (n kind : Nat) (set : Bool) : Mach :=
  let m1 := if set then m.safLog e 0x8004 n kind else m
  (m1.safIrq 3).event e 0x8004 (some 6) (le 1 n ++ le 1 kind ++ le 1 (if set then 1 else 0))

/-- A fault of an output latches it off: 0 edm, 1 test, 2 overload. -/
def Mach.soFault (m : Mach) (e : Env) (n kind : Nat) : Mach :=
  let o := m.saf.sout n
  if (match kind with | 0 => o.edm | 1 => o.test | _ => o.overload) then m
  else
    let m1 := m.soSwitch n false (m.saf.edmEn n)
    (m1.setSaf fun x => { x with so := upd x.so n fun o => match kind with
      | 0 => { o with edm := true, wait := none }
      | 1 => { o with test := true }
      | _ => { o with overload := true } }).soTell e n kind true

/-- The role of an output asks for it to be on (R466). -/
def Saf.soWanted (x : Saf) (n : Nat) : Bool :=
  let names (shift : Nat) (r : List Byte) : Bool := maskHas (rb r 8 / 2 ^ shift % 16) n
  let all_ (shift lim : Nat) : Bool := (List.range 16).all fun f => match x.fnRec f with
    | some r => !names shift r || decide ((x.func f).state ≤ lim)
    | none => true
  match x.soRec n with
  | some r => !x.low && (match rb r 2 with | 1 => all_ 0 1 | 2 => all_ 4 0 | _ => false)
  | none => false

/-- An output's mirror and current in one safety cycle, then its switching. -/
def Mach.soStep (m : Mach) (e : Env) (y : SafetyIn) (n : Nat) : Mach :=
  let o := m.saf.sout n
  let edm := m.saf.edmEn n
  let mir := y.mirror.testBit n
  let good := mir == !o.on
  let wait := match o.wait with | some (k + 1) => if good then none else some k | _ => none
  let late := o.wait == some 0 && !good
  let moved := o.wait.isNone && mir != o.mirror
  let hot := if o.on && y.hot.testBit n then o.hot + 1 else 0
  let m1 := m.setSaf fun x => { x with so := upd x.so n fun o =>
    { o with mirror := mir, wait := if edm then (if o.wait == some 0 then none else wait) else none, hot := hot } }
  let m2 := if edm && (late || moved) then m1.soFault e n 0 else m1
  let m3 := if 20 < hot then m2.soFault e n 2 else m2
  let want := m3.saf.soWanted n && !(m3.saf.sout n).bad
  if want && !(m3.saf.sout n).on then (if edm && !mir then m3.soFault e n 0 else m3.soSwitch n true edm)
  else if !want then m3.soSwitch n false edm else m3

/-! ### Reset (R475, R476) -/

/-- A remote bit or the pin that the reset comes from; without a configuration the pin. -/
def Saf.resetSrc (x : Saf) (y : SafetyIn) : Bool :=
  match scfgFind x.recs 1 0 with
  | some r => if rb r 2 = 1 then x.connBit (rb r 3) (rb r 4) else y.srst
  | none => y.srst

/-- A fault of an input that a reset clears: both channels show their demand level and its condition has gone (R465). -/
def SafIn.clear (mode : Nat) (i : SafIn) : SafIn :=
  let dem := i.a.taken == some (!siRun mode false) && i.b.taken == some (!siRun mode true)
  if !dem then i
  else { i with pulse := i.pulse && (i.a.cur || i.a.prev || i.b.cur || i.b.prev), disc := false }

/-- Latched output faults that a reset clears (R467, R468). -/
def Mach.soClear (m : Mach) (e : Env) (n : Nat) : Mach :=
  let o := m.saf.sout n
  if !o.bad || (m.saf.edmEn n && !o.mirror) then m
  else
    let m1 := m.setSaf fun x => { x with so := upd x.so n fun o => { o with edm := false, test := false, overload := false } }
    let tell (b : Bool) (k : Nat) (m : Mach) : Mach := if b then m.soTell e n k false else m
    tell o.overload 2 (tell o.test 1 (tell o.edm 0 m1))

/-- An axis fault whose condition has gone is cleared; with ref_follow, offset B then makes pB equal pA (R470). -/
def Saf.axClear (r : List Byte) (x : Saf) (s : SafAx) : SafAx :=
  let s1 := { s with fault := s.fault && !(s.okA && s.okB && fpLe s.diff (rw r 20)) }
  if rb r 6 / 2 % 2 = 1 && !s1.fault then { s1 with offB := fpSub s.pa (x.posB r s.cb false).1 } else s1

/-- A connection in SAFE returns to OK when frames of both letters pass again (R479). -/
def connClear (now tmo : Nat) (c : SafConn) : SafConn :=
  let fresh : Bool := c.heard.all fun t => match t with | some t => decide (now < t + tmo * 1000000) | none => false
  if c.state = 3 && fresh then { c with state := 1 } else c

/-- SAF_CONN: connection, old and new state, letters missing (bit 0 A, bit 1 B). -/
def Mach.connTell (m : Mach) (e : Env) (k old new missing sev : Nat) : Mach :=
  (m.safIrq 8).event e 0x8008 (some sev) (le 1 k ++ le 1 old ++ le 1 new ++ le 1 missing)

/-- Monitors whose condition no longer holds leave VIOLATED. -/
def Mach.monClear (m : Mach) (e : Env) (f : Nat) (r : List Byte) : Mach :=
  let a := m.saf.func f
  if a.state != 7 || m.saf.monBad r a.p0 || (m.saf.axis (rb r 3)).fault then m
  else (m.setSaf fun x => { x with fn := upd x.fn f fun b => { b with viol := 0 } }).fnMove e f (if m.saf.monActive r then 6 else 5) 8

/-- No fault is latched in a function's input, outputs or axis. -/
def Saf.fnClean (x : Saf) (r : List Byte) : Bool :=
  let i := x.sin (rb r 5)
  !(rb r 4 == 1 && (i.pulse || i.disc))
    && (List.range 4).all (fun n => !(maskHas (rb r 8 % 16) n || maskHas (rb r 8 / 16) n) || !(x.sout n).bad)
    && !(rb r 3 != 0xFF && (x.axis (rb r 3)).fault)

/-- READY functions that a reset moves to RUN. -/
def Saf.resettable (x : Saf) (f : Nat) : Bool :=
  match x.fnRec f with
  | some r => (x.func f).state == 4 && x.fnClean r && (x.demands f r).isEmpty
  | none => false

/-- An accepted reset acts in one safety cycle (R476). -/
def Mach.safReset (m : Mach) (e : Env) : Mach :=
  let m1 := iter 8 (fun n m => match m.saf.siRec n with
    | some r => m.setSi e n ((m.saf.sin n).clear (rb r 2))
    | none => m) m
  let m2 := iter 4 (fun n m => m.soClear e n) m1
  let m3 := iter 8 (fun a m => match m.saf.axRec a with
    | some r =>
      let was := (m.saf.axis a).fault
      (m.setSaf fun x => { x with ax := upd x.ax a (Saf.axClear r x) }).axTell e a was
    | none => m) m2
  let m4 := iter 16 (fun k m => match m.saf.connRec k with
    | some r =>
      let was := (m.saf.kon k).state
      let m' := m.setSaf fun x => { x with conn := upd x.conn k (connClear e.upNs (rh r 8)) }
      if (m'.saf.kon k).state = was then m' else m'.connTell e k was (m'.saf.kon k).state 0 2
    | none => m) m3
  let m5 := iter 16 (fun f m => match m.saf.monRec f with | some r => m.monClear e f r | none => m) m4
  let go := (List.range 16).filter m5.saf.resettable
  let m6 := go.foldl (fun (m : Mach) f => m.fnMove e f 0 8) m5
  ((m6.setSaf fun x => { x with resets := (x.resets + 1) % 65536 }).safIrq 9).event e 0x8009 (some 2)
    (le 1 1 ++ le 2 ((go.map fun f => 2 ^ f).sum))

/-- The reset source in one safety cycle: an accepted reset is answered true. -/
def Mach.resetStep (m : Mach) (e : Env) (y : SafetyIn) : Mach × Bool :=
  let l := m.saf.resetSrc y
  let x := m.saf
  if l then
    let high := if x.srcHigh then x.high.map (· + 1) else if x.barred then none else some 0
    (m.setSaf fun x => { x with srcHigh := true, high := high, srcLow := 0 }, false)
  else
    let low := x.srcLow + 1
    let m1 := m.setSaf fun x => { x with srcHigh := false, high := none, srcLow := low, barred := x.barred && decide (low ≤ 200) }
    match x.high with
    | some n =>
      let t := n + 1
      if t < 200 then (m1, false)
      else if t ≤ 12000 then (m1, true)
      else (((m1.setSaf fun x => { x with barred := true }).safIrq 9).event e 0x8009 (some 2) (le 1 0 ++ le 2 0), false)
    | none => (m1, false)

/-! ### VSAFE, heartbeat, permit (R461, R480) -/

/-- VSAFE in one safety cycle. -/
def Mach.vsafeStep (m : Mach) (mv : Nat) : Mach :=
  let run := if mv < 16000 then m.saf.lowRun + 1 else 0
  let low := decide (4 < run)
  let m1 := m.setSaf fun x => { x with mv := mv, lowRun := run, low := low }
  if low = m.saf.low then m1 else m1.safIrq 11

/-- The application heartbeat has not been missed three times in a row. -/
def Saf.hbOk (x : Saf) : Bool := decide (x.hb ≤ 12)

/-- What holds the permit back: 0 nothing but the state, clocks or heartbeat, else the cause of a gate_link function. -/
def Saf.linkBad (x : Saf) : Option Nat :=
  (List.range 16).findSome? fun f => match x.fnRec f with
    | some r => if rb r 7 % 2 = 1 && decide (1 < (x.func f).state) then some (x.func f).cause else none
    | none => none

/-- The permit (R480). -/
def Mach.permitStep (m : Mach) (e : Env) : Mach :=
  let x := m.saf
  let ok := x.state == 2 && x.clk == 0 && x.hbOk && x.linkBad.isNone
  if ok = x.permit then m else m.setPermit e ok (x.linkBad.getD 0)

/-- The heartbeat's age. -/
def Mach.hbStep (m : Mach) : Mach := m.setSaf fun x => { x with hb := min (x.hb + 1) 13 }

/-! ### Connections that lose a letter (R479) -/

/-- A letter missing for tmo is told once. -/
def Mach.connLost (m : Mach) (e : Env) : Mach :=
  iter 16 (fun k m => match m.saf.connRec k with
    | some r =>
      if rb r 2 != 2 then m
      else iter 2 (fun j m =>
        let c := m.saf.kon k
        match nth none c.heard j with
        | some t =>
          if nth false c.lost j || decide (e.upNs < t + rh r 8 * 1000000) then m
          else (m.setSaf fun x => { x with conn := upd x.conn k fun c => { c with lost := upd c.lost j fun _ => true } }).connTell
            e k c.state c.state (2 ^ j) 4
        | none => m) m
    | none => m) m

/-! ### The status image (R490, R491) -/

def Mach.fnImage (m : Mach) (f : Nat) : Mach :=
  let x := m.saf
  let a := x.func f
  let rec? := if (x.fnRec f).isSome then x.fnRec f else x.monRec f
  match rec? with
  | none => m.wr (Reg.SAF_FNf_STS f) 0
  | some r =>
    let typ := match rb r 2 with | 1 => 1 | 2 => 2 | 3 => 2 | n => n - 1
    let b (v : Bool) (n : Nat) : Nat := if v then n else 0
    m.wr (Reg.SAF_FNf_STS f) (BitVec.ofNat 32 (a.cause * 65536 + (if rb r 3 = 0xFF then 0 else rb r 3) * 4096 + typ * 256
      + b a.early 32 + b (x.host.testBit f) 16 + b a.dem 8 + a.state))

def Mach.axImage (m : Mach) (a : Nat) : Mach :=
  let s := m.saf.axis a
  let m1 := (((m.sb (.SAF_AXa_STS_cfg a) (m.saf.axRec a).isSome).sb (.SAF_AXa_STS_fault a) s.fault).sb (.SAF_AXa_STS_a_ok a) s.okA).sb
    (.SAF_AXa_STS_b_ok a) s.okB
  ((m1.wr (Reg.SAF_AXa_POS a) s.pa).wr (Reg.SAF_AXa_SPD a) s.spd).wr (Reg.SAF_AXa_DIFF a) s.diff

def Mach.connImage (m : Mach) (k : Nat) : Mach :=
  let c := m.saf.kon k
  let n (i : Nat) : Nat := min 255 (c.cnt.getD i 0)
  (m.s (.SAF_CONN_STS_state k) c.state).wr (Reg.SAF_CONNk_CNT k) (BitVec.ofNat 32 (n 3 * 2 ^ 24 + n 2 * 2 ^ 16 + n 1 * 2 ^ 8 + n 0))

/-- The stored CRC field of an image. -/
def scfgCrc (l : Option (List Byte)) : Nat := match l with | some l => (rw l 12).toNat | none => 0

def siCode (i : SafIn) : Nat :=
  (if i.value then 1 else 0) + (if i.pulse then 2 else 0) + (if i.disc then 4 else 0) + (if i.apart != 0 then 8 else 0)

def Saf.soCode (x : Saf) (n : Nat) : Nat :=
  let o := x.sout n
  let role := match x.soRec n with | some r => rb r 2 | none => 0
  (if o.on then 1 else 0) + (if o.mirror then 2 else 0) + (if o.edm then 4 else 0) + (if o.test then 8 else 0)
    + (if o.overload then 16 else 0) + role * 32

/-- The words of the status image before the functions. -/
def Mach.safHead (m : Mach) : Mach :=
  let x := m.saf
  let m1 := (((((((m.s .SAF_STS_state x.state).sb .SAF_STS_gate m.gate).sb .SAF_STS_permit x.permit).sb .SAF_STS_bridge_ok
    (m.b .STK_BRG_cond)).sb .SAF_STS_hb_ok x.hbOk).sb .SAF_STS_cfg_cand x.cand.isSome).sb .SAF_STS_cfg_none x.cfg.isNone).sb
    .SAF_STS_vsafe_low x.low
  let m2 := (((m1.s .SAF_STS_resets x.resets).wr Reg.SAF_VER x.ver).s .SAF_CFG_CRC_crc (scfgCrc x.cfg)).s .SAF_CAND_CRC_crc
    (scfgCrc x.cand)
  (m2.s .SAF_DEMAND_host x.host).s .SAF_VSAFE_mv (min x.mv 65535)

/-- The island publishes its image once per safety cycle (R490). -/
def Mach.safPublish (m : Mach) : Mach :=
  let m1 := iter 8 (fun n m => m.s (.SAF_SI_STS_si n) (siCode (m.saf.sin n))) m.safHead
  let m2 := iter 4 (fun n m => m.s (.SAF_SO_STS_so n) (m.saf.soCode n)) m1
  let m3 := iter 16 (fun f m => m.fnImage f) m2
  let m4 := iter 8 (fun a m => m.axImage a) m3
  iter 16 (fun k m => m.connImage k) m4

/-! ### The cycle -/

/-- What RUN does in one safety cycle. -/
def Mach.safRun (m : Mach) (e : Env) (y : SafetyIn) : Mach :=
  let m1 := (((m.vsafeStep y.mv).siStep e y).axStepAll e y).connLost e
  let (m2, accepted) := m1.resetStep e y
  let m3 := if accepted then m2.safReset e else m2
  let m4 := m3.fnStepAll e
  iter 4 (fun n m => m.soStep e y n) m4

/-- The 40 ms period of the test pulses goes on. -/
def Mach.safCount (m : Mach) : Mach :=
  m.setSaf fun x => { x with cyc := (x.cyc + 1) % 160, full := x.full || x.cyc == 159 }

/-- SAFETY_CYCLE (R459): every 250 µs. A core mismatch or a memory error puts the island into SAFE. -/
def execSafetyCycle (x : SafetyIn) (s : State) : Host.Outcome State Fault Refusal :=
  s.act fun e m =>
    if m.saf.state = 0 then m
    else
      let m1 := if x.broken then m.setIsland e 3 else m
      let m2 := m1.hbStep
      let m3 := if m2.saf.state = 2 then m2.safRun e x else m2.setSaf fun z =>
        { z with mv := x.mv, so := z.so.mapIdx fun n o => { o with mirror := x.mirror.testBit n } }
      ((m3.permitStep e).gateRestore e).safCount.safPublish

/-- APP_HEARTBEAT (R480): the firmware's sign of life, every 1 ms. -/
def Mach.hbHeard (m : Mach) : Mach := m.setSaf fun x => { x with hb := 0 }

end Sys2Proof.Machine
end

