-- ==== Sys2Proof/Machine/Sync.lean ====
section
/-!
DEFINITION. What a resynchronisation carries (R372, R394, R525): the snapshot as the active takes it, its frames, and its application by the
SYNCING unit.
Log: 82 (DEDUCED), 83 (DESIGN CHOICE).
-/
namespace Sys2Proof.Machine

/-! ### Registers of a block -/

/-- The listed registers of a range of offsets, without those the unit keeps as its own. -/
def Mach.regsIn (m : Mach) (lo hi : Nat) (own : List Nat) : List (Nat × Word) :=
  m.regs.filter fun p => decide (lo ≤ p.1) && decide (p.1 < hi) && !own.contains p.1

/-- The registers of a range take the values of a snapshot. -/
def Mach.takeRegs (m : Mach) (lo hi : Nat) (own : List Nat) (l : List (Nat × Word)) : Mach :=
  let rest := m.regs.filter fun p => !(decide (lo ≤ p.1) && decide (p.1 < hi)) || own.contains p.1
  { m with regs := l.foldl (fun (r : List (Nat × Word)) p => regPut r p.1 p.2) rest }

/-! ### The snapshot (R525) -/

def Mach.syncLch (m : Mach) : SyncLch :=
  let l := m.lch
  ⟨l.x, l.p, l.hasPos, l.hasHdg, l.heldP, l.heldH, l.l3, l.h2, l.next, l.slots.map LchSlot.anchor, l.assign, l.slots.map LchSlot.samples,
   l.slots.map fun s => s.feats.take 3, m.regsIn Reg.LCH_STS 0x00061000 [Reg.LCH_IRQ_STS]⟩

def QpPt.lists (p : QpPt) : List (List (List (BitVec 64))) := [p.z, p.t, p.l, p.y]

def QpPt.ofLists (l : List (List (List (BitVec 64)))) : QpPt := ⟨l.getD 0 [], l.getD 1 [], l.getD 2 [], l.getD 3 []⟩

def Mach.syncPl (m : Mach) : SyncPl :=
  let p := m.pl
  ⟨p.setN, p.setE, p.setH, p.autoH, p.way.map fun w => (w.n, w.e, w.hdg, w.speed, w.rate), p.reached, [p.ref.n, p.ref.e, p.ref.h, p.ref.vn, p.ref.ve, p.ref.r],
   p.refAt, p.hist, p.age, p.okRun, p.force, p.demand, p.integ, p.swRun, p.rel.map fun t => (t.thrust, t.rpm, t.pitch, t.az), p.lag, p.tripped,
   m.slv.kept.map fun k => (k.1, k.2.lists), m.regsIn Reg.STR_PL_STS 0x00049000 [Reg.STR_PL_IRQ_STS]⟩

/-- The record of a string with its learner. -/
def Mach.syncStr (m : Mach) (t : Nat) : SyncStr :=
  let x := m.sg t
  let d := m.dr t
  ⟨m.strState t, m.g (.STR_Ss_STS_cause t), m.rd (Reg.STR_Ss_INT t), m.rd (Reg.STR_Ss_INTC t), x.dP, x.uP, x.rP, x.edP, x.rdP, x.feT,
   [x.missRun, x.fbRun, x.spRun], m.regsIn (Reg.STR_DRN_Ss_CFG t) (Reg.STR_DRN_Ss_CFG t + 0x40) [], d.table, d.i0⟩

/-! ### Its frames -/

def bytes64 (l : List (BitVec 64)) : List Byte := l.flatMap fun x => le 8 x.toNat
def bytesRegs (l : List (Nat × Word)) : List Byte := l.flatMap fun p => le 4 p.1 ++ le 4 p.2.toNat

def lchBytes (x : SyncLch) : List Byte :=
  le 1 2 ++ bytes64 x.x ++ x.p.flatMap bytes64 ++ le 8 x.l3 ++ le 8 x.h2 ++ le 8 x.next ++ (x.heldP ++ x.heldH).flatMap (le 4) ++ bytesRegs x.regs

def plBytes (x : SyncPl) : List Byte :=
  le 1 3 ++ bytes64 (x.ref ++ x.force ++ x.demand ++ x.integ) ++ x.hist.flatMap bytes64 ++ le 8 x.lag ++ bytesRegs x.regs

def strBytes (t : Nat) (x : SyncStr) : List Byte :=
  le 1 4 ++ le 1 t ++ le 1 x.state ++ le 1 x.cause ++ ([x.int_, x.intc, x.d, x.u, x.r, x.ed, x.rdot] ++ x.table).flatMap (fun w => le 4 w.toNat)
    ++ le 8 x.fe ++ x.runs.flatMap (le 4) ++ bytesRegs x.regs

/-- Content leaves for the SYNCING unit in SYNC_BULK frames of at most 1 024 bytes (R497). -/
def Mach.bulk (m : Mach) (dest : Nat) (l : List Byte) : Mach :=
  iter ((l.length + 1023) / 1024) (fun i m => m.linkSend 0xA dest ((l.drop (1024 * i)).take 1024)) m

/-- The peer controller's bit. -/
def Mach.syncDest (m : Mach) : Nat := m.otherController

/-- The active names a commit cycle and sends the snapshot, the law and Bracken excepted. -/
def Mach.syncName (m : Mach) : Mach :=
  let c := m.cycNum + 4
  let m1 := m.bulk m.syncDest (le 1 1 ++ le 8 c ++ le 4 (m.g .SAF_CFG_CRC_crc))
  let m2 := m1.bulk m.syncDest (lchBytes m.syncLch)
  let m3 := iter 48 (fun t m => m.bulk m.syncDest (strBytes t (m.syncStr t))) m2
  { m3 with stk := { m3.stk with offer := some (c, false) } }

/-- What the active does for a peer from whose heartbeat it sees a SYNCING unit (R524, R525): its configuration image, once, when the hashes
differ; otherwise the naming of a commit cycle. -/
def Mach.syncServe (m : Mach) (q : Peer) (same : Bool) : Mach :=
  let set (m : Mach) (o : Option (Nat × Bool)) : Mach := { m with stk := { m.stk with offer := o } }
  if q.role != 2 then (if m.stk.offer.isSome then set m none else m)
  else if q.fmt != m.stk.fmt then m
  else if !same then
    (if m.stk.offer == some (0, true) then m
     else set (m.bulk m.syncDest (le 1 0 ++ le 8 (m.rd64 Reg.GEN_CFG_GEN_LO Reg.GEN_CFG_GEN_HI) ++ m.fw.config)) (some (0, true)))
  else match m.stk.offer with
    | some (0, true) => m.syncName
    | none => m.syncName
    | _ => m

/-- Once the digest of c − 1 is computed, the law and Bracken items leave; when no digest of c came, a new commit cycle is named (R525). -/
def Mach.syncLater (m : Mach) : Mach :=
  match m.stk.offer with
  | some (c, sent) =>
    if m.role != 0 || c = 0 then m
    else if !sent && m.pl.cyc.num + 1 = c then
      let m1 := m.bulk m.syncDest (plBytes m.syncPl)
      { m1 with stk := { m1.stk with offer := some (c, true) } }
    else if m.pl.cyc.num = c then
      match m.pl.peer with
      | some (n, _, _) => if n = c then m else m.syncName
      | none => m.syncName
    else m
  | none => m

/-! ### At the SYNCING unit (R524 to R526) -/

/-- An item arrives, the configuration image excepted. -/
def Mach.syncTake (m : Mach) (e : Env) (item : SyncItem) : Mach :=
  match m.stk.sync with
  | none => m
  | some x =>
    let put (m : Mach) (y : SyncIn) : Mach := { m with stk := { m.stk with sync := some y } }
    if m.role != 2 || x.done then m
    else match item with
      | .config _ _ => m
      | .commit c crc =>
        let m1 := put m { x with commit := some c }
        if crc = m.g .SAF_CFG_CRC_crc then m1.syncPhase e 3 0 false else m1.syncPhase e 3 0 true
      | .lichen y => put (if x.commit.isSome then m.syncPhase e 4 0 false else m) { x with lch := some y }
      | .law y => put m { x with pl := some y }
      | .string t y => put m { x with strs := setAssoc t y x.strs }

def Mach.applyLch (m : Mach) (y : SyncLch) : Mach :=
  let m1 := m.takeRegs Reg.LCH_STS 0x00061000 [Reg.LCH_IRQ_STS] y.regs
  let slots := (List.range 24).map fun s =>
    { m.lslot s with anchor := y.anchors.getD s none, samples := y.samples.getD s [], feats := y.feats.getD s [] }
  { m1 with lch := { m1.lch with slots := slots, x := y.x, p := y.p, hasPos := y.hasPos, hasHdg := y.hasHdg, heldP := y.heldP,
                                 heldH := y.heldH, l3 := y.l3, h2 := y.h2, next := y.next, assign := y.assign } }

def Mach.applyPl (m : Mach) (y : SyncPl) : Mach :=
  let m1 := m.takeRegs Reg.STR_PL_STS 0x00049000 [Reg.STR_PL_IRQ_STS] y.regs
  let r (i : Nat) : BitVec 64 := y.ref.getD i 0
  let ref : PlRef := ⟨r 0, r 1, r 2, r 3, r 4, r 5⟩
  let way := y.way.map fun w => Waypoint.mk w.1 w.2.1 w.2.2.1 w.2.2.2.1 w.2.2.2.2
  let rel := y.rel.map fun t => ThrSet.mk t.1 t.2.1 t.2.2.1 t.2.2.2
  let p := { m1.pl with setN := y.setN, setE := y.setE, setH := y.setH, autoH := y.autoH, way := way, reached := y.reached }
  let p1 := { p with ref := ref, refAt := y.refAt, hist := y.hist, age := y.age, okRun := y.okRun, force := y.force }
  let p2 := { p1 with demand := y.demand, integ := y.integ, swRun := y.swRun, rel := rel, lag := y.lag, tripped := y.tripped }
  { m1 with pl := p2 }.setKept (y.kept.map fun (k : List Nat × List (List (List (BitVec 64)))) => (k.1, QpPt.ofLists k.2))

def Mach.applyStr (m : Mach) (e : Env) (t : Nat) (y : SyncStr) : Mach :=
  let lo := Reg.STR_DRN_Ss_CFG t
  let m1 := if y.state = m.strState t then m
    else if y.state = 0 then m.strIdle e t 10 false
    else if m.strState t = 0 then (m.strEnable e t e.ns).strMove e t y.state 10
    else m.strMove e t y.state 10
  let m2 := ((m1.s (.STR_Ss_STS_cause t) y.cause).wr (Reg.STR_Ss_INT t) y.int_).wr (Reg.STR_Ss_INTC t) y.intc
  let m3 := m2.setSg t fun x => { x with dP := y.d, uP := y.u, rP := y.r, edP := y.ed, rdP := y.rdot, feT := y.fe,
                                         missRun := y.runs.getD 0 0, fbRun := y.runs.getD 1 0, spRun := y.runs.getD 2 0 }
  (m3.takeRegs lo (lo + 0x40) [] y.regs).setDr t fun d => { d with table := y.table, i0 := y.i0 }

/-- The boundary of the commit cycle (R525): when the law's and Lichen's items are there, everything is applied and probation begins; otherwise
the unit waits for another commit cycle. -/
def Mach.syncBoundary (m : Mach) (e : Env) (n : Nat) : Mach :=
  match m.stk.sync with
  | some x =>
    if m.role != 2 || x.done || x.commit != some n then m
    else match x.lch, x.pl with
      | some l, some p =>
        let m1 := (m.applyLch l).applyPl p
        let m2 := x.strs.foldl (fun (m : Mach) (s : Nat × SyncStr) => m.applyStr e s.1 s.2) m1
        { m2 with stk := { m2.stk with sync := some { x with done := true, matched := 0, strs := [], lch := none, pl := none } } }.syncPhase e 5 0 false
      | _, _ => { m with stk := { m.stk with sync := some { x with commit := none, pl := none } } }
  | none => m

end Sys2Proof.Machine
end

