-- ==== Sys2Proof/Machine/Saf.lean ====
section
/-!
DEFINITION. The island's connections, switch tests and commands (R468, R477 to R487).
Log: 38 (DEDUCED), 77 (DEDUCED), 79 (PRESUMED).
-/
namespace Sys2Proof.Machine

def execAppHeartbeat (s : State) : Host.Outcome State Fault Refusal := s.act fun _ m => m.hbHeard

/-! ### Switch tests (R468, R487) -/

/-- A side of an output is tested: a switch that does not turn off is a test fault. A waiting SAF_OUT_TEST ends when both sides of its output
have been tested. -/
def Mach.soTested (m : Mach) (e : Env) (o side : Nat) (pass : Bool) : Mach :=
  let m1 := if pass then m else m.soFault e o 1
  match m1.saf.test with
  | some (n, c, sides, bad) =>
    if n != o then m1
    else
      let sides' := if sides.contains side then sides else side :: sides
      let bad' := bad || !pass
      if sides'.length < 2 then m1.setSaf fun x => { x with test := some (n, c, sides', bad') }
      else (m1.setSaf fun x => { x with test := none }).complete e 0x84 c stOk (le 1 (if bad' then 1 else 0)) []
  | none => m1

/-- SO_SWITCH_TEST: `low` for SOn_N, `turnedOff` what the read-back shows. -/
def execSoSwitchTest (o : Nat) (low turnedOff : Bool) (s : State) : Host.Outcome State Fault Refusal :=
  s.onInst (decide (o < 4)) fun e m => if m.saf.state = 2 then m.soTested e o (if low then 1 else 0) turnedOff else m

/-! ### Safe frames (R477, R478) -/

/-- The signature CRC of a frame's first 28 bytes. -/
def safeCrc (r : List Byte) (f : List Byte) : Nat := crc32cFrom (rw r 12).toNat (f.take 28)

/-- SI values and functions of a frame. -/
def Saf.frameBits (x : Saf) : Nat × Nat :=
  (((List.range 8).map fun n => if (x.sin n).value then 2 ^ n else 0).sum,
   ((List.range 16).map fun f =>
      let ok := if (x.fnRec f).isSome then (x.func f).state == 0 else if (x.monRec f).isSome then (x.func f).state != 7 else false
      if ok then 2 ^ f else 0).sum)

/-- A frame copy. -/
def Saf.frame (x : Saf) (k letter : Nat) (r : List Byte) : List Byte :=
  let a := x.axis (rb r 4)
  let b := x.frameBits
  let f := le 1 0x5A ++ le 1 k ++ le 2 (x.kon k).out ++ le 1 letter ++ le 3 0 ++ le 2 b.1 ++ le 2 b.2 ++ le 4 0 ++ le 4 a.pa.toNat
    ++ le 4 a.spd.toNat ++ le 4 0
  f ++ le 4 (safeCrc r f)

/-- Safe frames pass an Ethernet port (R565, R566, R568). -/
def Mach.safePort (m : Mach) (p : Nat) : Bool :=
  m.b (.NETp_CTRL_en p) && m.b (.NETp_STS_link p) && m.b (.NETp_CTRL_safe p) && m.rd (Reg.NETp_SAFE_DST p) != 0 && m.rd (Reg.NETp_IP p) != 0

/-- A copy leaves over a network: Ethernet port (0, 1), or the object of CAN 3 or 4. -/
def Mach.safeSend (m : Mach) (k letter : Nat) (can : Bool) (f : List Byte) (r : List Byte) : Mach :=
  if can then
    let c := 2 + letter
    if !m.canSafe c (112 + k) then m else (m.safObj k r).canPut c (112 + k) 0 f
  else if m.clkFailed 7 || !m.safePort letter then m
  else m.netSend "SAFE" letter (rh r 20) (m.netTag letter true ++ f)

/-- The period of a producing connection has passed since its newest frame (R477). -/
def SafConn.period (c : SafConn) (r : List Byte) (e : Env) : Bool :=
  match c.sent with | some t => decide (t + rh r 6 * 1000000 ≤ e.upNs) | none => true

/-- SAFE_FRAME_PRODUCE: the two copies of a connection leave over its networks, once in its period. -/
def execSafeFrameProduce (k : Nat) (s : State) : Host.Outcome State Fault Refusal :=
  s.onInst (decide (k < 16)) fun e m =>
    match m.saf.connRec k with
    | some r =>
      if m.saf.state != 2 || rb r 2 != 1 || !(m.saf.kon k).period r e then m
      else
        let m1 := iter 2 (fun l m =>
          let f := m.saf.frame k l r
          let m' := if rb r 3 = 1 then m else m.safeSend k l false f r
          if rb r 3 = 0 then m' else m'.safeSend k l true f r) m
        m1.setSaf fun x => { x with conn := upd x.conn k fun c => { c with out := (c.out + 1) % 65536, sent := some e.upNs } }
    | none => m

/-! ### Consuming (R479) -/

/-- A counter of SAF_CONNk_CNT counts: 0 crc_err, 1 seq_err, 2 missing, 3 mismatch. -/
def SafConn.count (c : SafConn) (i : Nat) : SafConn := { c with cnt := c.cnt.set i (min 255 (c.cnt.getD i 0 + 1)) }

def Mach.setConn (m : Mach) (k : Nat) (f : SafConn → SafConn) : Mach := m.setSaf fun x => { x with conn := upd x.conn k f }

/-- The connection goes to SAFE. -/
def Mach.connSafe (m : Mach) (e : Env) (k missing : Nat) : Mach :=
  let old := (m.saf.kon k).state
  let m1 := m.setConn k fun c => { c with state := 3, held := [] }
  if old = 3 then m1 else (m1.connTell e k old 3 missing 6).safLog e 0x8008 k missing

/-- The copies whose sequence is newer than one. -/
def newerThan (seq : Nat) (l : List SafCopy) : List SafCopy := l.filter fun h => decide (0 < toSigned 16 (h.seq + 65536 - seq))

/-- A sequence is accepted with its letters: one missing counts and makes ONE_COPY; SAFE stays latched. -/
def Mach.connAccept (m : Mach) (e : Env) (k : Nat) (h : SafCopy) (letters : List Nat) : Mach :=
  let c := m.saf.kon k
  let one := letters.length == 1
  let st := if c.state = 3 then 3 else if one then 2 else 1
  let m1 := m.setConn k fun c =>
    { (if one then c.count 2 else c) with
      acc := e.upNs, state := st, last := some h.seq, taken := letters, held := newerThan h.seq c.held, bits := unle (h.body.take 4),
      pos := some (rw h.body 8) }
  if c.state = st then m1
  else m1.connTell e k c.state st (if one then 3 - 2 ^ h.letter else 0) (if st = 2 then 3 else 2)

/-- A frame copy that passed the checks: recorded as heard, then paired or held. -/
def Mach.connCopy (m : Mach) (e : Env) (k : Nat) (h : SafCopy) : Mach :=
  let m1 := m.setConn k fun c =>
    { c with heard := upd c.heard h.letter fun _ => some e.upNs, lost := upd c.lost h.letter fun _ => false }
  match (m1.saf.kon k).held.find? fun g => g.seq == h.seq with
  | some g =>
    if g.letter = h.letter then m1
    else if g.body = h.body then m1.connAccept e k h [0, 1]
    else (m1.setConn k fun c => c.count 3).connSafe e k 0
  | none => m1.setConn k fun c => { c with held := c.held ++ [h] }

/-- SAFE_FRAME_RECEIVE: the checks of R479 in their order; a further copy of a letter already taken for the last accepted sequence is dropped. -/
def Mach.connReceive (m : Mach) (e : Env) (k : Nat) (f r : List Byte) : Mach :=
  let c := m.saf.kon k
  let h : SafCopy := ⟨rh f 2, rb f 4, (f.drop 8).take 20, e.upNs⟩
  let good := f.length == 32 && rb f 0 == 0x5A && rb f 1 == k && decide (h.letter < 2) && unle ((f.drop 28).take 4) == safeCrc r f
  let newer : Bool := match c.last with | some l => decide (0 < toSigned 16 (h.seq + 65536 - l)) | none => true
  if !good then m.setConn k fun c => c.count 0
  else if newer then m.connCopy e k h
  else if c.last == some h.seq && c.taken.contains h.letter then m
  else m.setConn k fun c => c.count 1

/-- Whether a frame can arrive over a network (0 Ethernet, 1 CAN) of the connection. -/
def connNet (r : List Byte) (net : Nat) : Bool := rb r 3 == net || rb r 3 == 2

/-- A copy can arrive: A on port 1 or CAN 3, B on port 2 or CAN 4; on CAN the controller is in NORMAL with saf_res set (R424, R477, R568). -/
def Mach.safOpen (m : Mach) (k net letter : Nat) : Bool :=
  let l := min 1 letter
  if net = 0 then m.safePort l && !m.clkFailed 7 else m.canSafe (2 + l) (112 + k) && !m.canDown (2 + l) && !m.clkFailed 8

/-- SAFE_FRAME_RECEIVE: a copy that can arrive is checked. -/
def execSafeFrameReceive (k net : Nat) (bytes : List Byte) (s : State) : Host.Outcome State Fault Refusal :=
  s.onInst (decide (k < 16)) fun e m =>
    match m.saf.connRec k with
    | some r =>
      if m.saf.state = 2 && rb r 2 == 2 && connNet r net && m.safOpen k net (rb bytes 4) then m.connReceive e k bytes r else m
    | none => m

/-- SAFE_PAIR_WINDOW: the oldest copy that waits is accepted alone once pair_win has passed. -/
def execSafePairWindow (k : Nat) (s : State) : Host.Outcome State Fault Refusal :=
  s.onInst (decide (k < 16)) fun e m =>
    match (m.saf.kon k).held, m.saf.connRec k with
    | h :: _, some r => if m.saf.state = 2 && decide (h.at_ + rb r 10 * 1000000 ≤ e.upNs) then m.connAccept e k h [h.letter] else m
    | _, _ => m

/-- SAFE_CONN_TIMEOUT: no sequence has been accepted for tmo. -/
def execSafeConnTimeout (k : Nat) (s : State) : Host.Outcome State Fault Refusal :=
  s.onInst (decide (k < 16)) fun e m =>
    match m.saf.connRec k with
    | some r => if m.saf.state = 2 && rb r 2 == 2 && decide ((m.saf.kon k).acc + rh r 8 * 1000000 ≤ e.upNs) then m.connSafe e k 3 else m
    | none => m

/-! ### Commands (R482 to R487) -/

/-- The island takes mailbox commands only in RUN, but for the reads. -/
def safCmd (op : Nat) (c : Cmd) (need : Bool) (body : Env → Mach → Res) (s : State) : Host.Outcome State Fault Refusal :=
  s.act fun e m => runCmd op c (need && e.isSealed) false (fun e m => if m.saf.state = 2 then body e m else m.fail stState) e m

/-- The image is signed for SAFE_CFG under the island's own keys and passes the rollback rule of its own counter 4 (R485). -/
def safSigned (e : Env) (x : Saf) (l : List Byte) : Bool :=
  slotsSign x.keys 3 [1, 2, 3] (l.take (l.length - 96)) (l.drop (l.length - 96))
    && (!e.locked || decide (x.ctr4 ≤ (rw l 8).toNat / 2 ^ 24))

def execSafCfgLoad (c : Cmd) (s : State) : Host.Outcome State Fault Refusal :=
  safCmd 0x80 c true (fun e m =>
    let l := c.data
    let n := scfgCount l
    if c.u32 0 != l.length || l.length != 128 + 32 * n then m.fail stLen
    else if (rw l 12).toNat != crc32c ((l.drop 32).take (32 * n)) then m.fail stCrc
    else if !safSigned e m.saf l then m.fail stAuth
    else if !scfgLayout l then m.fail 0x40
    else if !scfgRules (scfgRecs l) then m.fail 0x41
    else
      let m1 := m.setSaf fun x => { x with cand := some l }
      .done ((m1.safIrq 10).event e 0x800A (some 6) (le 1 0 ++ le 4 (rw l 8).toNat)) stOk (le 4 (rw l 12).toNat) []) s

/-- A stop function is neither STOPPED nor READY, or an output is on (R485). -/
def Saf.busy (x : Saf) : Bool :=
  ((List.range 16).any fun f => (x.fnRec f).isSome && !((x.func f).state == 3 || (x.func f).state == 4))
    || x.so.any SafOut.on

def execSafCfgAccept (c : Cmd) (s : State) : Host.Outcome State Fault Refusal :=
  safCmd 0x81 c true (fun e m =>
    match m.saf.cand with
    | none => m.fail stState
    | some l =>
      if m.saf.busy then m.fail stState
      else if c.u32 0 != (rw l 12).toNat then m.fail 0x42
      else
        let m1 := (m.setSaf fun x => { x with cfg := some l, cand := none }).safApply e
        .done ((m1.safIrq 10).event e 0x800A (some 6) (le 1 1 ++ le 4 (rw l 8).toNat)) stOk (le 4 (rw l 8).toNat) []) s

def execSafDemand (c : Cmd) (s : State) : Host.Outcome State Fault Refusal :=
  safCmd 0x82 c false (fun _ m =>
    let mask := c.u16 0
    if 1 < c.u16 2 || (List.range 16).any (fun f => mask.testBit f && (m.saf.monRec f).isSome) then m.fail stRange
    else
      let host := if c.u16 2 = 1 then m.saf.host ||| mask else m.saf.host &&& (65535 - mask)
      .ok (m.setSaf fun x => { x with host := host })) s

def execSafStatusGet (c : Cmd) (s : State) : Host.Outcome State Fault Refusal :=
  s.act fun e m => runCmd 0x83 c false true (fun _ m => .done m stOk [] (m.words 0x000B0000 208)) e m

def execSafOutTest (c : Cmd) (s : State) : Host.Outcome State Fault Refusal :=
  safCmd 0x84 c false (fun _ m =>
    if 4 ≤ c.u8 0 then m.fail stRange
    else if m.saf.test.isSome then m.fail stBusy
    else .wait (m.setSaf fun x => { x with test := some (c.u8 0, c, [], false) })) s

/-- The island's fault log as bytes: the layout of an entry is open. -/
def Saf.logBytes (x : Saf) : List Byte :=
  (List.range 64).flatMap fun i => match x.log[i]? with
    | some a => le 16 (Config.safLogEntry a.code a.inst a.what a.at_).toNat
    | none => le 16 (Config.safLogEntry 0 0 0 0).toNat

def execSafFaultLog (c : Cmd) (s : State) : Host.Outcome State Fault Refusal :=
  s.act fun e m => runCmd 0x85 c false true (fun _ m => .done m stOk [] m.saf.logBytes) e m

/-! ### Boot (R460) -/

/-- The island boots: its counts from nothing, its accepted image, log, and copies of keys and counters kept. -/
def Mach.islandBoot (m : Mach) (e : Env) : Mach :=
  let m1 := (m.soAllOff.setPermit e false 0).setSaf fun x =>
    { Saf.reset with state := x.state, ver := x.ver, cfg := x.cfg, log := x.log, keys := x.keys, ctr2 := x.ctr2, ctr4 := x.ctr4,
                     so := x.so.map fun o => { SafOut.reset with mirror := o.mirror } }
  (m1.setIsland e 0).lineCheck e

/-- The self-test ends (R460, R485): RUN under the accepted configuration, or SAFE. -/
def Mach.islandTested (m : Mach) (e : Env) (pass : Bool) : Mach :=
  if m.saf.state != 1 then m
  else if pass then (m.setIsland e 2).safApply e
  else m.setIsland e 3

end Sys2Proof.Machine
end

