-- ==== Sys2Proof/Machine/Time.lean ====
section
/-!
DEFINITION. Timebase, stamps, timed pulses, captures, PTP stamps, discipline and holdover (R50 to R91), and the TIME
commands.
Log: 48 (DEDUCED), 50 (DEDUCED), 51 (DESIGN CHOICE), 52 (DEDUCED), 99 (DESIGN CHOICE), 100 (DESIGN CHOICE), 101 (DEDUCED), 102 (DESIGN CHOICE), 103 (DEDUCED).
-/
namespace Sys2Proof.Machine

/-! ### Corrections by register (R54 to R59) -/

/-- A write of TIME_INC_HI commits the increment whose fraction was written to TIME_INC_LO (R54, R55, R59). -/
def incCommit (value : Word) (e : Env) (m : Mach) : Timebase × Mach :=
  if !m.srcFree then (e.time, m.hostIgnored)
  else
    let i := value.toNat % 256 * 2 ^ 32 + m.time.incLo
    if incOk i then
      let r := setInc i e m
      (r.1, r.2.pulseRevised e { e with time := r.1 } false)
    else (e.time, (m.sb .TIME_STS_inc_range true).setBit Reg.TIME_IRQ_STS 20 true)

def execTimeIncCommit (value : Word) (s : State) : Host.Outcome State Fault Refusal := s.actTime (incCommit value)

/-- TIME_STEP_NS lies within ±999 999 999 (R56). -/
def stepNsOk (ns : Int) : Bool := decide (-999999999 ≤ ns) && decide (ns ≤ 999999999)

/-- A write of TIME_CTRL (R56, R57, R59). -/
def stepWrite (value : Word) (e : Env) (m : Mach) : Timebase × Mach :=
  if value.toNat % 2 = 0 then (e.time, m)
  else if !m.srcFree then (e.time, m.hostIgnored)
  else
    let ns := m.gi .TIME_STEP_NS_step_ns
    if !stepNsOk ns || !m.stepAllowed then (e.time, m.refuseStep)
    else requestStep (m.gi .TIME_STEP_S_step_s * 1000000000 + ns) e m

def execTimeStepRequest (value : Word) (s : State) : Host.Outcome State Fault Refusal := s.actTime (stepWrite value)

/-! ### Timed pulse outputs (R65 to R70) -/

/-- An increment of the servo that waits is committed (R115). -/
def commitDue (e : Env) (m : Mach) : Timebase × Mach :=
  match m.time.incDue with | some i => if incOk i then setInc i e m else (e.time, m) | none => (e.time, m)

/-- The compare of output k's next edge fires at or beyond its target (R60, R65, R70): a pulse in progress ends; otherwise the leading
edge. The leading edge of the PPS opens the window in which an increment that waits is committed (R115). -/
def tpoEdge (k : Nat) (e : Env) (m : Mach) : Timebase × Mach :=
  match (m.tpo k).trail with
  | some t => if e.ns < t then (e.time, m) else (e.time, m.tpoTrail e k)
  | none =>
    match (m.tpo k).next with
    | none => (e.time, m)
    | some n =>
      if e.ns < n then (e.time, m)
      else if k = 0 then commitDue e (m.tpoLead e k n) else (e.time, m.tpoLead e k n)

def execTpoEdge (k : Nat) (s : State) : Host.Outcome State Fault Refusal :=
  if k < 8 then s.actTime (tpoEdge k) else .fault .noInstance

/-- Settings within R66; OFF needs none. -/
def tpoOk (z : TpoSet) : Bool :=
  z.mode == 0
    || (z.mode == 1 && decide (8 ≤ z.width) && decide (z.width ≤ 4294967295))
    || (z.mode == 2 && decide (16 ≤ z.period) && decide (z.period ≤ 4294967295) && decide (8 ≤ z.width)
        && decide (z.width + 8 ≤ z.period))

/-- A start too early for ONESHOT (R68). -/
def Mach.tpoLate (m : Mach) (e : Env) (k : Nat) (z : TpoSet) : Mach :=
  ((m.sb (.TPOk_STS_late k) true).setBit Reg.TIME_IRQ_STS 21 true).note e 0x1006
    (le 1 k ++ (Stamp.ofNs z.start).bytes)

/-- Settings put in force on output k (R67): after the trailing edge while a pulse is active, at once otherwise; PERIODIC
starts at the first grid point far enough ahead (R68). -/
def Mach.tpoSet (m : Mach) (e : Env) (k : Nat) (z : TpoSet) : Mach :=
  let o := m.tpo k
  if o.trail.isSome then m.setTpo e.time k { o with pend := some z, disarm := false }
  else
    let nx := if z.mode = 0 then none else if z.mode = 1 then some z.start else some (firstGrid z (e.time.twoAhead))
    m.setTpo e.time k ⟨z, none, false, nx, none, none⟩

/-- The settings staged in output k's registers. -/
def Mach.tpoStaged (m : Mach) (k : Nat) : TpoSet :=
  ⟨m.g (.TPOk_CTRL_mode k), m.g (.TPOk_CTRL_polarity k),
   (m.g (.TPOk_START_SL_s_lo k) + 2 ^ 32 * m.g (.TPOk_START_SH_s_hi k)) * 1000000000 + m.g (.TPOk_START_NS_ns k),
   m.g (.TPOk_PERIOD_period k), m.g (.TPOk_WIDTH_width k)⟩

/-- A write of TPOk_CTRL (R66 to R68): mode and polarity are staged; commit applies the staged settings, or leaves the output
unchanged with late set. -/
def Mach.tpoCtrl (m : Mach) (e : Env) (k : Nat) (v : Word) : Mach :=
  let m1 := m.hostPut e.locked true (Reg.TPOk_CTRL k) v
  if v.toNat / 8 % 2 = 0 then m1
  else
    let z := m1.tpoStaged k
    if !tpoOk z then (m1.sb (.TPOk_STS_late k) true).setBit Reg.TIME_IRQ_STS 21 true
    else if z.mode = 1 && z.start < e.time.twoAhead then m1.tpoLate e k z
    else m1.tpoSet e k z

def execTpoCommit (k : Nat) (value : Word) (s : State) : Host.Outcome State Fault Refusal :=
  s.onInst (decide (k < 8)) fun e m => m.tpoCtrl e k value

/-- The staging registers of output k take settings. -/
def Mach.tpoStage (m : Mach) (k : Nat) (z : TpoSet) : Mach :=
  let st := Stamp.ofNs z.start
  ((((((m.s (.TPOk_CTRL_mode k) z.mode).s (.TPOk_CTRL_polarity k) z.polarity).s (.TPOk_START_NS_ns k) st.ns).s
    (.TPOk_START_SL_s_lo k) st.sec).s (.TPOk_START_SH_s_hi k) (st.sec / 2 ^ 32)).s (.TPOk_PERIOD_period k) z.period).s
    (.TPOk_WIDTH_width k) z.width

/-- TPO_ARM (R66, R68, R86). DESIGN CHOICE (log 100): nanoseconds of 10^9 or more and a polarity above 1 complete with RANGE. -/
def execTpoArm (c : Cmd) (s : State) : Host.Outcome State Fault Refusal :=
  s.act fun e m => runCmd 0x14 c false false (fun e m =>
    let k := c.u8 0
    let z : TpoSet := ⟨c.u8 1, c.u8 2, c.un 4 6 * 1000000000 + c.u32 10, c.u32 14, c.u32 18⟩
    if 8 ≤ k || 1 < z.polarity || 1000000000 ≤ c.u32 10 || !tpoOk z then m.fail stRange
    else if z.mode = 1 && z.start < e.time.twoAhead then .done (m.tpoLate e k z) stLate [] []
    else .ok ((m.tpoStage k z).tpoSet e k z)) e m

/-- TPO_DISARM (R86, R87). -/
def execTpoDisarm (c : Cmd) (s : State) : Host.Outcome State Fault Refusal :=
  s.act fun e m => runCmd 0x15 c false false (fun e m =>
    let k := c.u8 0
    if 8 ≤ k then m.fail stRange
    else
      let o := m.tpo k
      if o.trail.isSome then .ok (m.setTpo e.time k { o with disarm := true, pend := none, next := none })
      else .ok ((m.s (.TPOk_CTRL_mode k) 0).setTpo e.time k
        ⟨{ o.cur with mode := 0 }, none, false, none, o.last, none⟩)) e m

/-! ### Capture inputs (R72 to R75) -/

/-- CAPTURE_EDGE: the pin of input k has changed its level and kept it for `stable` TIME cycles. An edge is one that lasted for the filter
(R72, R73); its stamp is that of the TIME cycle in which it reached the input synchroniser, two cycles and the filter's earlier. The pin is
ignored while TPOk is taken (R75). -/
def execCaptureEdge (k : Nat) (rising : Bool) (stable : Nat) (s : State) : Host.Outcome State Fault Refusal :=
  s.onInst (decide (k < 8)) fun e m =>
    if m.b (.CAPk_CTRL_src k) || decide (stable < m.g (.CAPk_CTRL_filt k)) then m
    else m.capture e k ⟨e.time.before (stable + 2), rising⟩

/-- CAP_FIFO_POP: the host's read of CAPk_SH returns its word and removes the head entry (R74). -/
def execCapFifoPop (k : Nat) (s : State) : Host.Outcome State Fault Refusal :=
  s.onInst (decide (k < 8)) fun _ m =>
    let off := Reg.CAPk_SH k
    (m.emit "READ" off ((m.latch.lookup off).getD (m.rd off)).toNat).setCap k ((m.cap k).drop 1)

def execCapOvfClear (k : Nat) (value : Word) (s : State) : Host.Outcome State Fault Refusal :=
  s.onInst (decide (k < 8)) fun _ m => if value.toNat / 2 ^ 31 % 2 = 1 then m.s (.CAPk_STS_ovf k) 0 else m

/-- CAP_SET (R86). -/
def execCapSet (c : Cmd) (s : State) : Host.Outcome State Fault Refusal :=
  s.act fun e m => runCmd 0x16 c false false (fun _ m =>
    let k := c.u8 0
    if 8 ≤ k || 3 < c.u8 1 || 1 < c.u8 3 then m.fail stRange
    else .ok (((m.s (.CAPk_CTRL_edge k) (c.u8 1)).s (.CAPk_CTRL_filt k) (c.u8 2)).s (.CAPk_CTRL_src k) (c.u8 3))) e m

/-! ### PTP stamps (R76 to R78) -/

/-- A number of n bytes in network order from an offset of a frame. -/
def netAt (f : List Byte) (off n : Nat) : Nat := unle ((f.drop off).take n).reverse

/-- Bytes in network order. -/
def netBytes (n v : Nat) : List Byte := (le n v).reverse

/-- Bytes laid over a frame from an offset. -/
def overwrite (off : Nat) (b f : List Byte) : List Byte := f.take off ++ b ++ f.drop (off + b.length)

/-- Where the PTP message of an Ethernet frame begins, and whether it is carried over UDP/IPv4: EtherType 0x88F7, or UDP to port 319,
with no VLAN tag or one (R76). The layouts of the frames are those of IEEE 802.3 and RFC 791 and 768 (PRESUMED, log 16). -/
def ptpAt (f : List Byte) : Option (Nat × Bool) :=
  let o := if netAt f 12 2 = 0x8100 then 18 else 14
  let h := o + netAt f o 1 % 16 * 4
  if netAt f (o - 2) 2 = 0x88F7 then some (o, false)
  else if netAt f (o - 2) 2 = 0x0800 && netAt f o 1 / 16 == 4 && netAt f (o + 9) 1 == 17 && netAt f (h + 2) 2 == 319 then some (h + 8, true)
  else none

/-- A PTP version 2 event message at an offset (R76): Sync, Delay_Req, Pdelay_Req or Pdelay_Resp, of types 0 to 3. -/
def ptpEvent (f : List Byte) (o : Nat) : Bool :=
  decide (netAt f o 1 % 16 ≤ 3) && netAt f (o + 1) 1 % 16 == 2 && decide (o + 44 ≤ f.length)

/-- A one-step Sync as it leaves (R78): the egress time as its originTimestamp, and no UDP checksum. -/
def ptpOneStep (f : List Byte) (o : Nat) (udp : Bool) (t : Stamp) : List Byte :=
  let g := overwrite (o + 34) (netBytes 6 t.sec ++ netBytes 4 t.ns) f
  if udp then overwrite (o - 2) [0, 0] g else g

/-- The PTP instance of port p has taken the egress stamps that waited. -/
def Mach.ptpTake (m : Mach) (p : Nat) : Mach :=
  if (nth [] m.time.ptp p).isEmpty then m
  else { m with time := { m.time with ptp := upd m.time.ptp p fun _ => [] } }.s (.PTPp_STS_level p) 0

/-- A PTP event message passes port p (R76 to R78): stamped with the timebase, moved to the connector by the port's latency, when
timestamping and its transport are enabled. An ingress stamp goes to the PTP instance, which has taken the egress stamps before it (DESIGN
CHOICE, log 102); an egress stamp is written into a one-step Sync, or queued for the instance. -/
def Mach.ptpStamp (m : Mach) (e : Env) (p : Nat) (egress : Bool) (f : List Byte) : Mach :=
  match ptpAt f with
  | none => m
  | some (o, udp) =>
    let on := m.b (.PTPp_CTRL_en p) && (if udp then m.b (.PTPp_CTRL_udp4 p) else m.b (.PTPp_CTRL_l2 p))
    let typ := netAt f o 1 % 16
    let seq := netAt f (o + 30) 2
    if !on || !ptpEvent f o then m
    else if !egress then
      (m.ptpTake p).emit "PTP_INGRESS" p seq (le 1 typ ++ (e.now.move (-(m.gi (.PTPp_RX_LAT_rx_lat p)))).bytes)
    else
      let t := e.now.move (m.gi (.PTPp_TX_LAT_tx_lat p))
      if m.b (.PTPp_CTRL_one_step p) && typ == 0 then m.emit "PTP_ONE_STEP" p seq (ptpOneStep f o udp t)
      else
        let l := nth [] m.time.ptp p
        if 16 ≤ l.length then (m.up (.PTPp_STS_ovf p)).setBit Reg.TIME_IRQ_STS (23 + p) true
        else { m with time := { m.time with ptp := upd m.time.ptp p fun _ => l ++ [EgressStamp.mk typ seq t] } }.s
          (.PTPp_STS_level p) (l.length + 1)

/-- PTP_EVENT_STAMP: the end of the start-of-frame delimiter of a frame passes the PHY interface of port p now. -/
def execPtpEventStamp (p : Nat) (egress : Bool) (frame : List Byte) (s : State) : Host.Outcome State Fault Refusal :=
  s.onInst (decide (p < 2)) fun e m => m.ptpStamp e p egress frame

def execPtpOvfClear (p : Nat) (value : Word) (s : State) : Host.Outcome State Fault Refusal :=
  s.onInst (decide (p < 2)) fun _ m => if value.toNat / 2 ^ 31 % 2 = 1 then m.s (.PTPp_STS_ovf p) 0 else m

/-- PTP_LAT_SET (R86). -/
def execPtpLatSet (c : Cmd) (s : State) : Host.Outcome State Fault Refusal :=
  s.act fun e m => runCmd 0x17 c e.isSealed false (fun _ m =>
    let p := c.u8 0
    if 2 ≤ p then m.fail stRange
    else .ok ((m.s (.PTPp_RX_LAT_rx_lat p) (c.u32 4)).s (.PTPp_TX_LAT_tx_lat p) (c.u32 8))) e m

/-! ### Discipline and holdover (R79 to R85) -/

/-- EFFECTIVE_SOURCE_CHANGE: 10 ms without the master's HEARTBEAT, or one heard again (R79). -/
def execEffectiveSourceChange (s : State) : Host.Outcome State Fault Refusal := s.act fun e m => m.effSource e

/-- The increment units of a phase correction at the slew rate: rate ns/s on the increment in use. DESIGN CHOICE (log 99): rounded up to
a whole LSB. -/
def slewLimit (rate inc : Nat) : Nat := (rate * inc + 999999999) / 1000000000

/-- slewing follows the remaining offset (R81); its end raises source 54. -/
def Mach.setSlewing (m : Mach) (v : Bool) : Mach :=
  let m1 := if m.b .TIME_STS_slewing && !v then m.setBit Reg.TIME_IRQ_STS 22 true else m
  m1.sb .TIME_STS_slewing v

/-- The window in which a servo commits its increments (R115): the 800 ms that follow each PPS edge; with no PPS, always. -/
def Mach.servoWindow (m : Mach) (e : Env) : Bool := !m.ppsRole || decide (e.ns % 1000000000 ≤ 800000000)

/-- A servo's increment: committed in its window, and otherwise at the next PPS edge (R115). -/
def servoInc (i : Nat) (e : Env) (m : Mach) : Timebase × Mach :=
  if m.servoWindow e then setInc i e m else (e.time, { m with time := { m.time with incDue := some i } })

/-- Measurements more than 1.5 s apart are an interruption (DESIGN CHOICE, log 102). -/
def Mach.unbroken (m : Mach) (e : Env) : Bool := decide (e.ns ≤ m.time.lastMeas + 1500000000)

/-- What a valid measurement leaves: its instant, offset and uncertainty, and the run of measurements it goes on with or begins (R82, R85).
In holdover the uncertainty stays that of the entry (R83). -/
def Mach.measured (m : Mach) (e : Env) (offset : Int) (unc : Nat) : Mach :=
  let run := if m.unbroken e then m.time.runSince.getD e.ns else e.ns
  { m with time := { m.time with lastMeas := e.ns, lastOff := offset, runSince := some run,
                                 e0 := if m.b .TIME_STS_hold then m.time.e0 else some unc } }

/-- A valid measurement of the effective source (R80, R81): the timebase less the source is `offset` ns with an uncertainty,
`freq` is the servo's frequency estimate and `want` the increment it asks for. The phase part of the change is held to the
slew rate and the result to R55; in holdover the increment stays fixed (R82), and while a step waits for its boundary nothing more is
corrected (R81). -/
def measurement (offset : Int) (unc freq want : Nat) (e : Env) (m : Mach) : Timebase × Mach :=
  if m.srcFree then (e.time, m)
  else
    let m1 := m.measured e offset unc
    if m.b .TIME_STS_hold || m.time.step.isSome then (e.time, m1)
    else if !m.b .TIME_STS_valid then requestStep (-offset) e m1
    else if m.g .TIME_SLEW_step_min < offset.natAbs && m.b .TIME_DISC_allow_step then
      requestStep (-offset) e (m1.setSlewing false)
    else
      let lim := slewLimit (m.g .TIME_SLEW_rate) freq
      let i := (clampInt ((freq : Int) - lim) (freq + lim) want).toNat
      let r := if incOk i then servoInc i e m1 else (e.time, m1)
      (r.1, r.2.setSlewing (decide (4 < offset.natAbs)))

/-- GPS time against the PTP timescale, in ns (R113). -/
def gpsToPtp : Int := 315964819000000000

/-- A measurement of GNSS is valid for discipline (R104, R113, R117): the last solution was a timing solution, and no false signal is
over. -/
def Mach.gnssValid (m : Mach) : Bool := m.b .GNS_STS_valid_time && !m.b .GNS_STS_fsi_over

/-- DISCIPLINE_MEASUREMENT: the source's time now, in ns of its own timescale; for GNSS `sys` is the broadcast offset of its system from GPS
time (R113). A follower's measurements are those of the beacons (R500). -/
def disciplineMeasurement (time sys : Int) (unc freq want : Nat) (e : Env) (m : Mach) : Timebase × Mach :=
  match m.g .TIME_STS_src_eff with
  | 1 => if m.gnssValid then measurement ((e.ns : Int) - (time + sys + gpsToPtp)) unc freq want e m else (e.time, m)
  | 2 => measurement ((e.ns : Int) - time) unc freq want e (m.ptpTake 0)
  | 3 => measurement ((e.ns : Int) - time) unc freq want e (m.ptpTake 1)
  | _ => (e.time, m)

def execDisciplineMeasurement (time sys : Int) (unc freq want : Nat) (s : State) : Host.Outcome State Fault Refusal :=
  s.actTime (disciplineMeasurement time sys unc freq want)

/-- Holdover is due (R82): valid, and no valid measurement for the entry time since the last one or since the source became effective. -/
def Mach.holdDue (m : Mach) (e : Env) : Bool :=
  m.b .TIME_STS_valid && !m.b .TIME_STS_hold && !m.srcFree
    && decide (max m.time.lastMeas m.time.srcSince + m.g .TIME_HOLD_CFG_entry * 1000000000 ≤ e.ns)

/-- Entry to holdover (R82): the increment is fixed at its mean over the last 64 s. The uncertainty at entry is the last
measurement's; where none was ever taken it is open. A mean of admissible increments is admissible (R55). -/
def holdEnter (e : Env) (m : Mach) : Timebase × Mach :=
  if !m.holdDue e then (e.time, m)
  else
    let r := incMean (e.ns - 64000000000) e.ns m.time.incHist
    let i := if r.2 = 0 then e.time.inc else r.1 / r.2
    let (e0, m1) := match m.time.e0 with
      | some x => (x, m)
      | none => let f := m.free; (f.1.toNat, { f.2 with time := { f.2.time with e0 := some f.1.toNat } })
    let s := if incOk i then servoInc i e m1 else (e.time, m1)
    (s.1, (((((s.2.sb .TIME_STS_hold true).s .TIME_HOLD_TIME_t 0).s .TIME_HOLD_BOUND_bound e0).setBit Reg.TIME_IRQ_STS 16
      true).event e 0x1003 (some 3) (le 1 (m.g .TIME_STS_src_eff) ++ le 4 e0)).anchor e 0)

def execHoldoverEntry (s : State) : Host.Outcome State Fault Refusal := s.actTime holdEnter

/-- One more second in holdover (R83, R84). -/
def Mach.holdBound (m : Mach) (e : Env) : Mach :=
  if !m.b .TIME_STS_hold then m
  else
    let t := m.g .TIME_HOLD_TIME_t + 1
    let rate := if m.b .GEN_CLK_REF_ref_lost then 2500 else m.g .TIME_HOLD_CFG_rate_ref
    let bound := min (m.time.e0.getD 0 + rate * t) 0xFFFFFFFF
    let m1 := (m.s .TIME_HOLD_TIME_t t).s .TIME_HOLD_BOUND_bound bound
    if m.g .TIME_HOLD_CFG_limit * 1000 < bound && !m.b .TIME_STS_bound_over then
      ((m1.sb .TIME_STS_bound_over true).setBit Reg.TIME_IRQ_STS 17 true).event e 0x1005 (some 4) (le 4 bound)
    else m1

def execHoldBoundUpdate (s : State) : Host.Outcome State Fault Refusal := s.act fun e m => m.holdBound e

/-- The end of holdover (R85): after 2 s of valid measurements without interruption; the event carries the offset last measured. -/
def Mach.holdExit (m : Mach) (e : Env) : Mach :=
  let due := match m.time.runSince with | some r => decide (r + 2000000000 ≤ e.ns) && m.unbroken e | none => false
  if !m.b .TIME_STS_hold || !due then m
  else ((((m.sb .TIME_STS_hold false).sb .TIME_STS_bound_over false).setBit Reg.TIME_IRQ_STS 16 true).event e 0x1004
    (some 2) (le 4 (m.g .TIME_HOLD_TIME_t) ++ le 4 (ofInt 32 m.time.lastOff))).anchor e 0

def execHoldoverExit (s : State) : Host.Outcome State Fault Refusal := s.act fun e m => m.holdExit e

/-- TIME_PULSE for the next PPS edge (R114): posted once per edge, in the reset role only, from 200 ms to 100 ms before the edge. -/
def execTimePulse (offset : Option Int) (s : State) : Host.Outcome State Fault Refusal :=
  s.act fun e m =>
    match (m.tpo 0).next with
    | some n =>
      if m.ppsRole && m.time.ppsReported != some n && decide (n ≤ e.ns + 200000000) && decide (e.ns + 100000000 ≤ n)
      then m.timePulse e n offset 0 else m
    | none => m

/-- AON_COPY (R52): while valid is set, and AON works (R37). -/
def execAonCopy (s : State) : Host.Outcome State Fault Refusal :=
  s.act fun e m =>
    if m.b .TIME_STS_valid && !m.clkFailed 11 then { m with time := { m.time with aon := e.time.sec, aonValid := true } } else m

/-! ### Commands (R86, R87) -/

def execTimeGet (c : Cmd) (s : State) : Host.Outcome State Fault Refusal :=
  s.act fun e m => runCmd 0x10 c false true (fun e m =>
    .done m stOk (le 6 e.time.sec ++ le 4 e.time.ns ++ le 4 e.time.frac ++ le 2 0) []) e m

/-- A step that a command requests (R87): the command waits for it and completes in the cycle that applies it. -/
def commandStep (op : Nat) (c : Cmd) (d : Int) (e : Env) (m : Mach) : Timebase × Mach :=
  requestStep d e { m with time := { m.time with stepCmds := m.time.stepCmds ++ [⟨op, c⟩] } }

def timeSet (c : Cmd) (e : Env) (m : Mach) : Timebase × Mach :=
  let done (m : Mach) (st : Nat) : Timebase × Mach := (e.time, m.complete e 0x11 c st [] [])
  match m.accept e 0x11 c false false with
  | (m, some st) => done m st
  | (m, none) =>
    if !m.srcFree then done m stState
    else if 1000000000 ≤ c.u32 6 then done m stRange
    else if !m.stepAllowed then done m.refuseStep 0x40
    else
      let want : Int := (c.un 0 6 * 1000000000 + c.u32 6 : Nat)
      commandStep 0x11 c (want - ((e.ns : Int) + m.time.step.getD 0)) e m

def execTimeSet (c : Cmd) (s : State) : Host.Outcome State Fault Refusal := s.actTime (timeSet c)

def timeAdjust (c : Cmd) (e : Env) (m : Mach) : Timebase × Mach :=
  let done (m : Mach) (st : Nat) : Timebase × Mach := (e.time, m.complete e 0x12 c st [] [])
  let inc := c.un 8 5
  let load := c.u8 0 % 2 == 1
  let step := c.u8 0 / 2 % 2 == 1
  let ns := toSigned 32 (c.u32 20)
  match m.accept e 0x12 c false false with
  | (m, some st) => done m st
  | (m, none) =>
    if !m.srcFree then done m stState
    else if load && !incOk inc then done m stRange
    else if step && !stepNsOk ns then done m.refuseStep stRange
    else if step && !m.stepAllowed then done m.refuseStep 0x40
    else
      let r := if load then
          let r := setInc inc e m
          (r.1, r.2.pulseRevised e { e with time := r.1 } false)
        else (e.time, m)
      if step then commandStep 0x12 c (toSigned 32 (c.u32 16) * 1000000000 + ns) { e with time := r.1 } r.2
      else (r.1, r.2.complete { e with time := r.1 } 0x12 c stOk [] [])

def execTimeAdjust (c : Cmd) (s : State) : Host.Outcome State Fault Refusal := s.actTime (timeAdjust c)

def execTimeDiscSet (c : Cmd) (s : State) : Host.Outcome State Fault Refusal :=
  s.act fun e m => runCmd 0x13 c e.isSealed false (fun e m =>
    if 3 < c.u8 0 || 1 < c.u8 1 || c.u16 2 < 200 || 20000 < c.u16 2 then m.fail stRange
    else .ok (((((m.s .TIME_DISC_src (c.u8 0)).s .TIME_DISC_allow_step (c.u8 1)).s .TIME_SLEW_rate (c.u16 2)).s
      .TIME_SLEW_step_min (c.u16 4)).effSource e)) e m

/-! ### Host writes of the TIME registers (R8, R59, R91) -/

/-- A host write of a TIME register without a row of its own: increment fraction and step values are taken only while the
effective source is FREE (R59); an unassigned source code reads back 0 (R91); the slew rate is clamped (R91). DESIGN CHOICE (log 100): a
field of TIME_HOLD_CFG whose range starts at 1 takes a 0 as written. -/
def Mach.timeWrite (m : Mach) (e : Env) (off : Nat) (v : Word) : Mach :=
  if off = Reg.TIME_INC_LO then
    if m.srcFree then { m with time := { m.time with incLo := v.toNat } } else m.hostIgnored
  else if off = Reg.TIME_STEP_NS || off = Reg.TIME_STEP_S then
    if m.srcFree then m.hostPut e.locked true off v else m.hostIgnored
  else if off = Reg.TIME_DISC then
    let m1 := m.hostPut e.locked true off v
    (if 3 < m1.g .TIME_DISC_src then m1.s .TIME_DISC_src 0 else m1).effSource e
  else if off = Reg.TIME_SLEW then
    let m1 := m.hostPut e.locked true off v
    m1.s .TIME_SLEW_rate (min (max (m1.g .TIME_SLEW_rate) 200) 20000)
  else m.hostPut e.locked true off v

end Sys2Proof.Machine
end

