-- ==== Sys2Proof/Machine/Net.lean ====
section
/-!
DEFINITION. The Ethernet ports (chapter 15): frames, IEC 61162-450 datagrams, link changes, and the commands of the ports.
Log: 16 (PRESUMED), 89 (DEDUCED).
-/
namespace Sys2Proof.Machine

/-- A frame of no service, or that the port cannot take, is dropped and counted. -/
def Mach.netDrop (m : Mach) (f : Fld) : Mach := m.up f

/-- The port is enabled and its link is up, and the NET domain runs (R37). -/
def Mach.netUp (m : Mach) (p : Nat) : Bool := m.b (.NETp_CTRL_en p) && m.b (.NETp_STS_link p) && !m.clkFailed 7

/-- The port's IP services: an address of 0 disables every one (R565). -/
def Mach.ipOn (m : Mach) (p : Nat) : Bool := m.rd (Reg.NETp_IP p) != 0

/-- What a frame is for: `none` is any other kind, a fragment among them. -/
inductive FrameUse where
  | arp | icmp | ptp | ptpUdp | safe | n450 | maint | none
  deriving DecidableEq, Repr

/-! The layouts of frames and datagrams are those of IEEE 802.3 and RFC 791, 792, 826 and 768 (PRESUMED, log 16). -/

/-- Where the payload of a frame begins: past one VLAN tag or none. -/
def frameBody (f : List Byte) : Nat := if netAt f 12 2 = 0x8100 then 18 else 14

/-- The octets of an address in network order, as a number. -/
def Mach.ip (m : Mach) (p : Nat) : Nat := (m.rd (Reg.NETp_IP p)).toNat

/-- The group of a port that an address and UDP port belong to, where it is joined. -/
def Mach.groupOf (m : Mach) (p addr udp : Nat) : Option Nat :=
  (List.range 16).find? fun g => (m.g (.NETp_STS_joined p)).testBit g
    && (match (m.hif.groups.getD p [])[g]? with | some x => x.addr == addr && x.udp == udp | none => false)

/-- What a UDP datagram to an address and port is for (R566 to R569). -/
def Mach.udpUse (m : Mach) (p addr udp : Nat) : FrameUse :=
  if udp = 319 || udp = 320 then .ptpUdp
  else if (m.groupOf p addr udp).isSome then .n450
  else if addr = (m.rd (Reg.NETp_SAFE_DST p)).toNat && (List.range 16).any (fun k => match m.saf.connRec k with | some r => rh r 20 == udp | none => false) then .safe
  else if addr = m.ip p && udp = m.g (.NETp_MAINT_port p) then .maint
  else .none

/-- What a frame is for (R565, R566): an ARP request for the port's address, an ICMP echo request to it, PTP, or a datagram of a service. -/
def Mach.frameUse (m : Mach) (p : Nat) (f : List Byte) : FrameUse :=
  let o := frameBody f
  let h := o + netAt f o 1 % 16 * 4
  let typ := netAt f (o - 2) 2
  if typ = 0x88F7 then .ptp
  else if typ = 0x0806 then (if netAt f (o + 6) 2 = 1 && netAt f (o + 24) 4 = m.ip p then .arp else .none)
  else if typ != 0x0800 || netAt f o 1 / 16 != 4 || netAt f (o + 6) 2 % 0x4000 != 0 then .none
  else if netAt f (o + 9) 1 = 1 then (if netAt f (o + 16) 4 = m.ip p && netAt f h 1 = 8 then .icmp else .none)
  else if netAt f (o + 9) 1 = 17 then m.udpUse p (netAt f (o + 16) 4) (netAt f (h + 2) 2)
  else .none

/-- The head of a frame that answers another: to its sender, from the port, tagged as the port tags. -/
def Mach.answerHead (m : Mach) (e : Env) (p : Nat) (f : List Byte) : List Byte :=
  (f.drop 6).take 6 ++ netBytes 6 (e.vault.mac + p) ++ m.netTag p false ++ (f.drop (frameBody f - 2)).take 2

/-- The ARP reply. -/
def Mach.arpReply (m : Mach) (e : Env) (p : Nat) (f : List Byte) : List Byte :=
  let o := frameBody f
  m.answerHead e p f ++ (f.drop o).take 6 ++ netBytes 2 2 ++ netBytes 6 (e.vault.mac + p) ++ netBytes 4 (m.ip p) ++ (f.drop (o + 8)).take 10

/-- The sum of the 16-bit words of RFC 791's checksum. -/
def inetSum : List Byte → Nat
  | a :: b :: l => a.toNat * 256 + b.toNat + inetSum l
  | [a] => a.toNat * 256
  | [] => 0

/-- The checksum over bytes. -/
def inetCheck (l : List Byte) : Nat :=
  let fold (n : Nat) : Nat := n % 65536 + n / 65536
  65535 - fold (fold (inetSum l))

/-- The ICMP echo reply: addresses exchanged, type 0, and its checksum. -/
def Mach.echoReply (m : Mach) (e : Env) (p : Nat) (f : List Byte) : List Byte :=
  let o := frameBody f
  let n := netAt f o 1 % 16 * 4
  let rest := (f.drop (o + n + 4)).take (netAt f (o + 2) 2 - n - 4)
  m.answerHead e p f ++ (f.drop o).take 12 ++ (f.drop (o + 16)).take 4 ++ (f.drop (o + 12)).take 4 ++ (f.drop (o + 20)).take (n - 20)
    ++ le 2 0 ++ netBytes 2 (inetCheck rest) ++ rest

/-- The port serves frames of a use (R565, R566, R568, R569). -/
def Mach.netServes (m : Mach) (p : Nat) : FrameUse → Bool
  | .arp => m.ipOn p
  | .icmp => m.ipOn p && m.b (.NETp_CTRL_icmp p)
  | .ptp => m.b (.NETp_CTRL_ptp p)
  | .ptpUdp => m.ipOn p && m.b (.NETp_CTRL_ptp p)
  | .safe => m.ipOn p && m.b (.NETp_CTRL_safe p) && m.rd (Reg.NETp_SAFE_DST p) != 0
  | .n450 => m.ipOn p && m.b (.NETp_CTRL_n450 p)
  | .maint => m.ipOn p && m.b (.NETp_CTRL_maint p) && m.g (.NETp_MAINT_port p) != 0
  | .none => false

/-- ETH_FRAME_RECEIVE: a frame, from its destination address to before its FCS, is counted, and served or dropped. What a PTP, safe, IEC 61162-450 or
maintenance frame carries is a row of its own. -/
def execEthFrameReceive (p : Nat) (frame : List Byte) (fcsOk noBuf : Bool) (s : State) : Host.Outcome State Fault Refusal :=
  s.onInst (decide (p < 2)) fun e m =>
    if !m.netUp p then m
    else
      let m1 := m.upWrap (.NETp_RX_CNT_frames p)
      let use := m1.frameUse p frame
      if !fcsOk then m1.netDrop (.NETp_DROP_CNT_fcs p)
      else if noBuf then m1.netDrop (.NETp_DROP_CNT_no_buf p)
      else if (frameBody frame == 18) != m1.b (.NETp_VLAN_vlan_en p) || !m1.netServes p use then m1.netDrop (.NETp_DROP_CNT_other p)
      else match use with
        | .arp => m1.netSend "ARP" p 0 (m1.arpReply e p frame)
        | .icmp => m1.netSend "ICMP" p 0 (m1.echoReply e p frame)
        | _ => m1

/-- NET_LINK (R570, R573): a change of link. -/
def execNetLink (p : Nat) (up : Bool) (s : State) : Host.Outcome State Fault Refusal :=
  s.onInst (decide (p < 2)) fun e m =>
    if m.b (.NETp_STS_link p) = up then m
    else ((m.sb (.NETp_STS_link p) up).setBit Reg.HIF_IRQ_STS 30 true).event e 0x0104 (some (if up then 2 else 3))
      (le 1 p ++ le 1 (if up then 1 else 0))

/-! ### IEC 61162-450 (R567) -/

/-- The six bytes every datagram begins with. -/
def udpbc : List Byte := [0x55, 0x64, 0x50, 0x62, 0x43, 0x00]

/-- The parts of a list between separators. -/
def splitBytes (sep : Byte) : List Byte → List Byte → List (List Byte)
  | acc, [] => [acc.reverse]
  | acc, b :: l => if b = sep then acc.reverse :: splitBytes sep [] l else splitBytes sep (b :: acc) l

/-- The s: parameter of the first tag block. -/
def tagSource (l : List Byte) : Option (List Byte) :=
  let block := ((l.dropWhile (· != 0x5C)).drop 1).takeWhile (· != 0x5C)
  let params := splitBytes 0x2C [] (block.takeWhile (· != 0x2A))
  (params.find? fun p => p.take 2 == [0x73, 0x3A]).map (·.drop 2)

/-- The sentences of a datagram under R150: the characters of the open one, newest first, whether it is open, then the bytes to come. -/
def sentencesOf : Bool → List Byte → List Byte → List (List Byte)
  | _, _, [] => []
  | false, _, b :: l => if b = 0x24 || b = 0x21 then sentencesOf true [b] l else sentencesOf false [] l
  | true, acc, b :: l =>
    if b = 0x24 || b = 0x21 then sentencesOf true [b] l
    else if 82 ≤ acc.length then sentencesOf false [] l
    else if acc.head? == some 0x0D then
      if b = 0x0A then acc.tail.reverse :: sentencesOf false [] l else sentencesOf false [] l
    else if b = 0x0D then sentencesOf true (b :: acc) l
    else if b.toNat < 0x20 || 0x7E < b.toNat then sentencesOf false [] l
    else sentencesOf true (b :: acc) l

/-- A group of a port. -/
def Mach.group450 (m : Mach) (p g : Nat) : Group450 := nth ⟨0, 0, [], 0⟩ (nth [] m.hif.groups p) g
def Mach.setGroup (m : Mach) (p g : Nat) (f : Group450 → Group450) : Mach :=
  { m with hif := { m.hif with groups := upd m.hif.groups p fun l => upd l g f } }

/-- A filter's characters; all 0: none. -/
def filterText (l : List Byte) : List Byte := l.filter (· != 0)

/-- A datagram is accepted (R567). -/
def Mach.n450Ok (m : Mach) (p g : Nat) (l : List Byte) : Bool :=
  let f := filterText (m.group450 p g).filter
  l.take 6 == udpbc && (f.isEmpty || tagSource (l.drop 6) == some f)

/-- A rejected datagram: NET_REJECT at most once per minute per port. -/
def Mach.n450Reject (m : Mach) (e : Env) (p g : Nat) : Mach :=
  let m1 := m.up (.NETp_DROP_CNT_n450_rej p)
  let quiet := match nth none m1.hif.rejectAt p with | some t => decide (e.powered < t + 15000000000) | none => false
  if quiet then m1
  else
    let m2 := { m1 with hif := { m1.hif with rejectAt := upd m1.hif.rejectAt p fun _ => some e.powered } }
    m2.event e 0x0105 (some 2) (le 1 p ++ le 1 g ++ le 1 (m2.g (.NETp_DROP_CNT_n450_rej p)))

/-- A sentence under R151 with cs_req set reaches the Lichen slots bound to the port and group. -/
def Mach.n450Sentence (m : Mach) (p g : Nat) (at_ : Stamp) (l : List Byte) : Mach :=
  if sentenceSum l == some true then m.lchFrame 2 p (some g) at_.toNs false l else m

/-- N450_DATAGRAM: the payload of a datagram to group g, whose start-of-frame delimiter ended `ago` ns back; its ingress stamp is that instant, moved to the
connector (R76, R207). -/
def execN450Datagram (p g : Nat) (payload : List Byte) (ago : Nat) (s : State) : Host.Outcome State Fault Refusal :=
  s.onInst (decide (p < 2) && decide (g < 16)) fun e m =>
    if !m.netUp p || !m.netServes p .n450 || !(m.g (.NETp_STS_joined p)).testBit g then m
    else if !m.n450Ok p g payload then m.n450Reject e p g
    else
      let m1 := m.setGroup p g fun x => { x with accepted := (x.accepted + 1) % 2 ^ 32 }
      let at_ := (Stamp.ofNs (e.ns - ago)).move (-(m.gi (.PTPp_RX_LAT_rx_lat p)))
      (sentencesOf false [] (payload.drop 6)).foldl (fun m l => m.n450Sentence p g at_ l) m1

/-! ### Commands (R563) -/

/-- The registers that NET_CFG carries, in its order. -/
def netCfgRegs (p : Nat) : List Nat :=
  [Reg.NETp_CTRL p, Reg.NETp_IP p, Reg.NETp_MASK p, Reg.NETp_GW p, Reg.NETp_VLAN p, Reg.NETp_SAFE_DST p, Reg.NETp_MAINT p]

/-- The image of the i-th of them, its reserved bits reading 0 (R7, R576). -/
def netCfgWord (c : Cmd) (i : Nat) : Word :=
  BitVec.ofNat 32 (c.d32 (4 * i) % (if i = 0 then 64 else if i = 4 || i = 6 then 65536 else 4294967296))

/-- The range of NET_CFG's images (R576): a VLAN ID of 1 to 4 094 where frames are tagged. -/
def netCfgOk (c : Cmd) : Bool :=
  let vlan := c.d32 16
  !vlan.testBit 15 || (decide (1 ≤ vlan % 4096) && decide (vlan % 4096 ≤ 4094))

def execNetCfg (c : Cmd) (s : State) : Host.Outcome State Fault Refusal :=
  s.act fun e m => runCmd 0x05 c e.isSealed false (fun _ m =>
    let p := c.u8 0
    if 2 ≤ p then m.fail stRange
    else if c.data.length != 28 then m.fail stLen
    else if !netCfgOk c then m.fail stRange
    else
      let m1 := iter 7 (fun i m => m.wr ((netCfgRegs p).getD i 0) (netCfgWord c i)) m
      .ok (m1.sb (.NETp_STS_ip_ok p) (m1.ipOn p))) e m

/-- NET_450_CFG: a group is joined, and IGMP reports it, or left. -/
def execNet450Cfg (c : Cmd) (s : State) : Host.Outcome State Fault Refusal :=
  s.act fun e m => runCmd 0x06 c e.isSealed false (fun _ m =>
    let p := c.u8 0
    let g := c.u8 1
    let addr := c.u32 4
    let bits := m.g (.NETp_STS_joined p)
    let multicast := addr / 2 ^ 28 == 14
    if 2 ≤ p || 16 ≤ g || 2 ≤ c.u8 2 || (c.u8 2 == 1 && !multicast) then m.fail stRange
    else if c.u8 2 = 0 then
      .ok ((m.s (.NETp_STS_joined p) (bits &&& (65535 - 2 ^ g))).setGroup p g fun _ => ⟨0, 0, [], 0⟩)
    else
      let m1 := (m.s (.NETp_STS_joined p) (bits ||| 2 ^ g)).setGroup p g fun _ => ⟨addr, c.u16 8, (c.params.drop 10).take 6, 0⟩
      .ok (if m1.ipOn p then m1.netSend "IGMP" p addr (m1.netTag p false) else m1)) e m

/-- A filter in the six bytes of a status entry. -/
def filterBytes (l : List Byte) : List Byte := (l ++ List.replicate 6 0).take 6

def execNetStatusGet (c : Cmd) (s : State) : Host.Outcome State Fault Refusal :=
  s.act (runCmd 0x07 c false true fun _ m =>
    let group (p g : Nat) : List Byte :=
      let x := m.group450 p g
      le 4 x.addr ++ le 2 x.udp ++ filterBytes x.filter ++ le 4 x.accepted
    .done m stOk [] ((List.range 2).flatMap (fun p => m.words (Reg.NETp_STS p) 4)
      ++ (List.range 2).flatMap fun p => (List.range 16).flatMap fun g => group p g))

/-- The ranges of PTP_CFG. -/
def ptpCfgOk (c : Cmd) : Bool :=
  let i (k : Nat) : Int := toSigned 8 (c.u8 k)
  let r (k : Nat) (lo hi : Int) : Bool := decide (lo ≤ i k) && decide (i k ≤ hi)
  decide (c.u8 0 < 2) && decide (c.u8 1 < 2) && decide (c.u8 2 < 128) && r 4 (-7) 1 && r 5 (-3) 3 && r 6 (-7) 5
    && decide (2 ≤ c.u8 9) && decide (c.u8 9 ≤ 10)

/-- PTP_CFG: the parameters that firmware runs the port's instance by (R566). -/
def execPtpCfg (c : Cmd) (s : State) : Host.Outcome State Fault Refusal :=
  s.act fun e m => runCmd 0x08 c e.isSealed false (fun _ m =>
    if !ptpCfgOk c then m.fail stRange
    else .ok { m with hif := { m.hif with ptp := upd m.hif.ptp (c.u8 0) fun _ => (c.params.drop 1).take 9 } }) e m

end Sys2Proof.Machine
end

