-- ==== Sys2Proof/Machine/Link.lean ====
section
/-!
DEFINITION. The Onauc link (R492 to R499, R513 to R515): its ports, the frames that arrive and leave, heartbeats and time.
Log: 30 (DEDUCED), 69 (DEDUCED), 113 (DEDUCED), 116 (DESIGN CHOICE), 125 (DEDUCED).
-/
namespace Sys2Proof.Machine

/-! ### Ports and frames (R495 to R497) -/

def Mach.setStk (m : Mach) (f : Stk → Stk) : Mach := { m with stk := f m.stk }

/-- The status register of a port. -/
def linkReg (port : Nat) : Nat := if port = 0 then Reg.STK_LINK0_STS else Reg.STK_LINK1_STS
def lkUp (port : Nat) : Fld := ⟨linkReg port, 0, 0⟩
def lkNb (port : Nat) : Fld := ⟨linkReg port, 3, 1⟩
def lkNbOk (port : Nat) : Fld := ⟨linkReg port, 4, 4⟩
def lkDowns (port : Nat) : Fld := ⟨linkReg port, 15, 8⟩
def lkCrc (port : Nat) : Fld := ⟨linkReg port, 31, 16⟩

/-- STK_LINK: port, up or down, neighbour. -/
def Mach.linkEvent (m : Mach) (e : Env) (port up : Nat) : Mach :=
  (m.stkIrq (4 + port)).event e 0x8805 (some (if up = 1 then 2 else 3)) (le 1 port ++ le 1 up ++ le 1 (m.g (lkNb port)))

/-- A port goes down (R495): what was heard over it no longer is. -/
def Mach.linkDown (m : Mach) (e : Env) (port : Nat) : Mach :=
  let m1 := (((m.sb (lkUp port) false).sb (lkNbOk port) false).up (lkDowns port)).linkEvent e port 0
  let m2 := m1.setStk fun x => { x with
    peers := x.peers.map fun p => { p with ports := p.ports.filter (· != port) }
    errAt := upd x.errAt port fun _ => [], downAt := upd x.downAt port fun _ => some e.upNs }
  iter 6 (fun p m => m.setBit Reg.STK_MEMBERS (8 + p) (decide (2 ≤ (nth Peer.reset m.stk.peers p).ports.length))) m2

/-- A frame with a bad CRC or an unknown type counts (R496, R497); more than 10 in 1 s take the port down (R495). -/
def Mach.linkBad (m : Mach) (e : Env) (port : Nat) : Mach :=
  let l := e.upNs :: ((m.stk.errAt.getD port []).filter fun t => decide (e.upNs < t + 1000000000))
  let m1 := (m.up (lkCrc port)).setStk fun x => { x with errs := upd x.errs port (· + 1), errAt := upd x.errAt port fun _ => l }
  if 10 < l.length then m1.linkDown e port else m1

/-- A frame goes on out of the other port (R496): its header with one hop more. -/
def Mach.linkForward (m : Mach) (h : LinkHdr) (typ : Nat) : Mach :=
  let other := 1 - h.port
  if 5 ≤ h.hops || !m.b (lkUp other) then m
  else m.emit "FWD" other typ (le 1 typ ++ le 1 h.src ++ le 1 h.dest ++ le 1 (linkClass typ + 16 * (h.hops + 1)) ++ le 2 h.seq)

/-- The key of a source and class. -/
def linkKey (h : LinkHdr) (typ : Nat) : Nat := 4 * h.src + linkClass typ

/-- The frame is the first copy of its sequence. -/
def Mach.linkNew (m : Mach) (h : LinkHdr) (typ : Nat) : Bool :=
  match m.stk.seqIn.find? fun p => p.1 == linkKey h typ with
  | some p => decide (0 < toSigned 16 (h.seq + 65536 - p.2 % 65536))
  | none => true

/-- A frame arrives at a port (R496): counted, forwarded, and delivered when it is the first copy and names this position. -/
def Mach.linkIn (m : Mach) (e : Env) (h : LinkHdr) (typ : Nat) (body : Mach → Mach) : Mach :=
  if 2 ≤ h.port || !m.b (lkUp h.port) then m
  else if !h.crcOk then m.linkBad e h.port
  else if h.src = m.pos then m
  else
    let m1 := m.linkForward h typ
    if !h.dest.testBit m.pos || !m.linkNew h typ then m1
    else body (m1.setStk fun x => { x with seqIn := setAssoc (linkKey h typ) h.seq x.seqIn })

/-- LINK_PORT_UP: a port that went down stays down for 1 s (R495). -/
def execLinkPortUp (port nb : Nat) (s : State) : Host.Outcome State Fault Refusal :=
  s.onInst (decide (port < 2)) fun e m =>
    if m.b (lkUp port) || (match m.stk.downAt.getD port none with | some t => decide (e.upNs < t + 1000000000) | none => false) then m
    else
      let m1 := (((m.sb (lkUp port) true).s (lkNb port) nb).sb (lkNbOk port) true).linkEvent e port 1
      if m.b (lkUp (1 - port)) then m1 else m1.setStk fun x => { x with joined := some e.upNs, aligned := false }

def execLinkPortDown (port : Nat) (s : State) : Host.Outcome State Fault Refusal :=
  s.onInst (decide (port < 2)) fun e m => if m.b (lkUp port) then m.linkDown e port else m

/-- STRAP_CHANGE: the straps no longer agree with the position of the start, which stands (R493). -/
def execStrapChange (straps : Nat) (s : State) : Host.Outcome State Fault Refusal :=
  s.act fun e m =>
    if m.b .STK_STS_strap_chg then m
    else ((m.sb .STK_STS_strap_chg true).stkIrq 10).event e 0x8809 (some 3) (le 1 straps)

/-! ### The configuration hash (R524) -/

/-- The SHA-256 of an image, or 32 bytes of 0 when it is not loaded. -/
def imageHash (l : List Byte) : List Byte := if l.isEmpty then List.replicate 32 0 else sha256 l

/-- A configuration image as it is signed: generation and CRC fields 0. -/
def asSigned (l : List Byte) : List Byte :=
  if l.length < 32 then l else l.take 8 ++ List.replicate 8 0 ++ (l.drop 16).take 12 ++ List.replicate 4 0 ++ l.drop 32

/-- The module's configuration hash. -/
def Mach.cfgHash (m : Mach) : List Byte :=
  sha256 (imageHash (asSigned m.fw.config) ++ imageHash m.lch.weights ++ imageHash m.pl.model)

/-! ### Heartbeats (R494, R510 to R514, R524) -/

def Mach.peer (m : Mach) (p : Nat) : Peer := nth Peer.reset m.stk.peers p
def Mach.setPeer (m : Mach) (p : Nat) (f : Peer → Peer) : Mach := m.setStk fun x => { x with peers := upd x.peers p f }

/-- The position of the peer controller. -/
def Mach.peerPos (m : Mach) : Nat := 1 - m.pos

/-- The island cannot be relied on (R513). -/
def Mach.islandFault (m : Mach) : Bool := m.saf.state != 2 || !m.saf.hbOk

/-- The payload of the module's own heartbeat (R513). -/
def Mach.heartbeat (m : Mach) : List Byte :=
  let f (b : Bool) (n : Nat) : Nat := if b then n else 0
  le 8 m.cycNum ++ le 1 m.role ++ le 1 m.state
    ++ le 1 (f (m.b .STK_BRG_own_drv) 1 + f (m.b .STK_BRG_cond) 2 + f m.islandFault 4 + f (m.b .STR_PL_STS_catchup) 8
      + f (m.b .STK_STS_master) 16)
    ++ le 1 0 ++ m.cfgHash.take 8 ++ le 2 m.stk.fmt ++ le 2 0

/-- STK_MEMBER: position, present, expected (R529, R532). -/
def Mach.member (m : Mach) (e : Env) (p : Nat) (on : Bool) : Mach :=
  let exp := m.bit Reg.STK_CFG p
  let m1 := (m.setBit Reg.STK_MEMBERS p on).setBit Reg.STK_MEMBERS (16 + p) (on && !exp)
  if m.bit Reg.STK_MEMBERS p = on then m1
  else (m1.stkIrq 9).event e 0x8808 (if !on && exp then some 3 else none) (le 1 p ++ le 1 (if on then 1 else 0) ++ le 1 (if exp then 1 else 0))

/-- peer_ok changes (R509, R514); the first heartbeat of all tells no return. -/
def Mach.peerOk (m : Mach) (e : Env) (p : Nat) (ok first : Bool) : Mach :=
  if m.b .STK_STS_peer_ok = ok then m
  else
    let m1 := (m.sb .STK_STS_peer_ok ok).stkIrq 8
    if ok && first then m1
    else m1.event e 0x8807 (some (if ok then 2 else 4)) (le 1 p ++ le 1 (if ok then 0 else 1))

/-- A SYNCING unit checks shadow format and configuration hash (R524). -/
def Mach.syncCheck (m : Mach) (e : Env) (q : Peer) : Mach :=
  if m.role != 2 || m.g .STK_SYNC_STS_phase != 1 then m
  else if q.fmt != m.stk.fmt then m.isolate e 4
  else if q.hash != m.cfgHash.take 8 then m.syncPhase e 2 0 false
  else m.syncPhase e 3 0 false

/-- What a controller draws from the heartbeat of an ACTIVE peer (R502, R503, R524). -/
def Mach.activeHeard (m : Mach) (e : Env) (q : Peer) : Mach :=
  let m1 := m.setStk fun x => { x with heard := true }
  if m1.role = 1 then
    if q.fmt != m1.stk.fmt then m1.isolate e 4
    else if q.hash != m1.cfgHash.take 8 then m1.setRole e 2 0 else m1
  else if m1.role = 7 && m1.stk.waits then { m1 with stk := { m1.stk with waits := false } }.setRole e 2 0
  else m1.syncCheck e q

/-- A heartbeat's content is taken (R513). -/
def Mach.heartbeatIn (m : Mach) (e : Env) (h : LinkHdr) (b : List Byte) : Mach :=
  let p := h.src
  let old := m.peer p
  let q : Peer := { old with miss := 0, present := true, at_ := e.upNs, cycle := unle (b.take 8), role := rb b 8, state := rb b 9,
                             flags := rb b 10, hash := (b.drop 12).take 8, fmt := rh b 20,
                             since := if old.present && old.role = rb b 8 then old.since else e.upNs,
                             freeFor := if (rb b 10).testBit 0 then none else if old.present && old.freeFor.isSome then old.freeFor else some e.upNs }
  let m2 := ((m.setPeer p fun _ => q).member e p true).effSource e
  if 2 ≤ m2.pos || p != m2.peerPos then m2
  else
    let m3 := ((m2.peerOk e p true (old.miss < 3)).s .STK_PEER_HASH_hash (unle (q.hash.take 4))).s .STK_SHADOW_FMT_peer q.fmt
    let m4 := if m3.role = 0 then m3.syncServe q (q.hash == m3.cfgHash.take 8) else m3
    if q.role = 0 then m4.activeHeard e q else m4

/-- Two modules report one position (R494): `d` is how many ms later the other joined the ring. -/
def Mach.duplicate (m : Mach) (e : Env) (d : Int) : Mach := if d ≤ 0 then m.isolate e 8 else m

/-- HEARTBEAT. `other` is given when the frame comes from another module that reports this module's position. Over which ports a module is
heard shows in two_path. -/
def execHeartbeat (h : LinkHdr) (payload : List Byte) (other : Option Int) (s : State) : Host.Outcome State Fault Refusal :=
  s.onInst (decide (h.src < 6)) fun e m =>
    match other with
    | some d => if h.src = m.pos && h.crcOk then m.duplicate e d else m
    | none =>
      let m1 := if h.crcOk && decide (h.port < 2) && h.src != m.pos && m.b (lkUp h.port) then
          let m' := m.setPeer h.src fun p => { p with ports := if p.ports.contains h.port then p.ports else h.port :: p.ports }
          m'.setBit Reg.STK_MEMBERS (8 + h.src) (decide (2 ≤ (m'.peer h.src).ports.length))
        else m
      m1.linkIn e h 1 fun m => m.heartbeatIn e h payload

/-- The table of R502 at the end of the listening, or when R505 first lets the module claim. -/
def Mach.resolveRole (m : Mach) (e : Env) : Mach :=
  if m.stk.heard then (m.setStk fun x => { x with waits := false }).setRole e 2 0
  else if m.b .STK_BRG_peer_rd then (m.setStk fun x => { x with waits := false }).isolate e 3
  else if m.lineAllowed then (m.setStk fun x => { x with waits := false }).claim e 0
  else m.setStk fun x => { x with waits := true }

/-- HEARTBEAT_SEND (R505, R513): once at each whole millisecond of the timebase; the hold timer restarts; a module whose role waits resolves it when it may now drive (R502), and an ACTIVE that let
its line go claims it again. -/
def execHeartbeatSend (s : State) : Host.Outcome State Fault Refusal :=
  s.act fun e m =>
    if m.state < 2 || (List.range 4).any (fun d => m.clkFailed d) || m.stk.sentMs == some (e.ns / 1000000) then m
    else
      let h := m.cfgHash
      let m1 := (((m.s .STK_CFG_HASH_hash (unle (h.take 4))).s .STK_SHADOW_FMT_own m.stk.fmt).linkSend 1 63 m.heartbeat).setStk fun x =>
        { x with hold := true, sentAt := e.upNs, sentMs := some (e.ns / 1000000) }
      if m1.stk.waits && m1.lineAllowed then m1.resolveRole e
      else if (m1.role == 0 || (m1.role == 3 && m1.paired)) && !m1.b .STK_BRG_own_drv then m1.claim e 0 else m1

/-- LINE_HOLD_EXPIRE (R505): 2.5 ms after the newest own heartbeat. -/
def execLineHoldExpire (s : State) : Host.Outcome State Fault Refusal :=
  s.act fun e m => if e.upNs < m.stk.sentAt + 2500000 then m else (m.setStk fun x => { x with hold := false }).lineCheck e

/-! ### Time over the link (R499, R500) -/

/-- DELAY_BEACON_SEND: at each whole millisecond the master sends the long stamp of the transmission, with its t_origin and cycle number. -/
def execDelayBeaconSend (s : State) : Host.Outcome State Fault Refusal :=
  s.act fun e m =>
    if m.b .STK_STS_master && m.stk.beaconMs != some (e.ns / 1000000)
    then (m.setStk fun x => { x with beaconMs := some (e.ns / 1000000) }).linkSend 0xC 63 (e.now.bytes ++ (Stamp.ofNs m.cycOrg).bytes ++ le 8 m.cycNum) else m

def execLinkDelayMeasure (port delay : Nat) (s : State) : Host.Outcome State Fault Refusal :=
  s.onInst (decide (port < 2)) fun _ m => m.setStk fun x => { x with delay := upd x.delay port fun _ => delay }

/-- A follower adopts the master's t_origin and cycle number (R15, R500): its boundaries are the master's from now on. -/
def Mach.adoptGrid (m : Mach) (now org num : Nat) : Mach :=
  let p := m.g .STR_PL_TIMING_period
  let t := p * 1000000
  let k := if now < org || t = 0 then 0 else (now - org) / t
  let cur := org + k * t
  let m1 := (m.setOrg org).wr64 Reg.GEN_CYC_LO Reg.GEN_CYC_HI num
  { m1 with grid := { m1.grid with running := true, first := decide (now < org), anchor := num - k, periodMs := p,
                                   next := if now < org then org else cur + t, e0 := cur, j0 := 4 * num },
            lch := { m1.lch with next := 4 * num + (now - cur) / (t / 4) + 1 } }

/-- A beacon steers a follower (R499, R500): `t`, `org` and `num` are the master's stamp, t_origin and cycle number; `unc`, `freq` and
`want` what the servo makes of the measurement. -/
def beacon (h : LinkHdr) (t org : Stamp) (num unc freq want : Nat) (e : Env) (m : Mach) : Timebase × Mach :=
  let off : Int := (e.ns : Int) - (t.toNs + h.residence + m.stk.delay.getD h.port 0 : Nat)
  let m1 := m.wr Reg.STK_TIME_OFS (BitVec.ofInt 32 off)
  let take (m : Mach) : Mach := if m.grid.running && m.cycOrg == org.toNs then m else m.adoptGrid e.ns org.toNs num
  if m1.stk.aligned then
    let m2 := (take m1).effSource e
    if m2.time.following then measurement off unc freq want e m2 else (e.time, m2)
  else
    let m2 := m1.setStk fun x => { x with aligned := true }
    if off.natAbs ≤ 1000 then (e.time, take m2)
    else
      let r := applyStep (-off) e { m2 with time := { m2.time with step := none } }
      (r.1, r.2.adoptGrid r.1.nowNs org.toNs num)

/-- DELAY: a beacon of the master arrives at a module that is not master. -/
def execDelay (h : LinkHdr) (t org : Stamp) (num unc freq want : Nat) (s : State) : Host.Outcome State Fault Refusal :=
  s.actTime fun e m =>
    let m1 := m.linkIn e h 0xC id
    if m1.stk.seqIn = m.stk.seqIn || m.b .STK_STS_master || !(m.role == 1 || m.role == 2 || m.role == 3) then (e.time, m1)
    else beacon h t org num unc freq want e m1

/-! ### What the active sends (R515) -/

/-- SAMPLE: a sample of another module, with its original stamp, enters the alignment buffer as one of the module's own does (R40, R213). -/
def execSample (h : LinkHdr) (slot : Nat) (x : LchSample) (s : State) : Host.Outcome State Fault Refusal :=
  s.onInst (decide (slot < 24)) fun e m => m.linkIn e h 2 fun m => m.lchTake slot x

/-- EPOCH_ASSIGN (R41, R217). -/
def execEpochAssign (h : LinkHdr) (epoch : Nat) (named : List (Nat × Nat)) (s : State) : Host.Outcome State Fault Refusal :=
  s.act fun e m => m.linkIn e h 3 fun m =>
    if m.role = 1 || m.role = 2 then
      { m with lch := { m.lch with assign := m.lch.assign ++ [(epoch, named)] } }.lchCloseNext e
    else m

/-- RELEASE (R290): the announced instant is that at which the cycle's set-points are taken; one that has passed is taken at the next base tick, and a
result that is not ready at it leaves the cycle UNSHADOWED. -/
def execRelease (h : LinkHdr) (cycle at_ : Nat) (s : State) : Host.Outcome State Fault Refusal :=
  s.act fun e m => m.linkIn e h 4 fun m => if m.role = 1 || m.role = 2 then m.plAnnounced e cycle at_ else m

/-- PACE (R314): a mark [0, k], or a summary [1, status, k, flags]. -/
def execPace (h : LinkHdr) (payload : List Byte) (s : State) : Host.Outcome State Fault Refusal :=
  s.act fun e m => m.linkIn e h 5 fun m =>
    if rb payload 0 = 0 then m.paceMark e (rb payload 1) else m.paceSummary e (rb payload 1) (rb payload 2) (rb payload 3)

/-- DIGEST (R516). -/
def execDigest (h : LinkHdr) (cycle digest status : Nat) (unshadowed : Bool) (s : State) : Host.Outcome State Fault Refusal :=
  s.act fun e m => m.linkIn e h 6 fun m =>
    let _ := status
    if m.pos < 2 && h.src = m.peerPos then { m with pl := { m.pl with peer := some (cycle, digest, unshadowed) } } else m

/-- SETPOINT (R282, R347): it waits for its instant, or is late; an expansion takes it only from its holder (R510). -/
def execSetpoint (h : LinkHdr) (at_ t : Nat) (value : Word) (s : State) : Host.Outcome State Fault Refusal :=
  s.onInst (decide (t < 48)) fun e m => m.linkIn e h 9 fun m =>
    if m.role = 3 && !(m.b .STK_STS_holder_valid && m.g .STK_STS_holder == h.src) then m
    else
      let m := if at_ < e.ns then m.strLate e t ((e.ns - at_) / 1000) else m
      { m with pl := { m.pl with remote := m.pl.remote ++ [(at_, t, value)] } }

/-- A forwarded command or register write joins what waits here (R211, R257, R340, R395, R515, R527): it completes at the module that
accepted it. -/
def Mach.commandIn (m : Mach) (e : Env) (op : Nat) (c : Cmd) (at_ : Nat) : Mach :=
  if op = 0x8C then { m with stk := { m.stk with cfgNext := some (BitVec.ofNat 32 (c.u32 0 % 2 ^ 21)) } }
  else if 0x40 ≤ op && op < 0x50 then { m with lch := { m.lch with pend := m.lch.pend ++ [(at_, op, c)] } }
  else if 0x50 ≤ op && op < 0x60 then m.plWait e at_ op c false
  else m.strQueue op c at_ false

def execCommand (h : LinkHdr) (op : Nat) (c : Cmd) (at_ : Nat) (s : State) : Host.Outcome State Fault Refusal :=
  s.act fun e m => m.linkIn e h 8 fun m =>
    let ok := if m.role = 3 then m.b .STK_STS_holder_valid && m.g .STK_STS_holder == h.src || decide (2 ≤ h.src)
      else m.role == 1 || m.role == 2
    if ok || op = 0x8C then m.commandIn e op c at_ else m

/-! ### Shadow records (R371, R372, R394) -/

/-- The active's value less the copy's own at the tagged tick. -/
def shadowDiff (a own : Word) : Word := fpSub a own

/-- A record of a CLOSED string: [0, string, tick, INT + INTC, D, u_prev, φ, step, entries …]. -/
def Mach.shadowApply (m : Mach) (e : Env) (b : List Byte) : Mach :=
  let t := rb b 1
  let tick := unle ((b.drop 2).take 8)
  let x := m.sg t
  match x.hist.find? fun h => h.at_ == tick with
  | none => m
  | some h =>
    let u := rw b 18
    let du := shadowDiff u h.u
    let m1 := (m.setSg t fun x => { x with dP := fpAdd x.dP (shadowDiff (rw b 14) h.d), uP := fpAdd x.uP du }).wr (Reg.STR_Ss_INT t)
      (fpAdd (m.rd (Reg.STR_Ss_INT t)) (shadowDiff (rw b 10) h.int_))
    if fpLt (fpMul 0x3C23D70A (fpMax 0x3F800000 (fpAbs u))) (fpAbs du) then
      ((m1.strEvt t (.STR_Ss_EVT_shadow_dev t)).up (.STR_Ss_CNT1_dev t)).event e 0x6004 (some 3) (le 1 t ++ le 4 du.toNat)
    else m1

/-- What the active's learner committed: its entries, φ and step replace the copy's own. -/
def Mach.shadowLearn (m : Mach) (b : List Byte) : Mach :=
  let t := rb b 1
  if b.length < 30 || !m.b (.STR_Ss_CFG_drone_en t) then m
  else
    let m1 := (m.s (.STR_DRN_Ss_PHASE_phi t) (rw b 22).toNat).s (.STR_DRN_Ss_STEP_step t) (rw b 26).toNat
    iter ((b.length - 30) / 6) (fun i m =>
      m.setDr t fun d => { d with table := upd d.table (rh b (30 + 6 * i)) fun _ => rw b (32 + 6 * i) }) m1

/-- A state change of the active: [1, string, state, cause]; the copy takes it with cause PEER. -/
def Mach.shadowState (m : Mach) (e : Env) (b : List Byte) : Mach :=
  let t := rb b 1
  let new := rb b 2
  if m.strState t = new then m
  else if new = 0 then m.strIdle e t 10 false
  else if m.strState t = 0 then (m.strEnable e t e.ns).strMove e t new 10
  else m.strMove e t new 10

/-- The law learns the state of a string at another position (R282). -/
def Mach.farState (m : Mach) (p t state : Nat) : Mach := { m with pl := { m.pl with far := setAssoc (64 * p + t) state m.pl.far } }

/-- SHADOW. -/
def execShadow (h : LinkHdr) (payload : List Byte) (s : State) : Host.Outcome State Fault Refusal :=
  s.act fun e m => m.linkIn e h 7 fun m =>
    if m.pos < 2 && !m.strLocal h.src then (if rb payload 0 = 1 && rb payload 1 < 48 then m.farState h.src (rb payload 1) (rb payload 2) else m)
    else if !m.strShadow || 48 ≤ rb payload 1 then m
    else if rb payload 0 = 1 then m.shadowState e payload
    else (m.shadowApply e payload).shadowLearn payload

end Sys2Proof.Machine
end

