-- ==== Sys2Proof/Machine/CfgImg.lean ====
section
/-!
DEFINITION. Signed images and the configuration store (R624 to R629, R651 to R654, R671): what an image must satisfy, the three copies, and the choice
among them.
-/
namespace Sys2Proof.Machine

/-- A little-endian number in a byte list. -/
def numAt (l : List Byte) (i n : Nat) : Nat := unle ((l.drop i).take n)

/-! ### Signatures and counters (R651, R653) -/

/-- The first of slots 1 to 3 that signs an image of a kind. -/
def signSlot (roots : List RootSlot) (kind : Nat) (l : List Byte) : Option Nat :=
  [1, 2, 3].find? fun k => slotsSign roots kind [k] (l.take (l.length - 96)) (l.drop (l.length - 96))

/-- The security version of an image version. -/
def secVer (version : Nat) : Nat := version / 2 ^ 24 % 256

/-! ### Records (R625, R627) -/

/-- A record of the configuration image: a command with its opcode, parameters and data, or a register write. -/
inductive CfgRec where
  | command (op : Nat) (params data : List Byte)
  | write (off : Nat) (value : Word)
  deriving DecidableEq, Repr

/-- One record at the front of a list, with its length. -/
def cfgRec (l : List Byte) : Option (CfgRec × Nat) :=
  let len := numAt l 2 2
  if len % 4 != 0 || l.length < len then none
  else match numAt l 0 1 with
    | 1 =>
      let n := numAt l 52 4
      if len < 56 || len < 56 + n then none
      else some (.command (numAt l 4 1) ((l.drop 8).take 44) ((l.drop 56).take n), len)
    | 2 => if len < 12 then none else some (.write (numAt l 4 4) (BitVec.ofNat 32 (numAt l 8 4)), len)
    | _ => none

/-- A number of records that end exactly where the list ends. -/
def cfgRecs : Nat → List Byte → Option (List CfgRec)
  | 0, l => if l.isEmpty then some [] else none
  | n + 1, l =>
    match cfgRec l with
    | none => none
    | some (r, len) => (cfgRecs n (l.drop len)).map fun rs => r :: rs

/-- The records of an image. -/
def imageRecs (l : List Byte) : Option (List CfgRec) :=
  if l.length < 160 then none
  else
    let body := (l.drop 64).take (l.length - 160)
    if body.length < numAt l 20 4 then none else cfgRecs (numAt l 20 4) body

/-! ### Classes of a copy (R624, R627) -/

/-- A configuration image's CRC, taken with its own field as 0. -/
def cfgCrc (l : List Byte) : Nat := crc32c (l.take 28 ++ List.replicate 4 0 ++ l.drop 32)

/-- A configuration image is validly signed. -/
def cfgSigned (e : Env) (l : List Byte) : Bool := (signSlot e.vault.roots 2 (asSigned l)).isSome

/-- The first check of R627 that an image fails, with the status of R671; none where it is INTACT. -/
def cfgFail (e : Env) (l : List Byte) : Option Nat :=
  let member := numAt l 6 2
  if l.take 4 != [0x4E, 0x58, 0x43, 0x46] || numAt l 4 2 != 1 || (member != 0 && member != 0x03D4) then some 0x40
  else if l.length < 160 || 1048576 < l.length || numAt l 24 4 != l.length then some stLen
  else if numAt l 28 4 != cfgCrc l then some stCrc
  else if !cfgSigned e l then some stAuth
  else if !e.fresh 3 (numAt l 16 4) then some 0x42
  else if (imageRecs l).isNone then some 0x40 else none

/-- The class of a copy: 0 EMPTY, 1 INTACT, 2 CORRUPT. -/
def copyClass (e : Env) (l : List Byte) : Nat :=
  if (l.take 64).all (· == 0) then 0 else if (cfgFail e l).isNone then 1 else 2

/-- The generation of a copy. -/
def cfgGen (l : List Byte) : Nat := numAt l 8 8

/-- Two INTACT copies agree. -/
def copiesAgree (a b : List Byte) : Bool := cfgGen a == cfgGen b && numAt a 28 4 == numAt b 28 4

/-- The choice of step 8 (R627): the copy used, 3 none, and the rule. -/
def cfgChoice (e : Env) (cs : List (List Byte)) : Nat × Nat :=
  let c (i : Nat) : List Byte := cs.getD i []
  let ok := [0, 1, 2].filter fun i => copyClass e (c i) == 1
  match ok with
  | [] => (3, 5)
  | [i] => (i, 3)
  | i :: rest =>
    if rest.all fun j => copiesAgree (c i) (c j) then (i, 0)
    else match ok.find? fun a => ok.any fun b => a != b && copiesAgree (c a) (c b) with
      | some a => (a, 1)
      | none =>
        let top := (ok.map fun j => cfgGen (c j)).foldl max 0
        match ok.filter fun j => cfgGen (c j) == top with
        | [j] => (j, 2)
        | _ => (3, 4)

/-- An image with its generation set and its CRC field recomputed (R628, R671). -/
def withGen (l : List Byte) (gen : Nat) : List Byte :=
  let x := l.take 8 ++ le 8 gen ++ l.drop 16
  x.take 28 ++ le 4 (cfgCrc x) ++ x.drop 32

/-- One more than the highest generation among the INTACT copies (R628). -/
def nextGen (e : Env) (cs : List (List Byte)) : Nat :=
  ((cs.filter fun l => copyClass e l == 1).map cfgGen).foldl max 0 + 1

/-- A write of a new image: copies A, B and C take it (R628), and UPD_CFG is posted. -/
def Mach.cfgStore (m : Mach) (e : Env) (l : List Byte) (gen : Nat) : Mach :=
  let x := withGen l gen
  (({ m with fw := { m.fw with copies := [x, x, x] } }).updIrq 4).event e 0xA005 (some 2) (le 8 gen ++ le 4 (numAt x 16 4))

end Sys2Proof.Machine
end

