-- ==== Sys2Proof/Machine/Upd.lean ====
section
/-!
DEFINITION. Field update (R658 to R671, R675): staging slots, verification, activation, confirmation and backup.
Log: 91 (DEDUCED), 126 (DEDUCED).
-/
namespace Sys2Proof.Machine

/-- A change outside the registers. -/
def Mach.setFw (m : Mach) (f : Upd → Upd) : Mach := { m with fw := f m.fw }

/-- A slot. -/
def Mach.slot (m : Mach) (n : Nat) : Slot := nth ⟨[], none⟩ m.fw.slots n
def Mach.setSlot (m : Mach) (n : Nat) (f : Slot → Slot) : Mach := m.setFw fun x => { x with slots := upd x.slots n f }
def Mach.slotState (m : Mach) (n : Nat) : Nat := m.g (.UPD_SLOTn_STS_state n)
def Mach.slotKind (m : Mach) (n : Nat) : Nat := m.g (.UPD_SLOTn_STS_kind n)

/-- Some slot is PENDING (R679). -/
def Mach.pendSync (m : Mach) : Mach := m.sb .UPD_STS_pending (m.slotState 0 == 4 || m.slotState 1 == 4)

/-- A slot's state changes, with UPD_SLOT (R661, R677). -/
def Mach.slotTo (m : Mach) (e : Env) (n new err : Nat) : Mach :=
  let old := m.slotState n
  let m1 := ((m.s (.UPD_SLOTn_STS_state n) new).s (.UPD_SLOTn_STS_err n) err).pendSync
  (m1.updIrq 0).event e 0xA001 (some (if new = 7 then 3 else 2)) (le 1 n ++ le 1 old ++ le 1 new ++ le 1 err)

/-- A slot emptied. -/
def Mach.slotEmpty (m : Mach) (e : Env) (n : Nat) : Mach :=
  let m1 := ((m.slotTo e n 0 0).setSlot n fun _ => ⟨[], none⟩).wr (Reg.UPD_SLOTn_STS n) 0
  ((m1.wr (Reg.UPD_SLOTn_SIZE n) 0).wr (Reg.UPD_SLOTn_RCVD n) 0).wr (Reg.UPD_SLOTn_VER n) 0

/-- The largest image of a kind (R658), 1 MAIN, 2 SAFE, 3 GNSS. -/
def kindMax : Nat → Nat
  | 1 => 134217728 | 2 => 4194304 | _ => 16777216

/-- The counter that guards a kind (R653). -/
def kindCtr : Nat → Nat
  | 1 => 0 | 2 => 2 | _ => 1

/-- The bit of a kind mask that signs a kind (R650). -/
def kindBit : Nat → Nat
  | 2 => 1 | _ => 0

/-- The slot is being verified. -/
def Mach.verifying (m : Mach) (n : Nat) : Bool := m.fw.verify.any fun v => v.1 == n

/-- The image in force of a kind, and the fallback or previous one. -/
def Mach.imageOf (m : Mach) (kind : Nat) : Option Image := nth none m.fw.active (kind - 1)
def Mach.oldImage (m : Mach) (kind : Nat) : Option Image := nth none m.fw.fallback (kind - 1)

/-- The bits of UPD_TRIAL (R679). -/
def trialBit (kind : Nat) : Fld := match kind with | 1 => .UPD_TRIAL_main_trial | 2 => .UPD_TRIAL_safe_trial | _ => .UPD_TRIAL_gnss_trial
def trialCnt (kind : Nat) : Fld := match kind with | 1 => .UPD_TRIAL_main_cnt | 2 => .UPD_TRIAL_safe_cnt | _ => .UPD_TRIAL_gnss_cnt

/-- The version of an image; 0 when there is none. -/
def versionOf (x : Option Image) : Nat := match x with | some i => i.version | none => 0

/-- The versions in force, the fallback slot's image, and the backup show in the registers. -/
def Mach.updSync (m : Mach) : Mach :=
  let main := if m.b .GEN_START_fallback then m.oldImage 1 else m.imageOf 1
  let m1 := (m.wr Reg.UPD_VER_MAIN (BitVec.ofNat 32 (versionOf main))).wr Reg.UPD_VER_GNSS (BitVec.ofNat 32 (versionOf (m.imageOf 3)))
  let m2 := (m1.wr Reg.UPD_VER_SAFE (BitVec.ofNat 32 (versionOf (m.imageOf 2)))).wr Reg.UPD_VER_FB (BitVec.ofNat 32 (versionOf (m.oldImage 1)))
  (m2.sb .UPD_STS_fb_ok (m.oldImage 1).isSome).sb .UPD_STS_backup (!m.fw.backup.isEmpty)

/-- The boot-hash cache is invalidated (R660). -/
def Mach.hashDrop (m : Mach) : Mach := m.sb .UPD_STS_hash_cache false

/-! ### Commands on a slot (R661 to R664, R675) -/

def execUpdBegin (c : Cmd) (s : State) : Host.Outcome State Fault Refusal :=
  s.act fun e m => runCmd 0xA0 c e.isSealed false (fun e m =>
    let n := c.u8 0
    let kind := c.u8 1
    let total := c.u32 4
    if 2 ≤ n || kind = 0 || 4 ≤ kind || total < 513 || kindMax kind < total then m.fail stRange
    else if m.verifying n then m.fail stBusy
    else if 4 ≤ m.slotState n && m.slotState n ≤ 6 then m.fail stState
    else
      let m1 := ((m.slotTo e n 1 0).setSlot n fun _ => ⟨[], none⟩).s (.UPD_SLOTn_STS_kind n) kind
      let m2 := (m1.sb (.UPD_SLOTn_STS_rollback_low n) false).wr (Reg.UPD_SLOTn_SIZE n) (BitVec.ofNat 32 total)
      .ok ((m2.wr (Reg.UPD_SLOTn_RCVD n) 0).wr (Reg.UPD_SLOTn_VER n) 0)) e m

/-- The units of a block, by number. -/
def blockUnits (first : Nat) : Nat → List Byte → List (Nat × List Byte)
  | 0, _ => []
  | n + 1, l => if l.isEmpty then [] else (first, l.take 512) :: blockUnits (first + 1) n (l.drop 512)

/-- A unit already received differs (R663). -/
def unitsConflict (have_ new : List (Nat × List Byte)) : Bool :=
  new.any fun u => have_.any fun v => v.1 == u.1 && v.2 != u.2

/-- The units of a slot with those of a block. -/
def unitsAdd (have_ new : List (Nat × List Byte)) : List (Nat × List Byte) := new.foldl (fun l u => setAssoc u.1 u.2 l) have_

def execUpdBlock (c : Cmd) (s : State) : Host.Outcome State Fault Refusal :=
  s.act (runCmd 0xA1 c false false fun e m =>
    let n := c.u8 0
    let off := c.u32 4
    let len := c.u32 8
    let total := (m.rd (Reg.UPD_SLOTn_SIZE n)).toNat
    if 2 ≤ n then m.fail stRange
    else if m.verifying n then m.fail stBusy
    else if m.slotState n != 1 then m.fail stState
    else if off % 512 != 0 || len = 0 || 65536 < len || total < off + len || (len % 512 != 0 && off + len != total) then m.fail stRange
    else if len != c.data.length then m.fail stLen
    else if crc32c c.data != c.u32 12 then m.fail stCrc
    else
      let new := blockUnits (off / 512) 128 c.data
      let old := (m.slot n).units
      if unitsConflict old new then m.fail 0x44
      else
        let units := unitsAdd old new
        let rcvd := min (units.length * 512) total
        let m1 := (m.setSlot n fun x => { x with units := units }).wr (Reg.UPD_SLOTn_RCVD n) (BitVec.ofNat 32 rcvd)
        .done (if rcvd = total then m1.slotTo e n 2 0 else m1) stOk (le 4 rcvd) [])

def execUpdVerify (c : Cmd) (s : State) : Host.Outcome State Fault Refusal :=
  s.act (runCmd 0xA2 c false false fun _ m =>
    let n := c.u8 0
    if 2 ≤ n then m.fail stRange
    else if m.verifying n then m.fail stBusy
    else if m.slotState n != 2 then m.fail stState
    else .wait (m.setFw fun x => { x with verify := x.verify ++ [(n, c)] }))

/-- The bytes of a received image. -/
def slotBytes (s : Slot) : List Byte := s.units.flatMap Prod.snd

/-- The manifest agrees with its slot (R659, R665). -/
def manifestOk (kind total : Nat) (l : List Byte) : Bool :=
  let member := numAt l 8 2
  l.take 4 == [0x4E, 0x58, 0x49, 0x4D] && numAt l 4 2 == 1 && numAt l 6 1 == kind && (member == 0 || member == 0x03D4)
    && (kind == 1 || numAt l 10 2 == 0) && decide (numAt l 16 4 < 2) && numAt l 20 4 + 512 == total
    && numAt l 24 8 == 0 && ((l.drop 176).take 336).all (· == 0)

/-- The first check of R665 that an image fails, with its status. For SAFE the island checks with its own copies (R652). -/
def verifyFail (e : Env) (m : Mach) (kind total : Nat) (l : List Byte) : Option Nat :=
  let k := numAt l 7 1
  let slot := nth RootSlot.reset e.vault.roots k
  let low := e.locked && decide (secVer (numAt l 12 4) < e.vault.ctr.getD (kindCtr kind) 0)
  let signed (roots : List RootSlot) : Bool := slotsSign roots (kindBit kind) [k] (l.take 80) ((l.drop 80).take 96)
  if !manifestOk kind total l then some 0x40
  else if !slot.programmed || slot.revoked || !slot.mask.testBit (kindBit kind) then some 0x43
  else if !signed e.vault.roots then some stAuth
  else if sha384 (l.drop 512) != (l.drop 32).take 48 then some 0x41
  else if low then some 0x42
  else if kind = 2 && !signed m.saf.keys then some stAuth
  else if kind = 2 && e.locked && secVer (numAt l 12 4) < m.saf.ctr2 then some 0x42 else none

/-- What the manifest says of an image. -/
def imageOfBytes (l : List Byte) : Image :=
  ⟨numAt l 12 4, numAt l 10 2, numAt l 7 1, numAt l 16 4 % 2 == 1, (l.length + 1048575) / 1048576, sha384 (l.take 512)⟩

/-- VERIFICATION_END (R665): of the oldest verification. -/
def execVerificationEnd (s : State) : Host.Outcome State Fault Refusal :=
  s.act fun e m =>
    match m.fw.verify with
    | [] => m
    | (n, c) :: vs =>
      let l := slotBytes (m.slot n)
      let kind := m.slotKind n
      let m1 := (m.setFw fun x => { x with verify := vs }).otpNote e [numAt l 7 1]
      match verifyFail e m kind (m.rd (Reg.UPD_SLOTn_SIZE n)).toNat l with
      | some st => (m1.slotTo e n 7 st).complete e 0xA2 c st [] []
      | none =>
        let i := imageOfBytes l
        let low := !e.locked && decide (secVer i.version < e.vault.ctr.getD (kindCtr kind) 0)
        let m2 := ((m1.setSlot n fun x => { x with image := some i }).wr (Reg.UPD_SLOTn_VER n) (BitVec.ofNat 32 i.version)).sb
          (.UPD_SLOTn_STS_rollback_low n) low
        (m2.slotTo e n 3 0).complete e 0xA2 c stOk (le 4 i.version) []

def execUpdActivate (c : Cmd) (s : State) : Host.Outcome State Fault Refusal :=
  s.act fun e m => runCmd 0xA3 c e.isSealed false (fun e m =>
    let n := c.u8 0
    let kind := m.slotKind n
    let other := 1 - n
    let busy := m.slotKind other == kind && decide (4 ≤ m.slotState other) && decide (m.slotState other ≤ 6)
    let restart := c.u8 1 % 2 == 1
    let alone := restart && c.u8 1 / 2 % 2 == 0 && m.role == 0 && !m.b .STK_STS_peer_ok
    if 2 ≤ n then m.fail stRange
    else if m.verifying n then m.fail stBusy
    else if m.slotState n != 3 || busy || m.fw.backup.contains kind || alone then m.fail stState
    else
      let m1 := m.slotTo e n 4 0
      .ok (if restart then { m1 with boot := { m1.boot with restart := some (false, 8), restartAt := e.powered + 2500000 } } else m1)) e m

def execUpdAbort (c : Cmd) (s : State) : Host.Outcome State Fault Refusal :=
  s.act fun e m => runCmd 0xA5 c e.isSealed false (fun e m =>
    let n := c.u8 0
    let st := m.slotState n
    if 2 ≤ n then m.fail stRange
    else if m.verifying n then m.fail stBusy
    else if st = 0 || st = 5 || st = 6 then m.fail stState
    else .ok (m.slotEmpty e n)) e m

/-- The receipt bitmap of a slot (R664): 262 144 bits. -/
def bitmap (units : List (Nat × List Byte)) : List Byte :=
  (List.range 32768).map fun i =>
    BitVec.ofNat 8 (((units.filter fun u => u.1 / 8 == i).map fun u => 2 ^ (u.1 % 8)).sum)

def execUpdBitmapGet (c : Cmd) (s : State) : Host.Outcome State Fault Refusal :=
  s.act (runCmd 0xA6 c false false fun _ m =>
    if 2 ≤ c.u8 0 then m.fail stRange
    else if m.verifying (c.u8 0) then m.fail stBusy
    else .done m stOk [] (bitmap (m.slot (c.u8 0)).units))

def execUpdStatusGet (c : Cmd) (s : State) : Host.Outcome State Fault Refusal :=
  s.act (runCmd 0xA8 c false true fun _ m => .done m stOk [] (m.words Reg.UPD_STS 16))

/-- UPD_CFG_WRITE (R628, R629, R671). Under a stop the module starts again. -/
def execUpdCfgWrite (c : Cmd) (s : State) : Host.Outcome State Fault Refusal :=
  s.act fun e m => runCmd 0xA7 c e.isSealed false (fun e m =>
    let m0 := m.otpNote e [1, 2, 3]
    match cfgFail e c.data with
    | some st => m0.fail st
    | none =>
      let gen := nextGen e m.fw.copies
      let m1 := m0.cfgStore e c.data gen
      let m2 := if m1.b .GEN_STATE_cfg_stop then { m1 with boot := { m1.boot with restart := some (false, 11), restartAt := e.powered } } else m1
      .done m2 stOk (le 8 gen) []) e m

/-! ### Backup (R669) -/

/-- The journal of a copy (R679): operation, kind, units, and units recorded. -/
def Mach.journal (m : Mach) (op kind units done : Nat) : Mach :=
  (((m.s .UPD_JOURNAL_op op).s .UPD_JOURNAL_kind kind).s .UPD_JOURNAL_units units).s .UPD_JOURNAL_done done

/-- The MiB units of an image. -/
def unitsOf (x : Option Image) : Nat := match x with | some i => i.units | none => 0

/-- UPD_COPY: kind, operation, units, result (0 done, else the status). -/
def Mach.copyEvent (m : Mach) (e : Env) (kind op units res : Nat) : Mach :=
  (m.updIrq 1).event e 0xA002 (some (if res = 0 then 2 else 5)) (le 1 kind ++ le 1 op ++ le 1 units ++ le 1 res)

/-- UPD_BACKUP: a backup ends in SERVICE (R669, R670), and the fallback section holds the confirmed image. -/
def execUpdBackup (s : State) : Host.Outcome State Fault Refusal :=
  s.act fun e m =>
    match m.fw.backup with
    | [] => m
    | kind :: rest => if m.state != 4 then m else
      let x := m.imageOf kind
      let m1 := m.setFw fun f => { f with backup := rest, fallback := upd f.fallback (kind - 1) fun _ => x }
      let m2 := match rest with | k :: _ => m1.journal 3 k (unitsOf (m1.imageOf k)) 0 | [] => m1.wr Reg.UPD_JOURNAL 0
      m2.updSync.copyEvent e kind 3 (unitsOf x) 0

/-! ### Envelope failures (R656) -/

/-- AUTH_FAIL_WINDOW_END: one SEC_AUTH_FAIL for the window. -/
def execAuthFailWindowEnd (s : State) : Host.Outcome State Fault Refusal :=
  s.act fun e m =>
    match m.fw.window with
    | some (n, key, op, t) => if e.powered < t + 250000000 then m else
      (m.setFw fun x => { x with window := none }).event e 0xB003 (some 3) (le 2 (min n 65535) ++ le 1 key ++ le 1 op)
    | none => m

end Sys2Proof.Machine
end

