-- ==== Sys2Proof/Machine/Sec.lean ====
section
/-!
DEFINITION. The Serelyel vault's commands (R645 to R654, R672, R673, R676): lifecycle, keys, counters, attestation and tamper; and UPD_CONFIRM, which raises a
counter.
Log: 92 (DEDUCED), 93 (DESIGN CHOICE).
-/
namespace Sys2Proof.Machine

/-! ### The vault in registers (R680) -/

/-- The sum of 2^i over the elements of a list that a condition holds of. -/
def maskOf {α : Type} (f : α → Bool) (l : List α) : Nat :=
  ((List.range l.length).filter fun i => match l[i]? with | some a => f a | none => false).foldl (fun n i => n + 2 ^ i) 0

/-- A lifecycle transition is half done (R647): one fuse of a pair is blown. -/
def Vault.partial_ (v : Vault) : Bool := v.fuses.any fun f => f.1 != f.2

/-- SEC_KEYS. -/
def Vault.keysWord (v : Vault) : Word :=
  BitVec.ofNat 32 (maskOf RootSlot.programmed v.roots + 2 ^ 8 * maskOf RootSlot.revoked v.roots
    + 2 ^ 16 * maskOf (fun (k : List Byte × Bool) => !k.1.isEmpty) v.cmds + 2 ^ 24 * maskOf (fun (k : List Byte × Bool) => k.2) v.cmds)

/-- SEC_ROOT_MASK. -/
def Vault.maskWord (v : Vault) : Word :=
  BitVec.ofNat 32 (((List.range 4).map fun k => 2 ^ (4 * k) * ((nth RootSlot.reset v.roots k).mask % 16)).sum)

/-- The SEC registers follow the vault; from SEALED the SP3 pairs serve SP3 (R648, R697). -/
def Mach.secSync (m : Mach) (v : Vault) : Mach :=
  let m1 := ((m.s .SEC_STS_lifecycle v.life).sb .SEC_STS_debug_en (decide (v.life < 2))).sb .SEC_STS_partial v.partial_
  let m2 := (m1.wr64 Reg.SEC_UID_LO Reg.SEC_UID_HI v.uid).wr Reg.SEC_KEYS v.keysWord
  iter 16 (fun w m => m.wr (Reg.SEC_CTRw w) (BitVec.ofNat 32 (unle ((List.range 4).map fun b => BitVec.ofNat 8 (v.ctr.getD (4 * w + b) 0)))))
    ((m2.wr Reg.SEC_ROOT_MASK v.maskWord).sb .GEN_PINMUX_dbg (m.b .GEN_PINMUX_dbg && decide (v.life < 2)))

/-- The island's copy of the keys and counters it uses (R652): keys only in FACTORY and OPEN, counters the higher of both. -/
def Mach.islandKeys (m : Mach) (v : Vault) : Mach :=
  let keys := v.roots.map fun s => if s.mask &&& 10 = 0 then RootSlot.reset else s
  { m with saf := { m.saf with keys := if v.life < 2 then keys else m.saf.keys,
                               ctr2 := max m.saf.ctr2 (v.ctr.getD 2 0), ctr4 := max m.saf.ctr4 (v.ctr.getD 4 0) } }

/-- What the vault's change brings outside it: registers, the island's copy, and the boot-hash cache (R648, R660). -/
def Mach.vaultChanged (m : Mach) (v : Vault) (drop : Bool) : Mach :=
  let m1 := (m.secSync v).islandKeys v
  if drop then m1.hashDrop else m1

/-- A command on the vault: the checks of R553, then what it does to the vault and outside it, its status and its result. -/
def vaultCmd (op : Nat) (c : Cmd) (need : Env → Bool) (body : Env → Mach → Vault × Mach × Nat × List Byte) (s : State) :
    Host.Outcome State Fault Refusal :=
  s.actVault fun e m =>
    match m.accept e op c (need e) false with
    | (m0, some st) => (e.vault, m0.complete e op c st [] [])
    | (m0, none) => let r := body e m0; (r.1, r.2.1.complete e op c r.2.2.1 r.2.2.2 [])

/-- A command on the vault that ends with a status and no effect. -/
def vaultFail (e : Env) (m : Mach) (st : Nat) : Vault × Mach × Nat × List Byte := (e.vault, m, st, [])

/-! ### Counters (R653, R654, R669) -/

/-- The versions in force of the images a counter guards. -/
def Mach.guarded (m : Mach) (k : Nat) : List Nat :=
  let v (x : Option Image) : List Nat := match x with | some i => [i.version] | none => []
  let n (l : List Byte) (off : Nat) : List Nat := if l.isEmpty then [] else [numAt l off 4]
  match k with
  | 0 => v (m.imageOf 1)
  | 1 => v (m.imageOf 3)
  | 2 => v (m.imageOf 2)
  | 3 => n m.fw.config 16 ++ n m.lch.weights 8 ++ n m.pl.model 8
  | _ => match m.saf.cfg with | some l => n l 8 | none => []

/-- A counter raised, with SEC_CTR. -/
def ctrRaise (e : Env) (m : Mach) (k value : Nat) : Vault × Mach :=
  let old := e.vault.ctr.getD k 0
  if value ≤ old then (e.vault, m)
  else
    let v := { e.vault with ctr := upd e.vault.ctr k fun _ => value }
    (v, (((m.vaultChanged v (k == 0)).updIrq 12).event e 0xB005 (some 2) (le 1 k ++ le 1 old ++ le 1 value)))

def execSecCtrAdvance (c : Cmd) (s : State) : Host.Outcome State Fault Refusal :=
  vaultCmd 0xB5 c Env.isSealed (fun e m =>
    let k := c.u8 0
    let v := c.u8 1
    if 4 < k then vaultFail e m stRange
    else if e.vault.ctr.getD k 0 < v && (m.guarded k).any (fun x => decide (secVer x < v)) then vaultFail e m stState
    else let r := ctrRaise e m k v; (r.1, r.2, stOk, le 1 (r.1.ctr.getD k 0))) s

/-- The slot whose kind is in TRIAL. -/
def Mach.trialSlot (m : Mach) (kind : Nat) : Option Nat := [0, 1].find? fun n => m.slotState n == 6 && m.slotKind n == kind

/-- What a confirmation does to the counter of its kind: the advance flag of the image in force raises it. -/
def Mach.confirmCtr (m : Mach) (e : Env) (kind : Nat) : Vault × Mach :=
  match m.imageOf kind with
  | some i => if i.advance then ctrRaise e m (kindCtr kind) (secVer i.version) else (e.vault, m)
  | none => (e.vault, m)

/-- What follows the confirmation: for MAIN and GNSS a backup, which runs or waits. -/
def Mach.backupStart (m : Mach) (kind : Nat) (image : Option Image) : Mach :=
  if kind = 2 then m
  else
    let m1 := m.setFw fun f => { f with backup := f.backup ++ [kind], fallback := upd f.fallback (kind - 1) fun _ => none }
    if m.fw.backup.isEmpty then m1.journal 3 kind (unitsOf image) 0 else m1

/-- UPD_CONFIRM (R669). -/
def execUpdConfirm (c : Cmd) (s : State) : Host.Outcome State Fault Refusal :=
  vaultCmd 0xA4 c Env.isSealed (fun e m =>
    let kind := c.u8 0
    let k := kindCtr kind
    let image := m.imageOf kind
    if kind = 0 || 4 ≤ kind then vaultFail e m stRange
    else match m.trialSlot kind with
      | none => vaultFail e m stState
      | some n =>
        if m.state != 4 || (kind == 1 && m.b .GEN_START_fallback) then vaultFail e m stState
        else
          let r := m.confirmCtr e kind
          let now := r.1.ctr.getD k 0
          let m1 := ((r.2.slotEmpty e n).sb (trialBit kind) false).s (trialCnt kind) 0
          let m2 := (m1.updIrq 3).event e 0xA004 (some 2) (le 1 kind ++ le 4 (versionOf image) ++ le 1 now)
          (r.1, (m2.backupStart kind image).updSync, stOk, le 1 now)) s

/-! ### Keys (R650, R651) -/

/-- SEC_KEY: root or command key, index, programmed or revoked. -/
def Mach.keyEvent (m : Mach) (e : Env) (typ i what : Nat) : Mach :=
  (m.updIrq 9).event e 0xB002 (some 3) (le 1 typ ++ le 1 i ++ le 1 what)

def execSecKeyProgram (c : Cmd) (s : State) : Host.Outcome State Fault Refusal :=
  vaultCmd 0xB3 c (fun _ => false) (fun e m =>
    let v := e.vault
    let typ := c.u8 0
    let i := c.u8 1
    let mask := c.u8 2
    let root := nth RootSlot.reset v.roots i
    let key := nth ([], false) v.cmds i
    if 2 ≤ typ || (typ == 0 && (i == 0 || decide (3 < i) || mask &&& 0xF3 != 0)) || (typ == 1 && decide (7 < i)) then vaultFail e m stRange
    else if c.data.length != (if typ = 0 then 96 else 32) then vaultFail e m stLen
    else if 2 ≤ v.life then vaultFail e m stState
    else if typ = 0 then
      if !root.key.isEmpty && (root.key != c.data || root.mask != mask) then vaultFail e m stState
      else if root.programmed then (v, m, stOk, [])
      else
        let v1 := { v with roots := upd v.roots i fun r => { r with key := c.data, mask := mask, hash := sha384 c.data } }
        (v1, (m.vaultChanged v1 true).keyEvent e 0 i 0, stOk, [])
    else
      if !key.1.isEmpty then if key.1 = c.data then (v, m, stOk, []) else vaultFail e m stState
      else
        let v1 := { v with cmds := upd v.cmds i fun k => (c.data, k.2) }
        (v1, (m.vaultChanged v1 true).keyEvent e 1 i 0, stOk, [])) s

/-- Slot k signed an image in force (R651). -/
def Mach.slotInForce (m : Mach) (e : Env) (k : Nat) : Bool :=
  let by_ (kind : Nat) (l : List Byte) : Bool := !l.isEmpty && signSlot e.vault.roots kind l == some k
  by_ 2 (asSigned m.fw.config) || by_ 2 m.lch.weights || by_ 2 m.pl.model || (match m.saf.cfg with | some l => by_ 3 l | none => false)

/-- A command key that can authenticate. -/
def keyLive (k : List Byte × Bool) : Bool := !k.1.isEmpty && !k.2

def execSecKeyRevoke (c : Cmd) (s : State) : Host.Outcome State Fault Refusal :=
  vaultCmd 0xB4 c Env.isSealed (fun e m =>
    let v := e.vault
    let typ := c.u8 0
    let i := c.u8 1
    let root := nth RootSlot.reset v.roots i
    let key := nth ([], false) v.cmds i
    if 2 ≤ typ || (typ == 0 && (i == 0 || decide (3 < i))) || (typ == 1 && decide (7 < i)) then vaultFail e m stRange
    else if typ = 0 then
      if !root.programmed then vaultFail e m stState
      else if root.revoked then (v, m, stOk, [])
      else if m.slotInForce e i then vaultFail e m stState
      else
        let v1 := { v with roots := upd v.roots i fun r => { r with revoked := true } }
        (v1, (m.vaultChanged v1 true).keyEvent e 0 i 1, stOk, [])
    else
      if key.1.isEmpty then vaultFail e m stState
      else if key.2 then (v, m, stOk, [])
      else if (v.cmds.filter keyLive).length ≤ 1 then vaultFail e m stState
      else
        let v1 := { v with cmds := upd v.cmds i fun k => (k.1, true) }
        (v1, (m.vaultChanged v1 true).keyEvent e 1 i 1, stOk, [])) s

/-! ### Lifecycle (R645 to R648) -/

/-- Every image in force meets its counter. -/
def Mach.imagesFresh (m : Mach) (v : Vault) : Bool :=
  (List.range 5).all fun k => (m.guarded k).all fun x => decide (v.ctr.getD k 0 ≤ secVer x)

/-- The conditions of OPEN to SEALED (R646). -/
def Mach.sealOk (m : Mach) (v : Vault) : Bool :=
  let carries (k : Nat) : Bool := let s := nth RootSlot.reset v.roots k; s.programmed && !s.revoked && s.mask.testBit 2
  let calm (n : Nat) : Bool := decide (m.slotState n < 4) || m.slotState n == 7
  v.cmds.any (fun k => !k.1.isEmpty) && [1, 2, 3].any carries && m.g .GEN_CFG_STS_rule == 0 && !m.fw.config.isEmpty
    && calm 0 && calm 1 && m.fw.backup.isEmpty && m.imagesFresh v

/-- A transition is one of R646 and its conditions hold; one half done needs none again (R647). -/
def Mach.lifeOk (m : Mach) (v : Vault) (target : Nat) : Bool :=
  let half := (v.fuses.getD (target - 1) (false, false)).1
  match v.life, target with
  | 0, 1 => half || (!v.idKey.isEmpty && (nth RootSlot.reset v.roots 0).programmed)
  | 1, 2 => half || m.sealOk v
  | 1, 3 => true
  | 2, 3 => true
  | _, _ => false

def execSecLifecycle (c : Cmd) (s : State) : Host.Outcome State Fault Refusal :=
  vaultCmd 0xB6 c (fun e => !(e.vault.life == 0 && c.u8 0 == 1)) (fun e m =>
    let v := e.vault
    let t := c.u8 0
    if t = 0 || 4 ≤ t then vaultFail e m stRange
    else if !m.lifeOk v t then vaultFail e m stState
    else
      let v1 := { v with fuses := upd v.fuses (t - 1) fun _ => (true, true),
                         cmds := if t = 3 then v.cmds.map fun k => ([], k.2) else v.cmds }
      (v1, ((m.vaultChanged v1 true).updIrq 8).event e 0xB001 (some 3) (le 1 v.life ++ le 1 v1.life), stOk, le 1 v1.life)) s

/-! ### Identity, attestation and status (R672, R676) -/

/-- A list padded with 0, or cut, to a length. -/
def sized (n : Nat) (l : List Byte) : List Byte := (l ++ List.replicate n 0).take n

def execSecStatusGet (c : Cmd) (s : State) : Host.Outcome State Fault Refusal :=
  s.act (runCmd 0xB0 c false true fun _ m => .done m stOk [] (m.words Reg.SEC_STS 32))

def execSecIdentityGet (c : Cmd) (s : State) : Host.Outcome State Fault Refusal :=
  s.act (runCmd 0xB1 c false false fun e m => .done m stOk [] (le 8 e.vault.uid ++ sized 96 e.vault.idKey ++ sized 96 e.vault.idSig))

/-- What a report holds (R672), in the rule's order. -/
def Mach.attestItems (m : Mach) (e : Env) (nonce : List Byte) : List Byte :=
  let r (off : Nat) : List Byte := le 4 (m.rd off).toNat
  nonce ++ le 8 e.vault.uid ++ le 1 e.vault.life ++ le 1 (m.g .SEC_STS_tamper) ++ r Reg.UPD_VER_MAIN ++ r Reg.UPD_VER_GNSS ++ r Reg.UPD_VER_SAFE
    ++ r Reg.UPD_VER_FB ++ (List.range 5).flatMap (fun k => le 1 (e.vault.ctr.getD k 0)) ++ r Reg.GEN_CFG_GEN_LO ++ r Reg.GEN_CFG_GEN_HI
    ++ r Reg.GEN_CFG_CRC ++ r Reg.SEC_KEYS ++ r Reg.SEC_ROOT_MASK

/-- SEC_ATTEST: the report's layout and the identity key's signature are open. -/
def execSecAttest (c : Cmd) (s : State) : Host.Outcome State Fault Refusal :=
  s.act (runCmd 0xB2 c false false fun e m =>
    if e.vault.life = 3 then m.fail stState
    else if c.data.length != 32 then m.fail stLen
    else
      let report := Config.attestReport (m.attestItems e c.data)
      .done m stOk [] (le 160 report.toNat ++ le 96 (Config.identitySign report).toNat))

/-! ### Tamper (R673) -/

/-- SEC_TAMPER. -/
def Mach.tamperEvent (m : Mach) (e : Env) (set : Bool) : Mach :=
  (m.updIrq 11).event e 0xB004 (some (if set then 4 else 2)) (le 1 (if set then 1 else 0))

/-- TAMPER_BREACH: the AON domain latches it; with power off it is told at the next start. -/
def execTamperBreach (s : State) : Host.Outcome State Fault Refusal :=
  s.act fun e m =>
    let m1 := { m with boot := { m.boot with breach := true } }
    if m.state = 0 || m.state = 1 then m1 else (m1.sb .SEC_STS_tamper true).tamperEvent e true

def execSecTamperClr (c : Cmd) (s : State) : Host.Outcome State Fault Refusal :=
  s.act (runCmd 0xB7 c true false fun e m =>
    if !m.b .SEC_STS_tamper then m.fail stState
    else .ok (({ m with boot := { m.boot with breach := false } }.sb .SEC_STS_tamper false).tamperEvent e false))

end Sys2Proof.Machine
end

