-- ==== Sys2Proof/Machine/Regs.lean ====
section
/-!
DEFINITION. Register accesses of the host that belong to no single block (R7 to R9, R34, R695): the write of any register, the
pin multiplexer, and the snapshot that a read of a lowest word takes.
Log: 47 (DEDUCED), 53 (DEDUCED).
-/
namespace Sys2Proof.Machine

/-! ### The pin multiplexer (R693 to R697, R710) -/

/-- Bit i of GEN_PINMUX[7:0] is quiescent: both instances it chooses between are disabled (R695). -/
def Mach.pinQuiet (m : Mach) (i : Nat) : Bool :=
  !m.b (.FBK_CHc_CFG_en (4 + i)) && (if i < 4 then !m.b (.FIL_SPp_CFG_en (4 + i)) else !m.b (.FBK_EMUe_CFG_en (i - 4)))

/-- The bits that take a write. -/
def Mach.pinMask (m : Mach) (locked : Bool) : Nat :=
  if locked then 0 else ((List.range 8).map fun i => if m.pinQuiet i then 2 ^ i else 0).sum

/-- A write of GEN_PINMUX: quiescent bits change, the others are ignored, and recorded where they would have changed. -/
def Mach.pinmuxWrite (m : Mach) (locked : Bool) (v : Word) : Mach :=
  let old := m.rd Reg.GEN_PINMUX
  let may : Word := BitVec.ofNat 32 (m.pinMask locked)
  let diff := (old ^^^ v) &&& 0xFF
  let m1 := if (diff &&& ~~~may) != 0 then m.writeIgnored Reg.GEN_PINMUX v else m
  m1.wr Reg.GEN_PINMUX (old ^^^ (diff &&& may))

/-- PINMUX_WRITE. -/
def execPinmuxWrite (value : Word) (s : State) : Host.Outcome State Fault Refusal := s.act fun e m => m.pinmuxWrite e.locked value

/-! ### Writes (R7 to R9) -/

/-- A write in the FBK block: an emulator starts with an empty backlog, and keeps its old settings where the new ones are refused
(R165, R193); a channel's CFG has its own rules (R166). -/
def Mach.fbkWrite (m : Mach) (e : Env) (off : Nat) (v : Word) : Mach :=
  if 0x00070100 ≤ off && off < 0x00070700 then
    let c := (off - 0x00070100) / 0x80
    if off = Reg.FBK_CHc_CFG c then m.fbCfgWrite e c v
    else m.hostPut e.locked (!m.b (.FBK_CHc_CFG_en c) && !e.locked) off v
  else if 0x00070800 ≤ off && off < 0x00070840 then
    let k := (off - 0x00070800) / 0x10
    let was := m.b (.FBK_EMUe_CFG_en k)
    let enable := off == Reg.FBK_EMUe_CFG k && v.toNat % 2 == 1 && !was
    let barred := enable && m.emuUnconnected k
    let m1 := m.hostPutBar e.locked (!was && !e.locked) (if barred then 1 else 0) off v
    let src := m1.g (.FBK_EMUe_CFG_src k)
    let num := m1.g (.FBK_EMUe_RATIO_num k)
    let den := m1.g (.FBK_EMUe_RATIO_den k)
    let bad := (12 ≤ src && src ≤ 14) || (m1.b (.FBK_EMUe_CFG_en k) && (num = 0 || den = 0 || 4 * den < num))
    if bad then m1.wr off (m.rd off)
    else (if enable && !barred then m1.emuStart e k else m1).emuHolds
  else m.hostPut e.locked true off v

/-- A write in the GEN block: conv_max is clamped (R644). -/
def Mach.genWrite (m : Mach) (e : Env) (off : Nat) (v : Word) : Mach :=
  if off = Reg.GEN_PINMUX then m.pinmuxWrite e.locked v
  else
    let m1 := m.hostPut e.locked true off v
    if off = Reg.GEN_START_CFG then m1.s .GEN_START_CFG_conv_max (max 1 (min 17 (m1.g .GEN_START_CFG_conv_max))) else m1

/-- A host write of a register without a row of its own, by its block (R711). Offsets without a writable register take nothing. -/
def Mach.regWrite (m : Mach) (e : Env) (off : Nat) (v : Word) : Mach :=
  if off < 0x00010000 then m.genWrite e off v
  else if off < 0x00020000 then m.hifWrite off v
  else if off < 0x00030000 then m.hostPut e.locked true off v
  else if off < 0x00040000 then m.timeWrite e off v
  else if off < 0x00048000 then m.strWrite e off v
  else if off < 0x00070000 then m.hostPut e.locked true off v
  else if off < 0x00080000 then m.fbkWrite e off v
  else if off < 0x00090000 then m.filWrite e off v
  else if off < 0x000A0000 then m.canWrite e off v
  else if off < 0x000B0000 then m.dioWrite e off v
  else if off < 0x000C0000 then m.hostPut e.locked true off v
  else if off < 0x000D0000 then m.gnsWrite e off v
  else m.hostPut e.locked true off v

/-- The number of a register in a family of n at `base`, `step` apart. -/
def famIdx (base step n off : Nat) : Option Nat :=
  if off < base || (off - base) % step != 0 || n ≤ (off - base) / step then none else some ((off - base) / step)

/-- A host write of any register: one that has a row of its own is that row. -/
def writeAny (off : Nat) (v : Word) (s : State) : Host.Outcome State Fault Refusal :=
  let rest (_ : Unit) : Host.Outcome State Fault Refusal := s.act fun e m => m.regWrite e off v
  let fam (base step n : Nat) (f : Nat → State → Host.Outcome State Fault Refusal)
      (k : Unit → Host.Outcome State Fault Refusal) : Host.Outcome State Fault Refusal :=
    match famIdx base step n off with
    | some i => f i s
    | none => k ()
  if off = Reg.TIME_CTRL then execTimeStepRequest v s
  else if off = Reg.TIME_INC_HI then execTimeIncCommit v s
  else if off = Reg.GNS_CTRL then execGnsCtrlRestart v s
  else if off = Reg.DIO_DO_CMD then execDioDoCmdWrite v s
  else
    fam (Reg.TPOk_CTRL 0) 0x20 8 (fun k => execTpoCommit k v) fun _ =>
    fam (Reg.CAPk_STS 0) 0x20 8 (fun k => execCapOvfClear k v) fun _ =>
    fam (Reg.PTPp_STS 0) 0x20 2 (fun p => execPtpOvfClear p v) fun _ =>
    fam (Reg.FBK_CHc_CFG 0) 0x80 12 (fun c => execFbkChEnable c v) fun _ =>
    fam (Reg.STR_Ss_SPH 0) 0x100 48 (fun t => execStrSphWrite t v) fun _ =>
    fam (Reg.CAN_c_CTRL 0) 0x1000 4 (fun c => execCanModeWrite c v) fun _ =>
    fam (Reg.DIO_DIi_CFG 0) 0x10 32 (fun i => execDioDiEnable i v) fun _ =>
    fam (Reg.IRQ_SRCs_TGT 0) 4 512 (fun n => execIrqSrcTgtWrite n v) fun _ =>
    fam (Reg.IRQ_SWR_SETx 0) 4 3 (fun x => execIrqSwrSet x v) fun _ =>
    fam (Reg.IRQ_SWR_CLRx 0) 4 3 (fun x => execIrqSwrClr x v) rest

/-- REGISTER_WRITE (R8). -/
def execRegisterWrite (off : Nat) (value : Word) (s : State) : Host.Outcome State Fault Refusal := writeAny off value s

/-! ### Snapshots (R34) -/

/-- The n registers from an offset. -/
def offsets (off n : Nat) : List Nat := (List.range n).map fun i => off + 4 * i

/-- The registers that a read of a lowest word latches; none for any other register. -/
def snapOf (off : Nat) : List Nat :=
  if off = Reg.GEN_CYC_LO then [Reg.GEN_CYC_HI]
  else if off = Reg.GEN_CYC_ORG_NS then [Reg.GEN_CYC_ORG_SL, Reg.GEN_CYC_ORG_SH]
  else if off = Reg.GEN_CFG_GEN_LO then offsets Reg.GEN_CFG_GEN_HI 3
  else if off = Reg.TIME_NOW_NS then offsets Reg.TIME_NOW_SL 3
  else if off = Reg.LCH_EPOCH_LO then [Reg.LCH_EPOCH_HI]
  else if off = Reg.LCH_DATUM_LAT_LO then offsets Reg.LCH_DATUM_LAT_HI 4
  else if off = Reg.LCH_OUT_NS then offsets Reg.LCH_OUT_SL 19
  else if off = Reg.STR_PL_REF_N then offsets Reg.STR_PL_REF_E 5
  else if off = Reg.SLV_LAST_STS then offsets Reg.SLV_LAST_MERIT 6
  else if off = Reg.LOG_HEAD_LO then offsets Reg.LOG_HEAD_HI 5
  else if off = Reg.SAF_STS then offsets 0x000B0008 206
  else match famIdx (Reg.CAPk_NS 0) 0x20 8 off with
    | some k => [Reg.CAPk_SL k, Reg.CAPk_SH k]
    | none => match famIdx (Reg.FBK_CHc_POS_LO 0) 0x80 12 off with
      | some c => offsets (Reg.FBK_CHc_POS_HI c) 6
      | none => match famIdx (Reg.FBK_CHc_IDX_CAP_LO 0) 0x80 12 off with
        | some c => [Reg.FBK_CHc_IDX_CAP_HI c, Reg.FBK_CHc_IDX_STMP c]
        | none => match famIdx (Reg.STR_Ss_SPV 0) 0x100 48 off with
          | some t => offsets (Reg.STR_Ss_FBV t) 6
          | none => match famIdx (Reg.STR_DRN_Ss_PHASE 0) 0x40 48 off with
            | some t => [Reg.STR_DRN_Ss_STEP t, Reg.STR_DRN_Ss_STS t]
            | none => []

/-- The present value of a register: those of the current time come from the timebase (R53), and the age of an open window from its
opening (R592). -/
def Mach.live (m : Mach) (e : Env) (off : Nat) : Word :=
  if off = Reg.TIME_NOW_NS then BitVec.ofNat 32 e.time.ns
  else if off = Reg.TIME_NOW_SL then BitVec.ofNat 32 e.time.sec
  else if off = Reg.TIME_NOW_SH then BitVec.ofNat 32 (e.time.sec / 2 ^ 32)
  else if off = Reg.TIME_NOW_FRAC then BitVec.ofNat 32 e.time.frac
  else if off = Reg.TIME_SHORT then BitVec.ofNat 32 e.now.short
  else match famIdx (Reg.IRQ_GRPg_STS 0) 0x10 16 off with
    | some g => if m.b (.IRQ_GRPg_STS_open g) then fldPut (.IRQ_GRPg_STS_elapsed g) (m.rd off) (m.irqElapsed e g) else m.rd off
    | none => m.rd off

/-- What a host read of a register returns: a latched value until the lowest word is read again. -/
def Mach.hostRead (m : Mach) (e : Env) (off : Nat) : Word := (m.latch.lookup off).getD (m.live e off)

/-- A read of a register latches its snapshot. -/
def Mach.snapshot (m : Mach) (e : Env) (off : Nat) : Mach :=
  { m with latch := (snapOf off).foldl (fun (l : List (Nat × Word)) o => setAssoc o (m.live e o) l) m.latch }

/-- A host read of any register: one that has a row of its own is that row. In OFF and SLEEP none answers (R3, R612). -/
def readAny (off : Nat) (s : State) : Host.Outcome State Fault Refusal :=
  if s.m.state < 2 then .next s
  else match famIdx (Reg.CAPk_SH 0) 0x20 8 off with
    | some k => execCapFifoPop k s
    | none => match famIdx (Reg.IRQ_VECv_CLAIM 0) 4 32 off with
      | some v => execIrqVecClaimRead v s
      | none => match famIdx (Reg.IRQ_CLAIMEDw 0) 4 16 off with
        | some w => execIrqClaimedRead w s
        | none => s.act fun e m => (m.snapshot e off).emit "READ" off (m.hostRead e off).toNat

/-- SNAPSHOT_READ: the host reads a register; a lowest word latches the words above it. -/
def execSnapshotRead (off : Nat) (s : State) : Host.Outcome State Fault Refusal := readAny off s

end Sys2Proof.Machine
end

