-- ==== Sys2Proof/Machine/Peat.lean ====
section
/-!
DEFINITION. The Peat event recorder (chapter 17): commits, eviction, anchors, reads, and the LOG commands.
Log: 90 (DEDUCED).
-/
namespace Sys2Proof.Machine

def Mach.setPeat (m : Mach) (f : Peat → Peat) : Mach := { m with peat := f m.peat }
def Mach.logIrq (m : Mach) (i : Nat) : Mach := m.setBit Reg.LOG_IRQ_STS i true

/-! ### Places in flash (R599, R600) -/

/-- Segments of the region and their size. -/
def segCount : Nat := 3072
def segSize : Nat := 4194304

/-- The bytes that records take. -/
def storedSize (l : List Stored) : Nat := (l.map fun x => recSize x.body).sum

/-- The bytes of the segments in service. -/
def Peat.room (p : Peat) : Nat := (segCount - p.retired.length) * segSize

/-- A record fits beside those kept (R600): relocation inside the flash is internal. -/
def Peat.fits (p : Peat) (kept : List Stored) (size : Nat) : Bool := decide (storedSize kept + size ≤ p.room)

/-- A stored TIME_ANCHOR. -/
def Stored.isAnchor (x : Stored) : Bool := x.body.typ == typAnchor

/-- The lowest record that may be evicted for a severity, with those below it and above it (R600): an anchor stays while a neighbour is
no anchor; the record to come is the neighbour above the newest. -/
def lowestEvictable (sev : Nat) : List Stored → List Stored → Option (List Stored × Stored × List Stored)
  | _, [] => none
  | below, x :: above =>
    let need (o : Option Stored) (edge : Bool) : Bool := match o with | some y => !y.isAnchor | none => edge
    let free := if x.isAnchor then !need below.head? false && !need above.head? true else decide (x.body.sev ≤ sev)
    if free then some (below.reverse, x, above) else lowestEvictable sev (x :: below) above

/-- Eviction in ascending sequence until a record fits: what is kept and the evicted sequences, or none (R600). -/
def Peat.evict (p : Peat) (sev size : Nat) : Nat → List Stored → List Nat → Option (List Stored × List Nat)
  | n, kept, gone =>
    if p.fits kept size then some (kept, gone)
    else match n with
      | 0 => none
      | n + 1 =>
        match lowestEvictable sev [] kept with
        | none => none
        | some (a, x, b) => p.evict sev size n (a ++ b) (gone ++ [x.seq])

/-- The next segment in service after one, in circular order. -/
def Peat.nextSeg (p : Peat) (k : Nat) : Nat :=
  (((List.range segCount).map fun i => (k + 1 + i) % segCount).find? fun i => !p.retired.contains i).getD k

/-- The records of a segment moved to its start, in ascending sequence: the place after them, and all records (relocation, R599). -/
def compact (k : Nat) (l : List Stored) : Nat × List Stored :=
  l.foldl (fun (a : Nat × List Stored) x =>
    if x.seg = k then (a.1 + recSize x.body, a.2 ++ [{ x with off := a.1 }]) else (a.1, a.2 ++ [x])) (0, [])

/-- A place for a record (R599): the present segment, or the first later one with room. -/
def Peat.place (p : Peat) (size : Nat) : Nat → Nat → Nat → List Stored → Option (Nat × Nat × List Stored)
  | n, k, off, l =>
    if off + size ≤ segSize then some (k, off, l)
    else match n with
      | 0 => none
      | n + 1 =>
        let k' := p.nextSeg k
        let c := compact k' l
        p.place size n k' c.1 c.2

/-! ### Registers (R610, R611) -/

/-- The lowest sequence present, or the next one. -/
def Peat.tail (p : Peat) : Nat := match p.stored with | x :: _ => x.seq | [] => p.next

/-- The mean rate over 24 h. -/
def Peat.mean (p : Peat) : Nat := (p.rate.map Prod.snd).sum / 86400

/-- The registers follow the recorder; the sequences read 0 until it is ready. -/
def Mach.peatSync (m : Mach) : Mach :=
  let p := m.peat
  let r := m.b .LOG_STS_ready
  let z (n : Nat) : Nat := if r then n else 0
  let m1 := ((m.wr64 Reg.LOG_HEAD_LO Reg.LOG_HEAD_HI (z (p.next - 1))).wr64 Reg.LOG_FLOOR_LO Reg.LOG_FLOOR_HI (z p.floor)).wr64
    Reg.LOG_TAIL_LO Reg.LOG_TAIL_HI (z p.tail)
  (((m1.s .LOG_USED_retired p.retired.length).s .LOG_USED_used (p.stored.map Stored.seg).eraseDups.length).sb .LOG_STS_full p.full).wr
    Reg.LOG_RATE (BitVec.ofNat 32 p.mean)

/-! ### Commits (R595, R598, R600) -/

/-- A record enters flash: numbered, placed, older ones evicted, or not placed. -/
def Mach.commit (m : Mach) (e : Env) (r : PeatRec) : Option Mach :=
  let p := m.peat
  let size := recSize r
  match p.evict r.sev size p.stored.length p.stored [] with
  | none => none
  | some (kept, gone) =>
    match p.place size segCount p.seg p.off kept with
    | none => none
    | some (k, off, l) =>
      let first := !gone.isEmpty && !p.full
      let new : Stored := ⟨p.next, { r with cmd := none }, k, off, true⟩
      let sec := e.poweredSec
      let rate := (setAssoc sec (assoc 0 p.rate sec + size) p.rate).filter fun x => decide (sec < x.1 + 86400)
      let m1 := m.setPeat fun p => { p with stored := l ++ [new], next := p.next + 1, seg := k, off := off + size, rate := rate,
                                            full := p.full || first, floor := gone.foldl (fun a n => max a (n + 1)) p.floor }
      let m2 := m1.s .LOG_EVICT_evicted (m1.g .LOG_EVICT_evicted + gone.length)
      let m3 := if m.g .LOG_CFG_irq_sev ≤ r.sev then m2.logIrq 0 else m2
      some (if first then (m3.logIrq 2).event e 0x9001 (some 2) (le 8 m3.peat.floor) else m3)

/-- An event whose Peat record is written otherwise reaches its event queue alone. -/
def Mach.postOnly (m : Mach) (e : Env) (sev code : Nat) (p : List Byte) : Mach :=
  (m.tellDrops e (m.g (.HIF_EVT_ROUTEb_eq (blockOfEvent code)))).route e sev code p

/-- The counts by severity of a DROPPED record. -/
def dropBytes (l : List Nat) : List Byte := (List.range 8).flatMap fun i => le 4 (l.getD i 0)

/-- The highest severity dropped. -/
def dropTop (l : List Nat) : Nat := ((List.range 8).filter fun i => l.getD i 0 != 0).foldl max 0

/-- After drops a DROPPED record comes first (R600); one that cannot be placed keeps its counts. -/
def Mach.commitDropped (m : Mach) (e : Env) : Mach :=
  let d := m.peat.dropSev
  if d.all (· == 0) then m
  else match m.commit e ⟨dropTop d, 0x11, typDropped, dropBytes d, none⟩ with
    | some m1 => (m1.setPeat fun p => { p with dropSev := List.replicate 8 0 }).postOnly e (dropTop d) 0x9002 (dropBytes d)
    | none => m

/-- LOG_FLUSH commands complete once every record that waited at their arrival has left the buffer (R607). -/
def Mach.flushStep (m : Mach) (e : Env) : Mach :=
  let l := m.peat.flush.map fun x => (x.1, x.2.1 - 1, x.2.2)
  let m1 := m.setPeat fun p => { p with flush := l.filter fun x => x.2.1 != 0 }
  (l.filter fun x => x.2.1 == 0).foldl (fun (m : Mach) x => m.complete e 0x95 x.1 stOk (le 8 (m.peat.next - 1)) []) m1

/-- The oldest buffered record is committed or dropped, and its LOG_WRITE completes. -/
def Mach.commitNext (m : Mach) (e : Env) : Mach :=
  match m.peat.buffer with
  | [] => m
  | r :: l =>
    let m1 := (m.setPeat fun p => { p with buffer := l }).commitDropped e
    let m2 := match m1.commit e r with
      | some m2 => match r.cmd with | some c => m2.complete e 0x93 c stOk (le 8 m1.peat.next) [] | none => m2
      | none =>
        let m2 := m1.peatDrop r.sev
        match r.cmd with | some c => m2.complete e 0x93 c 0x40 [] [] | none => m2
    ((m2.flushStep e).bufSync).peatSync

/-- A segment whose program or erase fails is retired (R605, R638). -/
def Mach.segRetire (m : Mach) (e : Env) (k : Nat) : Mach :=
  let m1 := m.setPeat fun p => { p with retired := p.retired ++ [k] }
  (((m1.sb .LOG_STS_flash_err true).logIrq 6).faultNote e 8 k 0).faultVerdict 8 k true |>.event e 0x9005 (some 5) (le 2 k)

/-- The write position after its segment is retired: the next one in service, after the records it holds. -/
def Mach.segAdvance (m : Mach) : Mach :=
  m.setPeat fun p =>
    let k := p.nextSeg p.seg
    let c := compact k p.stored
    { p with seg := k, off := c.1, stored := c.2 }

/-- LOG_WEAR (R605). -/
def Mach.wear (m : Mach) (e : Env) (life : Nat) : Mach :=
  let m1 := m.s .LOG_WEAR_life (min life 100)
  if decide (m.g .LOG_CFG_wear_thr ≤ min life 100) && !m.b .LOG_STS_wear_over then
    ((m1.sb .LOG_STS_wear_over true).logIrq 5).event e 0x9004 (some 3) (le 1 (min life 100))
  else m1

/-- RECORD_COMMIT: whether the flash took the program, and the life used that it reports. -/
def execRecordCommit (flashOk : Bool) (life : Nat) (s : State) : Host.Outcome State Fault Refusal :=
  s.act fun e m =>
    if !m.b .LOG_STS_ready || m.peat.erase.isSome || m.peat.buffer.isEmpty then m
    else
      let m1 := if flashOk then m else ((m.segRetire e m.peat.seg).segAdvance)
      (m1.commitNext e).wear e life

/-- anchor_ms have passed since the latest periodic anchor. -/
def Mach.anchorDue (m : Mach) (e : Env) : Bool := decide (m.peat.anchorAt + m.g .LOG_CFG_anchor_ms * 250000 ≤ e.powered)

/-- TIME_ANCHOR: every anchor_ms (R596). -/
def execTimeAnchor (s : State) : Host.Outcome State Fault Refusal :=
  s.act fun e m => if m.b .LOG_STS_ready && m.anchorDue e then (m.anchor e 0).setPeat fun p => { p with anchorAt := e.powered } else m

/-- LOG_FLUSH_TIMEOUT: the oldest flush has waited 10 s (R607). -/
def execLogFlushTimeout (s : State) : Host.Outcome State Fault Refusal :=
  s.act fun e m => match m.peat.flush with
    | (c, _, t) :: l => if e.powered < t + 2500000000 then m else (m.setPeat fun p => { p with flush := l }).complete e 0x95 c stTimeout (le 8 (m.peat.next - 1)) []
    | [] => m

/-- LOG_ERASED (R607): with the segments whose erase failed. -/
def execLogErased (failed : List Nat) (s : State) : Host.Outcome State Fault Refusal :=
  s.onInst (failed.all fun k => decide (k < segCount)) fun e m => match m.peat.erase with
    | some c =>
      let m1 := (failed.filter fun k => !m.peat.retired.contains k).foldl (fun m k => m.segRetire e k) m
      let m2 := m1.setPeat fun p =>
        let k := p.nextSeg (segCount - 1)
        { p with erase := none, stored := [], floor := p.next, full := false, seg := k, off := 0 }
      let m3 := ((m2.sb .LOG_STS_erasing false).logIrq 7).event e 0x9006 (some 2) (le 8 m2.peat.next)
      m3.peatSync.complete e 0x96 c stOk [] []
    | none => m

/-! ### Start (R601) -/

/-- The recorder at a start: what the buffer held is lost, numbering continues, and a new segment begins with START and an anchor. `cold` whether the
start is cold, `part` whether a partial record was found at the head. -/
def Mach.peatStart (m : Mach) (e : Env) (cold part : Bool) : Mach :=
  let p := m.peat
  let torn : List Stored := if part then [⟨p.next, ⟨0, 0x11, 0, [], none⟩, p.seg, p.off, false⟩] else []
  let off := if p.off = 0 && !part then 0 else segSize
  let m1 := m.setPeat fun p => { p with buffer := [], stored := p.stored ++ torn, off := off, flush := [], erase := none,
                                        dropSev := List.replicate 8 0, anchorAt := e.powered }
  let start : PeatRec := ⟨2, 0x11, typStart, le 1 (if cold then 1 else 2)
    ++ le 1 ((if p.emptyAtReset then 1 else 0) + (if part then 2 else 0)) ++ le 6 0 ++ le 8 (p.next - 1), none⟩
  let m2 := (m1.record start).anchor e anchorStart
  let m3 := (m2.boot.verdicts.foldl Mach.record m2).sb .LOG_STS_ready true
  ({ m3 with boot := { m3.boot with verdicts := [] } }).peatSync

/-- An orderly reset flushes the buffer (R601): what the 10 ms let pass is committed before it (RECORD_COMMIT); the rest is lost. -/
def Mach.peatReset (m : Mach) : Mach := m.setPeat fun p => { p with emptyAtReset := p.buffer.isEmpty }

/-! ### Reading (R602, R604) -/

/-- The bytes of a record (R593). -/
def recBytes (seq : Nat) (r : PeatRec) : List Byte :=
  let b := le 2 0xA5C3 ++ le 2 (r.payload.length / 4) ++ le 1 r.sev ++ le 1 r.src ++ le 2 r.typ ++ le 8 seq ++ r.payload
  b ++ le 4 (crc32c b)

/-- A CORRUPT marker (R594). -/
def corruptMarker (x : Stored) : List Byte := recBytes 0 ⟨0, 0x11, 0xF0FF, le 4 x.seg ++ le 4 x.off ++ le 4 (recSize x.body), none⟩

/-- What a read has gathered: bytes, records, first sequence, next sequence, corrupt ones met, whether the first did not fit, and whether it goes on. -/
structure ReadAcc where
  data : List Byte
  count : Nat
  first : Nat
  next : Nat
  bad : List Stored
  tight : Bool
  go : Bool
  deriving DecidableEq, Repr

/-- One stored record meets a read with a lowest severity, marker flag, limit and buffer size. -/
def readOne (sev : Nat) (mark : Bool) (limit size : Nat) (a : ReadAcc) (x : Stored) : ReadAcc :=
  let b := if x.good then recBytes x.seq x.body else corruptMarker x
  if !a.go then a
  else if x.good && x.body.sev < sev && !x.isAnchor then { a with next := x.seq + 1 }
  else if !x.good && !mark then { a with bad := a.bad ++ [x] }
  else if limit != 0 && a.count = limit then { a with go := false }
  else if size < a.data.length + b.length then { a with go := false, tight := a.count == 0 }
  else if x.good then
    { a with data := a.data ++ b, count := a.count + 1, first := if a.first = 0 then x.seq else a.first, next := x.seq + 1 }
  else { a with data := a.data ++ b, bad := a.bad ++ [x], count := a.count + 1 }

/-- A corrupt record found by a read (R602). -/
def Mach.corruptFound (m : Mach) (e : Env) (x : Stored) : Mach :=
  ((m.up .LOG_CNT_corrupt).logIrq 3).event e 0x9003 (some 3) (le 2 x.seg ++ le 4 x.off ++ le 4 (recSize x.body))

/-- Byte i of segment k (R599, R604). -/
def Peat.rawByte (p : Peat) (k i : Nat) : Byte :=
  let mine := p.stored.filter fun x => x.seg == k
  match mine.find? fun x => x.good && decide (x.off ≤ i) && decide (i < x.off + recSize x.body) with
  | some x => (recBytes x.seq x.body).getD (i - x.off) 0
  | none => if mine.any fun x => decide (i < x.off + recSize x.body) then Config.flashByte k i else 0xFF

/-! ### Commands (R606, R607) -/

/-- While an erase runs, every command but LOG_STATUS_GET completes with BUSY. -/
def logCmd (op : Nat) (c : Cmd) (need ro : Bool) (body : Env → Mach → Res) (s : State) : Host.Outcome State Fault Refusal :=
  s.act fun e m => runCmd op c (need && e.isSealed) ro (fun e m => if m.peat.erase.isSome then m.fail stBusy else body e m) e m

def execLogStatusGet (c : Cmd) (s : State) : Host.Outcome State Fault Refusal :=
  s.act (runCmd 0x90 c false true fun _ m => .done m stOk [] (m.words Reg.LOG_STS 16))

def execLogRead (c : Cmd) (s : State) : Host.Outcome State Fault Refusal :=
  logCmd 0x91 c false true (fun e m =>
    let start := c.un 0 8
    if 7 < c.u8 8 then m.fail stRange
    else
      let l := m.peat.stored.filter fun x => decide (start ≤ x.seq)
      let a := l.foldl (readOne (c.u8 8) (c.u8 9 % 2 == 1) (c.u32 12) c.bufLen) ⟨[], 0, 0, start, [], false, true⟩
      if a.tight then m.fail stLen
      else .done (a.bad.foldl (fun m x => m.corruptFound e x) m) stOk (le 8 a.first ++ le 8 a.next) a.data) s

def execLogSegRead (c : Cmd) (s : State) : Host.Outcome State Fault Refusal :=
  logCmd 0x92 c false true (fun _ m =>
    let k := c.u32 0
    let off := c.u32 4
    let n := c.u32 8
    if segCount ≤ k || off % 4 != 0 || n % 4 != 0 || segSize < off + n then m.fail stRange
    else if m.peat.retired.contains k then m.fail stState
    else .done m stOk [] ((List.range n).map fun i => m.peat.rawByte k (off + i))) s

def execLogWrite (c : Cmd) (s : State) : Host.Outcome State Fault Refusal :=
  logCmd 0x93 c false false (fun _ m =>
    let n := c.u32 4
    let r : PeatRec := ⟨c.u8 0, 0x12, c.u16 2, c.data, some c⟩
    if 4 < c.u8 0 || c.u16 2 < 0xE000 || 0xEFFF < c.u16 2 || n < 4 || 65532 < n || n % 4 != 0 then m.fail stRange
    else if n != c.data.length then m.fail stLen
    else if m.b .LOG_STS_buf_high then m.fail stBusy
    else if m.peatFiltered r then .done (m.record r) 0x41 [] []
    else if m.peatFull r then .done (m.record r) 0x40 [] []
    else .wait (m.record r)) s

/-- The ranges of LOG_CFG (R611). -/
def logCfgOk (v : Word) : Bool :=
  let wear := fldGet .LOG_CFG_wear_thr v
  let anchor := fldGet .LOG_CFG_anchor_ms v
  decide (1 ≤ wear) && decide (wear ≤ 100) && decide (1 ≤ anchor) && decide (anchor ≤ 1000)

def execLogCfgSet (c : Cmd) (s : State) : Host.Outcome State Fault Refusal :=
  logCmd 0x94 c true false (fun _ m =>
    let v : Word := BitVec.ofNat 32 (c.u32 0)
    if logCfgOk v then .ok (m.wr Reg.LOG_CFG (v &&& 0xFF0FFF77)) else m.fail stRange) s

def execLogFlush (c : Cmd) (s : State) : Host.Outcome State Fault Refusal :=
  logCmd 0x95 c false false (fun e m =>
    let n := m.peat.buffer.length
    if n = 0 then .done m stOk (le 8 (m.peat.next - 1)) []
    else .wait (m.setPeat fun p => { p with flush := p.flush ++ [(c, n, e.powered)] })) s

def execLogErase (c : Cmd) (s : State) : Host.Outcome State Fault Refusal :=
  logCmd 0x96 c true false (fun _ m =>
    if m.state != 5 then m.fail stState
    else .wait ((m.setPeat fun p => { p with erase := some c }).sb .LOG_STS_erasing true)) s

end Sys2Proof.Machine
end

