-- ==== Sys2Proof/Machine/Stk.lean ====
section
/-!
DEFINITION. Roles and takeover (R501 to R523, R527, R528): lines, claims, holders, lost peers, digests, switchover, and the commands of the
stack.
Log: 32 (DEDUCED), 81 (DEDUCED), 82 (DEDUCED), 125 (DEDUCED).
-/
namespace Sys2Proof.Machine

/-! ### Lines (R506 to R512) -/

/-- A line has read what it reads for `d` ns. -/
def Mach.lineFor (m : Mach) (e : Env) (line d : Nat) : Bool := decide (m.stk.lineAt.getD line 0 + d ≤ e.upNs)

/-- The own line has been driven for `d` ns without a break. -/
def Mach.drivenFor (m : Mach) (e : Env) (d : Nat) : Bool := m.b .STK_BRG_own_drv && decide (m.stk.drvAt + d ≤ e.upNs)

/-- The line on which the peer controller, or the partner of a pair, is read. -/
def Mach.peerLine (m : Mach) : Nat := if m.pos < 2 then 1 - m.pos else 2

/-- What BRG_n reads. -/
def Mach.brgLow (m : Mach) (n : Nat) : Bool := if n = 0 then m.b .STK_BRG_brg0_low else m.b .STK_BRG_brg1_low

/-- A controller's own line has been driven for 100 µs with the peer's released throughout (R506). -/
def Mach.ownBridged (m : Mach) (e : Env) : Bool :=
  m.drivenFor e 100000 && !m.b .STK_BRG_peer_rd && m.lineFor e (1 - m.pos) 100000 && !m.b .STK_BRG_cond

/-- The same of the pair line of an expansion (R512). -/
def Mach.pairBridged (m : Mach) (e : Env) : Bool :=
  m.paired && m.drivenFor e 100000 && !m.b .STK_BRG_peer_rd && m.lineFor e 2 100000

/-- BRG_n has been driven for 100 µs while the other line was released (R510). -/
def Mach.lineHolds (m : Mach) (e : Env) (n : Nat) : Bool :=
  m.brgLow n && !m.brgLow (1 - n) && m.lineFor e n 100000 && m.lineFor e (1 - n) 100000

/-! ### Expansions (R510 to R512) -/

/-- The bridge condition of an expansion: a holder, and for one with a partner the pair line. -/
def Mach.xBridge (m : Mach) (e : Env) : Mach :=
  let ok := m.role == 3 && m.b .STK_STS_holder_valid && (!m.paired || m.b .STK_BRG_pair_cond)
  if m.b .STK_BRG_cond = ok then m else m.setBridge e ok

/-- A controller's line held for 100 µs makes it the holder (R502, R510); on the controllers too the status shows it (the worked example of R519). -/
def Mach.holderNote (m : Mach) (e : Env) (line : Nat) : Mach :=
  let same := m.b .STK_STS_holder_valid && m.g .STK_STS_holder == line
  let m1 := if same then m else ((m.s .STK_STS_holder line).sb .STK_STS_holder_valid true).setStk fun x => { x with heldAt := e.upNs }
  (if same || m.pos < 2 then m1 else m1.stkIrq 11).setStk fun x => { x with freeAt := none }

/-- What a holder means to an expansion: the role, the claim of its pair line, and the bridge condition. -/
def Mach.holderIs (m : Mach) (e : Env) (line : Nat) : Mach :=
  let m1 := m.holderNote e line
  let m2 := if m1.role = 7 then m1.setRole e 3 0 else m1
  let m3 := if m2.role = 3 && m2.paired && !m2.b .STK_BRG_own_drv then m2.claim e 0 else m2
  m3.xBridge e

/-! ### Takeover (R518, R519, R522) -/

/-- What a SYNCING unit that takes over alone begins with (R522). -/
def Mach.aloneState (m : Mach) (e : Env) : Mach :=
  let got : List Nat := match m.stk.sync with | some x => if x.done then List.range 48 else [] | none => []
  let m1 := iter 48 (fun t m =>
    if got.contains t || m.strState t = 0 then m else m.strIdle e t 8 true) m
  let m2 := iter 48 (fun t m => if got.contains t then m else m.setDr t fun d => { d with table := d.table.map fun _ => 0 }) m1
  let m3 := m2.setKept none
  if m3.plMode = 0 then m3 else m3.plModeTo e 0 0 false

/-- A takeover is recorded (R519): STK_TAKEOVER follows at the first output instant with GATE. -/
def Mach.takeover (m : Mach) (cause at_ : Nat) : Mach :=
  (((m.s .STK_TAKE_INFO_cause cause).up .STK_TAKE_INFO_count).s .STK_TAKE_STMP_stmp (at_ / 8)).stkIrq 1
    |>.setStk fun x => { x with live := some (at_, cause), take := none }

/-- The claim of a controller succeeds (R507, R518). -/
def Mach.claimWon (m : Mach) (e : Env) : Mach :=
  let m1 := (m.sb .STK_BRG_claiming false).bridgeEvent e 0
  if m1.role = 0 then m1.setStk fun x => { x with take := none }
  else
    let m2 := if m1.role = 2 then m1.aloneState e else m1
    let m3 := (m2.setStk fun x => { x with switch := none, grant := none }).setRole e 0 0
    match m.stk.take with
    | some (cause, t) => m3.takeover cause t
    | none => m3

/-- BRIDGE_CONDITION: `line` 0 or 1 for BRG_n, 2 for the pair line, driven for 100 µs with the other released (R506, R510, R512). -/
def execBridgeCondition (line : Nat) (s : State) : Host.Outcome State Fault Refusal :=
  s.onInst (decide (line < 3)) fun e m =>
    if m.pos < 2 then
      if line = m.pos then
        if !m.ownBridged e then m
        else
          let m1 := (m.holderNote e m.pos).setBridge e true
          if m1.b .STK_BRG_claiming then m1.claimWon e else m1
      else if line < 2 && m.lineHolds e line then m.holderNote e line
      else m
    else if line = 2 then
      if !m.pairBridged e then m
      else
        let m1 := (m.sb .STK_BRG_pair_cond true).sb .STK_STS_xprimary true
        (if m1.b .STK_BRG_claiming then (m1.sb .STK_BRG_claiming false).bridgeEvent e 0 else m1).xBridge e
    else if m.lineHolds e line then m.holderIs e line
    else m

/-- The standby of a granted switchover claims on seeing the line released (R521). -/
def Mach.switchClaim (m : Mach) (e : Env) : Mach :=
  if m.role = 1 && m.stk.grant.isSome && (match m.stk.switch with | some x => some x.1 == m.stk.grant | none => false) then m.claim e 3 else m

/-- What BRG_0, BRG_1 or PBR_IN (`line` 2) reads: the instant from which it reads so is kept, and the instant at which the holder's line was let go. -/
def Mach.lineRead (m : Mach) (e : Env) (line : Nat) (low : Bool) : Mach :=
  let was := if line < 2 then m.brgLow line else m.b .STK_BRG_peer_rd
  let m1 := if line = 0 then m.sb .STK_BRG_brg0_low low else if line = 1 then m.sb .STK_BRG_brg1_low low else m
  let m2 := if was = low then m1 else m1.setStk fun x => { x with lineAt := upd x.lineAt line fun _ => e.upNs }
  if line < 2 && m.b .STK_STS_holder_valid && m.g .STK_STS_holder == line then
    m2.setStk fun x => { x with freeAt := if low then none else if x.freeAt.isSome then x.freeAt else some e.upNs }
  else m2

/-- BRIDGE_LINE_CHANGE: what a line reads; `line` 2 is PBR_IN. The condition goes when the peer line is driven (R506). -/
def execBridgeLineChange (line : Nat) (low : Bool) (s : State) : Host.Outcome State Fault Refusal :=
  s.onInst (decide (line < 3)) fun e m =>
    let m1 := m.lineRead e line low
    if m.pos < 2 then
      if line = m.pos then m1.sb .STK_BRG_own_rd low
      else if line = 2 then m1
      else
        let m2 := m1.sb .STK_BRG_peer_rd low
        if low then (if m2.b .STK_BRG_cond then m2.setBridge e false else m2) else m2.switchClaim e
    else if line = 2 && m.paired then
      let m2 := m1.sb .STK_BRG_peer_rd low
      if low && m2.b .STK_BRG_pair_cond then ((m2.sb .STK_BRG_pair_cond false).sb .STK_STS_xprimary false).xBridge e else m2
    else m1

/-- The claim must be withdrawn (R507): the peer line has been driven for 20 µs at an odd position, for 1 ms at an even one. -/
def Mach.mustWithdraw (m : Mach) (e : Env) : Bool :=
  m.b .STK_BRG_claiming && m.b .STK_BRG_peer_rd && m.lineFor e m.peerLine (if m.pos % 2 = 1 then 20000 else 1000000)

/-- CLAIM_WITHDRAW (R507, R509). -/
def execClaimWithdraw (s : State) : Host.Outcome State Fault Refusal :=
  s.act fun e m => if m.mustWithdraw e then m.claimWithdraw e else m

/-- The position whose loss this module takes over from: the peer controller, or the partner. -/
def Mach.overPos (m : Mach) : Nat := if m.pos < 2 then m.peerPos else m.pos ^^^ 1

/-- The module would take over from the one at a position: a STANDBY or SYNCING unit from the active, a pair's shadow from its primary. -/
def Mach.takesFrom (m : Mach) (p : Nat) : Bool :=
  p == m.overPos && (if m.pos < 2 then (m.role == 1 || m.role == 2) && (m.peer p).role == 0
    else m.role == 3 && m.paired && !m.b .STK_STS_xprimary)

/-- The takeover cause of a module: LONE for a SYNCING unit (R522). -/
def Mach.takeCause (m : Mach) (cause : Nat) : Nat := if m.role = 2 then 4 else cause

/-- PEER_RELEASE_DETECT (R518): released for 100 µs while the last heartbeat reported it driven. -/
def execPeerReleaseDetect (s : State) : Host.Outcome State Fault Refusal :=
  s.act fun e m =>
    let p := m.overPos
    if m.takesFrom p && !m.b .STK_BRG_peer_rd && m.lineFor e m.peerLine 100000 && (m.peer p).flags.testBit 0 then m.claim e (m.takeCause 1) else m

/-- The peer line has been read driven for 10 ms in which the peer's heartbeats reported it released (R508). -/
def Mach.peerStuck (m : Mach) (e : Env) : Bool :=
  m.b .STK_BRG_peer_rd && m.lineFor e m.peerLine 10000000
    && (match (m.peer m.peerPos).freeFor with | some t => decide (t + 10000000 ≤ e.upNs) | none => false)

/-- BRIDGE_STUCK (R508). -/
def execBridgeStuck (own : Bool) (s : State) : Host.Outcome State Fault Refusal :=
  s.act fun e m =>
    if own then
      if m.pos < 2 && !m.b .STK_BRG_own_drv && m.b .STK_BRG_own_rd && !m.b .STK_BRG_stuck_own then (m.sb .STK_BRG_stuck_own true).bridgeEvent e 2 else m
    else if m.pos < 2 && m.peerStuck e && !m.b .STK_BRG_stuck_peer then (m.sb .STK_BRG_stuck_peer true).bridgeEvent e 3
    else m

/-! ### Lost peers (R509, R514) -/

/-- The newest whole millisecond whose heartbeats should have arrived: 100 µs have passed since. -/
def dueMs (e : Env) : Nat := (e.ns - 100000) / 1000000

/-- The heartbeat due at that millisecond has not come: none since 100 µs after the one before. Each is missed once. -/
def Mach.hbMissed (m : Mach) (e : Env) (p : Nat) : Bool :=
  let q := m.peer p
  p != m.pos && (q.present || q.miss != 0) && decide (100000 ≤ e.ns) && q.missed != some (dueMs e)
    && decide (q.at_ + (e.ns - dueMs e * 1000000) + 900000 ≤ e.upNs)

/-- HEARTBEAT_MISS: the third in a row tells the loss. -/
def execHeartbeatMiss (p : Nat) (s : State) : Host.Outcome State Fault Refusal :=
  s.onInst (decide (p < 6)) fun e m =>
    let q := m.peer p
    if !m.hbMissed e p then m
    else
      let m1 := m.setPeer p fun q => { q with miss := q.miss + 1, missed := some (dueMs e) }
      if q.miss + 1 != 3 then m1
      else
        let m2 := (m1.setPeer p fun q => { q with present := false, ports := [] }).member e p false
        let m3 := m2.setBit Reg.STK_MEMBERS (8 + p) false
        let m4 := if m3.pos < 2 && p = m3.peerPos then m3.peerOk e p false false else m3
        if m4.takesFrom p then m4.claim e (m4.takeCause 0) else m4

/-- xb_hold in ns. -/
def Mach.xbHold (m : Mach) : Nat := m.g .STK_CFG_xb_hold * 1000000

/-- The holder has sent no heartbeat for xb_hold since it became holder (R511). -/
def Mach.holderSilent (m : Mach) (e : Env) : Bool :=
  decide (max (m.peer (m.g .STK_STS_holder)).at_ m.stk.heldAt + m.xbHold ≤ e.upNs)

/-- The holder's line has been released for xb_hold, and no line is driven (R510). -/
def Mach.holderGone (m : Mach) (e : Env) : Bool :=
  !m.b .STK_BRG_brg0_low && !m.b .STK_BRG_brg1_low && (match m.stk.freeAt with | some t => decide (t + m.xbHold ≤ e.upNs) | none => false)

/-- HOLDER_HOLD_EXPIRE (R510, R511): no heartbeat of the holder, or its line released with no other driven. -/
def execHolderHoldExpire (heartbeat : Bool) (s : State) : Host.Outcome State Fault Refusal :=
  s.act fun e m =>
    if !m.b .STK_STS_holder_valid then m
    else if heartbeat then (if 2 ≤ m.pos && m.holderSilent e then (m.isolate e 3).setBridge e false else m)
    else if !m.holderGone e then m
    else if m.pos < 2 then m.sb .STK_STS_holder_valid false
    else ((m.sb .STK_STS_holder_valid false).stkIrq 11).xBridge e

/-! ### Resolving the role (R502) -/

/-- ROLE_RESOLVE: 200 ms after FIDDLEHEAD was entered. -/
def execRoleResolve (s : State) : Host.Outcome State Fault Refusal :=
  s.act fun e m => if m.role = 7 && m.pos < 2 && m.state = 3 && !m.b .STK_BRG_claiming && decide (m.boot.fhAt + 50000000 ≤ e.powered) then m.resolveRole e else m

/-- ISLAND_SELFTEST_END (R460, R502). -/
def execIslandSelftestEnd (pass : Bool) (s : State) : Host.Outcome State Fault Refusal :=
  s.act fun e m =>
    let m1 := m.islandTested e pass
    if m1.stk.waits && m1.lineAllowed then m1.resolveRole e else m1

/-- The active at position p has been heard for 1 s. -/
def Mach.activeFor (m : Mach) (e : Env) (p : Nat) : Bool :=
  (m.peer p).present && (m.peer p).role == 0 && decide ((m.peer p).since + 1000000000 ≤ e.upNs)

/-- AUTO_REJOIN (R503): heartbeats of the active for 1 s. -/
def execAutoRejoin (s : State) : Host.Outcome State Fault Refusal :=
  s.act fun e m =>
    if m.role != 4 || m.g .STK_STS_iso_cause != 3 || !m.b .STK_CFG_auto_rejoin then m
    else if 2 ≤ m.pos then (if m.activeFor e 0 || m.activeFor e 1 then m.setRole e 3 0 else m)
    else if m.activeFor e m.peerPos then m.setRole e 2 0 else m

/-! ### Resynchronisation that fails (R526) -/

/-- An attempt fails: the third in a row isolates, else the unit starts again. -/
def Mach.syncFail (m : Mach) (e : Env) (cause : Nat) : Mach :=
  let start := match m.stk.sync with | some x => x.start | none => e.upNs
  let m1 := (m.up .STK_SYNC_STS_attempts).s .STK_SYNC_STS_dur_ms (min ((e.upNs - start) / 1000000) 65535)
  let m2 := m1.syncPhase e 7 cause false
  if 3 ≤ m2.g .STK_SYNC_STS_attempts then (m2.setStk fun x => { x with sync := none }).isolate e 5
  else (m2.setStk fun x => { x with sync := some ⟨e.upNs, none, none, none, [], false, 0⟩ }).syncPhase e 1 0 false

/-- RESYNC_TIMEOUT (R526): not committed within 2 s of its start. -/
def execResyncTimeout (s : State) : Host.Outcome State Fault Refusal :=
  s.act fun e m => match m.stk.sync with
    | some x => if m.role = 2 && !x.done && decide (x.start + 2000000000 ≤ e.upNs) then m.syncFail e 2 else m
    | none => m

/-! ### Digests (R516, R517, R526) -/

/-- Divergences of the last 600 s. -/
def recent600 (now : Nat) (l : List Nat) : List Nat := l.filter fun t => decide (now < t + 600000000000)

/-- The cycles match: they count, and a unit in probation becomes STANDBY after the fourth. -/
def Mach.digestMatch (m : Mach) (e : Env) : Mach :=
  let m1 := (m.upWrap .STK_DIG_OK_matched).setStk fun x => { x with recent := (true :: x.recent).take 4, unsh := 0 }
  match m1.stk.sync with
  | some x =>
    if m1.role != 2 then m1
    else if x.matched + 1 < 4 then m1.setStk fun y => { y with sync := some { x with matched := x.matched + 1 } }
    else
      let m2 := ((m1.s .STK_SYNC_STS_attempts 0).s .STK_SYNC_STS_dur_ms (min ((e.upNs - x.start) / 1000000) 65535)).syncPhase e 6 0 false
      (m2.setStk fun y => { y with sync := none }).setRole e 1 0
  | none => m1

/-- The cycles differ (R517, R523). -/
def Mach.digestDiffer (m : Mach) (e : Env) (own peer : Nat) : Mach :=
  let l := recent600 e.upNs (e.upNs :: m.stk.diverged)
  let c := m.pl.cyc
  let m1 := { m with pl := { m.pl with cyc := { c with flags := if c.flags.testBit 5 then c.flags else c.flags + 32 } } }
  let m2 := ((m1.up .STK_DIG_CNT_diverged).s .STK_DIG_CNT_window (min l.length 255)).setStk fun x =>
    { x with diverged := l, recent := (false :: x.recent).take 4 }
  let m3 := (m2.stkIrq 2).event e 0x8803 (some 3) (le 8 c.num ++ le 4 own ++ le 4 peer)
  if m3.role = 0 then
    if m3.islandFault then (m3.lineRelease e).isolate e 7 else m3
  else if (m3.peer m3.peerPos).flags.testBit 2 then (if m3.role = 1 then m3.claim e 2 else m3.syncFail e 1)
  else if m3.b .STK_BRG_claiming then m3
  else if m3.role = 2 then m3.syncFail e 1
  else if m3.g .STK_CFG_div_max ≤ l.length then m3.isolate e 6
  else m3.setRole e 2 0

/-- A cycle that is not compared; the sixteenth UNSHADOWED cycle in a row sends a STANDBY to SYNCING (R503). -/
def Mach.digestNone (m : Mach) (e : Env) (own : Bool) : Mach :=
  let n := if own then m.stk.unsh + 1 else 0
  let m1 := (m.up .STK_DIG_CNT_uncompared).setStk fun x => { x with unsh := n }
  if m1.role = 1 && 16 ≤ n then (m1.setStk fun x => { x with unsh := 0 }).setRole e 2 0 else m1

/-- What the comparison means for a switchover (R521): on the active a cycle c that did not match ends it; on the standby a match arms it. -/
def Mach.switchJudge (m : Mach) (e : Env) (n : Nat) (matched : Bool) : Mach :=
  if m.role = 0 then
    match m.stk.switch with
    | some (c, cmd, iso) =>
      if c != n || matched then m
      else
        let m1 := m.setStk fun x => { x with switch := none }
        match cmd with | some (op, c) => m1.complete e op c stState [] [] | none => let _ := iso; m1
    | none => m
  else if m.role = 1 && m.stk.grant = some n then
    if matched then m.setStk fun x => { x with switch := some (n, none, false) } else m.setStk fun x => { x with grant := none }
  else m

/-- The comparison of one cycle. -/
def Mach.digestCompare (m : Mach) (e : Env) : Mach :=
  let c := m.pl.cyc
  let uns := c.flags.testBit 1
  if !(m.role == 0 || m.shadows) || !c.formed then m
  else match m.pl.peer with
    | some (n, d, u) =>
      if n != c.num || u || uns then (m.digestNone e uns).switchJudge e c.num false
      else if d = c.digest then (m.switchJudge e c.num true).digestMatch e
      else (m.switchJudge e c.num false).digestDiffer e c.digest d
    | none => (m.digestNone e uns).switchJudge e c.num false

/-- `d` ns have passed since the release of a cycle. -/
def CycleRec.after (c : CycleRec) (e : Env) (d : Nat) : Bool := c.formed && decide (c.at_ + d ≤ e.ns)

/-- DIGEST_COMPARE: r_n + 1.5 ms; the record of the cycle is then committed (R27). -/
def execDigestCompare (s : State) : Host.Outcome State Fault Refusal :=
  s.act fun e m => match m.pl.tail with
    | some c =>
      if !c.after e 1500000 then m else
      let now := m.pl.cyc
      let m1 := ({ m with pl := { m.pl with cyc := c, tail := none } }.digestCompare e).cycleCommit true
      { m1 with pl := { m1.pl with cyc := now } }.syncLater
    | none => if m.pl.cyc.done || !m.pl.cyc.after e 1500000 then m else ((m.digestCompare e).syncLater).cycleCommit false

/-! ### Switchover (R521) -/

/-- The conditions of a switchover. -/
def Mach.mayswitch (m : Mach) : Bool :=
  m.role == 0 && (m.peer m.peerPos).present && (m.peer m.peerPos).role == 1 && !m.b .STR_PL_STS_catchup
    && m.stk.recent == [true, true, true, true] && m.stk.switch.isNone

/-- The active names cycle c and grants the switchover. -/
def Mach.switchStart (m : Mach) (op : Nat) (c : Cmd) (iso : Bool) : Mach :=
  let n := m.cycNum + 2
  (m.linkSend 0xB (2 ^ m.peerPos) (le 8 n)).setStk fun x => { x with switch := some (n, some (op, c), iso) }

/-- The record of cycle c, where it is still at hand. -/
def Mach.cycleOf (m : Mach) (c : Nat) : Option CycleRec :=
  if m.pl.cyc.num = c then some m.pl.cyc else m.pl.tail.bind fun t => if t.num = c then some t else none

/-- The peer's digest of a cycle is that of its record. -/
def Mach.matchedBy (m : Mach) (r : CycleRec) : Bool :=
  match m.pl.peer with | some (n, d, u) => n == r.num && d == r.digest && !u && !r.flags.testBit 1 | none => false

/-- What a switchover at cycle c comes to now: nothing yet, its end with STATE, or the release of the line. -/
def Mach.switchNow (m : Mach) (e : Env) (c : Nat) : Option Bool :=
  if (m.peer m.peerPos).role != 1 then some false
  else match m.cycleOf c with
    | some r => if r.after e 2000000 then some (m.matchedBy r) else none
    | none => if c < m.cycNum then some false else none

/-- SWITCHOVER_RELEASE: r_c + 2 ms. -/
def execSwitchoverRelease (s : State) : Host.Outcome State Fault Refusal :=
  s.act fun e m => match m.stk.switch with
    | some (c, cmd, iso) =>
      if m.role != 0 then m
      else
        let done (m : Mach) (st : Nat) (res : List Byte) : Mach := match cmd with | some (op, x) => m.complete e op x st res [] | none => m
        let m1 := m.setStk fun x => { x with switch := none }
        match m.switchNow e c with
        | none => m
        | some false => done m1 stState []
        | some true =>
          let m2 := m1.lineRelease e
          done (if iso then m2.isolate e 1 else m2.setRole e 1 0) stOk (if iso then [] else le 8 c)
    | none => m

/-- BRG_REQ: the active grants a switchover at a cycle. -/
def execBrgReq (h : LinkHdr) (cycle : Nat) (s : State) : Host.Outcome State Fault Refusal :=
  s.act fun e m => m.linkIn e h 0xB fun m =>
    if m.role = 1 && h.src = m.peerPos then m.setStk fun x => { x with grant := some cycle, switch := none } else m

/-! ### Commands (R527, R528) -/

def execStkStatusGet (c : Cmd) (s : State) : Host.Outcome State Fault Refusal :=
  s.act fun e m => runCmd 0x88 c false true (fun _ m => .done m stOk [] (m.words 0x000F0000 16)) e m

def execStkSwitchover (c : Cmd) (s : State) : Host.Outcome State Fault Refusal :=
  s.act fun e m => runCmd 0x89 c e.isSealed false (fun _ m =>
    if m.mayswitch then .wait (m.switchStart 0x89 c false) else m.fail stState) e m

def execStkIsolate (c : Cmd) (s : State) : Host.Outcome State Fault Refusal :=
  s.act fun e m => runCmd 0x8A c false false (fun e m =>
    if m.role = 1 || m.role = 2 || m.role = 3 then .ok (m.isolate e 1)
    else if m.mayswitch then .wait (m.switchStart 0x8A c true)
    else m.fail stState) e m

def execStkRejoin (c : Cmd) (s : State) : Host.Outcome State Fault Refusal :=
  s.act fun e m => runCmd 0x8B c false false (fun e m =>
    let k := m.g .STK_STS_iso_cause
    if m.role != 4 || k = 2 || k = 8 then m.fail stState
    else .ok (m.setRole e (if 2 ≤ m.pos then 3 else 2) 0)) e m

/-- The ranges of STK_CFG (R532); reserved bits are ignored (R551). -/
def stkCfgOk (v : Nat) : Bool :=
  within 1 15 (v / 2 ^ 16 % 16) && within 4 50 (v / 2 ^ 8 % 256)

def execStkCfgSet (c : Cmd) (s : State) : Host.Outcome State Fault Refusal :=
  s.act fun e m => runCmd 0x8C c e.isSealed false (fun _ m =>
    if !stkCfgOk (c.u32 0) then m.fail stRange
    else if c.path == .config then .ok (m.wr Reg.STK_CFG (BitVec.ofNat 32 (c.u32 0 % 2 ^ 21)))
    else if m.role != 0 then m.fail stState
    else .ok ((m.setStk fun x => { x with cfgNext := some (BitVec.ofNat 32 (c.u32 0 % 2 ^ 21)) }).linkSend 8 (63 - 2 ^ m.pos) (le 1 0x8C ++ c.params))) e m

def execStkResync (c : Cmd) (s : State) : Host.Outcome State Fault Refusal :=
  s.act fun e m => runCmd 0x8D c false false (fun e m => if m.role = 1 then .ok (m.setRole e 2 0) else m.fail stState) e m

def execStkLinkTest (c : Cmd) (s : State) : Host.Outcome State Fault Refusal :=
  s.act fun e m => runCmd 0x8E c false false (fun e m =>
    let p := c.u8 0
    if 2 ≤ p then m.fail stRange
    else if m.stk.test.any fun x => x.1 == p then m.fail stBusy
    else if m.pos < 2 && (m.peer m.peerPos).ports == [p] then m.fail stState
    else .wait (m.setStk fun x => { x with test := x.test ++ [(p, c, x.errs.getD p 0, e.upNs)] })) e m

/-- LINK_TEST_END: after 1 s (R528), with the CRC errors counted in it. -/
def execLinkTestEnd (port : Nat) (pass : Bool) (s : State) : Host.Outcome State Fault Refusal :=
  s.onInst (decide (port < 2)) fun e m =>
    match m.stk.test.find? fun x => x.1 == port with
    | some (_, c, n, t) =>
      if e.upNs < t + 1000000000 then m
      else (m.setStk fun x => { x with test := x.test.filter fun y => y.1 != port }).complete e 0x8E c stOk
        (le 1 (if pass then 0 else 1) ++ le 3 0 ++ le 4 (m.stk.errs.getD port 0 - n)) []
    | none => m

end Sys2Proof.Machine
end

