-- ==== Sys2Proof/Machine/RunOp.lean ====
section
/-!
DEFINITION. A command by its opcode (R563, R711): the form in which maintenance requests (R569) and the records of the configuration image
(R626) bring one.
Log: 89 (DEDUCED), 94 (DEDUCED).
-/
namespace Sys2Proof.Machine

/-- The command of an opcode. Where a row also carries what the hardware finds while it runs, nothing is found. -/
def runOp (op : Nat) (c : Cmd) (s : State) : Host.Outcome State Fault Refusal :=
  match op with
  | 0x01 => execNop c s
  | 0x02 => execGenIdentify c s
  | 0x03 => execGenStateGet c s
  | 0x04 => execGenReset c s
  | 0x05 => execNetCfg c s
  | 0x06 => execNet450Cfg c s
  | 0x07 => execNetStatusGet c s
  | 0x08 => execPtpCfg c s
  | 0x09 => execHifStatusGet c s
  | 0x10 => execTimeGet c s
  | 0x11 => execTimeSet c s
  | 0x12 => execTimeAdjust c s
  | 0x13 => execTimeDiscSet c s
  | 0x14 => execTpoArm c s
  | 0x15 => execTpoDisarm c s
  | 0x16 => execCapSet c s
  | 0x17 => execPtpLatSet c s
  | 0x20 => execGnsRestart c s
  | 0x21 => execGnsAid c s
  | 0x22 => execGnsRtcm c s
  | 0x23 => execGnsCfgSet c s
  | 0x24 => execGnsSpacingSet c s
  | 0x25 => execGnsSvExclude c s
  | 0x26 => execGnsObsStream c s
  | 0x27 => execGnsStatusGet c s
  | 0x30 => execFilAnCfg c s
  | 0x31 => execFilCoefLoad c s
  | 0x32 => execFilAnStream c s
  | 0x33 => execFilDcbCtrl c s
  | 0x34 => execFilSerCfg c s
  | 0x35 => execFilSerStream c s
  | 0x36 => execFilSerSend c s
  | 0x37 => execFilStatusGet c s
  | 0x38 => execFbkCfg c s
  | 0x39 => execFbkSetPos c s
  | 0x3A => execFbkIdxArm c s
  | 0x3B => execFbkEmuCfg c s
  | 0x3C => execFbkStream c s
  | 0x3D => execFbkStatusGet c s
  | 0x3E => execFbkLineTestRun c s
  | 0x40 => execLchStreamCfg c s
  | 0x41 => execLchStreamExclude c s
  | 0x42 => execLchDesignate c s
  | 0x43 => execLchWeightsLoad c s
  | 0x44 => execLchDatumSet c s
  | 0x45 => execLchCfgSet c s
  | 0x46 => execLchRefAnchor c s
  | 0x47 => execLchReset c s
  | 0x48 => execLchOutStream c s
  | 0x49 => execLchStatusGet c s
  | 0x50 => execPlModeSet c s
  | 0x51 => execPlSetpoint c s
  | 0x52 => execPlTrack c s
  | 0x53 => execPlCfgSet c s
  | 0x54 => execPlThrCfg c s
  | 0x55 => execPlTableLoad c s
  | 0x56 => execPlModelLoad c s
  | 0x57 => execPlFeed c s
  | 0x58 => execSlvSolve c s
  | 0x59 => execSlvCancel c 0 s
  | 0x5A => execSlvSelftest c s
  | 0x5B => execSlvCfgSet c s
  | 0x5C => execSlvStatusGet c s
  | 0x5D => execSlvBankTest c s
  | 0x60 => execStrCfgSet c s
  | 0x61 => execStrStateSet c s
  | 0x62 => execStrSpSet c s
  | 0x63 => execStrOutSet c s
  | 0x64 => execStrStream c s
  | 0x65 => execStrStatusGet c s
  | 0x66 => execStrTimingSet c s
  | 0x68 => execDrnCfgSet c s
  | 0x69 => execDrnAlloc c s
  | 0x6A => execDrnModeSet c s
  | 0x6B => execDrnReset c s
  | 0x6C => execDrnPeriodSet c s
  | 0x6D => execDrnTableWrite c s
  | 0x6E => execDrnTableRead c s
  | 0x6F => execDrnStatusGet c s
  | 0x70 => execCanCfg c s
  | 0x71 => execCanCtrlAct c s
  | 0x72 => execCanObjCfg c s
  | 0x73 => execCanTx c s
  | 0x74 => execCanCancel c s
  | 0x75 => execCanRxRead c s
  | 0x76 => execCanStream c s
  | 0x77 => execCanStatusGet c s
  | 0x78 => execDioCfg c s
  | 0x79 => execDioDoSet c s
  | 0x7A => execDioAoSet c s
  | 0x7B => execDioRearm c s
  | 0x7C => execDioFaultClr c 0 s
  | 0x7D => execDioStream c s
  | 0x7E => execDioTest c s
  | 0x7F => execDioStatusGet c s
  | 0x80 => execSafCfgLoad c s
  | 0x81 => execSafCfgAccept c s
  | 0x82 => execSafDemand c s
  | 0x83 => execSafStatusGet c s
  | 0x84 => execSafOutTest c s
  | 0x85 => execSafFaultLog c s
  | 0x88 => execStkStatusGet c s
  | 0x89 => execStkSwitchover c s
  | 0x8A => execStkIsolate c s
  | 0x8B => execStkRejoin c s
  | 0x8C => execStkCfgSet c s
  | 0x8D => execStkResync c s
  | 0x8E => execStkLinkTest c s
  | 0x90 => execLogStatusGet c s
  | 0x91 => execLogRead c s
  | 0x92 => execLogSegRead c s
  | 0x93 => execLogWrite c s
  | 0x94 => execLogCfgSet c s
  | 0x95 => execLogFlush c s
  | 0x96 => execLogErase c s
  | 0xA0 => execUpdBegin c s
  | 0xA1 => execUpdBlock c s
  | 0xA2 => execUpdVerify c s
  | 0xA3 => execUpdActivate c s
  | 0xA4 => execUpdConfirm c s
  | 0xA5 => execUpdAbort c s
  | 0xA6 => execUpdBitmapGet c s
  | 0xA7 => execUpdCfgWrite c s
  | 0xA8 => execUpdStatusGet c s
  | 0xB0 => execSecStatusGet c s
  | 0xB1 => execSecIdentityGet c s
  | 0xB2 => execSecAttest c s
  | 0xB3 => execSecKeyProgram c s
  | 0xB4 => execSecKeyRevoke c s
  | 0xB5 => execSecCtrAdvance c s
  | 0xB6 => execSecLifecycle c s
  | 0xB7 => execSecTamperClr c s
  | _ => s.act fun e m => m.complete e op c stUnsupported [] []

/-- The requests a port has taken in the present powered second. -/
def Mach.maintTaken (m : Mach) (e : Env) (p : Nat) : Nat :=
  let x := nth (0, 0) m.hif.maintCount p
  if x.1 = e.poweredSec then x.2 else 0

/-- A request that is taken: it counts, and its source has one in progress. -/
def Mach.maintTake (m : Mach) (e : Env) (p src : Nat) : Mach :=
  let n := m.maintTaken e p + 1
  { m with hif := { m.hif with maintCount := upd m.hif.maintCount p fun _ => (e.poweredSec, n), maintBusy := (p, src) :: m.hif.maintBusy } }

/-- MAINT_REQUEST (R569): above 100 requests in a second the excess is dropped; a second request of a source completes with BUSY. -/
def execMaintRequest (p src op : Nat) (c : Cmd) (s : State) : Host.Outcome State Fault Refusal :=
  if 2 ≤ p then .fault .noInstance
  else
    let c1 := { c with path := .maint p src }
    if !s.m.netUp p || !s.m.netServes p .maint || decide (100 ≤ s.m.maintTaken s.env p) then .next s
    else if s.m.hif.maintBusy.contains (p, src) then s.act fun e m =>
      let busy := m.hif.maintBusy
      let m1 := (m.maintTake e p src).maintReply e p src op c1 stBusy [] []
      { m1 with hif := { m1.hif with maintBusy := busy } }
    else runOp op c1 { s with m := s.m.maintTake s.env p src }

end Sys2Proof.Machine
end

