-- ==== Sys2Proof/Machine/Start.lean ====
section
/-!
DEFINITION. Starting (R612 to R629, R492, R493, R666 to R668): what a start keeps, the start steps, the configuration store and its replay, and the
entry into FIDDLEHEAD or MAINT. A start is one operation from its cause to FIDDLEHEAD, MAINT, SAFE_HALT or a power failure on the way.
Log: 6 (DESIGN CHOICE), 17 (DEDUCED), 18 (DEDUCED), 19 (DESIGN CHOICE), 20 (DEDUCED), 21 (DEDUCED), 22 (DEDUCED), 23 (DEDUCED), 24 (DEDUCED), 25 (DEDUCED), 26 (DEDUCED), 27 (DEDUCED), 28 (DEDUCED), 44 (DEDUCED), 45 (DEDUCED), 84 (DEDUCED), 113 (DEDUCED), 114 (DEDUCED).
-/
namespace Sys2Proof.Machine

/-! ### Verdicts of memories (R638, R639) -/

/-- GEN_VERDICT: class 0 DRAM, 1 Drone, 2 GNSS; a verdict reached before Peat is ready is written once it is. -/
def Mach.verdict (m : Mach) (e : Env) (cls inst addr : Nat) (lasting : Bool) : Mach :=
  let p := le 1 cls ++ le 4 inst ++ le 4 addr ++ le 1 (if lasting then 1 else 0)
  let sev := if lasting then 4 else 2
  if m.b .LOG_STS_ready then m.event e 0x0005 (some sev) p
  else
    let r : PeatRec := ⟨sev, 0, 0x0005, padWord p, none⟩
    { m.postOnly e sev 0x0005 p with boot := { m.boot with verdicts := m.boot.verdicts ++ [r] } }

/-- A Drone page is out of service: its learner's alloc_ok clears. -/
def Mach.pageBad (m : Mach) (p : Nat) : Mach :=
  let m1 := { m with str := { m.str with badPages := if m.str.badPages.contains p then m.str.badPages else m.str.badPages ++ [p] } }
  match m.drOwner p with
  | some t => m1.sb (.STR_DRN_Ss_STS_alloc_ok t) false
  | none => m1

/-- A DRAM page is retired (R641): with no spare page left the module halts. -/
def Mach.pageRetire (m : Mach) (e : Env) (p addr cls : Nat) : Mach :=
  let m1 := (m.faultVerdict cls p true).verdict e 0 p addr true
  if 1024 ≤ m.g .GEN_DRAM_ECC_retired then m1.safeHalt e 3 else m1.up .GEN_DRAM_ECC_retired

/-! ### What a start keeps (R51, R601, R620, R621) -/

/-- The registers that outlast a start: those of the update block, whose content lies in MRAM and flash, and on a warm start those of the clocks,
the timebase and the island, which keep running, with what Lichen retains. -/
def startKeeps (warm lch : Bool) (off : Nat) : Bool :=
  let i (a b : Nat) : Bool := decide (a ≤ off) && decide (off < b)
  (i 0x000E0000 0x000E0040 && off != Reg.UPD_IRQ_STS)
    || (warm && (i 0x00000040 0x00000050 || i 0x00030000 0x00031000 || i 0x000B0000 0x000B1000 || i 0x000000C0 0x000000CC))
    || (lch && (off == Reg.LCH_STS || i Reg.LCH_STATES (Reg.LCH_STATES + 4) || i Reg.LCH_EPOCH_LO 0x00060044 || i 0x00060100 0x00060150))

/-- What a string leaves for a warm start (R363). -/
def Mach.strKeep (m : Mach) : List StrKept :=
  (List.range 48).map fun t => ⟨m.strState t, m.rd (Reg.STR_Ss_INT t), m.rd (Reg.STR_Ss_INTC t), m.rd (Reg.STR_Ss_OUT t)⟩

/-- GNSS as a start leaves it: the navigation data of the retained copy, or of the copy in MRAM (R100). -/
def Mach.gnsKeep (m : Mach) (warm ok image : Bool) : Gns :=
  let z : NavData := ⟨none, false, none, 0⟩
  let nav := if warm && ok then m.gns.navDram else if warm || ok then m.gns.navMram else none
  { Gns.reset with nav := nav.getD z, navDram := nav, navMram := if warm || ok then m.gns.navMram else none, navCopied := m.gns.navCopied,
                   bad := if warm then m.gns.bad else [], stopped := !image }

/-- Lichen's observer and its alignment buffer, kept where their region checks (R46, R234, R248). -/
def Lch.keep (l : Lch) (keep : Bool) : Lch :=
  if !keep then Lch.reset
  else { Lch.reset with slots := l.slots.map fun s => { LchSlot.reset with samples := s.samples, stamps := s.stamps }
                        prevHdg := l.prevHdg, next := l.next, x := l.x, p := l.p, hasPos := l.hasPos, hasHdg := l.hasHdg, heldP := l.heldP, heldH := l.heldH,
                        l3 := l.l3, h2 := l.h2, rates := l.rates, history := l.history, heaveLow := l.heaveLow, crossings := l.crossings }

/-- The alignment buffer a warm start retained, for the slots that the configuration image enables again (R46). -/
def Mach.lchRestore (m : Mach) (kept : List LchSlot) : Mach :=
  iter 24 (fun s m =>
    if m.lchOn s then let k := nth LchSlot.reset kept s; m.setLslot s fun x => { x with samples := k.samples, stamps := k.stamps } else m) m

/-- What LCH_STS keeps over a warm start that retains the observer: the steps, the distance flag, the heave period's validity and the fault bit. The
health, the designations, the contradictions and the weights image are not retained. -/
def Mach.lchStsKeep (m : Mach) : Mach := m.wr Reg.LCH_STS (m.rd Reg.LCH_STS &&& 0x00003437)

/-- The machine a start begins with. -/
def Mach.startBase (m : Mach) (e : Env) (warm : Bool) (x : StartIn) : Mach :=
  let lch := warm && x.lchOk
  let r := Mach.reset
  let drn := m.str.drn.map fun d => { DrnSt.reset with copy := if warm then d.copy else none }
  let str := { Str.reset with drn := drn, badPages := if warm then m.str.badPages else [] }
  let b := { Boot.reset with t0 := e.powered, resumed := lch, attempts := min 255 (m.boot.attempts + 1), vbakLow := m.boot.vbakLow,
                             breach := m.boot.breach, verdicts := m.boot.verdicts, enable := m.boot.enable, good := true }
  let b1 := { b with strKept := if warm && x.strOk then m.strKeep else [],
                     hotRun := if warm then m.boot.hotRun else 0, alarmRun := if warm then m.boot.alarmRun else 0,
                     coolRun := if warm then m.boot.coolRun else 0, calmRun := if warm then m.boot.calmRun else 0 }
  let time := if warm then { m.time with step := none, stepCmds := [], following := false }
    else { TimeSt.reset with aon := m.time.aon, aonValid := m.time.aonValid && x.aonValid && !m.boot.vbakLow }
  let saf := { m.saf with test := none }
  let stk := { Stk.reset with cfgNext := m.stk.cfgNext, lineAt := m.stk.lineAt }
  { r with regs := m.regs.filter fun p => startKeeps warm lch p.1, freeCount := m.freeCount, out := m.out, peat := m.peat,
           time := time, clk := if warm then m.clk else r.clk, gns := m.gnsKeep warm x.gnsOk x.gnssOk, lch := m.lch.keep lch, str := str,
           faults := m.faults, saf := saf, stk := stk, boot := b1, fw := { m.fw with verify := [], window := none } }

/-- The registers a start sets from what it has kept: power, faults, retired pages, tamper, the lines of the others, STK_CFG, the vault. -/
def Mach.startRegs (m old : Mach) (e : Env) (warm : Bool) (cause : Nat) (x : StartIn) : Mach :=
  let m1 := if warm then m else
    (m.wr Reg.GEN_PWR_STS (old.rd Reg.GEN_PWR_STS &&& 15)).wr Reg.GEN_VMAIN (old.rd Reg.GEN_VMAIN) |>.wr Reg.GEN_TEMP (old.rd Reg.GEN_TEMP)
  let m1' := if warm then m1.wr Reg.GEN_DRAM_ECC (old.rd Reg.GEN_DRAM_ECC) else m1
  let m1' := if m.boot.resumed then m1'.lchStsKeep else m1'
  let m2 := (m1'.s .GEN_PWR_STS_vbak x.vbak).s .GEN_DRAM_ECC_retired (old.g .GEN_DRAM_ECC_retired)
  let m3 := ((m2.sb .SEC_STS_tamper (old.b .SEC_STS_tamper)).secSync e.vault).islandKeys e.vault
  let m4 := (m3.sb .STK_BRG_brg0_low (old.b .STK_BRG_brg0_low)).sb .STK_BRG_brg1_low (old.b .STK_BRG_brg1_low)
  let m5 := match m.stk.cfgNext with | some w => m4.wr Reg.STK_CFG w | none => m4
  let m6 := (((m5.s .GEN_START_attempts m.boot.attempts).s .GEN_START_cause cause).sb .GEN_START_warm warm).sb .GEN_START_retained m.boot.resumed
  let m7 := if warm then m6.s .SLV_ECC_isolated (old.g .SLV_ECC_isolated) else m6.hashDrop
  m7.setFaults (if warm then m.faults else m.faults.filter fun f => !(f.lasting && (f.cls == 2 || f.cls == 3 || f.cls == 5)))

/-! ### Steps 2 to 5 (R615, R636, R673, R686, R697) -/

/-- Step 2 and the debug port: VBAK, tamper, MAINT_N. -/
def Mach.startAon (m : Mach) (e : Env) (warm : Bool) (x : StartIn) : Mach :=
  let m1 := if m.boot.vbakLow then (m.sb .GEN_PWR_STS_vbak_low true).event e 0x0007 (some 3) (le 1 2 ++ le 1 3 ++ le 2 (x.vbak / 10)) else m
  let t := m1.boot.breach || m1.b .SEC_STS_tamper
  let m2 := if t && (!warm || m1.boot.breach) then (m1.sb .SEC_STS_tamper true).tamperEvent e true else m1
  let m3 := ((m2.sb .GEN_PINMUX_dbg (x.maintLow && decide (e.vault.life < 2))).sb .TIME_STS_master false).effSource e
  { m3 with boot := { m3.boot with vbakLow := false, breach := false }, gns := { m3.gns with start := m3.bestStart e } }

/-- Step 4 begins: the island boots into its self-test from the bank in force. -/
def Mach.startIsland (m : Mach) (e : Env) : Mach :=
  let m1 := m.islandBoot e
  let m2 := m1.setSaf fun x => { x with clk := 0, ver := BitVec.ofNat 32 (versionOf (m1.imageOf 2)) }
  m2.setIsland e 1

/-- Step 5: the BIST of every memory is its targeted test. -/
def Mach.startBist (m : Mach) (e : Env) (x : StartIn) : Mach :=
  let m1 := x.badPages.foldl (fun (m : Mach) p => (m.faultNote e 1 p 0).pageRetire e p 0 1) m
  let m2 := x.badBanks.foldl (fun (m : Mach) b => (m.faultNote e 2 b 0).bankVerdict e b true false) m1
  x.badDrone.foldl (fun (m : Mach) p => ((m.faultNote e 3 p 0).faultVerdict 3 p true |>.pageBad p).verdict e 1 p 0 true) m2

/-! ### Step 6 (R667, R668, R670) -/

/-- The slot whose image is in trial, or being copied, for a kind. -/
def Mach.slotOf (m : Mach) (kind state : Nat) : Option Nat := [0, 1].find? fun n => m.slotState n == state && m.slotKind n == kind

/-- A rollback: the fallback or previous image is in force again, and the slot has FAILED. -/
def Mach.rollback (m : Mach) (e : Env) (kind : Nat) : Mach :=
  let old := m.imageOf kind
  let new := m.oldImage kind
  let m1 := (m.setFw fun f => { f with active := upd f.active (kind - 1) fun _ => new }).sb (trialBit kind) false |>.s (trialCnt kind) 0
  let m2 := match m1.slotOf kind 6 with | some n => m1.slotTo e n 7 7 | none => m1
  let m3 := (m2.updIrq 2).event e 0xA003 (some 4) (le 1 kind ++ le 4 (versionOf old) ++ le 4 (versionOf new))
  let m4 := if kind = 1 then m3.hashDrop else m3
  if kind = 2 then m4.startIsland e else m4.copyEvent e kind 2 (unitsOf new) 0

/-- A trial start counts; the fourth rolls back. A power failure in the rollback leaves the trial at its third start. -/
def Mach.trialStart (m : Mach) (e : Env) (cut : Option Nat) (kind : Nat) : Mach :=
  if !m.b (trialBit kind) then m
  else if m.g (trialCnt kind) < 3 then m.upWrap (trialCnt kind)
  else match cut with
    | some k => (m.journal 2 kind (unitsOf (m.oldImage kind)) (min k (unitsOf (m.oldImage kind)))).sb .UPD_STS_rolling_back true
    | none => m.rollback e kind

/-- The image of a slot is put in force, on trial; a copy that fails leaves the section invalid, or the island on its old bank. -/
def Mach.slotCopy (m : Mach) (e : Env) (x : StartIn) (n : Nat) : Mach :=
  let kind := m.slotKind n
  let img := (m.slot n).image
  if m.slotState n != 4 && m.slotState n != 5 then m
  else
    let m1 := if m.slotState n = 4 then m.slotTo e n 5 0 else m
    match x.cut with
    | some k => (m1.journal 1 kind (unitsOf img) (min k (unitsOf img))).sb .UPD_STS_copying true
    | none =>
      let m2 := if kind = 1 then m1.hashDrop else m1
      if x.copyFails.contains kind then
        let m3 := if kind = 2 then m2 else m2.setFw fun f => { f with active := upd f.active (kind - 1) fun _ => none }
        (m3.slotTo e n 7 0x45).copyEvent e kind 1 (unitsOf img) 0x45
      else
        let prev := m2.imageOf kind
        let m3 := m2.setFw fun f =>
          { f with active := upd f.active (kind - 1) fun _ => img, fallback := if kind = 2 then upd f.fallback 1 fun _ => prev else f.fallback }
        let m4 := ((m3.sb (trialBit kind) true).s (trialCnt kind) 1).sb .GEN_START_copied true
        let m5 := (m4.slotTo e n 6 0).copyEvent e kind 1 (unitsOf img) 0
        if kind = 2 then m5.startIsland e else m5

/-- Power fails in step 6. -/
def Mach.copyPending (m : Mach) : Bool :=
  [0, 1].any (fun n => m.slotState n == 4 || m.slotState n == 5) || [1, 2, 3].any fun k => m.b (trialBit k) && m.g (trialCnt k) == 3

/-- Step 6: trials count, then the slots that wait are copied, 0 before 1. -/
def Mach.startCopy (m : Mach) (e : Env) (x : StartIn) : Mach :=
  let m1 := (m.sb .UPD_STS_copying false).sb .UPD_STS_rolling_back false
  let m2 := [1, 2, 3].foldl (fun (m : Mach) k => m.trialStart e x.cut k) m1
  let m3 := [0, 1].foldl (fun (m : Mach) n => m.slotCopy e x n) m2
  if x.cut.isSome || m3.fw.backup != [] then m3 else m3.wr Reg.UPD_JOURNAL 0

/-! ### Step 7 (R616, R651, R653, R660) -/

/-- The rollback rule lets an image start: a section without an image verifies never. -/
def imageFresh (e : Env) (kind : Nat) (i : Option Image) : Bool :=
  match i with
  | some i => !e.locked || decide (e.vault.ctr.getD (kindCtr kind) 0 ≤ secVer i.version)
  | none => false

/-- Step 7 chooses the firmware image; a valid boot-hash cache stands for the verification of the active slot. -/
def Mach.startImage (m : Mach) (e : Env) (x : StartIn) : Mach :=
  let act := m.b .UPD_STS_hash_cache || (x.activeOk && imageFresh e 1 (m.imageOf 1))
  let fb := x.fallbackOk && m.fw.backup.head? != some 1 && imageFresh e 1 (m.oldImage 1)
  let first := decide (m.boot.attempts < 4)
  let useFb := if first then !act && fb else fb
  let m1 := if act || fb then (m.sb .GEN_START_fallback useFb).sb .UPD_STS_hash_cache (act && !useFb)
    else (m.sb .GEN_START_boot_rom true).sb .UPD_STS_hash_cache false
  let i := if useFb then m1.oldImage 1 else m1.imageOf 1
  let m2 := { m1 with stk := { m1.stk with fmt := match i with | some i => i.fmt | none => 0 },
                      gns := { m1.gns with stopped := !(x.gnssOk && imageFresh e 3 (m1.imageOf 3)) } }
  (m2.s .STK_SHADOW_FMT_own m2.stk.fmt).updSync

/-! ### Step 8 (R627 to R629) -/

/-- The number of bits a class takes in GEN_CFG_STS. -/
def Mach.cfgFields (m : Mach) (a b c chosen rule : Nat) : Mach :=
  let m1 := ((m.s .GEN_CFG_STS_copy_a a).s .GEN_CFG_STS_copy_b b).s .GEN_CFG_STS_copy_c c
  ((m1.s .GEN_CFG_STS_chosen chosen).s .GEN_CFG_STS_rule rule).sb .GEN_CFG_STS_split (rule == 4)

/-- GEN_CONFIG: copy states, chosen copy, rule, generation, version. -/
def Mach.cfgEvent (m : Mach) (e : Env) : Mach :=
  m.event e 0x0003 (some (if m.g .GEN_CFG_STS_rule = 0 then 2 else 3))
    (le 1 (m.g .GEN_CFG_STS_copy_a + 4 * m.g .GEN_CFG_STS_copy_b + 16 * m.g .GEN_CFG_STS_copy_c) ++ le 1 (m.g .GEN_CFG_STS_chosen)
      ++ le 1 (m.g .GEN_CFG_STS_rule) ++ le 8 (m.rd64 Reg.GEN_CFG_GEN_LO Reg.GEN_CFG_GEN_HI) ++ le 4 (m.rd Reg.GEN_CFG_VER).toNat)

/-- The image in force, or factory defaults, in the registers. -/
def Mach.cfgInForce (m : Mach) (l : List Byte) : Mach :=
  let m1 := { m with fw := { m.fw with config := l } }
  if l.isEmpty then ((m1.wr64 Reg.GEN_CFG_GEN_LO Reg.GEN_CFG_GEN_HI 0).wr Reg.GEN_CFG_VER 0).wr Reg.GEN_CFG_CRC 0
  else ((m1.wr64 Reg.GEN_CFG_GEN_LO Reg.GEN_CFG_GEN_HI (cfgGen l)).wr Reg.GEN_CFG_VER (BitVec.ofNat 32 (numAt l 16 4))).wr Reg.GEN_CFG_CRC
    (BitVec.ofNat 32 (numAt l 28 4))

/-- Step 8: the copies are classed, one is chosen, and the others are rewritten under MAJORITY, HIGHEST and SINGLE. -/
def Mach.startConfig (m : Mach) (e : Env) : Mach :=
  let cs := m.fw.copies
  let c (i : Nat) : List Byte := cs.getD i []
  let (chosen, rule) := cfgChoice e cs
  let l := if chosen < 3 then c chosen else []
  let cls (i : Nat) : Nat := copyClass e (c i)
  let m1 := (m.otpNote e [1, 2, 3]).cfgFields (cls 0) (cls 1) (cls 2) chosen rule
  let repair := rule = 1 || rule = 2 || rule = 3
  let m2 := if repair then { m1 with fw := { m1.fw with copies := [l, l, l] } }.sb .GEN_CFG_STS_repaired true else m1
  let m3 := (m2.cfgInForce l).cfgEvent e
  if rule != 4 then m3
  else
    let ok := [0, 1, 2].filter fun i => cls i == 1
    let gen := match ok with | i :: _ => cfgGen (c i) | [] => 0
    m3.event e 0x0004 (some 4) (le 8 gen ++ ok.flatMap fun i => le 4 (numAt (c i) 28 4))

/-! ### Step 9 (R492, R493, R626) -/

/-- The straps give the position: valid with an odd number of ones, 0 to 5. -/
def Mach.startStraps (m : Mach) (e : Env) (straps : Nat) : Mach :=
  let ones := ((List.range 4).filter fun i => straps.testBit i).length
  let pos := straps / 2 % 8
  let ok := ones % 2 == 1 && decide (pos < 6)
  let m1 := (m.s .STK_STS_pos pos).sb .STK_STS_strap_bad (!ok)
  let own := if pos = 0 then m.b .STK_BRG_brg0_low else m.b .STK_BRG_brg1_low
  let other := if pos = 0 then m.b .STK_BRG_brg1_low else m.b .STK_BRG_brg0_low
  let m2 := if pos < 2 then (m1.sb .STK_BRG_own_rd own).sb .STK_BRG_peer_rd other else m1
  if ok then m2 else m2.setRole e 4 2

/-- A module to which role rules and forwarding do not apply. -/
def Mach.asAlone (m : Mach) : Mach := ((m.s .STK_STS_role 0).sb .STK_LINK0_STS_up false).sb .STK_LINK1_STS_up false

/-- Its role and links as they were. -/
def Mach.asBefore (m was : Mach) : Mach :=
  ((m.s .STK_STS_role was.role).sb .STK_LINK0_STS_up (was.b .STK_LINK0_STS_up)).sb .STK_LINK1_STS_up (was.b .STK_LINK1_STS_up)

/-- A lifecycle in which no lock applies. -/
def Env.unlocked (e : Env) : Env := { e with vault := { e.vault with fuses := Vault.reset.fuses } }

/-- What waits for an application tick, a boundary or a close applies at once. -/
def Mach.settle (m : Mach) (e : Env) : Mach :=
  let m1 := m.str.jobs.foldl (fun (m : Mach) j => m.strJob e j.at_ true true j) { m with str := { m.str with jobs := [] } }
  m1.plApplyAll e |>.lchApplyAll e m1.lch.next

/-- The state a meaning leaves. -/
def stateOf (s : State) : Host.Outcome State Fault Refusal → State
  | .next t => t
  | _ => s

/-- A register record. -/
def replayWrite (off : Nat) (v : Word) (s : State) : State :=
  let str := decide (0x00040000 ≤ off) && decide (off < 0x00048000)
  let env := s.env.unlocked
  let s1 := { s with env := env, m := if str then s.m.asAlone else s.m }
  let s2 := stateOf s1 (writeAny off v s1)
  let m2 := if str then (s2.m.settle env).asBefore s.m else s2.m
  { s2 with env := { s2.env with vault := s.env.vault }, m := m2 }

/-- The status with which a record's command completed, newest first; none while it waits. -/
def configStatus (op : Nat) (l : List Out) : Option Nat :=
  (l.find? fun o => o.what == "config" && o.idx == op).map fun o => o.val.toNat

/-- A command record: the state it leaves, and the status it completes with. -/
def replayCommand (op : Nat) (params data : List Byte) (s : State) : State × Option Nat :=
  if 0xA0 ≤ op then (s, some stUnsupported)
  else
    let c : Cmd := ⟨.config, 0, false, false, [], data.length, 16777216, 0, params, data⟩
    let alone := decide (0x40 ≤ op) && decide (op < 0x70)
    let m0 := { s.m with out := [] }
    let s1 := { s with m := if alone then m0.asAlone else m0 }
    let s2 := stateOf s1 (runOp op c s1)
    let m2 := if alone then (s2.m.settle s2.env).asBefore s.m else s2.m
    let st := configStatus op m2.out
    let out := (m2.out.filter fun o => o.what != "config") ++ s.m.out
    ({ s2 with m := { m2 with out := out } }, st)

/-- The records in order: what they leave, and whether every one completed OK. `waits` are the statuses of those that wait for something
outside the module; one that is not listed does not complete within 10 s. -/
def replay : List CfgRec → List Nat → State → State × Bool
  | [], _, s => (s, true)
  | .write off v :: l, ws, s => replay l ws (replayWrite off v s)
  | .command op params data :: l, ws, s =>
    let r := replayCommand op params data s
    match r.2 with
    | some 0 => replay l ws r.1
    | some _ => (r.1, false)
    | none =>
      match ws with
      | 0 :: ws' => replay l ws' r.1
      | _ => (r.1, false)

/-- The tables of the learners that a warm start restores, or resets where the copy does not check (R393). -/
def Mach.drnRestore (m : Mach) (e : Env) (bad : List Nat) : Mach :=
  iter 48 (fun t m =>
    if m.g (.STR_DRN_Ss_ALLOC_count t) = 0 then m
    else if bad.contains t then m.drReset e t 4
    else match (m.dr t).copy with
      | some (table, phi, step) =>
        if table.length = 64 * m.g (.STR_DRN_Ss_ALLOC_count t) then
          (((m.setDr t fun x => { x with table := table }).s (.STR_DRN_Ss_PHASE_phi t) phi).s (.STR_DRN_Ss_STEP_step t) step).sb
            (.STR_DRN_Ss_STS_restored t) true
        else m
      | none => m) m

/-- Step 9: the records of the image in force; a record that fails rejects the image, and every block returns to its reset values (R626). -/
def startRecords (warm : Bool) (x : StartIn) (s : State) : State :=
  match imageRecs s.m.fw.config with
  | none => s
  | some recs =>
    let r := replay recs x.waits s
    if r.2 then { r.1 with m := if warm then (r.1.m.drnRestore r.1.env x.badTables).lchRestore s.m.lch.slots else r.1.m }
    else
      let m0 := { s.m with out := r.1.m.out, peat := r.1.m.peat, freeCount := r.1.m.freeCount, faults := r.1.m.faults }
      { s with m := ((m0.cfgInForce []).s .GEN_CFG_STS_rule 6).cfgEvent r.1.env, env := { s.env with time := r.1.env.time } }

/-! ### Step 10 (R617, R631) -/

/-- The self-check of Bracken begins (R332). -/
def Mach.selfCheck (m : Mach) (e : Env) : Mach :=
  { m with boot := { m.boot with checking := true }, slv := { m.slv with selfTest := some none } }.slvNext e

/-- FIDDLEHEAD: role resolution, the self-check and the 200 ms grid begin; under a stop of R629 the attempts are cleared. -/
def Mach.enterFiddlehead (m : Mach) (e : Env) (ms : Nat) : Mach :=
  let stop := 4 ≤ m.g .GEN_CFG_STS_rule
  let m1 := (((m.enterState e 3 0).sb .GEN_STATE_cfg_stop stop).s .GEN_STATE_step 11).s .GEN_START_T_fh_ms (min ms 65535)
  let m2 := { m1 with boot := { m1.boot with fhAt := e.powered, attempts := if stop then 0 else m1.boot.attempts } }
  let g : Grid := { m2.grid with periodMs := 200, e0 := (e.ns / 50000000 + 1) * 50000000, j0 := m2.lch.next }
  { m2 with grid := g, stk := { m2.stk with heard := false } }.selfCheck e

/-- The end of step 9: MAINT by the attempts or the pin, else FIDDLEHEAD. MAINT_N low clears the attempts. -/
def Mach.startEnd (m : Mach) (e : Env) (x : StartIn) : Mach :=
  let m1 := m.sb .GEN_STATE_maint_pin x.maintLow
  let m2 := m1.sb .GEN_STATE_cfg_default (decide (4 ≤ m.g .GEN_CFG_STS_rule))
  let m3 := if x.maintLow then { m2 with boot := { m2.boot with attempts := 0 } } else m2
  if m.b .GEN_START_boot_rom then m3.enterState e 5 3
  else if 7 ≤ m.boot.attempts then m3.enterState e 5 1
  else if x.maintLow then m3.enterState e 5 2
  else ({ m3 with boot := { m3.boot with copyMs := x.copyMs } }).enterFiddlehead e x.ms

/-! ### A start -/

/-- Every output off and GATE absent, in a state without commanded outputs. -/
def Mach.outputsOff (m : Mach) (e : Env) (state : Nat) : Mach :=
  (((m.s .GEN_STATE_state state).lineRelease e).setBridge e false).dioWithdraw

/-- A requested warm start is carried out warm (R613, R619). -/
def Mach.warmOk (m : Mach) : Bool :=
  !m.b .UPD_STS_pending && m.boot.attempts == 0 && m.saf.state == 2 && m.state != 6 && m.saf.clk == 0
    && !(List.range 12).any fun d => m.clkFailed d

/-- A power failure: outputs and GATE go, the start in progress counts as failed, the write buffer is lost (R601, R683). -/
def Mach.powerOff (m : Mach) (e : Env) (state : Nat) : Mach :=
  let m1 := m.peatReset.outputsOff e state
  let m2 := ({ m1 with peat := { m1.peat with buffer := [], flush := [], erase := none } }.sb .LOG_STS_ready false).peatSync
  { m2 with boot := { m2.boot with good := false } }

/-- The steps after the memories: images, configuration, initialisation. -/
def startLate (warm : Bool) (x : StartIn) (s : State) : State :=
  let e := s.env
  let due := s.m.copyPending
  let m1 := s.m.startCopy e x
  if due && x.cut.isSome then { s with m := m1.powerOff e 0 }
  else
    let m2 := m1.startImage e x
    if m2.b .GEN_START_boot_rom then { s with m := (m2.startStraps e x.straps).startEnd e x }
    else
      let s1 := startRecords warm x { s with m := (m2.startConfig e).startStraps e x.straps }
      if x.cut.isSome then { s1 with m := s1.m.powerOff s1.env 0 } else { s1 with m := s1.m.startEnd s1.env x }

/-- A start, warm where that was asked for and R619 lets it. -/
def startRun (ask : Bool) (cause : Nat) (x : StartIn) (s : State) : State :=
  let warm := ask && s.m.warmOk
  let old := (s.m.peatReset).outputsOff s.env 2
  let aon := if s.m.time.aonValid && x.aonValid && !s.m.boot.vbakLow then s.m.time.aon + x.aon else 0
  let e := { s.env with time := if warm then s.env.time else Timebase.load aon }
  let base := ((old.startBase e warm x).startRegs old e warm cause x).peatStart e (!warm) x.partial_
  let m1 := (base.event e 0x0001 (some 2) (le 1 s.m.state ++ le 1 2 ++ le 1 0)).startAon e warm x
  if warm then startLate true x { s with env := e, m := m1 }
  else
    let m2 := m1.sb .GEN_CLK_REF_ocxo_ok x.locked
    if !x.locked then { s with env := e, m := m2.safeHalt e 1 }
    else
      let m3 := (m2.startIsland e).startBist e x
      if m3.state = 6 then { s with env := e, m := m3 } else startLate false x { s with env := e, m := m3 }

end Sys2Proof.Machine
end

