-- ==== Sys2Proof/Machine/Power.lean ====
section
/-!
DEFINITION. Power and resets (R612 to R614, R618, R681 to R686, R704, R708): the feeds, power-good and its loss, RST_N, the watchdog, and the
resets the module makes itself; VBAK; the plate.
Log: 40 (DEDUCED), 41 (DEDUCED), 42 (DEDUCED), 46 (DEDUCED), 126 (DEDUCED).
-/
namespace Sys2Proof.Machine

/-! ### Feeds (R682, R683, R708) -/

def feedIn (f : Nat) : Fld := ⟨Reg.GEN_PWR_STS, f, f⟩
def feedCarries (f : Nat) : Fld := ⟨Reg.GEN_PWR_STS, f + 2, f + 2⟩
def feedLost (f : Nat) : Fld := ⟨Reg.GEN_PWR_STS, f + 4, f + 4⟩
def feedSurge (f : Nat) : Fld := ⟨Reg.GEN_PWR_STS, f + 6, f + 6⟩
def feedVolt (f : Nat) : Fld := ⟨Reg.GEN_VMAIN, 16 * f + 15, 16 * f⟩

/-- The higher feed in range carries the load; feeds within 0.3 V share it. -/
def Mach.feedShare (m : Mach) : Mach :=
  let a := m.g (feedVolt 0)
  let b := m.g (feedVolt 1)
  let on (f own other : Nat) : Bool := m.b (feedIn f) && (!m.b (feedIn (1 - f)) || decide (other ≤ own + 30))
  (m.sb (feedCarries 0) (on 0 a b)).sb (feedCarries 1) (on 1 b a)

/-- A feed is in range or not, at a voltage in units of 10 mV. -/
def Mach.feedSet (m : Mach) (f : Nat) (ok : Bool) (v : Nat) : Mach := ((m.sb (feedIn f) ok).s (feedVolt f) v).feedShare

/-- Neither feed is in range. -/
def Mach.noFeed (m : Mach) : Bool := !m.b (feedIn 0) && !m.b (feedIn 1)

/-- The instant from which neither feed has been in range is kept (R683). -/
def Mach.feedTimed (m : Mach) (e : Env) : Mach :=
  { m with boot := { m.boot with offAt := if !m.noFeed then none else if m.boot.offAt.isSome then m.boot.offAt else some e.powered } }

/-- GEN_POWER: feed, what, voltage. -/
def Mach.powerEvent (m : Mach) (e : Env) (f what v : Nat) : Mach :=
  m.event e 0x0007 (some (if what = 1 then 2 else 3)) (le 1 f ++ le 1 what ++ le 2 v)

/-- FEED_LOST: a feed leaves its range; while the other is in range that is told. -/
def execFeedLost (feed v : Nat) (s : State) : Host.Outcome State Fault Refusal :=
  s.onInst (decide (feed < 2)) fun e m =>
    let m1 := (m.feedSet feed false v).feedTimed e
    if m.b (feedIn feed) && m.b (feedIn (1 - feed)) && m.boot.good then (m1.sb (feedLost feed) true).powerEvent e feed 0 v else m1

/-- FEED_RETURN: a feed is in range again; while the other was in range meanwhile that is told. -/
def execFeedReturn (feed v : Nat) (s : State) : Host.Outcome State Fault Refusal :=
  s.onInst (decide (feed < 2)) fun e m =>
    let m1 := (m.feedSet feed true v).feedTimed e
    if !m.b (feedIn feed) && m.b (feedIn (1 - feed)) && m.boot.good then m1.powerEvent e feed 1 v else m1

/-- FEED_SURGE. -/
def execFeedSurge (feed v : Nat) (s : State) : Host.Outcome State Fault Refusal :=
  s.onInst (decide (feed < 2)) fun e m => (m.sb (feedSurge feed) true).powerEvent e feed 2 v

/-! ### Power-good and its loss (R612, R613, R683, R685) -/

/-- POWER_GOOD: a feed in range for 10 ms with ENABLE high; the cold start begins, or waits for RST_N (R685). -/
def execPowerGood (aOk bOk : Bool) (va vb : Nat) (x : StartIn) (s : State) : Host.Outcome State Fault Refusal :=
  if s.m.boot.good || !(aOk || bOk) then .next s
  else
    let m1 := ((s.m.feedSet 0 aOk va).feedSet 1 bOk vb).feedTimed s.env
    let m2 := { m1 with boot := { m1.boot with enable := true } }
    if s.m.boot.held then .next { s with m := { m2 with boot := { m2.boot with good := true } } }
    else .next (startRun false (if s.m.state = 1 then 1 else 0) x { s with m := m2 })

/-- Neither feed has been in range for 200 µs. -/
def Mach.powerLost (m : Mach) (e : Env) : Bool :=
  m.noFeed && (match m.boot.offAt with | some t => decide (t + 50000 ≤ e.powered) | none => true)

/-- POWER_LOSS: neither feed in range for 200 µs; a feed that returned earlier has changed nothing (R683). -/
def execPowerLoss (s : State) : Host.Outcome State Fault Refusal :=
  s.act fun e m =>
    if !m.powerLost e then m else
    let m1 := if m.boot.good then m.powerOff e 0 else m.s .GEN_STATE_state 0
    (m1.feedSet 0 false (m.g (feedVolt 0))).feedSet 1 false (m.g (feedVolt 1))

/-- ENABLE_FALL while power-good holds: SLEEP. -/
def execEnableFall (s : State) : Host.Outcome State Fault Refusal :=
  s.act fun e m =>
    let m1 := { m with boot := { m.boot with enable := false } }
    if m.boot.good then m1.powerOff e 1 else m1

/-- VBAK_LOW: the voltage in mV, with VMAIN absent (R686): below 2.0 V AON time-keeping is invalid, below 1.6 V a breach counts. -/
def execVbakLow (mv : Nat) (s : State) : Host.Outcome State Fault Refusal :=
  s.act fun _ m =>
    if m.b (feedIn 0) || m.b (feedIn 1) || 2000 ≤ mv then m
    else { m with time := { m.time with aonValid := false },
                  boot := { m.boot with vbakLow := true, breach := m.boot.breach || decide (mv < 1600) } }

/-! ### Resets (R564, R613, R614, R618, R685) -/

/-- RST_N_LOW: the module and the island are held in reset, with every output off. -/
def execRstNLow (s : State) : Host.Outcome State Fault Refusal :=
  s.act fun e m =>
    let m1 := (m.strAllIdle e).soAllOff.outputsOff e 2
    { m1 with saf := { m1.saf with state := 0, permit := false }, boot := { m1.boot with held := true } }

/-- RST_N_RELEASE. -/
def execRstNRelease (x : StartIn) (s : State) : Host.Outcome State Fault Refusal :=
  if s.m.boot.held then .next (startRun false 2 x s) else .next s

/-- WATCHDOG_EXPIRE: the start is warm where warm_ok allows it. No firmware runs in OFF and SLEEP, or while RST_N
is low. -/
def execWatchdogExpire (x : StartIn) (s : State) : Host.Outcome State Fault Refusal :=
  if s.m.state < 2 || s.m.boot.held then .next s else .next (startRun (s.m.b .GEN_START_CFG_warm_ok) 5 x s)

/-- RESET_DELAY_EXPIRE: the reset that GEN_RESET and UPD_ACTIVATE asked for 10 ms ago, or a configuration write under a stop (R564, R629, R666). -/
def execResetDelayExpire (x : StartIn) (s : State) : Host.Outcome State Fault Refusal :=
  match s.m.boot.restart with
  | some (warm, cause) => if s.m.boot.held || decide (s.env.powered < s.m.boot.restartAt) then .next s else .next (startRun warm cause x s)
  | none => .next s

/-- The ms that a start has taken: those to FIDDLEHEAD, and the powered ms since. -/
def Mach.startMs (m : Mach) (e : Env) : Nat :=
  if m.state = 3 then m.g .GEN_START_T_fh_ms + (e.powered - m.boot.fhAt) / 250000 else (e.powered - m.boot.t0) / 250000

/-- Neither SERVICE nor a stop of R629 has come within 60 s and the duration of step 6 (R618). -/
def Mach.startLateBy (m : Mach) (e : Env) : Bool :=
  (m.state == 2 || m.state == 3) && !m.b .GEN_STATE_cfg_stop && !m.boot.held && decide (60000 + m.boot.copyMs ≤ m.startMs e)

/-- START_TIMEOUT. -/
def execStartTimeout (x : StartIn) (s : State) : Host.Outcome State Fault Refusal :=
  if s.m.startLateBy s.env then .next (startRun false 6 x s) else .next s

/-! ### The plate (R704) -/

/-- GEN_THERMAL: 0 normal, 1 hot, 2 alarm, and the plate in 0.1 °C. -/
def Mach.thermalEvent (m : Mach) (e : Env) : Mach :=
  let l := if m.b .GEN_PWR_STS_hot_alarm then 2 else if m.b .GEN_PWR_STS_hot then 1 else 0
  m.event e 0x0008 (some (match l with | 0 => 2 | 1 => 3 | _ => 4)) (le 1 l ++ le 2 (m.g .GEN_TEMP_plate))

/-- A temperature flag sets after ten measurements in a row beyond its threshold, and clears after a hundred at 2 °C or more below it. -/
def Mach.thermalFlag (m : Mach) (e : Env) (f : Fld) (above below : Nat) : Mach :=
  if !m.b f && 10 ≤ above then (m.sb f true).thermalEvent e
  else if m.b f && 100 ≤ below then (m.sb f false).thermalEvent e else m

/-- A measurement of the plate is due: 100 ms after the one before. -/
def Mach.plateDue (m : Mach) (e : Env) : Bool := match m.boot.plateAt with | some t => decide (t + 25000000 ≤ e.powered) | none => true

/-- PLATE_TEMP_UPDATE: plate and die in 0.1 °C, every 100 ms. -/
def execPlateTempUpdate (plate die : Int) (s : State) : Host.Outcome State Fault Refusal :=
  s.act fun e m =>
    if !m.plateDue e then m else
    let run (on : Bool) (n lim : Nat) : Nat := if on then min lim (n + 1) else 0
    let b := m.boot
    let b1 := { b with plateAt := some e.powered, hotRun := run (decide (850 < plate)) b.hotRun 10, alarmRun := run (decide (950 ≤ plate)) b.alarmRun 10,
                       coolRun := run (decide (plate ≤ 830)) b.coolRun 100, calmRun := run (decide (plate ≤ 930)) b.calmRun 100 }
    let m1 := ({ m with boot := b1 }.s .GEN_TEMP_plate (ofInt 16 plate)).s .GEN_TEMP_die (ofInt 16 die)
    (m1.thermalFlag e .GEN_PWR_STS_hot b1.hotRun b1.coolRun).thermalFlag e .GEN_PWR_STS_hot_alarm b1.alarmRun b1.calmRun

end Sys2Proof.Machine
end

