-- ==== Sys2Proof/Machine/Isolate.lean ====
section
/-!
DEFINITION. Fault isolation (R636 to R641): DRAM errors, the Drone pages' tests and the GNSS channels' self-tests. The other classes stand with
their blocks.
Log: 43 (DEDUCED).
-/
namespace Sys2Proof.Machine

/-! ### DRAM (R638, R641, R642) -/

/-- An error is counted and told: GEN_DRAM_ECC, and the fault table. -/
def Mach.dramNote (m : Mach) (e : Env) (addr : Nat) (ue : Bool) : Mach :=
  ((m.up (if ue then .GEN_DRAM_ECC_ue else .GEN_DRAM_ECC_ce)).event e 0x0006 (some (if ue then 5 else 3))
    (le 4 addr ++ le 1 (if ue then 1 else 0))).faultNote e (if ue then 1 else 0) (addr / 4096) addr

/-- The verdict on a correctable error: LASTING where the re-read fails or the address repeats within 24 h. -/
def Mach.dramJudge (m : Mach) (e : Env) (addr : Nat) (rereadFails : Bool) : Mach :=
  if rereadFails || decide (2 ≤ m.faultRecent e 0 (addr / 4096) addr) then m.pageRetire e (addr / 4096) addr 0
  else (m.faultVerdict 0 (addr / 4096) false).verdict e 0 (addr / 4096) addr false

/-- DRAM_ECC_ERROR at an address of the usable DRAM: an uncorrectable error retires its page and makes a warm start. -/
def execDramEccError (addr : Nat) (uncorrectable rereadFails : Bool) (x : StartIn) (s : State) : Host.Outcome State Fault Refusal :=
  if 3758096384 ≤ addr then .fault .noInstance
  else
    let m1 := s.m.dramNote s.env addr uncorrectable
    if !uncorrectable then .next { s with m := m1.dramJudge s.env addr rereadFails }
    else
      let m2 := m1.pageRetire s.env (addr / 4096) addr 1
      if m2.state = 6 then .next { s with m := m2 } else .next (startRun true 9 x { s with m := m2 })

/-! ### Drone pages (R638) -/

/-- Three errors at one entry of a page within 24 h. -/
def Mach.pageThrice (m : Mach) (e : Env) (page : Nat) : Bool :=
  m.faults.any fun f => f.cls == 3 && f.inst == page && decide (3 ≤ m.faultRecent e 3 page f.addr)

/-- DRONE_PAGE_TEST: the march test of a page that waits for it ends. -/
def execDronePageTest (page : Nat) (pass : Bool) (s : State) : Host.Outcome State Fault Refusal :=
  s.onInst (decide (page < 256)) fun e m =>
    if !m.str.testPages.contains page then m
    else
      let bad := !pass || m.pageThrice e page
      let addr := match (m.faults.filter fun f => f.cls == 3 && f.inst == page).getLast? with | some f => f.addr | none => 0
      let m1 := { m with str := { m.str with testPages := m.str.testPages.filter fun p => p != page } }
      let m2 := (m1.faultVerdict 3 page bad).verdict e 1 page addr bad
      if bad then m2.pageBad page else m2

/-! ### GNSS channels (R98, R638, R640) -/

/-- CORRELATOR_PARITY_ERROR: the channel is released and its self-test starts; an error of a channel under test fails that test. -/
def execCorrelatorParityError (c : Nat) (s : State) : Host.Outcome State Fault Refusal :=
  s.onInst (decide (c < 96)) fun e m =>
    let m1 := (m.chSatRelease e c).faultNote e 5 c 0
    if m1.gns.bad.contains c then m1 else { m1 with gns := { m1.gns with bist := m1.gns.bist ++ [c] } }

/-- CHANNEL_BIST_END: LASTING where the test fails or the channel had three errors within 24 h. -/
def execChannelBistEnd (c : Nat) (pass : Bool) (s : State) : Host.Outcome State Fault Refusal :=
  s.onInst (decide (c < 96)) fun e m =>
    if !m.gns.bist.contains c then m
    else
      let bad := !pass || decide (2 ≤ m.gns.bist.count c) || decide (3 ≤ m.faultRecent e 5 c 0)
      let g := m.gns
      let m1 := { m with gns := { g with bist := g.bist.filter fun k => k != c, bad := if bad then g.bad ++ [c] else g.bad } }
      (m1.faultVerdict 5 c bad).verdict e 2 c 0 bad

end Sys2Proof.Machine
end

