-- ==== Sys2Proof/Machine/Clock.lean ====
section
/-!
DEFINITION. The clock monitors (R29, R35 to R37).
Log: 7 (DESIGN CHOICE), 33 (DEDUCED), 34 (DEDUCED), 35 (DEDUCED), 37 (DEDUCED), 39 (DEDUCED), 126 (DEDUCED).
-/
namespace Sys2Proof.Machine

/-- A record whose type and content no rule gives (R36, R42, R594): both are open values. -/
def Mach.openRecord (m : Mach) (sev src : Nat) : Mach :=
  let a := m.free
  let b := a.2.free
  b.2.record ⟨sev, src, a.1.toNat % 65536, le 4 b.1.toNat, none⟩

/-- Ten times the count a window expects of a domain: 100 µs, for AON 1 s. -/
def clkExpected (d : Nat) : Nat :=
  [800000, 1200000, 600000, 400000, 250000, 163680, 250000, 125000, 80000, 49152, 96000, 327680].getD d 0

/-- A count within tolerance: ±0.5 %, for AON ±1 %. -/
def clkIn (d count : Nat) : Bool :=
  let x := clkExpected d
  let c := 10 * count
  decide ((if c < x then x - c else c - x) * (if d = 11 then 100 else 200) ≤ x)

/-- The counters of a domain after a window that ends at `now`. -/
def ClkMon.window (k : ClkMon) (now : Nat) (a b : Bool) : ClkMon :=
  ⟨if !a && !b then min 3 (k.both + 1) else 0, if a != b then min 3 (k.one + 1) else 0, min 3 (k.seen + 1), some now⟩

/-- A window of a domain has passed since its newest one (R35): 100 µs, for AON 1 s. -/
def Mach.clkDue (m : Mach) (e : Env) (d : Nat) : Bool :=
  match (nth ClkMon.reset m.clk d).at_ with | some t => decide (t + (if d = 11 then 250000000 else 25000) ≤ e.powered) | none => true

/-- TIME fails (R37): with its reference lost it goes to the other one where that is healthy and ref_auto is set, else to the main PLL. -/
def Mach.timeFails (m : Mach) : Mach :=
  let act := m.b .GEN_CLK_REF_ref_active
  let ok (r : Bool) : Bool := m.b (if r then .GEN_CLK_REF_ref_in_ok else .GEN_CLK_REF_ocxo_ok)
  if ok act then m
  else if ok (!act) && m.b .GEN_CLK_REF_ref_auto then m.sb .GEN_CLK_REF_ref_active (!act)
  else { m.sb .GEN_CLK_REF_ref_lost true with time := { m.time with onPll := true } }

/-- The 10 MHz reference TIME moves to at a second boundary (R39): the preferred one where it is valid; from the main PLL else the one it
had, or the other one where ref_auto is set (R37). -/
def Mach.refNext (m : Mach) : Option Bool :=
  let ok (r : Bool) : Bool := m.b (if r then .GEN_CLK_REF_ref_in_ok else .GEN_CLK_REF_ocxo_ok)
  let sel := m.b .GEN_CLK_REF_ref_sel
  let act := m.b .GEN_CLK_REF_ref_active
  if ok sel then some sel
  else if m.time.onPll && ok act then some act
  else if m.time.onPll && ok (!act) && m.b .GEN_CLK_REF_ref_auto then some (!act)
  else none

/-- TIME moves to the reference it is to have. -/
def Mach.refMoveTo (m : Mach) : Mach :=
  match m.refNext with
  | some r => { m.sb .GEN_CLK_REF_ref_active r with time := { m.time with onPll := false } }
  | none => m

/-- The first TIME cycle of a second. -/
def Timebase.secondStarts (t : Timebase) : Bool := decide (t.ns * 2 ^ 32 + t.frac < t.inc)

/-- REF_SWITCH (R39, R119): at a second boundary; the operands are the validity of the internal reference and of REF_IN. The baseband
follows. -/
def execRefSwitch (ocxoOk refInOk : Bool) (s : State) : Host.Outcome State Fault Refusal :=
  s.act fun e m =>
    let m1 := (m.sb .GEN_CLK_REF_ocxo_ok ocxoOk).sb .GEN_CLK_REF_ref_in_ok refInOk
    (if e.time.secondStarts then m1.refMoveTo else m1).gnsFollow e m.gnsRuns

/-- Every analogue input is marked invalid. -/
def Mach.anaFails (m : Mach) : Mach := iter 16 (fun k m => (m.sb (.FIL_ANk_STS_valid k) false).setBit Reg.FIL_STS k false) m

/-- A port is down. -/
def Mach.portFails (m : Mach) (e : Env) (p : Nat) : Mach :=
  if !m.b (.NETp_STS_link p) then m
  else ((m.sb (.NETp_STS_link p) false).setBit Reg.HIF_IRQ_STS 30 true).event e 0x0104 (some 3) (le 1 p ++ le 1 0)

/-- The host link is down; its return is to be an ALARM. -/
def Mach.hifFails (m : Mach) (e : Env) : Mach :=
  let m1 := (m.hostReset false false false).irqHostReset
  let m2 := if m.b .HIF_STS_link_up then m1.hifLinkEvent e false else m1
  { m2 with hif := { m2.hif with lost := true } }

/-- What the failure of a domain does (R37). GNSS, CAN and NET stop by their own checks of the domain. -/
def Mach.clkFails (m : Mach) (e : Env) (d : Nat) : Mach :=
  match d with
  | 4 => m.timeFails
  | 6 => m.hifFails e
  | 7 => (m.portFails e 0).portFails e 1
  | 9 => m.anaFails
  | 10 => ((m.clkMark 10).safeHalt e 1).setIsland e 3
  | 11 => { m with time := { m.time with aonValid := false } }
  | _ => if d < 4 then ((m.clkMark d).setPermit e false 0).safeHalt e 1 else m

/-- A window of domain d ends with its counts against its two monitors. -/
def Mach.clkWindow (m : Mach) (e : Env) (d countA countB : Nat) : Mach :=
  let old := nth ClkMon.reset m.clk d
  let a := clkIn d countA
  let b := clkIn d countB
  let new := old.window e.powered a b
  let m1 := { m with clk := upd m.clk d fun _ => new }.setBit Reg.GEN_CLK_OK d (a && b && new.seen == 3)
  let m2 := if old.one < 3 && new.one = 3 then (m1.setBit Reg.GEN_CLK_SUSPECT d true).openRecord 3 0 else m1
  if old.both < 3 && new.both = 3 then (m2.setBit Reg.GEN_CLK_FAIL d true).clkFails e d else m2

/-- CLOCK_MONITOR_WINDOW of one domain; the last operands are the validity of the internal 10 MHz reference and of REF_IN. -/
def execClockMonitorWindow (d countA countB : Nat) (ocxoOk refInOk : Bool) (s : State) : Host.Outcome State Fault Refusal :=
  s.onInst (decide (d < 12)) fun e m =>
    if !m.clkDue e d then m else
    let m1 := if d = 4 then (m.sb .GEN_CLK_REF_ocxo_ok ocxoOk).sb .GEN_CLK_REF_ref_in_ok refInOk else m
    (m1.clkWindow e d countA countB).gnsFollow e m.gnsRuns

end Sys2Proof.Machine
end

