-- ==== Sys2Proof/Machine/Cycle.lean ====
section
/-!
DEFINITION. The DP cycle and the base tick (R15 to R28, R41, R42, R342 to R344, R519, R524, R622, R630, R631, R635): what each boundary, tick and
output instant does in every unit, and the entry into SERVICE.
Log: 28 (DEDUCED), 29 (DEDUCED), 31 (DEDUCED), 32 (DEDUCED), 33 (DEDUCED), 124 (DEDUCED).
-/
namespace Sys2Proof.Machine

/-! ### SERVICE (R622, R635) -/

/-- The module enters SERVICE: GEN_START, the durations, the attempt counter, and the epochs of T/4; on the ACTIVE the grid begins. -/
def Mach.enterService (m : Mach) (e : Env) : Mach :=
  let m1 := (m.enterState e 4 0).s .GEN_START_T_svc_ms (min (m.startMs e) 65535)
  let f (b : Bool) : Nat := if b then 1 else 0
  let m2 := m1.event e 0x0002 (some 2) (le 1 (f (m1.b .GEN_START_warm)) ++ le 1 (m1.g .GEN_START_cause) ++ le 1 (m1.g .GEN_START_attempts)
    ++ le 1 (f (m1.b .GEN_START_fallback)) ++ le 4 (m1.rd Reg.GEN_START_T).toNat)
  let m3 := { m2 with boot := { m2.boot with attempts := 0 } }
  let t := m3.g .STR_PL_TIMING_period
  let g : Grid := { m3.grid with periodMs := t, e0 := (e.ns / max 1 (t * 250000) + 1) * (t * 250000), j0 := m3.lch.next }
  (if m3.grid.running then m3 else { m3 with grid := g }).gridStart e

/-- The conditions of SERVICE (R622). -/
def Mach.serviceDue (m : Mach) (e : Env) : Bool :=
  let conv := max 1 (min 17 (m.g .GEN_START_CFG_conv_max))
  let steps := decide (m.g .LCH_STS_pstep ≤ 2) && decide (m.g .LCH_STS_hstep ≤ 1)
  m.state == 3 && m.role != 7 && m.boot.checkOk && !m.b .GEN_STATE_cfg_stop
    && (m.boot.resumed || steps || decide (m.boot.fhAt + conv * 250000000 ≤ e.powered))

/-- A SYNCING unit that has committed is in SERVICE once its self-check has passed (R525). -/
def Mach.syncedService (m : Mach) (e : Env) : Mach :=
  if m.state == 3 && m.role == 2 && m.shadows && m.boot.checkOk && !m.b .GEN_STATE_cfg_stop then m.enterService e else m

/-- The roles whose module runs the law (R501); NONE is a controller that is about to take one. -/
def Mach.runsLaw (m : Mach) : Bool := decide (m.pos < 2) && m.role != 3 && m.role != 4

/-- A compare of a grid (R60, R62): at an instant after the newest one that has fired. -/
def gridFires (newest : Option Nat) (t : Nat) : Bool := match newest with | some f => decide (f < t) | none => true

/-- The 200 ms boundary t0: the reduced law, and the entry into SERVICE. -/
def Mach.fiddlehead (m : Mach) (e : Env) (t0 : Nat) : Mach :=
  let m0 := { m with grid := { m.grid with fh := some t0 } }
  let m1 := if m0.onReduced && m0.runsLaw then m0.plReduced e t0 else m0
  if m1.serviceDue e then m1.enterService e else m1

/-- FIDDLEHEAD_BOUNDARY: each whole multiple of 200 ms fires once. -/
def execFiddleheadBoundary (s : State) : Host.Outcome State Fault Refusal :=
  s.act fun e m =>
    let t0 := e.ns / 200000000 * 200000000
    if gridFires m.grid.fh t0 then m.fiddlehead e t0 else m

/-! ### The cycle boundary (R15 to R19, R24, R27, R58, R525) -/

/-- A step that waits is applied in the cycle of the compare, and the grid is re-anchored at the stepped boundary (R58). -/
def boundaryStep (e : Env) (m : Mach) : Timebase × Mach :=
  match m.time.step with
  | none => (e.time, m)
  | some d =>
    let b := (((m.grid.next : Int) + d) % (2 ^ 48 * 1000000000 : Int)).toNat
    let r := applyStep d e m
    (r.1, { r.2 with grid := { r.2.grid with next := b } })

/-- The cycle number at a boundary: that of t_origin at the first one, else one more. -/
def Mach.nextCycle (m : Mach) : Nat := if m.grid.first then m.grid.anchor else (m.cycNum + 1) % 2 ^ 64

/-- The boundary at b is that of cycle n: `anchor` re-anchors the grid there, and `renumber` begins the epochs of the grid with epoch 4n. -/
def Mach.cycleTurn (m : Mach) (b n : Nat) (anchor renumber : Bool) : Mach :=
  let m1 := m.wr64 Reg.GEN_CYC_LO Reg.GEN_CYC_HI n
  let g := m1.grid
  let g1 := { g with first := false, next := b + g.periodMs * 1000000 }
  if !anchor then { m1 with grid := g1 }
  else
    let m2 := m1.setOrg b
    let l := m2.lch
    let g2 := { g1 with anchor := n, e0 := b, j0 := 4 * n }
    { m2 with grid := g2, lch := if renumber then { l with next := 4 * n } else l }

/-- What the law does at the boundary of cycle n. -/
def Mach.cycleLaw (m : Mach) (e : Env) (b : Nat) (first : Bool) : Mach :=
  let m0 := match m.pl.tail with
    | some c => let m1 := { m with pl := { m.pl with cyc := c, tail := none } }.cycleCommit true
                { m1 with pl := { m1.pl with cyc := m.pl.cyc } }
    | none => m
  if m0.onReduced then m0
  else if !(m0.role == 0 || m0.shadows) then (if m0.pl.cyc.formed then m0.cycleCommit true else m0)
  else if first then m0.plStart e b else m0.plBoundary e b

/-- CYCLE_BOUNDARY while the grid runs: its compare fires at or beyond the boundary instant (R60). -/
def cycleBoundary (e : Env) (m : Mach) : Timebase × Mach :=
  if !m.grid.running || decide (e.ns < m.grid.next) then (e.time, m)
  else
    let r := boundaryStep e m
    let e1 := { e with time := r.1 }
    let first := m.grid.first
    let n := m.nextCycle
    let b := r.2.grid.next
    let m1 := (r.2.cycleTurn b n (first || m.time.step.isSome) first).plTiming
    let m2 := (m1.syncBoundary e1 n).syncedService e1
    (r.1, m2.cycleLaw e1 b first)

def execCycleBoundary (s : State) : Host.Outcome State Fault Refusal := s.actTime cycleBoundary

/-- UNSHADOWED (R42): the standby marks the cycle, and writes one NOTICE record. -/
def execUnshadowed (s : State) : Host.Outcome State Fault Refusal :=
  s.act fun _ m => if m.shadows then m.plUnshadow.openRecord 2 0x13 else m

/-! ### The base tick and its output instant (R342 to R344, R519) -/

/-- Emulators with a rate go on to an instant (R192, R196). -/
def Mach.emuTick (m : Mach) (e : Env) (tk : Nat) : Mach :=
  iter 4 (fun k m => m.emuAdvance e tk k) m

/-- The base tick tk: feedback latches first, changes and set-points apply, the due strings compute, and what the outputs will take is
decided. -/
def Mach.baseTick (m : Mach) (e : Env) (tk : Nat) : Mach :=
  let m1 := (m.fbLatchAll e tk (tk / m.tickNs)).fbToLichen m.fbDelivers
  let m2 := ((m1.strRelTick).strJobs e tk false).plTick e tk
  let m3 := ((m2.strGateHold e).strRun e tk).strJobs e tk true
  ((m3.shadowSend tk).dioTick tk).emuTick e tk

/-- BASE_TICK: each base tick fires once. -/
def execBaseTick (s : State) : Host.Outcome State Fault Refusal :=
  s.act fun e m =>
    let tk := e.ns / m.tickNs * m.tickNs
    if gridFires m.str.tick tk then m.baseTick e tk else m

/-- The outputs of a takeover are live (R519): the time since its detection, and STK_TAKEOVER. -/
def Mach.takeoverLive (m : Mach) (e : Env) : Mach :=
  match m.stk.live with
  | some (at_, cause) =>
    if !m.gate then m
    else
      let us := min ((e.ns - at_) / 1000) 65535
      let m1 := (m.setStk fun x => { x with live := none }).s .STK_TAKE_INFO_gate_us us
      m1.event e 0x8802 (some 4) (le 1 cause ++ le 8 m.cycNum ++ le 4 (at_ / 8) ++ le 2 us)
  | none => m

/-- OUTPUT_INSTANT: the compare at the newest tick's t_k + out_dly (R344). -/
def execOutputInstant (s : State) : Host.Outcome State Fault Refusal :=
  s.act fun e m => match m.str.out with
    | some t => if e.ns < t then m else (({ m with str := { m.str with out := none } }).strOutput e).takeoverLive e
    | none => m

/-! ### The self-check and the resynchronisation's configuration (R332, R524, R618) -/

/-- SELF_CHECK_END: the failing parts (R332). A failed check of a start is repeated; the third one starts the module again. -/
def execSelfCheckEnd (parts : Nat) (x : StartIn) (s : State) : Host.Outcome State Fault Refusal :=
  if !s.m.selfTesting then .next s
  else if !s.m.boot.checking then .next { s with m := s.m.selfTestEnd s.env parts }
  else
    let m1 := s.m.selfTestEnd s.env parts
    let b := m1.boot
    if parts % 8 = 0 then .next { s with m := { m1 with boot := { b with checkOk := true, checking := false } }.syncedService s.env }
    else
      let m2 := { m1 with boot := { b with fails := b.fails + 1 } }
      if 3 ≤ b.fails + 1 then .next (startRun false 7 x { s with m := m2 }) else .next { s with m := m2.selfCheck s.env }

/-- The configuration image of the active is stored with its generation, and the module starts again (R524, R628, R629). -/
def syncConfig (image : List Byte) (gen : Nat) (x : StartIn) (s : State) : State :=
  let m1 := s.m.cfgStore s.env image gen
  if s.m.b .GEN_STATE_cfg_stop then startRun false 11 x { s with m := m1 } else startRun true 10 x { s with m := m1 }

/-- SYNC_BULK: an item of a resynchronisation. -/
def execSyncBulk (h : LinkHdr) (item : SyncItem) (x : StartIn) (s : State) : Host.Outcome State Fault Refusal :=
  let m1 := s.m.linkIn s.env h 0xA fun m => m
  if m1.stk.seqIn = s.m.stk.seqIn then .next { s with m := m1 }
  else match item with
    | .config image gen => if m1.role = 2 && m1.g .STK_SYNC_STS_phase = 2 then .next (syncConfig image gen x { s with m := m1 }) else .next { s with m := m1 }
    | _ => .next { s with m := m1.syncTake s.env item }

end Sys2Proof.Machine
end

