-- ==== Sys2Proof/Machine/Dispatch.lean ====
section
/-!
DEFINITION. The dispatch: one arm per command, each a direct call of that command's meaning.
Log: 2 (DESIGN CHOICE), 95 (DESIGN CHOICE).
-/
namespace Sys2Proof.Machine

def exec (i : Instr) (s : State) : Host.Outcome State Fault Refusal :=
  match i with
  | .registerWrite off value => Sys2Proof.Machine.execRegisterWrite off value s
  | .snapshotRead off => Sys2Proof.Machine.execSnapshotRead off s
  | .bar0BadAccess => Sys2Proof.Machine.execBar0BadAccess s
  | .cycleBoundary => Sys2Proof.Machine.execCycleBoundary s
  | .qpAssemblyComplete phase => Sys2Proof.Machine.execQpAssemblyComplete phase s
  | .brackenSolveEnd => Sys2Proof.Machine.execBrackenSolveEnd s
  | .dispatchComplete => Sys2Proof.Machine.execDispatchComplete s
  | .releaseInstant => Sys2Proof.Machine.execReleaseInstant s
  | .cycleSkip => Sys2Proof.Machine.execCycleSkip s
  | .unshadowed => Sys2Proof.Machine.execUnshadowed s
  | .clockMonitorWindow d countA countB ocxoOk refInOk => Sys2Proof.Machine.execClockMonitorWindow d countA countB ocxoOk refInOk s
  | .refSwitch ocxoOk refInOk => Sys2Proof.Machine.execRefSwitch ocxoOk refInOk s
  | .aonCopy => Sys2Proof.Machine.execAonCopy s
  | .timeIncCommit value => Sys2Proof.Machine.execTimeIncCommit value s
  | .timeStepRequest value => Sys2Proof.Machine.execTimeStepRequest value s
  | .tpoEdge k => Sys2Proof.Machine.execTpoEdge k s
  | .tpoCommit k value => Sys2Proof.Machine.execTpoCommit k value s
  | .captureEdge k rising stable => Sys2Proof.Machine.execCaptureEdge k rising stable s
  | .capFifoPop k => Sys2Proof.Machine.execCapFifoPop k s
  | .capOvfClear k value => Sys2Proof.Machine.execCapOvfClear k value s
  | .ptpEventStamp p egress frame => Sys2Proof.Machine.execPtpEventStamp p egress frame s
  | .ptpOvfClear p value => Sys2Proof.Machine.execPtpOvfClear p value s
  | .effectiveSourceChange => Sys2Proof.Machine.execEffectiveSourceChange s
  | .disciplineMeasurement time sys unc freq want => Sys2Proof.Machine.execDisciplineMeasurement time sys unc freq want s
  | .holdoverEntry => Sys2Proof.Machine.execHoldoverEntry s
  | .holdBoundUpdate => Sys2Proof.Machine.execHoldBoundUpdate s
  | .holdoverExit => Sys2Proof.Machine.execHoldoverExit s
  | .timePulse offset => Sys2Proof.Machine.execTimePulse offset s
  | .timeGet c => Sys2Proof.Machine.execTimeGet c s
  | .timeSet c => Sys2Proof.Machine.execTimeSet c s
  | .timeAdjust c => Sys2Proof.Machine.execTimeAdjust c s
  | .timeDiscSet c => Sys2Proof.Machine.execTimeDiscSet c s
  | .tpoArm c => Sys2Proof.Machine.execTpoArm c s
  | .tpoDisarm c => Sys2Proof.Machine.execTpoDisarm c s
  | .capSet c => Sys2Proof.Machine.execCapSet c s
  | .ptpLatSet c => Sys2Proof.Machine.execPtpLatSet c s
  | .antBiasCheck ua ub => Sys2Proof.Machine.execAntBiasCheck ua ub s
  | .antBiasRetry a ua => Sys2Proof.Machine.execAntBiasRetry a ua s
  | .channelStateChange c st cn0 => Sys2Proof.Machine.execChannelStateChange c st cn0 s
  | .spacingApply c => Sys2Proof.Machine.execSpacingApply c s
  | .channelCn0Release a sys sv => Sys2Proof.Machine.execChannelCn0Release a sys sv s
  | .notchEngage a b found => Sys2Proof.Machine.execNotchEngage a b found s
  | .jamIndicatorUpdate quarters => Sys2Proof.Machine.execJamIndicatorUpdate quarters s
  | .solutionEpoch x => Sys2Proof.Machine.execSolutionEpoch x s
  | .gnsNoSignal => Sys2Proof.Machine.execGnsNoSignal s
  | .gnsCtrlRestart value => Sys2Proof.Machine.execGnsCtrlRestart value s
  | .gnsRestart c => Sys2Proof.Machine.execGnsRestart c s
  | .gnsAid c => Sys2Proof.Machine.execGnsAid c s
  | .gnsRtcm c => Sys2Proof.Machine.execGnsRtcm c s
  | .gnsCfgSet c => Sys2Proof.Machine.execGnsCfgSet c s
  | .gnsSpacingSet c => Sys2Proof.Machine.execGnsSpacingSet c s
  | .gnsSvExclude c => Sys2Proof.Machine.execGnsSvExclude c s
  | .gnsObsStream c => Sys2Proof.Machine.execGnsObsStream c s
  | .gnsStatusGet c => Sys2Proof.Machine.execGnsStatusGet c s
  | .filAnEnable k value => Sys2Proof.Machine.execFilAnEnable k value s
  | .anOutputSample k mods overcurrent => Sys2Proof.Machine.execAnOutputSample k mods overcurrent s
  | .ratioServoUpdate k ratio => Sys2Proof.Machine.execRatioServoUpdate k ratio s
  | .anShuntRetry k overcurrent => Sys2Proof.Machine.execAnShuntRetry k overcurrent s
  | .serialCharacter p b err => Sys2Proof.Machine.execSerialCharacter p b err s
  | .serialGapTimeout p => Sys2Proof.Machine.execSerialGapTimeout p s
  | .serialSilentTimeout p => Sys2Proof.Machine.execSerialSilentTimeout p s
  | .filSpErr p => Sys2Proof.Machine.execFilSpErr p s
  | .serialSendDone p => Sys2Proof.Machine.execSerialSendDone p s
  | .filAnCfg c => Sys2Proof.Machine.execFilAnCfg c s
  | .filCoefLoad c => Sys2Proof.Machine.execFilCoefLoad c s
  | .filAnStream c => Sys2Proof.Machine.execFilAnStream c s
  | .filDcbCtrl c => Sys2Proof.Machine.execFilDcbCtrl c s
  | .filSerCfg c => Sys2Proof.Machine.execFilSerCfg c s
  | .filSerStream c => Sys2Proof.Machine.execFilSerStream c s
  | .filSerSend c => Sys2Proof.Machine.execFilSerSend c s
  | .filStatusGet c => Sys2Proof.Machine.execFilStatusGet c s
  | .fbkChEnable c value => Sys2Proof.Machine.execFbkChEnable c value s
  | .fbkLineChange c a b z na nb nz => Sys2Proof.Machine.execFbkLineChange c a b z na nb nz s
  | .lineAmplitudeLoss c pairs => Sys2Proof.Machine.execLineAmplitudeLoss c pairs s
  | .lineErrClear c => Sys2Proof.Machine.execLineErrClear c s
  | .baseTick => Sys2Proof.Machine.execBaseTick s
  | .ssiFrameEnd c highAtRequest highAfter data => Sys2Proof.Machine.execSsiFrameEnd c highAtRequest highAfter data s
  | .ssiLineTest c failedPairs => Sys2Proof.Machine.execSsiLineTest c failedPairs s
  | .emuCountOutput k => Sys2Proof.Machine.execEmuCountOutput k s
  | .supplyOverload c => Sys2Proof.Machine.execSupplyOverload c s
  | .supplyRetry c good => Sys2Proof.Machine.execSupplyRetry c good s
  | .supplyBudget loads => Sys2Proof.Machine.execSupplyBudget loads s
  | .fbkCfg c => Sys2Proof.Machine.execFbkCfg c s
  | .fbkSetPos c => Sys2Proof.Machine.execFbkSetPos c s
  | .fbkIdxArm c => Sys2Proof.Machine.execFbkIdxArm c s
  | .fbkEmuCfg c => Sys2Proof.Machine.execFbkEmuCfg c s
  | .fbkStream c => Sys2Proof.Machine.execFbkStream c s
  | .fbkStatusGet c => Sys2Proof.Machine.execFbkStatusGet c s
  | .fbkLineTestRun c => Sys2Proof.Machine.execFbkLineTestRun c s
  | .epochClose => Sys2Proof.Machine.execEpochClose s
  | .timingSuspectClear k => Sys2Proof.Machine.execTimingSuspectClear k s
  | .jumpHoldEnd k => Sys2Proof.Machine.execJumpHoldEnd k s
  | .lchStreamCfg c => Sys2Proof.Machine.execLchStreamCfg c s
  | .lchStreamExclude c => Sys2Proof.Machine.execLchStreamExclude c s
  | .lchDesignate c => Sys2Proof.Machine.execLchDesignate c s
  | .lchWeightsLoad c => Sys2Proof.Machine.execLchWeightsLoad c s
  | .lchDatumSet c => Sys2Proof.Machine.execLchDatumSet c s
  | .lchCfgSet c => Sys2Proof.Machine.execLchCfgSet c s
  | .lchRefAnchor c => Sys2Proof.Machine.execLchRefAnchor c s
  | .lchReset c => Sys2Proof.Machine.execLchReset c s
  | .lchOutStream c => Sys2Proof.Machine.execLchOutStream c s
  | .lchStatusGet c => Sys2Proof.Machine.execLchStatusGet c s
  | .plManualTmo => Sys2Proof.Machine.execPlManualTmo s
  | .plModeSet c => Sys2Proof.Machine.execPlModeSet c s
  | .plSetpoint c => Sys2Proof.Machine.execPlSetpoint c s
  | .plTrack c => Sys2Proof.Machine.execPlTrack c s
  | .plCfgSet c => Sys2Proof.Machine.execPlCfgSet c s
  | .plThrCfg c => Sys2Proof.Machine.execPlThrCfg c s
  | .plTableLoad c => Sys2Proof.Machine.execPlTableLoad c s
  | .plModelLoad c => Sys2Proof.Machine.execPlModelLoad c s
  | .plFeed c => Sys2Proof.Machine.execPlFeed c s
  | .brackenIterationEnd => Sys2Proof.Machine.execBrackenIterationEnd s
  | .solveStopInstant phase => Sys2Proof.Machine.execSolveStopInstant phase s
  | .paceLost => Sys2Proof.Machine.execPaceLost s
  | .scratchEccError bank addr uncorrectable readable => Sys2Proof.Machine.execScratchEccError bank addr uncorrectable readable s
  | .bankMarchTest bank pass => Sys2Proof.Machine.execBankMarchTest bank pass s
  | .slvSolve c => Sys2Proof.Machine.execSlvSolve c s
  | .slvCancel c phase => Sys2Proof.Machine.execSlvCancel c phase s
  | .slvSelftest c => Sys2Proof.Machine.execSlvSelftest c s
  | .slvCfgSet c => Sys2Proof.Machine.execSlvCfgSet c s
  | .slvStatusGet c => Sys2Proof.Machine.execSlvStatusGet c s
  | .slvBankTest c => Sys2Proof.Machine.execSlvBankTest c s
  | .selfCheckEnd parts x => Sys2Proof.Machine.execSelfCheckEnd parts x s
  | .outputInstant => Sys2Proof.Machine.execOutputInstant s
  | .strSphWrite t value => Sys2Proof.Machine.execStrSphWrite t value s
  | .strCfgSet c => Sys2Proof.Machine.execStrCfgSet c s
  | .strStateSet c => Sys2Proof.Machine.execStrStateSet c s
  | .strSpSet c => Sys2Proof.Machine.execStrSpSet c s
  | .strOutSet c => Sys2Proof.Machine.execStrOutSet c s
  | .strStream c => Sys2Proof.Machine.execStrStream c s
  | .strStatusGet c => Sys2Proof.Machine.execStrStatusGet c s
  | .strTimingSet c => Sys2Proof.Machine.execStrTimingSet c s
  | .droneEccError page entry uncorrectable => Sys2Proof.Machine.execDroneEccError page entry uncorrectable s
  | .dronePageTest page pass => Sys2Proof.Machine.execDronePageTest page pass s
  | .droneTableBackup => Sys2Proof.Machine.execDroneTableBackup s
  | .drnCfgSet c => Sys2Proof.Machine.execDrnCfgSet c s
  | .drnAlloc c => Sys2Proof.Machine.execDrnAlloc c s
  | .drnModeSet c => Sys2Proof.Machine.execDrnModeSet c s
  | .drnReset c => Sys2Proof.Machine.execDrnReset c s
  | .drnPeriodSet c => Sys2Proof.Machine.execDrnPeriodSet c s
  | .drnTableWrite c => Sys2Proof.Machine.execDrnTableWrite c s
  | .drnTableRead c => Sys2Proof.Machine.execDrnTableRead c s
  | .drnStatusGet c => Sys2Proof.Machine.execDrnStatusGet c s
  | .canModeWrite c value => Sys2Proof.Machine.execCanModeWrite c value s
  | .canModeApply c => Sys2Proof.Machine.execCanModeApply c s
  | .canTxStart c lag => Sys2Proof.Machine.execCanTxStart c lag s
  | .canTxEnd c result tdcv => Sys2Proof.Machine.execCanTxEnd c result tdcv s
  | .canFrameReceive c ago id dlc flags payload => Sys2Proof.Machine.execCanFrameReceive c ago id dlc flags payload s
  | .canBusError c typ dataPhase tx dominant => Sys2Proof.Machine.execCanBusError c typ dataPhase tx dominant s
  | .canLoopTestEnd c pass => Sys2Proof.Machine.execCanLoopTestEnd c pass s
  | .canBusoffRecovery c => Sys2Proof.Machine.execCanBusoffRecovery c s
  | .canTtTarget c o => Sys2Proof.Machine.execCanTtTarget c o s
  | .canTxLate c o => Sys2Proof.Machine.execCanTxLate c o s
  | .canCfg c => Sys2Proof.Machine.execCanCfg c s
  | .canCtrlAct c => Sys2Proof.Machine.execCanCtrlAct c s
  | .canObjCfg c => Sys2Proof.Machine.execCanObjCfg c s
  | .canTx c => Sys2Proof.Machine.execCanTx c s
  | .canCancel c => Sys2Proof.Machine.execCanCancel c s
  | .canRxRead c => Sys2Proof.Machine.execCanRxRead c s
  | .canStream c => Sys2Proof.Machine.execCanStream c s
  | .canStatusGet c => Sys2Proof.Machine.execCanStatusGet c s
  | .vfieldMeasure mv => Sys2Proof.Machine.execVfieldMeasure mv s
  | .diSample mv => Sys2Proof.Machine.execDiSample mv s
  | .dioDiEnable n value => Sys2Proof.Machine.execDioDiEnable n value s
  | .dioDoCmdWrite value => Sys2Proof.Machine.execDioDoCmdWrite value s
  | .doOverload j => Sys2Proof.Machine.execDoOverload j s
  | .aoFault k => Sys2Proof.Machine.execAoFault k s
  | .dioCfg c => Sys2Proof.Machine.execDioCfg c s
  | .dioDoSet c => Sys2Proof.Machine.execDioDoSet c s
  | .dioAoSet c => Sys2Proof.Machine.execDioAoSet c s
  | .dioRearm c => Sys2Proof.Machine.execDioRearm c s
  | .dioFaultClr c hot => Sys2Proof.Machine.execDioFaultClr c hot s
  | .dioStream c => Sys2Proof.Machine.execDioStream c s
  | .dioTest c => Sys2Proof.Machine.execDioTest c s
  | .dioStatusGet c => Sys2Proof.Machine.execDioStatusGet c s
  | .islandSelftestEnd pass => Sys2Proof.Machine.execIslandSelftestEnd pass s
  | .safetyCycle x => Sys2Proof.Machine.execSafetyCycle x s
  | .soSwitchTest o low turnedOff => Sys2Proof.Machine.execSoSwitchTest o low turnedOff s
  | .appHeartbeat => Sys2Proof.Machine.execAppHeartbeat s
  | .safeFrameProduce k => Sys2Proof.Machine.execSafeFrameProduce k s
  | .safeFrameReceive k net bytes => Sys2Proof.Machine.execSafeFrameReceive k net bytes s
  | .safePairWindow k => Sys2Proof.Machine.execSafePairWindow k s
  | .safeConnTimeout k => Sys2Proof.Machine.execSafeConnTimeout k s
  | .safCfgLoad c => Sys2Proof.Machine.execSafCfgLoad c s
  | .safCfgAccept c => Sys2Proof.Machine.execSafCfgAccept c s
  | .safDemand c => Sys2Proof.Machine.execSafDemand c s
  | .safStatusGet c => Sys2Proof.Machine.execSafStatusGet c s
  | .safOutTest c => Sys2Proof.Machine.execSafOutTest c s
  | .safFaultLog c => Sys2Proof.Machine.execSafFaultLog c s
  | .strapChange straps => Sys2Proof.Machine.execStrapChange straps s
  | .linkPortUp port nb => Sys2Proof.Machine.execLinkPortUp port nb s
  | .linkPortDown port => Sys2Proof.Machine.execLinkPortDown port s
  | .heartbeat h payload other => Sys2Proof.Machine.execHeartbeat h payload other s
  | .sample h slot x => Sys2Proof.Machine.execSample h slot x s
  | .epochAssign h epoch named => Sys2Proof.Machine.execEpochAssign h epoch named s
  | .release h cycle at_ => Sys2Proof.Machine.execRelease h cycle at_ s
  | .pace h payload => Sys2Proof.Machine.execPace h payload s
  | .digest h cycle digest status unshadowed => Sys2Proof.Machine.execDigest h cycle digest status unshadowed s
  | .shadow h payload => Sys2Proof.Machine.execShadow h payload s
  | .command h op c at_ => Sys2Proof.Machine.execCommand h op c at_ s
  | .setpoint h at_ t value => Sys2Proof.Machine.execSetpoint h at_ t value s
  | .syncBulk h item x => Sys2Proof.Machine.execSyncBulk h item x s
  | .brgReq h cycle => Sys2Proof.Machine.execBrgReq h cycle s
  | .delay h t org num unc freq want => Sys2Proof.Machine.execDelay h t org num unc freq want s
  | .heartbeatSend => Sys2Proof.Machine.execHeartbeatSend s
  | .delayBeaconSend => Sys2Proof.Machine.execDelayBeaconSend s
  | .linkDelayMeasure port delay => Sys2Proof.Machine.execLinkDelayMeasure port delay s
  | .heartbeatMiss p => Sys2Proof.Machine.execHeartbeatMiss p s
  | .lineHoldExpire => Sys2Proof.Machine.execLineHoldExpire s
  | .bridgeLineChange line low => Sys2Proof.Machine.execBridgeLineChange line low s
  | .bridgeCondition line => Sys2Proof.Machine.execBridgeCondition line s
  | .claimWithdraw => Sys2Proof.Machine.execClaimWithdraw s
  | .peerReleaseDetect => Sys2Proof.Machine.execPeerReleaseDetect s
  | .bridgeStuck own => Sys2Proof.Machine.execBridgeStuck own s
  | .roleResolve => Sys2Proof.Machine.execRoleResolve s
  | .holderHoldExpire heartbeat => Sys2Proof.Machine.execHolderHoldExpire heartbeat s
  | .digestCompare => Sys2Proof.Machine.execDigestCompare s
  | .switchoverRelease => Sys2Proof.Machine.execSwitchoverRelease s
  | .resyncTimeout => Sys2Proof.Machine.execResyncTimeout s
  | .autoRejoin => Sys2Proof.Machine.execAutoRejoin s
  | .linkTestEnd port pass => Sys2Proof.Machine.execLinkTestEnd port pass s
  | .stkStatusGet c => Sys2Proof.Machine.execStkStatusGet c s
  | .stkSwitchover c => Sys2Proof.Machine.execStkSwitchover c s
  | .stkIsolate c => Sys2Proof.Machine.execStkIsolate c s
  | .stkRejoin c => Sys2Proof.Machine.execStkRejoin c s
  | .stkCfgSet c => Sys2Proof.Machine.execStkCfgSet c s
  | .stkResync c => Sys2Proof.Machine.execStkResync c s
  | .stkLinkTest c => Sys2Proof.Machine.execStkLinkTest c s
  | .hostLinkReset kind => Sys2Proof.Machine.execHostLinkReset kind s
  | .hostLinkUp speed width => Sys2Proof.Machine.execHostLinkUp speed width s
  | .queueEnable typ n value => Sys2Proof.Machine.execQueueEnable typ n value s
  | .queueDisable typ n value => Sys2Proof.Machine.execQueueDisable typ n value s
  | .doorbellPoll words => Sys2Proof.Machine.execDoorbellPoll words s
  | .commandFetch q entry => Sys2Proof.Machine.execCommandFetch q entry s
  | .ethFrameReceive p frame fcsOk noBuf => Sys2Proof.Machine.execEthFrameReceive p frame fcsOk noBuf s
  | .n450Datagram p g payload ago => Sys2Proof.Machine.execN450Datagram p g payload ago s
  | .maintRequest p src op c => Sys2Proof.Machine.execMaintRequest p src op c s
  | .netLink p up => Sys2Proof.Machine.execNetLink p up s
  | .nop c => Sys2Proof.Machine.execNop c s
  | .genIdentify c => Sys2Proof.Machine.execGenIdentify c s
  | .genStateGet c => Sys2Proof.Machine.execGenStateGet c s
  | .genReset c => Sys2Proof.Machine.execGenReset c s
  | .netCfg c => Sys2Proof.Machine.execNetCfg c s
  | .net450Cfg c => Sys2Proof.Machine.execNet450Cfg c s
  | .netStatusGet c => Sys2Proof.Machine.execNetStatusGet c s
  | .ptpCfg c => Sys2Proof.Machine.execPtpCfg c s
  | .hifStatusGet c => Sys2Proof.Machine.execHifStatusGet c s
  | .irqSourceRise n => Sys2Proof.Machine.execIrqSourceRise n s
  | .irqSourceFall n => Sys2Proof.Machine.execIrqSourceFall n s
  | .irqWindowCommit gs => Sys2Proof.Machine.execIrqWindowCommit gs s
  | .msixUnmask v mask => Sys2Proof.Machine.execMsixUnmask v mask s
  | .irqRepeat ns => Sys2Proof.Machine.execIrqRepeat ns s
  | .irqVecClaimRead v => Sys2Proof.Machine.execIrqVecClaimRead v s
  | .irqClaimedRead w => Sys2Proof.Machine.execIrqClaimedRead w s
  | .irqSrcTgtWrite n value => Sys2Proof.Machine.execIrqSrcTgtWrite n value s
  | .irqSwrSet x value => Sys2Proof.Machine.execIrqSwrSet x value s
  | .irqSwrClr x value => Sys2Proof.Machine.execIrqSwrClr x value s
  | .recordCommit flashOk life => Sys2Proof.Machine.execRecordCommit flashOk life s
  | .timeAnchor => Sys2Proof.Machine.execTimeAnchor s
  | .logFlushTimeout => Sys2Proof.Machine.execLogFlushTimeout s
  | .logErased failed => Sys2Proof.Machine.execLogErased failed s
  | .logStatusGet c => Sys2Proof.Machine.execLogStatusGet c s
  | .logRead c => Sys2Proof.Machine.execLogRead c s
  | .logSegRead c => Sys2Proof.Machine.execLogSegRead c s
  | .logWrite c => Sys2Proof.Machine.execLogWrite c s
  | .logCfgSet c => Sys2Proof.Machine.execLogCfgSet c s
  | .logFlush c => Sys2Proof.Machine.execLogFlush c s
  | .logErase c => Sys2Proof.Machine.execLogErase c s
  | .powerGood aOk bOk va vb x => Sys2Proof.Machine.execPowerGood aOk bOk va vb x s
  | .rstNLow => Sys2Proof.Machine.execRstNLow s
  | .rstNRelease x => Sys2Proof.Machine.execRstNRelease x s
  | .watchdogExpire x => Sys2Proof.Machine.execWatchdogExpire x s
  | .resetDelayExpire x => Sys2Proof.Machine.execResetDelayExpire x s
  | .startTimeout x => Sys2Proof.Machine.execStartTimeout x s
  | .fiddleheadBoundary => Sys2Proof.Machine.execFiddleheadBoundary s
  | .dramEccError addr uncorrectable rereadFails x => Sys2Proof.Machine.execDramEccError addr uncorrectable rereadFails x s
  | .correlatorParityError c => Sys2Proof.Machine.execCorrelatorParityError c s
  | .updBackup => Sys2Proof.Machine.execUpdBackup s
  | .authFailWindowEnd => Sys2Proof.Machine.execAuthFailWindowEnd s
  | .tamperBreach => Sys2Proof.Machine.execTamperBreach s
  | .updBegin c => Sys2Proof.Machine.execUpdBegin c s
  | .updBlock c => Sys2Proof.Machine.execUpdBlock c s
  | .updVerify c => Sys2Proof.Machine.execUpdVerify c s
  | .updActivate c => Sys2Proof.Machine.execUpdActivate c s
  | .updConfirm c => Sys2Proof.Machine.execUpdConfirm c s
  | .updAbort c => Sys2Proof.Machine.execUpdAbort c s
  | .updBitmapGet c => Sys2Proof.Machine.execUpdBitmapGet c s
  | .updCfgWrite c => Sys2Proof.Machine.execUpdCfgWrite c s
  | .updStatusGet c => Sys2Proof.Machine.execUpdStatusGet c s
  | .secStatusGet c => Sys2Proof.Machine.execSecStatusGet c s
  | .secIdentityGet c => Sys2Proof.Machine.execSecIdentityGet c s
  | .secAttest c => Sys2Proof.Machine.execSecAttest c s
  | .secKeyProgram c => Sys2Proof.Machine.execSecKeyProgram c s
  | .secKeyRevoke c => Sys2Proof.Machine.execSecKeyRevoke c s
  | .secCtrAdvance c => Sys2Proof.Machine.execSecCtrAdvance c s
  | .secLifecycle c => Sys2Proof.Machine.execSecLifecycle c s
  | .secTamperClr c => Sys2Proof.Machine.execSecTamperClr c s
  | .feedLost feed v => Sys2Proof.Machine.execFeedLost feed v s
  | .feedReturn feed v => Sys2Proof.Machine.execFeedReturn feed v s
  | .feedSurge feed v => Sys2Proof.Machine.execFeedSurge feed v s
  | .powerLoss => Sys2Proof.Machine.execPowerLoss s
  | .enableFall => Sys2Proof.Machine.execEnableFall s
  | .vbakLow mv => Sys2Proof.Machine.execVbakLow mv s
  | .plateTempUpdate plate die => Sys2Proof.Machine.execPlateTempUpdate plate die s
  | .pinmuxWrite value => Sys2Proof.Machine.execPinmuxWrite value s
  | .canBusIntegration c => Sys2Proof.Machine.execCanBusIntegration c s
  | .pcieConfigWrite master msix fmask mps mrrs => Sys2Proof.Machine.execPcieConfigWrite master msix fmask mps mrrs s
  | .verificationEnd => Sys2Proof.Machine.execVerificationEnd s
  | .fieldTestEnd part => Sys2Proof.Machine.execFieldTestEnd part s
  | .channelBistEnd c pass => Sys2Proof.Machine.execChannelBistEnd c pass s

end Sys2Proof.Machine
end

