-- ==== Sys2Proof/Machine/Step.lean ====
section
/-!
DEFINITION. One step of the block: the command at the front of the queue, or one TIME cycle while nothing waits.
Log: 1 (DESIGN CHOICE), 5 (DESIGN CHOICE), 95 (DESIGN CHOICE).
-/
namespace Sys2Proof.Machine

/-- One TIME cycle passes: the timebase moves by its increment (R50), and the powered cycles count. In OFF and SLEEP TIME stands still (R612). -/
def State.idle (s : State) : State :=
  if s.m.state < 2 then s else { s with env := { s.env with time := s.env.time.tick, powered := s.env.powered + 1 } }

/-- A step: the first waiting command, on the state with the rest of the queue; with none waiting, one TIME cycle. -/
def step (s : State) : Host.Outcome State Fault Refusal :=
  match s.pending with
  | [] => .next s.idle
  | c :: rest => exec c { s with pending := rest }

/-- The state with the command a word spells at the front of its queue; no word spells one. -/
def State.withFetchWord (s : State) (nbits w : Nat) : State :=
  match decodeTableWord nbits w with
  | some c => { s with pending := c :: s.pending }
  | none => s

end Sys2Proof.Machine
end

