-- ==== Sys2Proof/WellFormed.lean ====
section
/-!
DEFINITION. Well-formed commands: the checks on their operands (R5, R10, R497, R534, R551) and on the instance they name.
Log: 4 (DEDUCED).
-/
namespace Sys2Proof

/-- A long stamp (R10). -/
def Stamp.wf (t : Stamp) : Bool := decide (t.sec < 2 ^ 48) && decide (t.ns < 1000000000)

/-- A path names a submission queue (R537) or a port (R565). -/
def Path.wf : Path → Bool
  | .queue q => decide (q < 16)
  | .maint p _ => decide (p < 2)
  | .config => true

/-- A command entry (R551): its numbers fit their fields, its parameters their 44 bytes, its data the length given, and its envelope,
when it has one, 64 bytes (R655). -/
def Cmd.wf (c : Cmd) : Bool :=
  c.path.wf && decide (c.cid < 2 ^ 16) && (c.env.isEmpty || decide (c.env.length = 64)) && decide (c.dataLen < 2 ^ 32)
    && decide (c.bufLen < 2 ^ 32) && decide (c.bufAddr < 2 ^ 64) && decide (c.params.length ≤ 44) && decide (c.data.length = c.dataLen)

/-- A frame header of the stack link (R496, R497): port, source position, destination mask, hops and sequence fit their fields. -/
def LinkHdr.wf (h : LinkHdr) : Bool :=
  decide (h.port < 2) && decide (h.src < 6) && decide (h.dest < 64) && decide (h.hops < 256) && decide (h.seq < 65536)

/-- The operands are those of a command this module can be given: every instance exists and every number fits its field. -/
def Instr.wf : Instr → Bool
  | .registerWrite off _ => decide (off % 4 = 0) && decide (off < 4194304)
  | .snapshotRead off => decide (off % 4 = 0) && decide (off < 4194304)
  | .bar0BadAccess => true
  | .cycleBoundary => true
  | .qpAssemblyComplete _ => true
  | .brackenSolveEnd => true
  | .dispatchComplete => true
  | .releaseInstant => true
  | .cycleSkip => true
  | .unshadowed => true
  | .clockMonitorWindow d _ _ _ _ => decide (d < 12)
  | .refSwitch _ _ => true
  | .aonCopy => true
  | .timeIncCommit _ => true
  | .timeStepRequest _ => true
  | .tpoEdge k => decide (k < 8)
  | .tpoCommit k _ => decide (k < 8)
  | .captureEdge k _ _ => decide (k < 8)
  | .capFifoPop k => decide (k < 8)
  | .capOvfClear k _ => decide (k < 8)
  | .ptpEventStamp p _ frame => decide (p < 2) && decide (frame.length < 2048)
  | .ptpOvfClear p _ => decide (p < 2)
  | .effectiveSourceChange => true
  | .disciplineMeasurement _ _ _ _ _ => true
  | .holdoverEntry => true
  | .holdBoundUpdate => true
  | .holdoverExit => true
  | .timePulse _ => true
  | .timeGet c => c.wf
  | .timeSet c => c.wf
  | .timeAdjust c => c.wf
  | .timeDiscSet c => c.wf
  | .tpoArm c => c.wf
  | .tpoDisarm c => c.wf
  | .capSet c => c.wf
  | .ptpLatSet c => c.wf
  | .antBiasCheck _ _ => true
  | .antBiasRetry a _ => decide (a < 2)
  | .channelStateChange c st _ => decide (c < 96) && decide (st < 4)
  | .spacingApply c => decide (c < 96)
  | .channelCn0Release a _ _ => decide (a < 2)
  | .notchEngage a b _ => decide (a < 2) && decide (b < 2)
  | .jamIndicatorUpdate _ => true
  | .solutionEpoch _ => true
  | .gnsNoSignal => true
  | .gnsCtrlRestart _ => true
  | .gnsRestart c => c.wf
  | .gnsAid c => c.wf
  | .gnsRtcm c => c.wf
  | .gnsCfgSet c => c.wf
  | .gnsSpacingSet c => c.wf
  | .gnsSvExclude c => c.wf
  | .gnsObsStream c => c.wf
  | .gnsStatusGet c => c.wf
  | .filAnEnable k _ => decide (k < 16)
  | .anOutputSample k _ _ => decide (k < 16)
  | .ratioServoUpdate k _ => decide (k < 16)
  | .anShuntRetry k _ => decide (k < 16)
  | .serialCharacter p _ _ => decide (p < 8)
  | .serialGapTimeout p => decide (p < 8)
  | .serialSilentTimeout p => decide (p < 8)
  | .filSpErr p => decide (p < 8)
  | .serialSendDone p => decide (p < 8)
  | .filAnCfg c => c.wf
  | .filCoefLoad c => c.wf
  | .filAnStream c => c.wf
  | .filDcbCtrl c => c.wf
  | .filSerCfg c => c.wf
  | .filSerStream c => c.wf
  | .filSerSend c => c.wf
  | .filStatusGet c => c.wf
  | .fbkChEnable c _ => decide (c < 12)
  | .fbkLineChange c _ _ _ _ _ _ => decide (c < 12)
  | .lineAmplitudeLoss c pairs => decide (c < 12) && decide (pairs < 8)
  | .lineErrClear c => decide (c < 12)
  | .baseTick => true
  | .ssiFrameEnd c _ _ _ => decide (c < 12)
  | .ssiLineTest c failedPairs => decide (c < 12) && decide (failedPairs < 8)
  | .emuCountOutput k => decide (k < 4)
  | .supplyOverload c => decide (c < 12)
  | .supplyRetry c _ => decide (c < 12)
  | .supplyBudget loads => decide (loads.length = 12)
  | .fbkCfg c => c.wf
  | .fbkSetPos c => c.wf
  | .fbkIdxArm c => c.wf
  | .fbkEmuCfg c => c.wf
  | .fbkStream c => c.wf
  | .fbkStatusGet c => c.wf
  | .fbkLineTestRun c => c.wf
  | .epochClose => true
  | .timingSuspectClear k => decide (k < 24)
  | .jumpHoldEnd k => decide (k < 24)
  | .lchStreamCfg c => c.wf
  | .lchStreamExclude c => c.wf
  | .lchDesignate c => c.wf
  | .lchWeightsLoad c => c.wf
  | .lchDatumSet c => c.wf
  | .lchCfgSet c => c.wf
  | .lchRefAnchor c => c.wf
  | .lchReset c => c.wf
  | .lchOutStream c => c.wf
  | .lchStatusGet c => c.wf
  | .plManualTmo => true
  | .plModeSet c => c.wf
  | .plSetpoint c => c.wf
  | .plTrack c => c.wf
  | .plCfgSet c => c.wf
  | .plThrCfg c => c.wf
  | .plTableLoad c => c.wf
  | .plModelLoad c => c.wf
  | .plFeed c => c.wf
  | .brackenIterationEnd => true
  | .solveStopInstant _ => true
  | .paceLost => true
  | .scratchEccError bank _ _ _ => decide (bank < 8)
  | .bankMarchTest bank _ => decide (bank < 8)
  | .slvSolve c => c.wf
  | .slvCancel c _ => c.wf
  | .slvSelftest c => c.wf
  | .slvCfgSet c => c.wf
  | .slvStatusGet c => c.wf
  | .slvBankTest c => c.wf
  | .selfCheckEnd parts _ => decide (parts < 8)
  | .outputInstant => true
  | .strSphWrite t _ => decide (t < 48)
  | .strCfgSet c => c.wf
  | .strStateSet c => c.wf
  | .strSpSet c => c.wf
  | .strOutSet c => c.wf
  | .strStream c => c.wf
  | .strStatusGet c => c.wf
  | .strTimingSet c => c.wf
  | .droneEccError page entry _ => decide (page < 256) && decide (entry < 64)
  | .dronePageTest page _ => decide (page < 256)
  | .droneTableBackup => true
  | .drnCfgSet c => c.wf
  | .drnAlloc c => c.wf
  | .drnModeSet c => c.wf
  | .drnReset c => c.wf
  | .drnPeriodSet c => c.wf
  | .drnTableWrite c => c.wf
  | .drnTableRead c => c.wf
  | .drnStatusGet c => c.wf
  | .canModeWrite c _ => decide (c < 4)
  | .canModeApply c => decide (c < 4)
  | .canTxStart c _ => decide (c < 4)
  | .canTxEnd c _ _ => decide (c < 4)
  | .canFrameReceive c _ id dlc _ payload => decide (c < 4) && decide (id < 2 ^ 31) && decide (dlc < 16) && decide (payload.length ≤ 64)
  | .canBusError c typ _ _ _ => decide (c < 4) && decide (1 ≤ typ) && decide (typ ≤ 6)
  | .canLoopTestEnd c _ => decide (c < 4)
  | .canBusoffRecovery c => decide (c < 4)
  | .canTtTarget c o => decide (c < 4) && decide (o < 128)
  | .canTxLate c o => decide (c < 4) && decide (o < 128)
  | .canCfg c => c.wf
  | .canCtrlAct c => c.wf
  | .canObjCfg c => c.wf
  | .canTx c => c.wf
  | .canCancel c => c.wf
  | .canRxRead c => c.wf
  | .canStream c => c.wf
  | .canStatusGet c => c.wf
  | .vfieldMeasure mv => decide (mv.length = 4)
  | .diSample mv => decide (mv.length = 32)
  | .dioDiEnable n _ => decide (n < 32)
  | .dioDoCmdWrite _ => true
  | .doOverload j => decide (j < 16)
  | .aoFault k => decide (k < 8)
  | .dioCfg c => c.wf
  | .dioDoSet c => c.wf
  | .dioAoSet c => c.wf
  | .dioRearm c => c.wf
  | .dioFaultClr c hot => c.wf && decide (hot < 65536)
  | .dioStream c => c.wf
  | .dioTest c => c.wf
  | .dioStatusGet c => c.wf
  | .islandSelftestEnd _ => true
  | .safetyCycle _ => true
  | .soSwitchTest o _ _ => decide (o < 4)
  | .appHeartbeat => true
  | .safeFrameProduce k => decide (k < 16)
  | .safeFrameReceive k _ _ => decide (k < 16)
  | .safePairWindow k => decide (k < 16)
  | .safeConnTimeout k => decide (k < 16)
  | .safCfgLoad c => c.wf
  | .safCfgAccept c => c.wf
  | .safDemand c => c.wf
  | .safStatusGet c => c.wf
  | .safOutTest c => c.wf
  | .safFaultLog c => c.wf
  | .strapChange straps => decide (straps < 16)
  | .linkPortUp port _ => decide (port < 2)
  | .linkPortDown port => decide (port < 2)
  | .heartbeat h _ _ => decide (h.src < 6) && h.wf
  | .sample h slot _ => decide (slot < 24) && h.wf
  | .epochAssign h _ _ => h.wf
  | .release h _ _ => h.wf
  | .pace h _ => h.wf
  | .digest h _ _ _ _ => h.wf
  | .shadow h _ => h.wf
  | .command h op c _ => h.wf && c.wf && decide (op < 256)
  | .setpoint h _ t _ => decide (t < 48) && h.wf
  | .syncBulk h _ _ => h.wf
  | .brgReq h _ => h.wf
  | .delay h t org _ _ _ _ => h.wf && t.wf && org.wf
  | .heartbeatSend => true
  | .delayBeaconSend => true
  | .linkDelayMeasure port _ => decide (port < 2)
  | .heartbeatMiss p => decide (p < 6)
  | .lineHoldExpire => true
  | .bridgeLineChange line _ => decide (line < 3)
  | .bridgeCondition line => decide (line < 3)
  | .claimWithdraw => true
  | .peerReleaseDetect => true
  | .bridgeStuck _ => true
  | .roleResolve => true
  | .holderHoldExpire _ => true
  | .digestCompare => true
  | .switchoverRelease => true
  | .resyncTimeout => true
  | .autoRejoin => true
  | .linkTestEnd port _ => decide (port < 2)
  | .stkStatusGet c => c.wf
  | .stkSwitchover c => c.wf
  | .stkIsolate c => c.wf
  | .stkRejoin c => c.wf
  | .stkCfgSet c => c.wf
  | .stkResync c => c.wf
  | .stkLinkTest c => c.wf
  | .hostLinkReset kind => decide (kind < 4)
  | .hostLinkUp _ _ => true
  | .queueEnable typ n _ => decide (typ < 4) && decide (n < (if typ = 2 then 8 else 16))
  | .queueDisable typ n _ => decide (typ < 4) && decide (n < (if typ = 2 then 8 else 16))
  | .doorbellPoll words => decide (words.length = 56)
  | .commandFetch q entry => decide (q < 16) && (match entry with | some p => decide (p.1 < 256) && p.2.wf | none => true)
  | .ethFrameReceive p _ _ _ => decide (p < 2)
  | .n450Datagram p g _ _ => decide (p < 2) && decide (g < 16)
  | .maintRequest p _ op c => c.wf && decide (p < 2) && decide (op < 256)
  | .netLink p _ => decide (p < 2)
  | .nop c => c.wf
  | .genIdentify c => c.wf
  | .genStateGet c => c.wf
  | .genReset c => c.wf
  | .netCfg c => c.wf
  | .net450Cfg c => c.wf
  | .netStatusGet c => c.wf
  | .ptpCfg c => c.wf
  | .hifStatusGet c => c.wf
  | .irqSourceRise n => decide (n < 512)
  | .irqSourceFall n => decide (n < 512)
  | .irqWindowCommit gs => gs.all fun g => decide (g < 16)
  | .msixUnmask v _ => decide (v < 32)
  | .irqRepeat ns => ns.all fun n => decide (n < 512)
  | .irqVecClaimRead v => decide (v < 32)
  | .irqClaimedRead w => decide (w < 16)
  | .irqSrcTgtWrite n _ => decide (n < 512)
  | .irqSwrSet x _ => decide (x < 3)
  | .irqSwrClr x _ => decide (x < 3)
  | .recordCommit _ _ => true
  | .timeAnchor => true
  | .logFlushTimeout => true
  | .logErased failed => failed.all fun k => decide (k < 3072)
  | .logStatusGet c => c.wf
  | .logRead c => c.wf
  | .logSegRead c => c.wf
  | .logWrite c => c.wf
  | .logCfgSet c => c.wf
  | .logFlush c => c.wf
  | .logErase c => c.wf
  | .powerGood _ _ va vb _ => decide (va < 65536) && decide (vb < 65536)
  | .rstNLow => true
  | .rstNRelease _ => true
  | .watchdogExpire _ => true
  | .resetDelayExpire _ => true
  | .startTimeout _ => true
  | .fiddleheadBoundary => true
  | .dramEccError addr _ _ _ => decide (addr < 3758096384)
  | .correlatorParityError c => decide (c < 96)
  | .updBackup => true
  | .authFailWindowEnd => true
  | .tamperBreach => true
  | .updBegin c => c.wf
  | .updBlock c => c.wf
  | .updVerify c => c.wf
  | .updActivate c => c.wf
  | .updConfirm c => c.wf
  | .updAbort c => c.wf
  | .updBitmapGet c => c.wf
  | .updCfgWrite c => c.wf
  | .updStatusGet c => c.wf
  | .secStatusGet c => c.wf
  | .secIdentityGet c => c.wf
  | .secAttest c => c.wf
  | .secKeyProgram c => c.wf
  | .secKeyRevoke c => c.wf
  | .secCtrAdvance c => c.wf
  | .secLifecycle c => c.wf
  | .secTamperClr c => c.wf
  | .feedLost feed v => decide (feed < 2) && decide (v < 65536)
  | .feedReturn feed v => decide (feed < 2) && decide (v < 65536)
  | .feedSurge feed v => decide (feed < 2) && decide (v < 65536)
  | .powerLoss => true
  | .enableFall => true
  | .vbakLow _ => true
  | .plateTempUpdate _ _ => true
  | .pinmuxWrite _ => true
  | .canBusIntegration c => decide (c < 4)
  | .pcieConfigWrite _ _ _ _ _ => true
  | .verificationEnd => true
  | .fieldTestEnd _ => true
  | .channelBistEnd c _ => decide (c < 96)

end Sys2Proof
end

