-- ==== Sys2Proof/Safety.lean ====
section
/-!
DEFINITION. What counts as a safe state and a safe run, in the terms the statements use: the timebase within its range, the vault's one-time bits only ever
set, and a queue of well-formed commands; what a command of a queue answers; and which commands may move the timebase or change the vault.
-/
namespace Sys2Proof.Machine

/-- The timebase reads a long stamp with a fraction (R10, R50), and runs at an admissible increment (R55). -/
def Timebase.ok (t : Timebase) : Prop := t.sec < 2 ^ 48 ∧ t.ns < 1000000000 ∧ t.frac < 2 ^ 32 ∧ incOk t.inc = true

/-- What every state of the block obeys. -/
def State.Inv (s : State) : Prop := s.env.time.ok

/-- A command of a submission queue that passes the checks of R553 without an envelope: its lengths are good, the lifecycle is not SEALED or RETIRED, and
the boot ROM's recovery service does not run. -/
def State.takes (s : State) (c : Cmd) : Prop :=
  (∃ q : Nat, c.path = .queue q) ∧ c.lenBad = false ∧ c.env = [] ∧ s.env.locked = false ∧ s.m.b .GEN_START_boot_rom = false

/-- The next state when a command with an opcode has left the machine as m and completes with a status, result bytes and data. -/
def State.answers (s : State) (op : Nat) (c : Cmd) (m : Mach) (st : Nat) (res data : List Byte) : Host.Outcome State Fault Refusal :=
  .next { s with m := m.complete s.env op c st res data }

/-- The next state when only the machine beside timebase and vault changes. -/
def State.becomes (s : State) (m : Mach) : Host.Outcome State Fault Refusal := .next { s with m := m }

/-- The next state when a command with an opcode on the vault leaves the vault v and the machine m, and completes with a status and result bytes. -/
def State.vaultAnswers (s : State) (op : Nat) (c : Cmd) (v : Vault) (m : Mach) (st : Nat) (res : List Byte) : Host.Outcome State Fault Refusal :=
  .next { s with env := { s.env with vault := v }, m := m.complete s.env op c st res [] }

/-- A frame of a type arrives whole at a port that is up, from another module, names this position and is the first copy (R496): m0 is the machine that has
counted it and forwarded it. -/
def Mach.hears (m : Mach) (h : LinkHdr) (typ : Nat) (m0 : Mach) : Prop :=
  h.port < 2 ∧ m.b (lkUp h.port) = true ∧ h.crcOk = true ∧ h.src ≠ m.pos ∧ h.dest.testBit m.pos = true ∧ m.linkNew h typ = true
    ∧ m0 = (m.linkForward h typ).setStk fun x => { x with seqIn := setAssoc (linkKey h typ) h.seq x.seqIn }

/-- A register outside the blocks of the host interface and of the recorder (R711). -/
abbrev farReg (off : Nat) : Prop := (off < 0x10000 ∨ 0x20000 ≤ off) ∧ (off < 0xd0000 ∨ 0xe0000 ≤ off)

/-- Two machines whose registers outside the host interface and the recorder agree. -/
def Mach.alike (m m' : Mach) : Prop := ∀ off : Nat, farReg off → m'.rd off = m.rd off

/-- A list of one-time bits of which none is lost. -/
def bitsKept (old new : List Bool) : Prop := ∀ i : Nat, old.getD i false = true → new.getD i false = true

/-- The vault only ever gains: a fuse stays blown, a revoked key slot or command key stays revoked, and no counter falls (R645 to R654). -/
def Vault.grows (old new : Vault) : Prop :=
  bitsKept (old.fuses.map Prod.fst) (new.fuses.map Prod.fst) ∧ bitsKept (old.fuses.map Prod.snd) (new.fuses.map Prod.snd)
    ∧ bitsKept (old.roots.map RootSlot.revoked) (new.roots.map RootSlot.revoked) ∧ bitsKept (old.cmds.map Prod.snd) (new.cmds.map Prod.snd)
    ∧ ∀ i : Nat, old.ctr.getD i 0 ≤ new.ctr.getD i 0

/-- The commands that may move the timebase by more than the passing of TIME: those that step it or change its increment (R54 to R58, R80, R82, R87), the
boundary at which a waiting step is applied (R58), the PPS edge at which a waiting increment is committed (R115), a beacon of the master (R499, R500), a register write or a maintenance request that is one of these, and
what starts the module (R51). -/
def movesTime : Instr → Bool
  | .timeIncCommit _ | .timeStepRequest _ | .tpoEdge _ | .disciplineMeasurement _ _ _ _ _ | .holdoverEntry | .timeSet _ | .timeAdjust _ | .cycleBoundary
  | .delay _ _ _ _ _ _ _ | .registerWrite _ _ | .maintRequest _ _ _ _ | .selfCheckEnd _ _ | .syncBulk _ _ _ | .dramEccError _ _ _ _
  | .powerGood _ _ _ _ _ | .rstNRelease _ | .watchdogExpire _ | .resetDelayExpire _ | .startTimeout _ => true
  | _ => false

/-- The commands that may change the vault (R645 to R654, R669): the five of the security unit and of the update's confirmation, and a maintenance request that is one
of them. -/
def changesVault : Instr → Bool
  | .secCtrAdvance _ | .updConfirm _ | .secKeyProgram _ | .secKeyRevoke _ | .secLifecycle _ | .maintRequest _ _ _ _ => true
  | _ => false

/-- Every waiting command is well-formed. -/
def State.queueWf (s : State) : Prop := ∀ c ∈ s.pending, c.wf = true

end Sys2Proof.Machine
end

