-- ==== Sys2Proof/Certificates/Slice0/Obligations.lean ====
section
/-!
DEFINITION. What is stated of the block: steps, invariants and frames of the whole machine first, then what the commands and the happenings of each family do.
A command of a submission queue that passes the checks of R553 and the conditions named answers as stated; a happening moves the machine as stated; where an
equation of states is given, nothing but what it names changes.
-/
open Sys2Proof Sys2Proof.Machine

/-- A step takes the command at the front of the queue and runs it on the rest (the queue is the model's, log entry 5). -/
def Obligations.StepRunsTheFrontCommand : Prop :=
  ∀ (s : State) (c : Instr) (rest : List Instr), s.pending = c :: rest → step s = exec c { s with pending := rest }

/-- With nothing waiting a step is one TIME cycle (R50): the increment is added to nanoseconds and fraction taken together, with the carry into the seconds in
the same cycle, and the nanoseconds never read 1 000 000 000 or more. That the step on an empty queue is a TIME cycle is the model's choice (log entry 1). -/
def Obligations.IdleStepIsOneTimeCycle : Prop :=
  ∀ (s : State) (total : Nat), s.pending = [] → 2 ≤ s.m.state → s.Inv →
    total = s.env.time.ns * 2 ^ 32 + s.env.time.frac + s.env.time.inc →
    ∃ t : State, step s = .next t ∧ t.m = s.m ∧ t.env.vault = s.env.vault ∧ t.pending = [] ∧ t.env.time.inc = s.env.time.inc
      ∧ t.env.time.ns < 1000000000 ∧ t.env.time.sec < 2 ^ 48 ∧ t.env.time.frac < 2 ^ 32
      ∧ (total < 1000000000 * 2 ^ 32 → t.env.time.ns * 2 ^ 32 + t.env.time.frac = total ∧ t.env.time.sec = s.env.time.sec)
      ∧ (1000000000 * 2 ^ 32 ≤ total → (t.env.time.ns + 1000000000) * 2 ^ 32 + t.env.time.frac = total
          ∧ t.env.time.sec = (s.env.time.sec + 1) % 2 ^ 48)

/-- The state after reset: nothing waits, the timebase is admissible, the identity registers read as the tables give them (R3), and GEN_STATE shows STARTING, its reset value in the table. The empty queue (log entry 5), fault table and write buffer
(log entry 12) and the timebase at its nominal increment (log entry 15) are the model's choices. -/
def Obligations.ResetState : Prop :=
  State.reset.Inv ∧ State.reset.pending = [] ∧ State.reset.m.rd Reg.GEN_ID = 0x4E5803D4 ∧ State.reset.m.rd Reg.GEN_STEP = 0x4201
    ∧ State.reset.m.rd Reg.GEN_PARAM0 = 0x16242030 ∧ State.reset.m.rd Reg.GEN_PARAM1 = 0x01001018 ∧ State.reset.m.state = 2
    ∧ State.reset.m.rd Reg.TIME_INC_HI = 4 ∧ State.reset.m.rd Reg.TIME_INC_LO = 0 ∧ State.reset.m.faults = [] ∧ State.reset.m.peat.buffer = []

/-- Every step keeps the timebase within its range and at an admissible increment (R10, R50, R55). -/
def Obligations.EveryStepKeepsTheTimebase : Prop :=
  ∀ s t : State, s.Inv → step s = .next t → t.Inv

/-- The vault only ever gains (R645 to R654): whatever the step, no fuse, no revocation and no counter goes back. -/
def Obligations.EveryStepKeepsTheVault : Prop :=
  ∀ s t : State, step s = .next t → Vault.grows s.env.vault t.env.vault

/-- Every well-formed command completes and leaves the queue alone; nothing but an absent instance stops a command (R5), and nothing is refused. -/
def Obligations.OnlyAbsentInstancesStop : Prop :=
  ∀ (c : Instr) (s : State), (∃ t : State, exec c s = .next t ∧ t.pending = s.pending) ∨ (exec c s = .fault .noInstance ∧ c.wf = false)

/-- Only the commands of the timebase, and those that start the module, move it (R50, R51); only those of the security unit change the vault. -/
def Obligations.OnlyNamedCommandsMoveTimeOrVault : Prop :=
  ∀ (c : Instr) (s t : State), exec c s = .next t →
    (movesTime c = false → t.env.time = s.env.time) ∧ (changesVault c = false → t.env.vault = s.env.vault)

/-- What a host write leaves in a register (R8, R9), bit by bit: RW takes the write; RWL keeps its value when locked, RWQ while the unit is not quiescent; W1C
clears where a 1 is written; every other bit is kept. No register outside the host interface and the recorder changes but this one. -/
def Obligations.AccessCodesOfAWrite : Prop :=
  ∀ (m : Mach) (locked quiet : Bool) (off : Nat) (v : Word) (d : RegDef) (w : Word), regAt off = some d → farReg off →
    w = (m.hostPut locked quiet off v).rd off →
    (∀ i : Nat, i < 32 →
      (d.rw.testBit i = true → d.w1c.testBit i = false → w.getLsbD i = v.getLsbD i)
      ∧ (d.rwl.testBit i = true → d.rw.testBit i = false → d.rwq.testBit i = false → d.w1c.testBit i = false →
          w.getLsbD i = if locked then (m.rd off).getLsbD i else v.getLsbD i)
      ∧ (d.rwq.testBit i = true → d.rw.testBit i = false → d.rwl.testBit i = false → d.w1c.testBit i = false →
          w.getLsbD i = if quiet then v.getLsbD i else (m.rd off).getLsbD i)
      ∧ (d.w1c.testBit i = true → d.rw.testBit i = false → d.rwl.testBit i = false → d.rwq.testBit i = false →
          w.getLsbD i = ((m.rd off).getLsbD i && !v.getLsbD i))
      ∧ (d.rw.testBit i = false → d.rwl.testBit i = false → d.rwq.testBit i = false → d.w1c.testBit i = false →
          w.getLsbD i = (m.rd off).getLsbD i))
    ∧ ∀ o : Nat, farReg o → o ≠ off → (m.hostPut locked quiet off v).rd o = m.rd o

/-- Short stamps (R11): floor((s × 10⁹ + ns) / 8) modulo 2³², for every long stamp; and they are compared by the signed 32-bit difference (R12). -/
def Obligations.ShortStamps : Prop :=
  (∀ x : Stamp, x.short = (x.sec * 1000000000 + x.ns) / 8 % 2 ^ 32)
    ∧ (∀ a b : Nat, a < 2 ^ 32 → b < 2 ^ 32 → (-(2 ^ 31 : Int) ≤ shortDiff a b ∧ shortDiff a b < 2 ^ 31) ∧ ((a : Int) - b - shortDiff a b) % 2 ^ 32 = 0)
    ∧ (∀ x y : Stamp, (-(2 ^ 31 : Int)) * 8 + 8 ≤ (x.toNs : Int) - y.toNs → (x.toNs : Int) - y.toNs < 2 ^ 31 * 8 - 8 →
        (8 ≤ (x.toNs : Int) - y.toNs → 0 < shortDiff x.short y.short) ∧ ((x.toNs : Int) - y.toNs ≤ -8 → shortDiff x.short y.short < 0))

/-- The fault table (R637): an error adds one entry or counts in its own, the table never holds more than 64 entries, and a LASTING entry is kept. -/
def Obligations.FaultTableIsBounded : Prop :=
  ∀ (m : Mach) (e : Env) (cls inst addr : Nat), m.faults.length ≤ 64 →
    (m.faultNote e cls inst addr).faults.length ≤ 64
    ∧ (∀ f ∈ m.faults, f.lasting = true → ∃ g ∈ (m.faultNote e cls inst addr).faults,
        g.cls = f.cls ∧ g.inst = f.inst ∧ g.addr = f.addr ∧ g.lasting = true)
    ∧ ((m.faults.all FaultEntry.lasting = false ∨ m.faults.length < 64) →
        ∃ g ∈ (m.faultNote e cls inst addr).faults, g.cls = cls ∧ g.inst = inst ∧ g.addr = addr)

/-- Records at the write buffer (R598): one below min_sev is filtered and counted, one of severity 0 to 2 while buf_high is set is dropped and counted, and any
other that fits stands last. -/
def Obligations.RecordsEnterOrDrop : Prop :=
  ∀ (m : Mach) (r : PeatRec), r.typ ≠ typAnchor →
    (r.sev < m.g .LOG_CFG_min_sev → (m.record r).peat = m.peat ∧ (m.g .LOG_CNT_filtered + 1 < 2 ^ fldWidth .LOG_CNT_filtered →
      (m.record r).g .LOG_CNT_filtered = m.g .LOG_CNT_filtered + 1))
    ∧ (m.g .LOG_CFG_min_sev ≤ r.sev → m.b .LOG_STS_buf_high = true → r.sev ≤ 2 →
      (m.record r).peat.buffer = m.peat.buffer ∧ (m.record r).b .LOG_STS_dropped = true)
    ∧ (m.g .LOG_CFG_min_sev ≤ r.sev → (m.b .LOG_STS_buf_high = false ∨ 3 ≤ r.sev) → bufFill m.peat.buffer + recSize r ≤ bufSize →
      (m.record r).peat.buffer = m.peat.buffer ++ [r] ∧ (m.record r).peat.next = m.peat.next)

/-- The entry an event queue keeps free (R540, R557): no event, whatever becomes of it, fills an event queue to its last entry. -/
def Obligations.EventsLeaveOneEntryFree : Prop :=
  ∀ (m : Mach) (e : Env) (q sev code : Nat) (p : List Byte), q < 8 → q < m.hif.eq.length → 1 ≤ m.ringSize .eq q →
    m.ringUsed .eq q + 1 ≤ m.ringSize .eq q →
    (m.toEq e q sev code p).ringUsed .eq q + 1 ≤ (m.toEq e q sev code p).ringSize .eq q
    ∧ (m.ringOpen .eq q = true → m.ringUsed .eq q + evSlots p + 1 > m.ringSize .eq q →
        ((m.toEq e q sev code p).ring .eq q).dropped = (m.ring .eq q).dropped + 1 ∧ ((m.toEq e q sev code p).ring .eq q).held = (m.ring .eq q).held)

/-- A command that addresses an instance the module does not have completes with RANGE (R5, R554) and has no other effect. -/
def Obligations.AbsentInstancesAnswerRange : Prop :=
  ∀ (s : State) (c : Cmd), s.takes c →
    (8 ≤ c.u8 0 → exec (.tpoDisarm c) s = s.answers 0x15 c s.m stRange [] [] ∧ exec (.slvBankTest c) s = s.answers 0x5D c s.m stRange [] [])
    ∧ (12 ≤ c.u8 0 → exec (.fbkSetPos c) s = s.answers 0x39 c s.m stRange [] [])
    ∧ (24 ≤ c.u8 0 → exec (.lchStreamExclude c) s = s.answers 0x41 c s.m stRange [] [] ∧ exec (.plTableLoad c) s = s.answers 0x55 c s.m stRange [] [])
    ∧ (48 ≤ c.u8 1 → exec (.strOutSet c) s = s.answers 0x63 c s.m stRange [] [] ∧ exec (.drnTableRead c) s = s.answers 0x6E c s.m stRange [] [])
    ∧ (4 ≤ c.u8 0 → exec (.canCfg c) s = s.answers 0x70 c s.m stRange [] [] ∧ exec (.dioTest c) s = s.answers 0x7E c s.m stRange [] [])
    ∧ (2 ≤ c.u8 0 → exec (.netCfg c) s = s.answers 0x05 c s.m stRange [] [] ∧ exec (.stkLinkTest c) s = s.answers 0x8E c s.m stRange [] []
        ∧ exec (.updVerify c) s = s.answers 0xA2 c s.m stRange [] [])

/-- The frame of the commands that only report: the timebase, the vault, the queue, and every register outside the host interface and the recorder are as
before. -/
def Obligations.ReportsChangeNothingElse : Prop :=
  ∀ (s : State) (c : Cmd) (q : Nat), s.takes c → c.path = .queue q → q < 16 → c.u8 0 % 2 = 0 →
    ∀ i ∈ [Instr.nop c, .genIdentify c, .genStateGet c, .hifStatusGet c, .netStatusGet c, .timeGet c, .gnsStatusGet c, .filStatusGet c, .fbkStatusGet c,
        .lchStatusGet c, .slvStatusGet c, .strStatusGet c, .drnStatusGet c, .canStatusGet c, .dioStatusGet c, .safStatusGet c, .safFaultLog c, .stkStatusGet c,
        .logStatusGet c, .updStatusGet c, .updBitmapGet c, .secStatusGet c, .secIdentityGet c, .secAttest c],
      ∃ t : State, exec i s = .next t ∧ t.env = s.env ∧ t.pending = s.pending ∧ s.m.alike t.m

/-- The grid of the module (R15 to R19, R35 to R37, R42, R332, R342 to R344, R519, R525, R618, R622, R631): boundaries of the reduced and of the full law, base ticks, output instants,
the end of a self-check, items of a resynchronisation, and a window of a clock monitor. -/
def Obligations.CyclesAndTicks : Prop :=
  ∀ s : State,
    (∀ (t0 : Nat) (m0 m1 : Mach), t0 = s.env.ns / 200000000 * 200000000 → (∀ f, s.m.grid.fh = some f → f < t0) →
        m0 = { s.m with grid := { s.m.grid with fh := some t0 } } →
        m1 = (if m0.onReduced && m0.runsLaw then m0.plReduced s.env t0 else m0) →
        exec .fiddleheadBoundary s = s.becomes (if m1.serviceDue s.env then m1.enterService s.env else m1)
        ∧ ∃ t : State, exec .fiddleheadBoundary s = .next t ∧ t.env = s.env ∧ t.pending = s.pending)
    ∧ (∀ f, s.m.grid.fh = some f → s.env.ns / 200000000 * 200000000 ≤ f → exec .fiddleheadBoundary s = .next s)
    ∧ (s.m.grid.running = false ∨ s.env.ns < s.m.grid.next → exec .cycleBoundary s = .next s)
    ∧ (∀ (n b : Nat) (m1 m2 : Mach), s.m.grid.running = true → s.m.grid.first = false → s.m.time.step = none → n = (s.m.cycNum + 1) % 2 ^ 64 →
        b = s.m.grid.next → b ≤ s.env.ns → m1 = (s.m.cycleTurn b n false false).plTiming → m2 = (m1.syncBoundary s.env n).syncedService s.env →
        exec .cycleBoundary s = s.becomes (m2.cycleLaw s.env b false) ∧ (s.m.cycleTurn b n false false).cycNum = n
        ∧ (s.m.cycleTurn b n false false).grid.next = b + s.m.grid.periodMs * 1000000
        ∧ ∃ t : State, exec .cycleBoundary s = .next t ∧ t.env = s.env ∧ t.pending = s.pending)
    ∧ (s.m.shadows = true → exec .unshadowed s = s.becomes (s.m.plUnshadow.openRecord 2 0x13)
        ∧ ∃ t : State, exec .unshadowed s = .next t ∧ t.m.pl.cyc.flags.testBit 1 = true ∧ t.m.freeCount = s.m.freeCount + 2 ∧ t.env = s.env)
    ∧ (s.m.shadows = false → exec .unshadowed s = .next s)
    ∧ (∀ tk : Nat, tk = s.env.ns / s.m.tickNs * s.m.tickNs → (∀ f, s.m.str.tick = some f → f < tk) →
        exec .baseTick s = s.becomes (s.m.baseTick s.env tk) ∧ ∃ t : State, exec .baseTick s = .next t ∧ t.env = s.env ∧ t.pending = s.pending)
    ∧ (∀ f, s.m.str.tick = some f → s.env.ns / s.m.tickNs * s.m.tickNs ≤ f → exec .baseTick s = .next s)
    ∧ (s.m.str.out = none ∨ (∃ t, s.m.str.out = some t ∧ s.env.ns < t) → exec .outputInstant s = .next s)
    ∧ (∀ t0, s.m.str.out = some t0 → t0 ≤ s.env.ns →
        exec .outputInstant s = s.becomes (({ s.m with str := { s.m.str with out := none } }.strOutput s.env).takeoverLive s.env)
        ∧ ∃ t : State, exec .outputInstant s = .next t ∧ t.env = s.env ∧ t.pending = s.pending)
    ∧ (∀ (parts : Nat) (x : StartIn), s.m.selfTesting = true → s.m.boot.checking = false →
        exec (.selfCheckEnd parts x) s = s.becomes (s.m.selfTestEnd s.env parts))
    ∧ (∀ (x : StartIn) (m1 : Mach), s.m.selfTesting = true → s.m.boot.checking = true → m1 = s.m.selfTestEnd s.env 0 →
        exec (.selfCheckEnd 0 x) s = s.becomes ({ m1 with boot := { m1.boot with checkOk := true, checking := false } }.syncedService s.env))
    ∧ (∀ (parts : Nat) (x : StartIn) (m1 : Mach), s.m.selfTesting = true → s.m.boot.checking = true → parts % 8 ≠ 0 → m1 = s.m.selfTestEnd s.env parts →
        2 ≤ m1.boot.fails →
        exec (.selfCheckEnd parts x) s = .next (startRun false 7 x { s with m := { m1 with boot := { m1.boot with fails := m1.boot.fails + 1 } } }))
    ∧ (∀ (h : LinkHdr) (item : SyncItem) (x : StartIn) (m0 : Mach), s.m.hears h 0xA m0 → m0.stk.seqIn ≠ s.m.stk.seqIn → (∀ i g, item ≠ .config i g) →
        exec (.syncBulk h item x) s = s.becomes (m0.syncTake s.env item))
    ∧ (∀ (h : LinkHdr) (image : List Byte) (gen : Nat) (x : StartIn) (m0 : Mach), s.m.hears h 0xA m0 → m0.stk.seqIn ≠ s.m.stk.seqIn → m0.role = 2 →
        m0.g .STK_SYNC_STS_phase = 2 → exec (.syncBulk h (.config image gen) x) s = .next (syncConfig image gen x { s with m := m0 }))
    ∧ (∀ (d a b : Nat) (o r : Bool), d < 12 → s.m.clkDue s.env d = false → exec (.clockMonitorWindow d a b o r) s = .next s)
    ∧ (∀ (d a b : Nat) (o r : Bool), d < 12 → d ≠ 4 → s.m.clkDue s.env d = true → exec (.clockMonitorWindow d a b o r) s = s.becomes ((s.m.clkWindow s.env d a b).gnsFollow s.env s.m.gnsRuns))
    ∧ (∀ (a b : Nat) (o r : Bool), s.m.clkDue s.env 4 = true → exec (.clockMonitorWindow 4 a b o r) s
        = s.becomes ((((s.m.sb .GEN_CLK_REF_ocxo_ok o).sb .GEN_CLK_REF_ref_in_ok r).clkWindow s.env 4 a b).gnsFollow s.env s.m.gnsRuns))
    ∧ (∀ (d a b : Nat) (o r : Bool) (old : ClkMon), d < 12 → s.m.clk.length = 12 → s.m.clkDue s.env d = true → old = nth ClkMon.reset s.m.clk d → clkIn d a = true → clkIn d b = true →
        (d = 5 → old.both < 3) →
        ∃ t : State, exec (.clockMonitorWindow d a b o r) s = .next t ∧ t.env = s.env ∧ nth ClkMon.reset t.m.clk d = ⟨0, 0, min 3 (old.seen + 1), some s.env.powered⟩
          ∧ t.m.bit Reg.GEN_CLK_OK d = decide (2 ≤ old.seen))
    ∧ (∀ (a b : Nat) (o r : Bool) (old : ClkMon), s.m.clk.length = 12 → s.m.clkDue s.env 11 = true → old = nth ClkMon.reset s.m.clk 11 → old.both = 2 → clkIn 11 a = false → clkIn 11 b = false →
        ∃ t : State, exec (.clockMonitorWindow 11 a b o r) s = .next t ∧ t.env = s.env ∧ t.m.time.aonValid = false ∧ t.m.clkFailed 11 = true
          ∧ t.m.bit Reg.GEN_CLK_FAIL 11 = true ∧ t.m.bit Reg.GEN_CLK_OK 11 = false)

/-- Register accesses (R7 to R9, R34, R53, R693 to R697) and maintenance requests (R569): a write of a register without a row of its own goes by the access
codes and the rules of its block, and one with a row of its own is that row, a read returns the latched or the present value and latches its snapshot in every state but OFF and SLEEP (R3), one that removes or claims is its own row, the pin multiplexer takes quiescent bits only, and a request
of the maintenance port runs its command. -/
def Obligations.RegisterAccesses : Prop :=
  ∀ s : State,
    (∀ (off : Nat) (v : Word), ∃ t : State, exec (.registerWrite off v) s = .next t ∧ t.pending = s.pending ∧ t.env.vault = s.env.vault)
    ∧ (∀ (off : Nat) (v : Word), 0xD0000 ≤ off → exec (.registerWrite off v) s = s.becomes (s.m.hostPut s.env.locked true off v))
    ∧ (∀ (off : Nat) (v : Word) (d : RegDef), 0xD0000 ≤ off → regAt off = some d →
        ∃ t : State, exec (.registerWrite off v) s = .next t ∧ t.env = s.env ∧ t.m.rd off = hostMerge d s.env.locked true (s.m.rd off) v
          ∧ (hostIgnores d s.env.locked true (s.m.rd off) v = false → ∀ o : Nat, o ≠ off → t.m.rd o = s.m.rd o))
    ∧ (∀ (off : Nat) (v : Word) (d : RegDef), regAt off = some d → (0x48000 ≤ off ∧ off < 0x70000) ∨ (0xB0000 ≤ off ∧ off < 0xC0000)
          ∨ (0x20000 ≤ off ∧ off < 0x30000 ∧ famIdx (Reg.IRQ_SRCs_TGT 0) 4 512 off = none ∧ famIdx (Reg.IRQ_SWR_SETx 0) 4 3 off = none
            ∧ famIdx (Reg.IRQ_SWR_CLRx 0) 4 3 off = none) →
        ∃ t : State, exec (.registerWrite off v) s = .next t ∧ t.env = s.env ∧ t.m.rd off = hostMerge d s.env.locked true (s.m.rd off) v
          ∧ (hostIgnores d s.env.locked true (s.m.rd off) v = false → ∀ o : Nat, o ≠ off → t.m.rd o = s.m.rd o))
    ∧ (∀ (off : Nat) (v : Word), off ≠ Reg.TIME_CTRL → off ≠ Reg.TIME_INC_HI → off ≠ Reg.GNS_CTRL → off ≠ Reg.DIO_DO_CMD →
        ([(Reg.TPOk_CTRL 0, 0x20, 8), (Reg.CAPk_STS 0, 0x20, 8), (Reg.PTPp_STS 0, 0x20, 2), (Reg.FBK_CHc_CFG 0, 0x80, 12), (Reg.STR_Ss_SPH 0, 0x100, 48),
          (Reg.CAN_c_CTRL 0, 0x1000, 4), (Reg.DIO_DIi_CFG 0, 0x10, 32), (Reg.IRQ_SRCs_TGT 0, 4, 512), (Reg.IRQ_SWR_SETx 0, 4, 3),
          (Reg.IRQ_SWR_CLRx 0, 4, 3)] : List (Nat × Nat × Nat)).all (fun f => (famIdx f.1 f.2.1 f.2.2 off).isNone) = true →
        exec (.registerWrite off v) s = s.becomes (s.m.regWrite s.env off v))
    ∧ (∀ v : Word, exec (.registerWrite Reg.TIME_CTRL v) s = exec (.timeStepRequest v) s
        ∧ exec (.registerWrite Reg.TIME_INC_HI v) s = exec (.timeIncCommit v) s ∧ exec (.registerWrite Reg.GNS_CTRL v) s = exec (.gnsCtrlRestart v) s
        ∧ exec (.registerWrite Reg.DIO_DO_CMD v) s = exec (.dioDoCmdWrite v) s)
    ∧ (∀ (k : Nat) (v : Word), (k < 8 → exec (.registerWrite (Reg.TPOk_CTRL k) v) s = exec (.tpoCommit k v) s)
        ∧ (k < 8 → exec (.registerWrite (Reg.CAPk_STS k) v) s = exec (.capOvfClear k v) s)
        ∧ (k < 2 → exec (.registerWrite (Reg.PTPp_STS k) v) s = exec (.ptpOvfClear k v) s)
        ∧ (k < 12 → exec (.registerWrite (Reg.FBK_CHc_CFG k) v) s = exec (.fbkChEnable k v) s)
        ∧ (k < 48 → exec (.registerWrite (Reg.STR_Ss_SPH k) v) s = exec (.strSphWrite k v) s)
        ∧ (k < 4 → exec (.registerWrite (Reg.CAN_c_CTRL k) v) s = exec (.canModeWrite k v) s)
        ∧ (k < 32 → exec (.registerWrite (Reg.DIO_DIi_CFG k) v) s = exec (.dioDiEnable k v) s)
        ∧ (k < 512 → exec (.registerWrite (Reg.IRQ_SRCs_TGT k) v) s = exec (.irqSrcTgtWrite k v) s)
        ∧ (k < 3 → exec (.registerWrite (Reg.IRQ_SWR_SETx k) v) s = exec (.irqSwrSet k v) s)
        ∧ (k < 3 → exec (.registerWrite (Reg.IRQ_SWR_CLRx k) v) s = exec (.irqSwrClr k v) s))
    ∧ (∀ off : Nat, s.m.state < 2 → exec (.snapshotRead off) s = .next s)
    ∧ (∀ k : Nat, k < 8 → 2 ≤ s.m.state → exec (.snapshotRead (Reg.CAPk_SH k)) s = exec (.capFifoPop k) s)
    ∧ (∀ v : Nat, v < 32 → 2 ≤ s.m.state → exec (.snapshotRead (Reg.IRQ_VECv_CLAIM v)) s = exec (.irqVecClaimRead v) s)
    ∧ (∀ w : Nat, w < 16 → 2 ≤ s.m.state → exec (.snapshotRead (Reg.IRQ_CLAIMEDw w)) s = exec (.irqClaimedRead w) s)
    ∧ (∀ off : Nat, 2 ≤ s.m.state → famIdx (Reg.CAPk_SH 0) 0x20 8 off = none → famIdx (Reg.IRQ_VECv_CLAIM 0) 4 32 off = none →
        famIdx (Reg.IRQ_CLAIMEDw 0) 4 16 off = none →
        ∃ t : State, exec (.snapshotRead off) s = .next t ∧ t.m.regs = s.m.regs ∧ t.env = s.env
        ∧ t.m.out = ⟨"READ", off, ((s.m.hostRead s.env off).toNat : Int), []⟩ :: s.m.out
        ∧ (∀ o : Nat, o ∉ snapOf off → t.m.latch.lookup o = s.m.latch.lookup o))
    ∧ (∀ (o : Nat), 2 ≤ s.m.state → o ∈ snapOf Reg.TIME_NOW_NS → ∃ t : State, exec (.snapshotRead Reg.TIME_NOW_NS) s = .next t
        ∧ (s.m.latch = [] → t.m.hostRead t.env o = s.m.live s.env o))
    ∧ (∀ v : Word, s.env.locked = true → ((s.m.rd Reg.GEN_PINMUX ^^^ v) &&& 0xFF) = 0 →
        ∃ t : State, exec (.pinmuxWrite v) s = .next t ∧ ∀ off : Nat, t.m.rd off = s.m.rd off)
    ∧ (∀ v : Word, exec (.pinmuxWrite v) s = s.becomes (s.m.pinmuxWrite s.env.locked v)
        ∧ ∃ t : State, exec (.pinmuxWrite v) s = .next t ∧ t.env = s.env ∧ t.m.rd Reg.GEN_PINMUX
          = s.m.rd Reg.GEN_PINMUX ^^^ (((s.m.rd Reg.GEN_PINMUX ^^^ v) &&& 0xFF) &&& BitVec.ofNat 32 (s.m.pinMask s.env.locked)))
    ∧ (∀ (p src op : Nat) (c : Cmd), p < 2 → s.m.netUp p = true → s.m.netServes p .maint = true → s.m.maintTaken s.env p < 100 →
        s.m.hif.maintBusy.contains (p, src) = false →
        exec (.maintRequest p src op c) s = runOp op { c with path := .maint p src } { s with m := s.m.maintTake s.env p src }
        ∧ exec (.maintRequest p src 0x01 c) s = exec (.nop { c with path := .maint p src }) { s with m := s.m.maintTake s.env p src })
    ∧ (∀ (p src : Nat) (c : Cmd), p < 2 → s.m.netUp p = true → s.m.netServes p .maint = true → s.m.maintTaken s.env p < 100 →
        s.m.hif.maintBusy.contains (p, src) = false → c.lenBad = false → c.env = [] → s.m.b .GEN_START_boot_rom = false →
        ∃ t : State, exec (.maintRequest p src 0x01 c) s = .next t)
    ∧ (∀ (p src op : Nat) (c : Cmd), p < 2 → (s.m.netUp p = false ∨ s.m.netServes p .maint = false ∨ 100 ≤ s.m.maintTaken s.env p) →
        exec (.maintRequest p src op c) s = .next s)

/-- Commands of the timebase that complete at once (R86, R87): TIME_GET, TIME_DISC_SET, TPO_ARM, TPO_DISARM, CAP_SET, PTP_LAT_SET and a
TIME_ADJUST that loads an increment only. -/
def Obligations.TimeCommandsAnswer : Prop :=
  ∀ (s : State) (c : Cmd), s.takes c →
    exec (.timeGet c) s = s.answers 0x10 c s.m stOk (le 6 s.env.time.sec ++ le 4 s.env.time.ns ++ le 4 s.env.time.frac ++ le 2 0) []
    ∧ (c.u8 0 ≤ 3 → c.u8 1 ≤ 1 → 200 ≤ c.u16 2 → c.u16 2 ≤ 20000 →
        exec (.timeDiscSet c) s = s.answers 0x13 c
          (((((s.m.s .TIME_DISC_src (c.u8 0)).s .TIME_DISC_allow_step (c.u8 1)).s .TIME_SLEW_rate (c.u16 2)).s
            .TIME_SLEW_step_min (c.u16 4)).effSource s.env) stOk [] [])
    ∧ (∀ z : TpoSet, z = ⟨c.u8 1, c.u8 2, c.un 4 6 * 1000000000 + c.u32 10, c.u32 14, c.u32 18⟩ →
        c.u8 0 < 8 → z.polarity ≤ 1 → c.u32 10 < 1000000000 → tpoOk z = true → (z.mode = 1 → s.env.time.twoAhead ≤ z.start) →
        exec (.tpoArm c) s = s.answers 0x14 c ((s.m.tpoStage (c.u8 0) z).tpoSet s.env (c.u8 0) z) stOk [] [])
    ∧ (c.u8 0 < 8 → (s.m.tpo (c.u8 0)).trail = none →
        exec (.tpoDisarm c) s = s.answers 0x15 c ((s.m.s (.TPOk_CTRL_mode (c.u8 0)) 0).setTpo s.env.time (c.u8 0)
          ⟨{ (s.m.tpo (c.u8 0)).cur with mode := 0 }, none, false, none, (s.m.tpo (c.u8 0)).last, none⟩) stOk [] [])
    ∧ (c.u8 0 < 8 → c.u8 1 ≤ 3 → c.u8 3 ≤ 1 →
        exec (.capSet c) s = s.answers 0x16 c
          (((s.m.s (.CAPk_CTRL_edge (c.u8 0)) (c.u8 1)).s (.CAPk_CTRL_filt (c.u8 0)) (c.u8 2)).s (.CAPk_CTRL_src (c.u8 0)) (c.u8 3))
          stOk [] [])
    ∧ (c.u8 0 < 2 →
        exec (.ptpLatSet c) s = s.answers 0x17 c
          ((s.m.s (.PTPp_RX_LAT_rx_lat (c.u8 0)) (c.u32 4)).s (.PTPp_TX_LAT_tx_lat (c.u8 0)) (c.u32 8)) stOk [] [])

/-- TIME_SET and TIME_ADJUST on a module whose effective source is FREE (R87): with a step permitted and no step waiting, no grid running, TIME_SET leaves
the timebase at the time asked for, its fraction kept; a TIME_ADJUST that loads an admissible increment and asks for no step loads it. -/
def Obligations.TimeSetSetsTheTime : Prop :=
  ∀ (s : State) (c : Cmd), s.takes c → s.m.srcFree = true →
    (s.m.stepAllowed = true → s.m.time.step = none → s.m.grid.running = false → c.u32 6 < 1000000000 →
      ∃ t : State, exec (.timeSet c) s = .next t ∧ t.env.time = { s.env.time with sec := c.un 0 6, ns := c.u32 6 }
        ∧ t.env.vault = s.env.vault ∧ t.pending = s.pending)
    ∧ (c.u8 0 = 1 → incOk (c.un 8 5) = true →
      ∃ t : State, exec (.timeAdjust c) s = .next t ∧ t.env.time = { s.env.time with inc := c.un 8 5 }
        ∧ t.env.vault = s.env.vault ∧ t.pending = s.pending)

/-- The increment (R54, R55, R59): while the effective source is FREE, a write of TIME_INC_HI commits both halves when they lie in the admissible range;
a value outside it keeps the previous increment and sets inc_range; while the source is not FREE the write only sets host_ignored. -/
def Obligations.IncrementCommits : Prop :=
  (∀ i : Nat, incOk i = true ↔ 0x3FEF9DB23 ≤ i ∧ i ≤ 0x4010624DD) ∧ ∀ (s : State) (v : Word),
    (s.m.srcFree = true → incOk (v.toNat % 256 * 2 ^ 32 + s.m.time.incLo) = true →
      ∃ t : State, exec (.timeIncCommit v) s = .next t ∧ t.env.time = { s.env.time with inc := v.toNat % 256 * 2 ^ 32 + s.m.time.incLo })
    ∧ (s.m.srcFree = true → incOk (v.toNat % 256 * 2 ^ 32 + s.m.time.incLo) = false →
      ∃ t : State, exec (.timeIncCommit v) s = .next t ∧ t.env = s.env ∧ t.m.g .TIME_STS_inc_range = 1
        ∧ t.m.rd Reg.TIME_INC_LO = s.m.rd Reg.TIME_INC_LO ∧ t.m.rd Reg.TIME_INC_HI = s.m.rd Reg.TIME_INC_HI)
    ∧ (s.m.srcFree = false →
      ∃ t : State, exec (.timeIncCommit v) s = .next t ∧ t.env = s.env ∧ t.m.g .TIME_STS_host_ignored = 1
        ∧ ∀ off : Nat, off ≠ Reg.TIME_STS → off ≠ Reg.TIME_IRQ_STS → t.m.rd off = s.m.rd off)

/-- A step requested by register (R56 to R58): permitted and within range, it waits for the boundary while the grid runs, and otherwise moves the
timebase at once; a refused one changes nothing but step_refused and its source. -/
def Obligations.StepIsTakenOrRefused : Prop :=
  ∀ (s : State) (v : Word) (d : Int), v.toNat % 2 = 1 → s.m.srcFree = true →
    d = s.m.gi .TIME_STEP_S_step_s * 1000000000 + s.m.gi .TIME_STEP_NS_step_ns →
    (stepNsOk (s.m.gi .TIME_STEP_NS_step_ns) = true → s.m.stepAllowed = true → s.m.grid.running = true →
      exec (.timeStepRequest v) s = s.becomes { s.m with time := { s.m.time with step := some (s.m.time.step.getD 0 + d) } })
    ∧ (stepNsOk (s.m.gi .TIME_STEP_NS_step_ns) = true → s.m.stepAllowed = true → s.m.grid.running = false → s.m.time.step = none →
      ∃ t : State, exec (.timeStepRequest v) s = .next t ∧ t.env.time = s.env.time.shift d ∧ t.env.time.frac = s.env.time.frac
        ∧ t.m.time.step = none)
    ∧ (stepNsOk (s.m.gi .TIME_STEP_NS_step_ns) = false ∨ s.m.stepAllowed = false →
      ∃ t : State, exec (.timeStepRequest v) s = .next t ∧ t.env = s.env ∧ t.m.g .TIME_STS_step_refused = 1
        ∧ ∀ off : Nat, off ≠ Reg.TIME_STS → off ≠ Reg.TIME_IRQ_STS → t.m.rd off = s.m.rd off)

/-- Timed pulses (R60, R65 to R67): a compare fires at or beyond its target and not before. With no pulse in progress it switches the pin, raises the output's
source and sets the trailing edge at the target plus the width, a PERIODIC output's next target one period on; with a pulse in progress it ends the pulse. A
commit of settings within R66 puts them in force. -/
def Obligations.TimedPulses : Prop :=
  ∀ (s : State) (k : Nat), k < 8 → s.m.time.tpo.length = 8 →
    (∀ n : Nat, (s.m.tpo k).trail = none → (s.m.tpo k).next = some n → n ≤ s.env.ns →
      ∃ t : State, exec (.tpoEdge k) s = .next t ∧ t.pending = s.pending ∧ t.env.vault = s.env.vault ∧ t.env.time.nowNs = s.env.time.nowNs
        ∧ t.m.tpo k = { s.m.tpo k with
            trail := some (n + (s.m.tpo k).cur.width)
            last := some n
            next := if (s.m.tpo k).cur.mode = 2 then some (n + (s.m.tpo k).cur.period) else none }
        ∧ t.m.bit Reg.TIME_IRQ_STS k = true ∧ t.m.g (.TPOk_STS_active k) = 1
        ∧ ⟨"TPO", k, tpoLevel (s.m.tpo k).cur true, []⟩ ∈ t.m.out)
    ∧ (∀ n : Nat, (s.m.tpo k).trail = some n → (s.m.tpo k).disarm = false → (s.m.tpo k).pend = none → n ≤ s.env.ns →
      ∃ t : State, exec (.tpoEdge k) s = .next t ∧ t.env = s.env ∧ t.m.tpo k = { s.m.tpo k with trail := none }
        ∧ t.m.g (.TPOk_STS_active k) = 0 ∧ ⟨"TPO", k, tpoLevel (s.m.tpo k).cur false, []⟩ ∈ t.m.out)
    ∧ (∀ n : Nat, (s.m.tpo k).trail = some n ∨ ((s.m.tpo k).trail = none ∧ (s.m.tpo k).next = some n) → s.env.ns < n →
      exec (.tpoEdge k) s = .next s)
    ∧ (∀ v : Word, v.toNat / 8 % 2 = 1 → tpoOk ((s.m.hostPut s.env.locked true (Reg.TPOk_CTRL k) v).tpoStaged k) = true →
        (((s.m.hostPut s.env.locked true (Reg.TPOk_CTRL k) v).tpoStaged k).mode = 1 →
          s.env.time.twoAhead ≤ ((s.m.hostPut s.env.locked true (Reg.TPOk_CTRL k) v).tpoStaged k).start) →
        exec (.tpoCommit k v) s = s.becomes ((s.m.hostPut s.env.locked true (Reg.TPOk_CTRL k) v).tpoSet s.env k
          ((s.m.hostPut s.env.locked true (Reg.TPOk_CTRL k) v).tpoStaged k)))

/-- Captures and PTP stamps (R72 to R78): a level of the pin that lasted for the filter is an edge, stamped two cycles and its length earlier; an edge the
input takes enters a FIFO that has room, and at a full FIFO it is dropped and counted; a shorter one, and any while TPOk is taken, changes nothing; the read of
CAPk_SH returns its word and removes the head; writing ovf_clr clears the count; the stamp of a transmitted event message that is not a one-step Sync enters its FIFO
while it has room, and a one-step Sync carries its stamp away. -/
def Obligations.CapturesAndPtpStamps : Prop :=
  ∀ (s : State) (k : Nat),
    (∀ (rising : Bool) (n : Nat) (x : CapEdge), k < 8 → s.m.b (.CAPk_CTRL_src k) = false → s.m.g (.CAPk_CTRL_filt k) ≤ n →
      x = ⟨s.env.time.before (n + 2), rising⟩ → (s.m.g (.CAPk_CTRL_edge k)).testBit (if rising then 0 else 1) = true →
      ((s.m.cap k).length < 16 → s.m.time.cap.length = 8 →
        ∃ t : State, exec (.captureEdge k rising n) s = .next t ∧ t.m.cap k = s.m.cap k ++ [x] ∧ t.env = s.env
          ∧ t.m.g (.CAPk_STS_level k) = (s.m.cap k).length + 1 ∧ t.m.bit Reg.TIME_IRQ_STS (8 + k) = true)
      ∧ (16 ≤ (s.m.cap k).length → exec (.captureEdge k rising n) s = s.becomes (s.m.up (.CAPk_STS_ovf k))))
    ∧ (∀ (rising : Bool) (n : Nat), k < 8 → s.m.b (.CAPk_CTRL_src k) = true ∨ n < s.m.g (.CAPk_CTRL_filt k) →
      exec (.captureEdge k rising n) s = .next s)
    ∧ (∀ (x : CapEdge) (l : List CapEdge), k < 8 → s.m.time.cap.length = 8 → s.m.cap k = x :: l → l.length < 16 →
      ∃ t : State, exec (.capFifoPop k) s = .next t ∧ t.m.cap k = l ∧ t.m.g (.CAPk_STS_level k) = l.length ∧ t.env = s.env
        ∧ t.m.bit Reg.TIME_IRQ_STS (8 + k) = !l.isEmpty
        ∧ t.m.out = ⟨"READ", Reg.CAPk_SH k, (((s.m.latch.lookup (Reg.CAPk_SH k)).getD (s.m.rd (Reg.CAPk_SH k))).toNat : Int), []⟩ :: s.m.out)
    ∧ (∀ v : Word, k < 8 → v.toNat / 2 ^ 31 % 2 = 1 →
        ∃ t : State, exec (.capOvfClear k v) s = .next t ∧ t.m.g (.CAPk_STS_ovf k) = 0 ∧ t.m.g (.CAPk_STS_level k) = s.m.g (.CAPk_STS_level k)
          ∧ ∀ off : Nat, off ≠ Reg.CAPk_STS k → t.m.rd off = s.m.rd off)
    ∧ (∀ v : Word, k < 2 → v.toNat / 2 ^ 31 % 2 = 1 →
        ∃ t : State, exec (.ptpOvfClear k v) s = .next t ∧ t.m.g (.PTPp_STS_ovf k) = 0 ∧ t.m.g (.PTPp_STS_level k) = s.m.g (.PTPp_STS_level k)
          ∧ ∀ off : Nat, off ≠ Reg.PTPp_STS k → t.m.rd off = s.m.rd off)
    ∧ (∀ (udp : Bool) (f : List Byte) (o : Nat), k < 2 → s.m.time.ptp.length = 2 → ptpAt f = some (o, udp) → ptpEvent f o = true →
        s.m.b (.PTPp_CTRL_en k) = true → (if udp then s.m.b (.PTPp_CTRL_udp4 k) else s.m.b (.PTPp_CTRL_l2 k)) = true →
        ((s.m.b (.PTPp_CTRL_one_step k) = false ∨ netAt f o 1 % 16 ≠ 0) → (nth [] s.m.time.ptp k).length < 16 →
          ∃ t : State, exec (.ptpEventStamp k true f) s = .next t ∧ t.env = s.env
            ∧ nth [] t.m.time.ptp k = nth [] s.m.time.ptp k
                ++ [EgressStamp.mk (netAt f o 1 % 16) (netAt f (o + 30) 2) (s.env.now.move (s.m.gi (.PTPp_TX_LAT_tx_lat k)))]
            ∧ t.m.g (.PTPp_STS_level k) = (nth [] s.m.time.ptp k).length + 1)
        ∧ (s.m.b (.PTPp_CTRL_one_step k) = true → netAt f o 1 % 16 = 0 →
          ∃ t : State, exec (.ptpEventStamp k true f) s = .next t ∧ t.m.regs = s.m.regs ∧ t.m.time = s.m.time
            ∧ t.m.out = ⟨"PTP_ONE_STEP", k, netAt f (o + 30) 2, ptpOneStep f o udp (s.env.now.move (s.m.gi (.PTPp_TX_LAT_tx_lat k)))⟩ :: s.m.out)
        ∧ ∃ t : State, exec (.ptpEventStamp k false f) s = .next t ∧ nth [] t.m.time.ptp k = []
            ∧ t.m.out = ⟨"PTP_INGRESS", k, netAt f (o + 30) 2,
                le 1 (netAt f o 1 % 16) ++ (s.env.now.move (-(s.m.gi (.PTPp_RX_LAT_rx_lat k)))).bytes⟩ :: s.m.out)

/-- Discipline and holdover (R79 to R85, R104, R113 to R115, R52, R37): the effective source follows the role and the master's heartbeats; a measurement of it
changes the increment within the slew rate in the servo's window; GNSS measurements count only while the time solution is valid and no false signal is over; holdover is entered after the
entry time, its bound grows by the rate each second, and it ends after 2 s of unbroken measurements; TIME_PULSE is posted in its window; AON takes the seconds. -/
def Obligations.DisciplineAndHoldover : Prop :=
  ∀ s : State,
    (∃ t : State, exec .effectiveSourceChange s = .next t ∧ t.env = s.env ∧ t.m.time.following = s.m.follows s.env
        ∧ (s.m.follows s.env = true → t.m.g .TIME_STS_src_eff = 4) ∧ (s.m.follows s.env = false → t.m.g .TIME_STS_src_eff = s.m.g .TIME_DISC_src))
    ∧ (∀ (src sys off : Int) (unc freq want : Nat), s.m.g .TIME_STS_src_eff = 1 → s.m.gnssValid = true → s.m.b .TIME_STS_hold = false →
        s.m.b .TIME_STS_valid = true → s.m.b .TIME_DISC_allow_step = false → s.m.time.step = none → s.m.servoWindow s.env = true →
        off = (s.env.ns : Int) - (src + sys + 315964819000000000) →
        (∀ i : Nat, i = (clampInt ((freq : Int) - slewLimit (s.m.g .TIME_SLEW_rate) freq) (freq + slewLimit (s.m.g .TIME_SLEW_rate) freq) want).toNat →
          incOk i = true →
          ∃ t : State, exec (.disciplineMeasurement src sys unc freq want) s = .next t ∧ t.env.time = { s.env.time with inc := i }
            ∧ t.m.g .TIME_STS_slewing = (if 4 < off.natAbs then 1 else 0) ∧ t.m.time.lastMeas = s.env.ns ∧ t.m.time.lastOff = off))
    ∧ (∀ (src sys : Int) (unc freq want : Nat), s.m.g .TIME_STS_src_eff = 1 → s.m.b .GNS_STS_fsi_over = true ∨ s.m.b .GNS_STS_valid_time = false →
        exec (.disciplineMeasurement src sys unc freq want) s = .next s)
    ∧ (s.m.holdDue s.env = true →
        ∃ t : State, exec .holdoverEntry s = .next t ∧ t.m.g .TIME_STS_hold = 1 ∧ t.m.g .TIME_HOLD_TIME_t = 0
          ∧ t.env.time = { s.env.time with inc := t.env.time.inc } ∧ t.env.vault = s.env.vault)
    ∧ (s.m.holdDue s.env = false → exec .holdoverEntry s = .next s)
    ∧ (s.m.b .TIME_STS_hold = true → s.m.b .TIME_STS_bound_over = true → s.m.b .GEN_CLK_REF_ref_lost = false →
        ∃ t : State, exec .holdBoundUpdate s = .next t ∧ t.env = s.env
          ∧ (s.m.g .TIME_HOLD_TIME_t + 1 < 2 ^ 32 → t.m.g .TIME_HOLD_TIME_t = s.m.g .TIME_HOLD_TIME_t + 1)
          ∧ t.m.g .TIME_HOLD_BOUND_bound = min (s.m.time.e0.getD 0 + s.m.g .TIME_HOLD_CFG_rate_ref * (s.m.g .TIME_HOLD_TIME_t + 1)) 0xFFFFFFFF)
    ∧ (∀ r : Nat, s.m.b .TIME_STS_hold = true → s.m.time.runSince = some r → r + 2000000000 ≤ s.env.ns → s.env.ns ≤ s.m.time.lastMeas + 1500000000 →
        ∃ t : State, exec .holdoverExit s = .next t ∧ t.m.g .TIME_STS_hold = 0 ∧ t.m.g .TIME_STS_bound_over = 0 ∧ t.env = s.env)
    ∧ (∀ (off : Option Int) (n : Nat), (s.m.tpo 0).next = some n → s.m.ppsRole = true → s.m.time.ppsReported ≠ some n →
        n ≤ s.env.ns + 200000000 → s.env.ns + 100000000 ≤ n →
        ∃ t : State, exec (.timePulse off) s = .next t ∧ t.m.time.ppsReported = some n ∧ t.m.bit Reg.GNS_IRQ_STS 9 = true ∧ t.env = s.env)
    ∧ (s.m.b .TIME_STS_valid = true → s.m.clkFailed 11 = false →
        ∃ t : State, exec .aonCopy s = .next t ∧ t.m.time.aon = s.env.time.sec ∧ t.m.time.aonValid = true ∧ t.m.regs = s.m.regs ∧ t.env = s.env)
    ∧ (∀ a b : Bool, s.env.time.secondStarts = true → (if s.m.b .GEN_CLK_REF_ref_sel then b else a) = true → s.m.gnsRuns = true →
        ∃ t : State, exec (.refSwitch a b) s = .next t ∧ t.m.g .GEN_CLK_REF_ref_active = s.m.g .GEN_CLK_REF_ref_sel ∧ t.m.time.onPll = false
          ∧ t.m.g .GEN_CLK_REF_ocxo_ok = (if a then 1 else 0) ∧ t.m.g .GEN_CLK_REF_ref_in_ok = (if b then 1 else 0)
          ∧ ∀ off : Nat, off ≠ Reg.GEN_CLK_REF → t.m.rd off = s.m.rd off)
    ∧ (∀ a b : Bool, s.env.time.secondStarts = false → s.m.gnsRuns = true →
        ∃ t : State, exec (.refSwitch a b) s = .next t ∧ t.m.g .GEN_CLK_REF_ref_active = s.m.g .GEN_CLK_REF_ref_active ∧ t.m.time = s.m.time)

/-- The commands of the GNSS block (R121): restart, aid, corrections, configuration, spacing, exclusion, observables and status. -/
def Obligations.GnssCommandsAnswer : Prop :=
  ∀ (s : State) (c : Cmd), s.takes c →
    (1 ≤ c.u8 0 → c.u8 0 ≤ 3 → exec (.gnsRestart c) s = s.answers 0x20 c (s.m.gnsRestart s.env (c.u8 0)) stOk [] [])
    ∧ (∀ lat lon : Int, lat = toSigned 64 (c.un 0 8) → lon = toSigned 64 (c.un 8 8) → lat.natAbs ≤ 90000000000 → lon.natAbs ≤ 180000000000 →
        exec (.gnsAid c) s = s.answers 0x21 c
          { s.m with gns := { s.m.gns with aid := some (lat, lon, toSigned 32 (c.u32 16), c.u32 20) } } stOk [] [])
    ∧ (∀ (r : RtcmTally) (m1 : Mach), m1 = s.m.addSat .GNS_RTCM_STS_ignored r.ignored → 6 ≤ c.u32 0 → c.u32 0 ≤ 65536 → c.u32 0 ≤ c.data.length → r = rtcmFrames (c.u32 0) (c.data.take (c.u32 0)) ⟨0, 0, 0, false, false⟩ →
        r.dropped = 0 → r.partial_ = false → r.corr = true →
        exec (.gnsRtcm c) s = s.answers 0x22 c
          ({ m1 with gns := { m1.gns with corrAt := some s.env.ns, ageTold := false } }.s .GNS_RTCM_STS_age 0)
          stOk (le 2 r.used ++ le 2 0) [])
    ∧ (∀ w : Word × Word × Word × Word,
        w = (BitVec.ofNat 32 (c.u32 0), BitVec.ofNat 32 (c.u32 4), BitVec.ofNat 32 (c.u32 8), BitVec.ofNat 32 (c.u32 12)) →
        c.u32 0 / 256 % 8 < 5 → baseOk (c.u32 8 % 65536) = true → ageOk (c.u32 12 / 65536 % 256) = true →
        exec (.gnsCfgSet c) s = s.answers 0x23 c { s.m with gns := { s.m.gns with staged := some w } } stOk [] [])
    ∧ (c.u8 0 < 96 → c.u8 1 < 16 → exec (.gnsSpacingSet c) s = s.answers 0x24 c (s.m.spacingSet (c.u8 0) (c.u8 1)) stOk [] [])
    ∧ (c.u8 0 = 0xFF → c.u8 1 < 16 → exec (.gnsSpacingSet c) s = s.answers 0x24 c
        (iter 96 (fun i m => m.spacingSet i (c.u8 1)) (s.m.s .GNS_SPACING_dflt (c.u8 1))) stOk [] [])
    ∧ (∀ x : Nat × Nat, x = (c.u8 0, c.u8 1) → c.u8 0 < 3 → 1 ≤ c.u8 1 → c.u8 1 < 64 → c.u8 2 < 2 →
        exec (.gnsSvExclude c) s = s.answers 0x25 c
          { s.m with gns := { s.m.gns with
              excluded := (if c.u8 2 = 1 then [x] else []) ++ s.m.gns.excluded.filter (fun y => y != x) } } stOk [] [])
    ∧ (c.u8 0 < 16 → s.m.b (qEn .stq (c.u8 0)) = true →
        exec (.gnsObsStream c) s = s.answers 0x26 c { s.m with gns := { s.m.gns with obs := some (c.u8 0, c.u8 1) } } stOk [] [])
    ∧ exec (.gnsStatusGet c) s = s.answers 0x27 c s.m stOk
        (s.m.regBytes [Reg.GNS_STS, Reg.GNS_JI, Reg.GNS_FSI, Reg.GNS_RTCM_STS]) []

/-- What happens to the receiver (R93, R94, R97 to R105, R117, R120): antennas, channels, spacings, releases, loss and return of signals, notches, jam
indicators, a restart by register in OPEN, and solution epochs while the baseband runs. -/
def Obligations.GnssHappenings : Prop :=
  ∀ s : State,
    (∀ ua ub : Nat, exec (.antBiasCheck ua ub) s = s.becomes ((s.m.antCheck s.env 0 ua).antCheck s.env 1 ub)
      ∧ (s.m.b (antEn 1) = true → s.m.b (antBias 1) = true → s.m.g (antState 1) ≠ 2 → 80000 < ub →
        ∃ t : State, exec (.antBiasCheck ua ub) s = .next t ∧ t.env = s.env ∧ t.m.g (antState 1) = 2 ∧ t.m.bit Reg.GNS_IRQ_STS 4 = true
          ∧ ∀ c : Nat, 48 ≤ c → c < 96 → t.m.rd (Reg.GNS_CHc_STS c) = 0))
    ∧ (∀ a ua : Nat, a < 2 → s.m.g (antState a) = 2 → s.m.b (antEn a) = true → s.m.b (antBias a) = true →
        exec (.antBiasRetry a ua) s = s.becomes (s.m.antSet s.env a (biasClass ua))
        ∧ (3000 ≤ ua → ua ≤ 80000 → ∃ t : State, exec (.antBiasRetry a ua) s = .next t ∧ t.m.g (antState a) = 0
            ∧ t.m.bit Reg.GNS_IRQ_STS (3 + a) = true ∧ ⟨"ANT_BIAS", a, if s.m.b (antBias5 a) then 50 else 33, []⟩ ∈ t.m.out))
    ∧ (∀ c st cn0 : Nat, c < 96 → st < 3 → exec (.channelStateChange c st cn0) s = s.becomes (s.m.chState s.env c st cn0)
        ∧ (1 ≤ st → cn0 < 256 → s.m.g (.GNS_CHc_STS_state c) ≠ 0 → ∃ t : State, exec (.channelStateChange c st cn0) s = .next t
            ∧ t.m.g (.GNS_CHc_STS_state c) = st ∧ t.m.g (.GNS_CHc_STS_cn0 c) = cn0 ∧ t.m.g (.GNS_CHc_STS_lock c) = 0
            ∧ ∀ off : Nat, off ≠ Reg.GNS_CHc_STS c → t.m.rd off = s.m.rd off))
    ∧ (∀ c cn0 : Nat, c < 96 → s.m.b .GNS_STS_no_signal = true → s.m.g (.GNS_CHc_STS_state c) ≠ 0 →
        ∃ t : State, exec (.channelStateChange c 3 cn0) s = .next t ∧ t.m.g .GNS_STS_no_signal = 0 ∧ t.m.g (.GNS_CHc_STS_state c) = 3
          ∧ t.m.gns.start = s.m.bestStart s.env ∧ t.m.bit Reg.GNS_IRQ_STS 0 = true)
    ∧ (∀ c k : Nat, c < 96 → s.m.gns.spacing.getD c none = some k → s.m.chLocked c = true →
        ∃ t : State, exec (.spacingApply c) s = .next t ∧ t.m.g (.GNS_CHc_STS_spacing c) = k % 16
          ∧ ∀ off : Nat, off ≠ Reg.GNS_CHc_STS c → t.m.rd off = s.m.rd off)
    ∧ (∀ a sys sv : Nat, a < 2 →
        (s.m.satWeak s.env a sys sv = true → ∃ t : State, exec (.channelCn0Release a sys sv) s = .next t ∧ t.env = s.env
          ∧ ∀ c : Nat, c < 96 → t.m.rd (Reg.GNS_CHc_STS c) = if s.m.chIs c a sys sv then 0 else s.m.rd (Reg.GNS_CHc_STS c))
        ∧ (s.m.satWeak s.env a sys sv = false → exec (.channelCn0Release a sys sv) s = .next s))
    ∧ (s.m.b .GNS_STS_no_signal = false → (List.range 96).any s.m.chLocked = false →
        (s.m.gns.lastLock + 1000000000 ≤ s.env.ns →
          ∃ t : State, exec .gnsNoSignal s = .next t ∧ t.m.g .GNS_STS_no_signal = 1 ∧ t.m.bit Reg.GNS_IRQ_STS 0 = true)
        ∧ (s.env.ns < s.m.gns.lastLock + 1000000000 → exec .gnsNoSignal s = .next s))
    ∧ (∀ a b : Nat, a < 2 → b < 2 →
        (∀ found : List (Int × Nat × Nat), s.m.b .GNS_CFG_notch_en = false → exec (.notchEngage a b found) s = .next s)
        ∧ (∀ (o : Int) (p d : Nat), s.m.b .GNS_CFG_notch_en = true → 6 ≤ p →
            (∀ i : Nat, i < 4 → s.m.bit (notchReg (notchAt a b i)) 31 = false) →
            ∃ t : State, exec (.notchEngage a b [(o, p, d)]) s = .next t
              ∧ t.m.rd (notchReg (notchAt a b 0)) = BitVec.ofNat 32 (2 ^ 31 + min d 40 * 65536 + ofInt 16 o)
              ∧ ∀ i : Nat, 1 ≤ i → i < 4 → t.m.rd (notchReg (notchAt a b i)) = s.m.rd (notchReg (notchAt a b i)))
        ∧ (s.m.b .GNS_CFG_notch_en = true → ∃ t : State, exec (.notchEngage a b []) s = .next t
            ∧ ∀ i : Nat, i < 4 → t.m.bit (notchReg (notchAt a b i)) 31 = false))
    ∧ (∀ q : List Nat, exec (.jamIndicatorUpdate q) s = s.becomes (s.m.jamUpdate s.env q)
        ∧ ∃ t : State, exec (.jamIndicatorUpdate q) s = .next t ∧ t.env = s.env
          ∧ t.m.rd Reg.GNS_JI = BitVec.ofNat 32 (min 255 (q.getD 0 0) + 256 * min 255 (q.getD 1 0) + 65536 * min 255 (q.getD 2 0)
              + 16777216 * min 255 (q.getD 3 0)))
    ∧ (∀ v : Word, v.toNat % 4 ≠ 0 → s.env.locked = false →
        ∃ t : State, exec (.gnsCtrlRestart v) s = .next t ∧ t.env = s.env ∧ t.m.gns.start = max (v.toNat % 4) (s.m.bestStart s.env)
          ∧ ∀ c : Nat, c < 96 → t.m.rd (Reg.GNS_CHc_STS c) = 0)
    ∧ (∀ (x : SolutionIn) (n : Nat), n = s.env.ns / s.m.gnsPeriod * s.m.gnsPeriod →
        (s.m.gns.epochAt ≠ some n → s.env.ns ≤ n + 15000000 →
          exec (.solutionEpoch x) s = s.becomes (s.m.solution s.env n (if s.m.gnsRuns then x else emptySolution))
          ∧ ∃ t : State, exec (.solutionEpoch x) s = .next t ∧ t.env = s.env ∧ t.m.gns.epochAt = some n)
        ∧ (s.m.gns.epochAt = some n ∨ n + 15000000 < s.env.ns → exec (.solutionEpoch x) s = .next s))

/-- The commands of the input block (R158): configuration of a disabled chain, coefficients, streams, the DC blocker, serial ports, sending and status. -/
def Obligations.FilterCommandsAnswer : Prop :=
  ∀ (s : State) (c : Cmd), s.takes c →
    (∀ (k : Nat) (m1 : Mach), k = c.u8 0 → k < 16 → m1 = s.m.putImages c 4 ((anCfgRegs k).map Prod.fst) → s.m.b (.FIL_ANk_CFG_en k) = false →
        m1.cicCodes k = true → m1.cicBound k = true → m1.ratioOk k = true → m1.dcbOk k = true → m1.thrOk k = true →
        exec (.filAnCfg c) s = s.answers 0x30 c
          (if m1.b (.FIL_ANk_CFG_en k) then ((m1.anRunEnd k).anFrozen k).anStart s.env k else (m1.anRunEnd k).anFrozen k) stOk [] [])
    ∧ (∀ k : Nat, k = c.u8 0 → k < 16 → c.u8 1 % 2 = 0 → c.u32 8 = 4224 → c.data.length = 4224 → s.m.b (.FIL_ANk_CFG_en k) = false →
        crc32c c.data = c.u32 4 →
        exec (.filCoefLoad c) s = s.answers 0x31 c
          ((s.m.setAn k fun a => { a with coef := some c.data }).wr (Reg.FIL_ANk_COEF_CRC k) (BitVec.ofNat 32 (c.u32 4))) stOk [] [])
    ∧ (∀ k q : Nat, k = c.u8 0 → q = c.u8 1 → k < 16 → q < 16 → c.u16 2 ≠ 0 → s.m.b (qEn .stq q) = true →
        exec (.filAnStream c) s = s.answers 0x32 c
          (s.m.setAn k fun a => { a with stream := some (q, c.u16 2), streamCount := 0 }) stOk [] [])
    ∧ (∀ k : Nat, k = c.u8 0 → k < 16 → c.u8 1 < 2 → s.m.b (.FIL_ANk_DCB_en k) = true →
        exec (.filDcbCtrl c) s = s.answers 0x33 c ((s.m.s (.FIL_ANk_DCB_freeze k) (c.u8 1)).anFrozen k) stOk [] [])
    ∧ (∀ (p : Nat) (m1 : Mach), p = c.u8 0 → p < 8 → s.m.spUnconnected p = false → m1 = s.m.putImages c 4 (spCfgRegs p) → m1.spOk p = true →
        s.m.b (.FIL_SPp_CFG_en p) = false →
        exec (.filSerCfg c) s = s.answers 0x34 c (if m1.b (.FIL_SPp_CFG_en p) then m1.spEnChange s.env p else m1) stOk [] [])
    ∧ (∀ p q : Nat, p = c.u8 0 → q = c.u8 1 → p < 8 → q < 16 → s.m.spUnconnected p = false → s.m.b (qEn .stq q) = true →
        exec (.filSerStream c) s = s.answers 0x35 c
          ((s.m.spDrain s.env p).setSp p fun x => { x with stream := some (q, c.u8 2 % 2 == 1) }) stOk [] [])
    ∧ (∀ p : Nat, p = c.u8 0 → p < 8 → 1 ≤ c.u16 2 → c.u16 2 ≤ 1024 → c.u16 2 ≤ c.data.length → s.m.spUnconnected p = false →
        s.m.b (.FIL_SPp_CFG_en p) = true → (s.m.sp p).sending = none →
        exec (.filSerSend c) s = s.becomes (((s.m.setSp p fun x => { x with sending := some (c, s.env.now), txEnd := s.env.powered + s.m.spBits p (c.u16 2 * s.m.spChar p) }).sb (.FIL_SPp_STS_tx_busy p) true).emit
          "SP_TX" p (c.u16 2) (c.data.take (c.u16 2))))
    ∧ (c.u8 0 % 2 = 0 → 160 ≤ c.bufLen → exec (.filStatusGet c) s = s.answers 0x37 c s.m stOk []
        (s.m.regBytes ((List.range 16).map Reg.FIL_ANk_STS) ++ (List.range 8).flatMap fun p => s.m.words (Reg.FIL_SPp_CNT0 p) 3))

/-- What happens at the inputs (R134 to R157): enabling a chain whose settings pass every check, output samples, the ratio servo within and beyond its limits,
the shunt's retry after 1 s, characters, gaps, silence, the error report no more than once per second, and the end of a transmission. -/
def Obligations.FilterHappenings : Prop :=
  ∀ (s : State) (k : Nat),
    (∀ (v : Word) (m1 : Mach), k < 16 → s.m.b (.FIL_ANk_CFG_en k) = false → m1 = s.m.hostPut s.env.locked (!s.env.locked) (Reg.FIL_ANk_CFG k) v →
        m1.b (.FIL_ANk_CFG_en k) = true → m1.cicCodes k = true → m1.cicBound k = true → m1.ratioOk k = true → m1.dcbOk k = true →
        exec (.filAnEnable k v) s = s.becomes (m1.anStart s.env k)
        ∧ (s.m.fil.an.length = 16 → ∃ t : State, exec (.filAnEnable k v) s = .next t ∧ t.m.b (.FIL_ANk_CFG_en k) = true
            ∧ t.m.rd (Reg.FIL_ANk_RATIO k) = BitVec.ofNat 32 (m1.ratioNominal k) ∧ t.m.g (.FIL_ANk_EVT_zone k) = 1
            ∧ (t.m.an k).nextGrid = some ((s.env.ns / m1.anPeriodNs k + 1) * m1.anPeriodNs k)))
    ∧ (∀ (mods : List Int) (oc : Bool) (f : AnSt × Option (Word × Bool)) (n : Nat), k < 16 →
        f = (s.m.an k).feed (s.m.cicN k) (s.m.cicR k) (s.m.cicM k) (Config.anCal k (s.m.g (.FIL_ANk_CFG_mode k))) (s.m.anPlace k) mods →
        (s.m.an k).nextGrid = some n →
        (f.2 = none → exec (.anOutputSample k mods oc) s = s.becomes (s.m.setAn k fun _ => f.1))
        ∧ (f.2 ≠ none → (s.m.an k).moves = [] → s.m.fil.an.length = 16 →
            ∃ t : State, exec (.anOutputSample k mods oc) s = .next t ∧ t.env = s.env ∧ (t.m.an k).nextGrid = some (n + s.m.anPeriodNs k)
              ∧ (t.m.an k).lastAt = n ∧ (t.m.an k).have_ = f.1.have_
              ∧ (t.m.an k).pos = (s.m.an k).pos + (s.m.rd (Reg.FIL_ANk_RATIO k)).toNat))
    ∧ (∀ r : Nat, k < 16 → s.m.b (.FIL_ANk_CFG_en k) = true → s.m.ratioNominal k - s.m.ratioNominal k / 5000 ≤ r →
        r ≤ s.m.ratioNominal k + s.m.ratioNominal k / 5000 →
        ∃ t : State, exec (.ratioServoUpdate k r) s = .next t ∧ t.m.rd (Reg.FIL_ANk_RATIO k) = BitVec.ofNat 32 r ∧ t.m.g (.FIL_ANk_STS_unlock k) = 0)
    ∧ (∀ r : Nat, k < 16 → s.m.b (.FIL_ANk_CFG_en k) = true → s.m.ratioNominal k + s.m.ratioNominal k / 5000 < r →
        ∃ t : State, exec (.ratioServoUpdate k r) s = .next t
          ∧ t.m.rd (Reg.FIL_ANk_RATIO k) = BitVec.ofNat 32 (s.m.ratioNominal k + s.m.ratioNominal k / 5000) ∧ t.m.g (.FIL_ANk_STS_unlock k) = 1)
    ∧ (k < 16 → s.m.b (.FIL_ANk_STS_prot k) = true →
        ((s.m.an k).protAt + 250000000 ≤ s.env.powered →
          ∃ t : State, exec (.anShuntRetry k false) s = .next t ∧ t.m.g (.FIL_ANk_STS_prot k) = 0 ∧ t.m.bit Reg.FIL_IRQ_STS 24 = true)
        ∧ (s.env.powered < (s.m.an k).protAt + 250000000 → exec (.anShuntRetry k false) s = .next s))
    ∧ (∀ b : Byte, k < 8 → s.m.b (.FIL_SPp_CFG_en k) = true → s.m.spUnconnected k = false → (s.m.sp k).buf = [] → s.m.fil.sp.length = 8 →
        s.m.g (.FIL_SPp_CFG_frame k) = 0 →
        (b = 0x24 ∨ b = 0x21 → (s.m.sp k).open_ = false → ∃ t : State, exec (.serialCharacter k b 0) s = .next t
          ∧ t.m.sp k = { s.m.sp k with open_ := true, buf := [(b, s.env.time.before (s.m.spBits k (s.m.spChar k)))], charAt := s.env.powered })
        ∧ (b ≠ 0x24 → b ≠ 0x21 → (s.m.sp k).open_ = false → ∃ t : State, exec (.serialCharacter k b 0) s = .next t
          ∧ t.m.sp k = { s.m.sp k with charAt := s.env.powered } ∧ ∀ off : Nat, t.m.rd off = s.m.rd off))
    ∧ (k < 8 → s.m.g (.FIL_SPp_GAP_gap_max k) ≠ 0 → (s.m.sp k).buf ≠ [] →
        ((s.m.sp k).charAt + s.m.spBits k (s.m.g (.FIL_SPp_GAP_gap_max k)) < s.env.powered → s.m.fil.sp.length = 8 →
          ∃ t : State, exec (.serialGapTimeout k) s = .next t ∧ (t.m.sp k).buf = [] ∧ (t.m.sp k).open_ = false
            ∧ t.m.bit Reg.FIL_IRQ_STS (16 + k) = true ∧ t.m.g (.FIL_SPp_CNT1_trunc k) = min 255 (s.m.g (.FIL_SPp_CNT1_trunc k) + 1))
        ∧ (s.env.powered ≤ (s.m.sp k).charAt + s.m.spBits k (s.m.g (.FIL_SPp_GAP_gap_max k)) → exec (.serialGapTimeout k) s = .next s))
    ∧ (k < 8 → s.m.b (.FIL_SPp_CFG_en k) = true → s.m.g (.FIL_SPp_GAP_silent k) ≠ 0 → s.m.b (.FIL_SPp_STS_silent k) = false →
        ((s.m.sp k).frameAt + 250000 * s.m.g (.FIL_SPp_GAP_silent k) ≤ s.env.powered →
          ∃ t : State, exec (.serialSilentTimeout k) s = .next t ∧ t.m.g (.FIL_SPp_STS_silent k) = 1 ∧ t.m.bit Reg.FIL_IRQ_STS (16 + k) = true)
        ∧ (s.env.powered < (s.m.sp k).frameAt + 250000 * s.m.g (.FIL_SPp_GAP_silent k) → exec (.serialSilentTimeout k) s = .next s))
    ∧ (k < 8 → (s.m.sp k).errMoved = true →
        (∀ n : Nat, (s.m.sp k).errAt = some n → s.env.powered < n + 250000000 → exec (.filSpErr k) s = .next s)
        ∧ ((s.m.sp k).errAt = none → exec (.filSpErr k) s
            = s.becomes ((s.m.setSp k fun x => { x with errMoved := false, errAt := some s.env.powered }).event s.env 0x3004 (some 2)
              (le 1 k ++ le 4 (s.m.rd (Reg.FIL_SPp_CNT0 k)).toNat ++ le 4 (s.m.rd (Reg.FIL_SPp_CNT1 k)).toNat))))
    ∧ (∀ (c : Cmd) (t : Stamp), k < 8 → (s.m.sp k).sending = some (c, t) →
        ((s.m.sp k).txEnd ≤ s.env.powered → exec (.serialSendDone k) s
          = s.answers 0x36 c ((s.m.setSp k fun x => { x with sending := none }).sb (.FIL_SPp_STS_tx_busy k) false) stOk t.bytes [])
        ∧ (s.env.powered < (s.m.sp k).txEnd → exec (.serialSendDone k) s = .next s))

/-- The commands of the feedback block (R199). -/
def Obligations.FeedbackCommandsAnswer : Prop :=
  ∀ (s : State) (c : Cmd), s.takes c →
    (∀ (k : Nat) (m1 : Mach), k = c.u8 0 → k < 12 → s.m.fbUnconnected k = false →
        m1 = (s.m.putImages c 4 ((fbCfgRegs k).map Prod.fst)).supplySync s.env k s.m → s.m.b (.FBK_CHc_CFG_en k) = false →
        m1.fbRanges k = true → (m1.b (.FBK_CHc_CFG_en k) = true → m1.fbCheck k = none) →
        exec (.fbkCfg c) s = s.answers 0x38 c (if m1.b (.FBK_CHc_CFG_en k) then m1.fbStart k else m1) stOk [] [])
    ∧ (∀ k : Nat, k = c.u8 0 → k < 12 → s.m.g (.FBK_CHc_CFG_mode k) ≠ 1 →
        exec (.fbkSetPos c) s = s.answers 0x39 c (s.m.setFb k fun h => h.load (c.un 8 6)) stOk s.env.now.bytes [])
    ∧ (∀ k : Nat, k = c.u8 0 → k < 12 → c.u8 1 < 2 → s.m.g (.FBK_CHc_CFG_idx_mode k) = 2 →
        exec (.fbkIdxArm c) s = s.answers 0x3A c (s.m.s (.FBK_CHc_STS_armed k) (c.u8 1)) stOk [] [])
    ∧ (∀ (k : Nat) (m1 : Mach), k = c.u8 0 → k < 4 → s.m.emuUnconnected k = false → m1 = s.m.putImages c 4 [Reg.FBK_EMUe_CFG k, Reg.FBK_EMUe_RATIO k] →
        (m1.g (.FBK_EMUe_CFG_src k) < 12 ∨ m1.g (.FBK_EMUe_CFG_src k) = 15) → 1 ≤ m1.g (.FBK_EMUe_RATIO_num k) →
        m1.g (.FBK_EMUe_RATIO_num k) ≤ 4 * m1.g (.FBK_EMUe_RATIO_den k) → s.m.b (.FBK_EMUe_CFG_en k) = false →
        exec (.fbkEmuCfg c) s = s.answers 0x3B c (m1.emuStart s.env k).emuHolds stOk [] [])
    ∧ (∀ k q : Nat, k = c.u8 0 → q = c.u8 1 → k < 12 → q < 16 → c.u16 2 ≠ 0 → s.m.b (qEn .stq q) = true →
        exec (.fbkStream c) s = s.answers 0x3C c
          (s.m.setFb k fun h => { h with stream := some (q, c.u16 2), streamCount := 0 }) stOk [] [])
    ∧ (c.u8 0 % 2 = 0 → 164 ≤ c.bufLen → exec (.fbkStatusGet c) s = s.answers 0x3D c s.m stOk []
        ((List.range 12).flatMap (fun k => s.m.regBytes [Reg.FBK_CHc_FLAGS k, Reg.FBK_CHc_CNT k, Reg.FBK_CHc_STS k])
          ++ s.m.regBytes [Reg.FBK_SUP_STS] ++ s.m.regBytes ((List.range 4).map Reg.FBK_EMUe_STS)))
    ∧ (∀ k : Nat, k = c.u8 0 → k < 12 → s.m.b (.FBK_CHc_CFG_en k) = true → (s.m.fb k).testDue = false → (s.m.fb k).testCmd = none →
        exec (.fbkLineTestRun c) s = s.becomes (s.m.setFb k fun h => { h with testCmd := some c }))

/-- What happens at the feedback channels (R166 to R198): enabling, edges of A in INC and PULSE mode and pairs of changes, amplitude loss and its end, SSI
frames and line tests, supplies with their retry after 1 s, the power budget and the emulators' counts with their spacing. -/
def Obligations.FeedbackHappenings : Prop :=
  ∀ (s : State) (k : Nat),
    (∀ (a b z : Bool) (na nb nz : Nat), k < 12 → exec (.fbkLineChange k a b z na nb nz) s = s.becomes (s.m.lineChange s.env k a b z na nb nz))
    ∧ (∀ n : Nat, k < 12 → s.m.fbk.ch.length = 12 → s.m.b (.FBK_CHc_CFG_en k) = true → s.m.b (.FBK_CHc_CFG_invert k) = false →
        (s.m.fb k).a = false → (s.m.fb k).b = false → (s.m.fb k).z = false →
        (s.m.g (.FBK_CHc_CFG_mode k) = 0 → s.m.g (.FBK_CHc_CFG_filt k) + 4 ≤ n →
          (∃ t : State, exec (.fbkLineChange k true false false n (2 * n) (2 * n)) s = .next t ∧ t.env = s.env
            ∧ (t.m.fb k).count = move48 (s.m.fb k).count 1 ∧ (t.m.fb k).a = true ∧ (t.m.fb k).lastT = (s.env.time.before n).toNs)
          ∧ (∃ t : State, exec (.fbkLineChange k true true false n n (2 * n)) s = .next t ∧ (t.m.fb k).count = (s.m.fb k).count
            ∧ (t.m.fb k).lastT = (s.m.fb k).lastT ∧ t.m.g (.FBK_CHc_STS_seq_flag k) = 1
            ∧ t.m.g (.FBK_CHc_CNT_seq_err k) = min 255 (s.m.g (.FBK_CHc_CNT_seq_err k) + 1)))
        ∧ (s.m.g (.FBK_CHc_CFG_mode k) = 3 → s.m.g (.FBK_CHc_CFG_filt k) + 4 ≤ n →
          ∃ t : State, exec (.fbkLineChange k true false false n (2 * n) (2 * n)) s = .next t
            ∧ (t.m.fb k).count = move48 (s.m.fb k).count (-1) ∧ t.m.rd (Reg.FBK_CHc_CNT k) = s.m.rd (Reg.FBK_CHc_CNT k))
        ∧ (n < s.m.g (.FBK_CHc_CFG_filt k) + 4 → exec (.fbkLineChange k true false false n (n + n) (n + n)) s = .next s))
    ∧ (∀ (v : Word) (m1 : Mach), k < 12 → s.m.b (.FBK_CHc_CFG_en k) = false → v.toNat % 2 = 1 → s.m.fbUnconnected k = false →
        m1 = (s.m.hostPut s.env.locked (!s.env.locked) (Reg.FBK_CHc_CFG k) v).supplySync s.env k s.m → m1.fbCheck k = none →
        exec (.fbkChEnable k v) s = s.becomes (m1.fbStart k)
        ∧ (s.m.fbk.ch.length = 12 → ∃ t : State, exec (.fbkChEnable k v) s = .next t ∧ (t.m.fb k).still = true ∧ (t.m.fb k).speed = 0
            ∧ (t.m.fb k).count = (s.m.fb k).count ∧ t.m.g (.FBK_CHc_STS_isolated k) = 0))
    ∧ (∀ pairs mask : Nat, k < 12 → mask = pairs &&& monitored (s.m.g (.FBK_CHc_CFG_mode k)) → mask ≠ 0 → s.m.b (.FBK_CHc_CFG_en k) = true →
        s.m.b (.FBK_CHc_STS_line_err k) = false →
        ∃ t : State, exec (.lineAmplitudeLoss k pairs) s = .next t ∧ t.m.g (.FBK_CHc_STS_line_err k) = 1)
    ∧ (k < 12 → s.m.b (.FBK_CHc_STS_line_err k) = true → ∃ t : State, exec (.lineErrClear k) s = .next t ∧ t.m.g (.FBK_CHc_STS_line_err k) = 0)
    ∧ (∀ (data : List Bool) (req word : Nat), k < 12 → (s.m.fb k).req = some req → s.m.b (.FBK_CHc_CFG_en k) = true → s.m.g (.FBK_CHc_CFG_mode k) = 1 →
        s.m.g (.FBK_CHc_SSI_crc_w k) = 0 → s.m.b (.FBK_CHc_SSI_err_en k) = false → s.m.b (.FBK_CHc_SSI_gray k) = false → s.m.fbk.ch.length = 12 →
        word = bitsNum data (s.m.g (.FBK_CHc_SSI_lead k)) (s.m.g (.FBK_CHc_SSI_bits k)) →
        ((s.m.fb k).lastWord = none → ∃ t : State, exec (.ssiFrameEnd k true true data) s = .next t ∧ (t.m.fb k).count = word
            ∧ (t.m.fb k).req = none ∧ (t.m.fb k).result = some (true, req))
        ∧ (∃ t : State, exec (.ssiFrameEnd k false true data) s = .next t ∧ (t.m.fb k).count = (s.m.fb k).count
            ∧ (t.m.fb k).speed = (s.m.fb k).speed ∧ (t.m.fb k).result = some (false, req)
            ∧ t.m.g (.FBK_CHc_CNT_ssi_tmo k) = min 255 (s.m.g (.FBK_CHc_CNT_ssi_tmo k) + 1)))
    ∧ (∀ f : Nat, k < 12 → (s.m.fb k).testDue = true → s.m.fbk.ch.length = 12 → exec (.ssiLineTest k f) s = s.becomes (s.m.lineTest s.env k f)
        ∧ ∃ t : State, exec (.ssiLineTest k f) s = .next t ∧ (t.m.fb k).testDue = false ∧ (t.m.fb k).testCmd = none)
    ∧ (k < 12 → s.m.b (.FBK_CHc_CFG_sup_en k) = true → s.m.b (.FBK_CHc_STS_sup_fault k) = false →
        ∃ t : State, exec (.supplyOverload k) s = .next t ∧ t.m.g (.FBK_CHc_STS_sup_fault k) = 1 ∧ t.m.bit Reg.FBK_SUP_STS k = false
          ∧ t.m.bit Reg.FBK_SUP_STS (16 + k) = true)
    ∧ (∀ n : Nat, k < 12 → s.m.b (.FBK_CHc_CFG_sup_en k) = true → s.m.b (.FBK_CHc_STS_sup_fault k) = true → (s.m.fb k).supAt = some n →
        (n + 250000000 ≤ s.env.powered →
          ∃ t : State, exec (.supplyRetry k true) s = .next t ∧ t.m.g (.FBK_CHc_STS_sup_fault k) = 0 ∧ t.m.bit Reg.FBK_SUP_STS k = true)
        ∧ (s.env.powered < n + 250000000 → exec (.supplyRetry k true) s = .next s))
    ∧ (∀ loads : List Nat, 7500 < loads.sum → ∃ t : State, exec (.supplyBudget loads) s = .next t ∧ t.m.g .FBK_SUP_STS_budget = 1)
    ∧ (k < 4 → s.m.b (.FBK_EMUe_CFG_en k) = true → s.m.emuHeld k = false → s.m.fbk.emu.length = 4 →
        (∀ q : List EmuItem, (s.m.emu k).queue = .index :: q → (s.m.emu k).z = false → queueCounts q ≤ 65535 →
          ∃ t : State, exec (.emuCountOutput k) s = .next t ∧ (t.m.emu k).z = true ∧ (t.m.emu k).state = (s.m.emu k).state
            ∧ ⟨"EMU_Z", k, 1, []⟩ ∈ t.m.out ∧ t.m.g (.FBK_EMUe_STS_backlog k) = queueCounts q)
        ∧ (∀ (n : Int) (q : List EmuItem), (s.m.emu k).queue = .counts n :: q → 0 < n → s.m.b (.FBK_EMUe_CFG_invert k) = false →
            s.m.emuReady s.env k = true → ∃ t : State, exec (.emuCountOutput k) s = .next t ∧ (t.m.emu k).lastOut = some s.env.powered
              ∧ t.m.g (.FBK_EMUe_POS_pos k) = (s.m.g (.FBK_EMUe_POS_pos k) + 1) % 2 ^ 32)
        ∧ (∀ (n : Int) (q : List EmuItem) (u : Nat), (s.m.emu k).queue = .counts n :: q → (s.m.emu k).lastOut = some u →
            s.env.powered < u + 25 → exec (.emuCountOutput k) s = .next s))

/-- The ranges of a timed pulse (R66): settings outside them are refused by TPO_ARM with RANGE, and a register commit leaves the output unchanged and sets late. -/
def Obligations.PulseSettingsOutsideTheirRanges : Prop :=
  (∀ z : TpoSet, (z.mode = 2 → (tpoOk z = true ↔ 16 ≤ z.period ∧ z.period ≤ 4294967295 ∧ 8 ≤ z.width ∧ z.width + 8 ≤ z.period))
      ∧ (z.mode = 1 → (tpoOk z = true ↔ 8 ≤ z.width ∧ z.width ≤ 4294967295)) ∧ (z.mode = 0 → tpoOk z = true))
  ∧ (∀ (s : State) (c : Cmd), s.takes c →
      tpoOk ⟨c.u8 1, c.u8 2, c.un 4 6 * 1000000000 + c.u32 10, c.u32 14, c.u32 18⟩ = false →
      exec (.tpoArm c) s = s.answers 0x14 c s.m stRange [] [])
  ∧ (∀ (s : State) (k : Nat) (v : Word) (m1 : Mach), k < 8 → v.toNat / 8 % 2 = 1 → m1 = s.m.hostPut s.env.locked true (Reg.TPOk_CTRL k) v →
      tpoOk (m1.tpoStaged k) = false →
      ∃ t : State, exec (.tpoCommit k v) s = .next t ∧ t.m.g (.TPOk_STS_late k) = 1 ∧ t.m.tpo k = s.m.tpo k ∧ t.m.out = s.m.out)

/-- FBK_SET_POS (R174) loads the count with a 48-bit value, reports the long stamp, and completes with STATE in SSI mode; FBK_IDX_ARM (R178) arms or disarms a
channel in ARMED_ONCE mode, shown in armed, and completes with STATE in any other mode. -/
def Obligations.CountIsPresetAndIndexArmed : Prop :=
  ∀ (s : State) (c : Cmd) (k : Nat), s.takes c → k = c.u8 0 → k < 12 →
    (s.m.g (.FBK_CHc_CFG_mode k) ≠ 1 → k < s.m.fbk.ch.length → ∃ m1 : Mach, exec (.fbkSetPos c) s = s.answers 0x39 c m1 stOk s.env.now.bytes []
      ∧ (m1.fb k).count = c.un 8 6 ∧ m1.regs = s.m.regs ∧ ∀ j : Nat, j ≠ k → m1.fb j = s.m.fb j)
    ∧ (s.m.g (.FBK_CHc_CFG_mode k) = 1 → exec (.fbkSetPos c) s = s.answers 0x39 c s.m stState [] [])
    ∧ (c.u8 1 < 2 → s.m.g (.FBK_CHc_CFG_idx_mode k) = 2 → ∃ m1 : Mach, exec (.fbkIdxArm c) s = s.answers 0x3A c m1 stOk [] []
      ∧ m1.g (.FBK_CHc_STS_armed k) = c.u8 1 ∧ ∀ off : Nat, off ≠ Reg.FBK_CHc_STS k → m1.rd off = s.m.rd off)
    ∧ (c.u8 1 < 2 → s.m.g (.FBK_CHc_CFG_idx_mode k) ≠ 2 → exec (.fbkIdxArm c) s = s.answers 0x3A c s.m stState [] [])

/-- The commands of Lichen on the active controller (R211, R249, R250): each passes its checks and waits for the next epoch. -/
def Obligations.FusionCommandsQueue : Prop :=
  ∀ (s : State) (c : Cmd) (k : Nat), s.takes c → s.m.isActive = true → k = c.u8 0 →
    ((c.data.length = 0 ∨ c.data.length = 64) → k < 24 → s.m.lchNext.lchOn k = false → lchCfgOk c = true → s.m.lchNext.lchCaps c = true →
        exec (.lchStreamCfg c) s = s.answers 0x40 c (s.m.lchQueue 0x40 c) stOk [] [])
    ∧ (k < 24 → c.u8 1 < 2 → exec (.lchStreamExclude c) s = s.answers 0x41 c (s.m.lchQueue 0x41 c) stOk [] [])
    ∧ (k < 24 → c.u8 1 = 1 → s.m.b (.LCH_Ss_STS_suspect k) = true → s.m.b (.LCH_Ss_STS_stale k) = false → s.m.b (.LCH_Ss_STS_qual0 k) = false →
        exec (.lchDesignate c) s = s.answers 0x42 c (s.m.lchQueue 0x42 c) stOk [] [])
    ∧ (k < 24 → c.u8 1 = 0 → s.m.b (.LCH_Ss_STS_designated k) = true →
        exec (.lchDesignate c) s = s.answers 0x42 c (s.m.lchQueue 0x42 c) stOk [] [])
    ∧ (∀ n : Nat, n = imgN c.data 6 1 → c.u32 0 = 128 + 2688 * n → c.data.length = c.u32 0 →
        crc32c ((c.data.drop 32).take (2688 * n)) = c.d32 12 → s.env.imageOk c.data = true → weightsOk c.data = true →
        exec (.lchWeightsLoad c) s = s.answers 0x43 c ((s.m.otpNote s.env [1, 2, 3]).lchQueue 0x43 c) stOk (le 1 n) [])
    ∧ ((toSigned 64 (c.un 0 8)).natAbs ≤ 90000000000 → (toSigned 64 (c.un 8 8)).natAbs ≤ 180000000000 → s.m.plHolds = false →
        exec (.lchDatumSet c) s = s.answers 0x44 c (s.m.lchQueue 0x44 c) stOk [] [])
    ∧ (lchSetOk c = true → s.m.plHolds = false → exec (.lchCfgSet c) s = s.answers 0x45 c (s.m.lchQueue 0x45 c) stOk [] [])
    ∧ (∀ (x : LchSample) (l : List LchSample) (o : F64 × F64 × F64) (res : List Byte), k < 24 → s.m.lchOn k = true →
        s.m.b (.LCH_Ss_CFG_relative k) = true → s.m.b (.LCH_Ss_STS_stale k) = false → s.m.g .LCH_STS_pstep ≠ 4 →
        (s.m.lslot k).samples = x :: l → s.m.relOffset k x = some o →
        res = le 4 (ofInt 32 (toMm (fdAdd (fdMilli (s.m.gi .LCH_OUT_N_pos)) o.1)))
          ++ le 4 (ofInt 32 (toMm (fdAdd (fdMilli (s.m.gi .LCH_OUT_E_pos)) o.2.1))) →
        exec (.lchRefAnchor c) s = s.answers 0x46 c (s.m.lchQueue 0x46 { c with data := res }) stOk res [])
    ∧ (s.m.plHolds = false → exec (.lchReset c) s = s.answers 0x47 c (s.m.lchQueue 0x47 c) stOk [] [])
    ∧ (∀ q : Nat, q = c.u8 0 → q < 16 → c.u16 2 ≠ 0 → s.m.b (qEn .stq q) = true →
        exec (.lchOutStream c) s = s.answers 0x48 c (s.m.lchQueue 0x48 c) stOk [] [])
    ∧ (c.u8 0 % 2 = 0 → 388 ≤ c.bufLen → exec (.lchStatusGet c) s = s.answers 0x49 c s.m stOk []
        (s.m.words Reg.LCH_STS 1 ++ (List.range 24).flatMap fun k => s.m.words (Reg.LCH_Ss_STS k) 4))

/-- What happens to Lichen by itself (R215, R217, R220, R228): on a controller that leads, the next epoch closes from its instant on when every
enabled stream is complete, and at its wait limit otherwise, which is counted and told; until then nothing happens. A standby closes it with
the active's assignment once every sample that names is present, and an expansion closes none. timing_suspect and jump end. -/
def Obligations.FusionHappenings : Prop :=
  ∀ s : State,
    (s.m.g .STK_STS_pos < 2 → s.m.shadows = false →
      (∀ limit : Bool, (limit = false ∧ s.m.lchAll = true ∧ s.m.epochInstant s.m.lch.next ≤ s.env.ns) ∨
          (limit = true ∧ s.m.lchAll = false ∧ s.m.epochInstant s.m.lch.next + s.m.g .LCH_CFG_wait * 1000000 ≤ s.env.ns) →
        exec .epochClose s = s.becomes (s.m.lchClose s.env none limit)
        ∧ ∃ u : State, exec .epochClose s = .next u ∧ u.m.lch.next = s.m.lch.next + 1
          ∧ u.m.lch.pend = s.m.lch.pend.filter (fun p => !decide (p.1 ≤ s.m.lch.next))
          ∧ (limit = true → u.m.bit Reg.LCH_IRQ_STS 10 = true))
      ∧ (s.env.ns < s.m.epochInstant s.m.lch.next + s.m.g .LCH_CFG_wait * 1000000 →
          s.m.lchAll = false ∨ s.env.ns < s.m.epochInstant s.m.lch.next → exec .epochClose s = .next s))
    ∧ (∀ (named : List (Nat × Nat)) (l : List (Nat × List (Nat × Nat))), s.m.g .STK_STS_pos < 2 → s.m.shadows = true →
        s.m.lch.assign = (s.m.lch.next, named) :: l → (named.all fun p => (s.m.lslot p.1).samples.any fun x => x.at_ == p.2) = true →
        ∃ u : State, exec .epochClose s = .next u ∧ u.m.lch.next = s.m.lch.next + 1
          ∧ u.m.lch.assign = l.filter (fun x => decide (s.m.lch.next < x.1)))
    ∧ (2 ≤ s.m.g .STK_STS_pos ∨ (s.m.shadows = true ∧ s.m.lch.assign = []) → exec .epochClose s = .next s)
    ∧ (∀ (k t : Nat) (l : List Nat), k < 24 → s.m.b (.LCH_Ss_STS_timing_suspect k) = true → (s.m.lslot k).slips = t :: l →
        (t + s.m.g .LCH_SLIP_CFG_ts_clear * 1000000000 ≤ s.env.ns →
          ∃ u : State, exec (.timingSuspectClear k) s = .next u ∧ u.m.g (.LCH_Ss_STS_timing_suspect k) = 0 ∧ u.m.bit Reg.LCH_IRQ_STS 5 = true)
        ∧ (s.env.ns < t + s.m.g .LCH_SLIP_CFG_ts_clear * 1000000000 → exec (.timingSuspectClear k) s = .next s))
    ∧ (∀ (k t : Nat), k < 24 → (s.m.lslot k).jumpAt = some t → t + s.m.g .LCH_TRUST_THR_jump_hold * 1000000000 ≤ s.env.ns →
        ∃ u : State, exec (.jumpHoldEnd k) s = .next u ∧ u.m.g (.LCH_Ss_STS_jump k) = 0
          ∧ ∀ off : Nat, off ≠ Reg.LCH_Ss_STS k → u.m.rd off = s.m.rd off)

/-- The commands of the positioning law on the active controller (R294, R295): the parameters are checked, and the command is held for the
boundary of the next cycle, after those that came before it, and forwarded with that cycle's number (R257). -/
def Obligations.LawCommandsHold : Prop :=
  ∀ (s : State) (c : Cmd), s.takes c → s.m.isActive = true →
    (c.u8 0 < 6 → exec (.plModeSet c) s = s.becomes (s.m.plHold s.env 0x50 c))
    ∧ (c.u32 8 < 360000 → exec (.plSetpoint c) s = s.becomes (s.m.plHold s.env 0x51 c))
    ∧ (1 ≤ c.u8 0 → c.u8 0 ≤ 16 → c.data.length = 16 * c.u8 0 → ((trackPoints c).any fun w => decide (360000 ≤ w.hdg)) = false →
        exec (.plTrack c) s = s.becomes (s.m.plHold s.env 0x52 c))
    ∧ ((c.data.length = 92 ∨ c.data.length = 156) → plCfgOk c = true → exec (.plCfgSet c) s = s.becomes (s.m.plHold s.env 0x53 c))
    ∧ (c.u8 0 < 24 → c.data.length = 52 → plThrOk c = true → exec (.plThrCfg c) s = s.becomes (s.m.plHold s.env 0x54 c))
    ∧ (c.u8 0 < 24 → c.data.length = 4096 → crc32c c.data = c.u32 4 →
        exec (.plTableLoad c) s = s.becomes (s.m.plHold s.env 0x55 c))
    ∧ (∀ p : Nat, p = imgN c.data 6 1 → c.u32 0 = c.data.length → c.data.length = 384 + 872 * p →
        crc32c ((c.data.drop 32).take (256 + 872 * p)) = imgN c.data 12 4 → s.env.imageOk c.data = true → plModelOk c.data = true →
        exec (.plModelLoad c) s = s.becomes ((s.m.otpNote s.env [1, 2, 3]).plHold s.env 0x56 c))
    ∧ (slvCfgOk c = true → exec (.slvCfgSet c) s = s.becomes (s.m.plHold s.env 0x5B c))
    ∧ (∀ sub n : Nat, sub = c.u8 0 → n = c.u8 1 → 1 ≤ sub → sub ≤ 3 →
        c.data.length = n * (if sub = 1 then 16 else if sub = 2 then 8 else 2) → feedOk sub n c = true →
        exec (.plFeed c) s = s.becomes (s.m.plHold s.env 0x57 c))
    ∧ (∀ n : Nat, n = s.m.plNextCycle → c.u8 0 < 6 →
        (n = if s.m.grid.running && !s.m.grid.first then s.m.cycNum + 1 else 0)
        ∧ ∃ t : State, exec (.plModeSet c) s = .next t ∧ t.m.pl.pend = s.m.pl.pend ++ [(n, 0x50, c, true)] ∧ t.m.regs = s.m.regs ∧ t.env = s.env)
    ∧ (1 ≤ c.u8 0 → c.u8 0 ≤ 3 → c.u8 1 = 0 → c.data = [] →
        ∃ t : State, exec (.plFeed c) s = .next t ∧ t.m.pl.pend = s.m.pl.pend ++ [(s.m.plNextCycle, 0x57, c, true)]
          ∧ t.m.pl.manualAt = (if c.u8 0 = 1 then s.env.ns else s.m.pl.manualAt))


/-- What happens in a cycle of the law (R22 to R24, R289 to R291, R321): the problem is submitted when assembly ends, the active announces its staged set-points,
work that waited starts at the end of dispatch, the set-points are released at the planned instant and not before it, a release whose result is not ready
is an overrun, a cycle overtaken by its successor is released at its own instant, a cycle is skipped a quarter of T after its boundary, the manual feed goes
stale, and the end of a solve is reported. -/
def Obligations.LawHappenings : Prop :=
  ∀ s : State,
    (∀ (phase : Nat) (late : Option Nat) (q : Qp) (m1 : Mach), s.m.pl.stage = 1 → s.m.onReduced = false → s.m.plT ≠ 0 →
        late = (if s.m.pl.late.isNone && decide (s.m.pl.t0 + 3000000 + s.m.pl.plan < s.env.ns) then some 1 else s.m.pl.late) →
        m1 = { s.m with pl := { s.m.pl with stage := 2, late := late } } → m1.b .STR_PL_STS_fallback = false → m1.plProblem = some q →
        exec (.qpAssemblyComplete phase) s = s.becomes (m1.slvSubmit s.env
          ⟨0, true, q, some ((s.env.ns + s.m.g .STR_PL_TIMING_budget * 50000 * s.m.pl.h0 / s.m.plT) / 8 % 2 ^ 32), none, 0⟩ phase))
    ∧ (s.m.pl.stage ≠ 3 → exec .dispatchComplete s = .next s)
    ∧ (∀ m1 : Mach, s.m.pl.stage = 3 → s.m.onReduced = false → m1 = s.m.plStage4 s.env → m1.pl.waits = false →
        exec .dispatchComplete s = s.becomes (m1.plAnnounce (if m1.pl.due then m1.nextTick s.env else m1.pl.planned)))
    ∧ (∀ m1 m2 : Mach, s.m.pl.stage = 3 → s.m.onReduced = false → m1 = s.m.plStage4 s.env →
        m2 = m1.plAnnounce (if m1.pl.due then m1.nextTick s.env else m1.pl.planned) → m2.pl.waits = true →
        exec .dispatchComplete s = s.becomes ((m2.plYield s.env).plStart s.env (m2.grid.next - m2.plT)))
    ∧ (s.m.pl.stage = 4 → s.m.onReduced = false → s.m.pl.due = false → s.m.shadows = false → s.m.pl.ahead = none →
        (s.m.pl.planned ≤ s.env.ns →
          exec .releaseInstant s = s.becomes (s.m.plRelease s.env s.m.pl.planned)
          ∧ ∃ t : State, exec .releaseInstant s = .next t ∧ t.m.pl.stage = 5 ∧ t.m.pl.due = false)
        ∧ (s.env.ns < s.m.pl.planned → exec .releaseInstant s = .next s))
    ∧ (s.m.onReduced = false → 1 ≤ s.m.pl.stage → s.m.pl.stage ≤ 3 → s.m.pl.due = false → s.m.shadows = false → s.m.pl.ahead = none →
        s.m.pl.planned ≤ s.env.ns →
        ∃ t : State, exec .releaseInstant s = .next t ∧ t.m.pl.due = true ∧ t.m.pl.late.isSome = true ∧ t.m.pl.stage = s.m.pl.stage ∧ t.m.regs = s.m.regs)
    ∧ (∀ o : PlOver, s.m.onReduced = false → s.m.shadows = false → s.m.pl.ahead = some o → o.due = false → o.at_ ≤ s.env.ns →
        1 ≤ s.m.pl.stage → s.m.pl.stage ≤ 3 → s.env.ns < s.m.pl.planned →
        exec .releaseInstant s = s.becomes (s.m.plReleaseOver s.env o o.at_)
        ∧ ∃ t : State, exec .releaseInstant s = .next t ∧ t.m.pl.ahead = none ∧ t.m.pl.stage = s.m.pl.stage ∧ t.m.bit Reg.STR_PL_IRQ_STS 13 = true)
    ∧ (s.m.onReduced = false → s.m.shadows = true → s.m.pl.ahead = none → s.m.pl.announced = none → 1 ≤ s.m.pl.stage → s.m.pl.stage ≤ 4 →
        exec .releaseInstant s = .next s)
    ∧ (s.m.pl.waits = true →
        (s.m.grid.next - s.m.plT + s.m.plT / 4 ≤ s.env.ns → s.m.pl.pend = [] →
          ∃ t : State, exec .cycleSkip s = .next t ∧ t.m.pl.waits = false ∧ t.m.g .STR_PL_STS_skip = 1 ∧ t.m.bit Reg.STR_PL_IRQ_STS 3 = true)
        ∧ (s.env.ns < s.m.grid.next - s.m.plT + s.m.plT / 4 → exec .cycleSkip s = .next s))
    ∧ (s.m.plMode = 5 → s.m.b .STR_PL_STS_manual_stale = false → s.m.pl.manualAt + s.m.g .STR_PL_FAIL_CFG_manual_tmo * 100000000 ≤ s.env.ns →
        exec .plManualTmo s = s.becomes (((s.m.sb .STR_PL_STS_manual_stale true).event s.env 0x500B (some 3) [1]).plIrq 10)
        ∧ ∃ t : State, exec .plManualTmo s = .next t ∧ t.m.g .STR_PL_STS_manual_stale = 1 ∧ t.m.bit Reg.STR_PL_IRQ_STS 10 = true)
    ∧ (∀ (r : QpRun) (st : Nat) (x : Mach × QpResult), s.m.slv.run = some r → r.ended = some st → x = s.m.slvReport s.env r st →
        exec .brackenSolveEnd s = s.becomes (((if r.job.src = 0 then x.1.plResult s.env r.job x.2 else x.1).setRun none).slvNext s.env))

/-- The commands of Bracken (R333, R334): a host problem, its cancellation, the self-test, a bank's march test and status. -/
def Obligations.SolverCommandsAnswer : Prop :=
  ∀ (s : State) (c : Cmd), s.takes c →
    (∀ q : Qp, c.u32 0 = c.data.length → 1 ≤ c.u32 4 → c.u32 4 ≤ 10000000 → s.m.slvServes = true → s.m.slv.host = none →
        (∀ r : QpRun, s.m.slv.run = some r → r.job.src ≠ 1) → qpParse c.data s.m.slvBanks = .ok q → q.resultLen ≤ c.bufLen →
        exec (.slvSolve c) s = s.becomes (({ s.m with slv := { s.m.slv with host := some ⟨1, false, q, none, some c, c.u32 4⟩ } }.sb
          .SLV_STS_host_pending true).slvNext s.env))
    ∧ (∀ (r : QpRun) (phase : Nat), s.m.slv.run = some r → r.job.src = 1 → r.ended = none →
        exec (.slvCancel c phase) s = s.answers 0x59 c (s.m.setRun (some (if r.k = 0 then r.endAs s.env.ns 5 fCancel
          else r.endAs s.env.ns 1 (fCancel ||| if phase = 0 then fMidfact else 0)))) stOk [] [])
    ∧ (∀ phase : Nat, s.m.slv.run = none → s.m.slv.host = none → exec (.slvCancel c phase) s = s.answers 0x59 c s.m stState [] [])
    ∧ (s.m.slvServes = true → s.m.slv.selfTest = none → s.m.slv.bankTest = [] →
        exec (.slvSelftest c) s = s.becomes ({ s.m with slv := { s.m.slv with selfTest := some (some c) } }.slvNext s.env))
    ∧ (c.u8 0 % 2 = 0 → 72 ≤ c.bufLen → exec (.slvStatusGet c) s = s.answers 0x5C c s.m stOk [] (s.m.words Reg.SLV_STS 18))
    ∧ (c.u8 0 < 8 → s.m.slvServes = true → s.m.slv.selfTest = none → s.m.slv.bankTest = [] →
        exec (.slvBankTest c) s = s.becomes (s.m.bankQueue s.env (c.u8 0) (some c)))

/-- What happens in Bracken (R314 to R331): an iteration completes or is rejected, the stop instant lands, the pace is lost, a scratch bank errs, and a march
test ends. -/
def Obligations.SolverHappenings : Prop :=
  ∀ s : State,
    (∀ (r r1 : QpRun) (pt : QpPt) (ev : QpEval) (o : IterOut), s.m.slv.run = some r → r.ended = none → r.flags.testBit 7 = false →
        o = r.job.qp.scale.iterate (s.m.brk r.s) r.pt → o.out = .ok (pt, ev) →
        r1 = { r with piv := r.piv + o.pivots, pivMax := max r.pivMax o.pivots } →
        exec .brackenIterationEnd s = s.becomes (s.m.slvComplete s.env r1 r.job.qp.scale pt ev))
    ∧ (∀ (r r2 : QpRun) (cause : Nat) (o : IterOut), s.m.slv.run = some r → r.ended = none → r.flags.testBit 7 = false →
        o = r.job.qp.scale.iterate (s.m.brk r.s) r.pt → o.out = .error cause →
        r2 = { r with piv := r.piv + o.pivots, pivMax := max r.pivMax o.pivots,
                      pt := (match r.bests with | (_, p, _) :: _ => p | [] => r.pt), s := r.s + 1, rejected := r.rejected + 1,
                      rejRun := r.rejRun + 1, flags := r.flags ||| fRegUp } →
        ∃ t : State, exec .brackenIterationEnd s = .next t
          ∧ t.m.slv.run = some (if s.m.g .SLV_CFG_rej_max ≤ r2.rejRun then r2.endAs s.env.ns 3 0 else r2))
    ∧ (∀ (r : QpRun) (phase : Nat), s.m.slv.run = some r → r.ended = none →
        (s.m.stopReached s.env = true → exec (.solveStopInstant phase) s = s.becomes (s.m.setRun (some (if r.k = 0 then r.endAs s.env.ns 5 0
          else r.endAs s.env.ns 1 (if phase = 0 then fMidfact else 0)))))
        ∧ (r.job.src = 1 → 0 ≤ shortDiff s.env.now.short ((s.m.g .SLV_DEADLINE_deadline + 2 ^ 32 - 1250) % 2 ^ 32) →
          ∃ (t : State) (r' : QpRun), exec (.solveStopInstant phase) s = .next t ∧ t.m.slv.run = some r'
            ∧ r'.ended = some (if r.k = 0 then 5 else 1) ∧ t.env = s.env)
        ∧ (shortDiff s.env.now.short ((s.m.g .SLV_DEADLINE_deadline + 2 ^ 32 - 1250) % 2 ^ 32) < 0 → exec (.solveStopInstant phase) s = .next s))
    ∧ (∀ r : QpRun, s.m.slv.run = some r → r.flags.testBit 7 = true → r.ended = none → r.mark < r.k → r.heard + 2000000 ≤ s.env.ns →
        exec .paceLost s = s.becomes (((s.m.slvUnpace.sb .SLV_STS_pace_lost true).event s.env 0x5806 (some 2) (le 1 r.mark)).setBit Reg.SLV_IRQ_STS 9 true)
        ∧ ∃ t : State, exec .paceLost s = .next t ∧ t.m.g .SLV_STS_pace_lost = 1 ∧ t.m.bit Reg.SLV_IRQ_STS 9 = true)
    ∧ (∀ (bank addr : Nat), bank < 8 → s.m.slv.run = none → s.m.bankNow = none → s.m.slv.bankTest = [] → (s.m.g .SLV_ECC_isolated).testBit bank = true →
        exec (.scratchEccError bank addr true false) s
          = s.becomes (((((s.m.faultNote s.env 2 bank addr).event s.env 0x5803 (some 5) (le 1 bank ++ le 1 1 ++ le 4 addr)).up .SLV_ECC_ue).setBit
              Reg.SLV_IRQ_STS 6 true)))
    ∧ (∀ (bank : Nat) (pass : Bool), bank < 8 → s.m.bankNow = some bank →
        exec (.bankMarchTest bank pass) s = s.becomes (s.m.bankVerdict s.env bank (!pass || s.m.bankThrice s.env bank) pass))
    ∧ (∀ (bank addr : Nat) (u r : Bool), bank < 8 →
        ∃ t : State, exec (.scratchEccError bank addr u r) s = .next t ∧ t.m.bit Reg.SLV_IRQ_STS (if u then 6 else 5) = true
          ∧ t.m.g .SLV_ECC_ue = (if u then min 255 (s.m.g .SLV_ECC_ue + 1) else s.m.g .SLV_ECC_ue)
          ∧ t.m.g .SLV_ECC_ce = (if u then s.m.g .SLV_ECC_ce else min 255 (s.m.g .SLV_ECC_ce + 1)))
    ∧ (∀ (bank : Nat) (pass : Bool), bank < 8 → s.m.bankNow = some bank →
        ∃ t : State, exec (.bankMarchTest bank pass) s = .next t ∧ t.m.bit Reg.SLV_IRQ_STS 7 = true ∧ (t.m.slv.bankTest.any fun x => x.1 == bank) = false)

/-- The commands of the string registers on the active controller (R340, R374, R375, R395, R396): each is accepted with the tick at which it applies, queued and forwarded. -/
def Obligations.StringCommandsQueue : Prop :=
  ∀ (s : State) (c : Cmd), s.takes c → c.u8 0 < 6 → s.m.isActive = true →
    (c.u8 1 < 48 → c.data.length = 124 → ((List.range 31).all fun i => strFieldOk i (BitVec.ofNat 32 (c.d32 (4 * i)))) = true →
        exec (.strCfgSet c) s = s.becomes (s.m.strAccept s.env 0x60 c (s.m.strAppTick s.env)))
    ∧ (c.u8 1 < 6 → exec (.strStateSet c) s = s.becomes (s.m.strAccept s.env 0x61 c (s.m.strAppTick s.env)))
    ∧ (1 ≤ c.u8 1 → c.u8 1 ≤ 16 → c.data.length = 8 * c.u8 1 → ((spEntries c).any fun p => decide (48 ≤ p.1)) = false →
        (c.u32 4 ≠ 0 → 37500 ≤ shortDiff (c.u32 4) s.env.now.short ∧ shortDiff (c.u32 4) s.env.now.short ≤ 1250000000) →
        exec (.strSpSet c) s = s.becomes (s.m.strAccept s.env 0x62 c (s.m.spTick s.env c)))
    ∧ (c.u8 1 < 48 → exec (.strOutSet c) s = s.becomes (s.m.strAccept s.env 0x63 c (s.m.strAppTick s.env)))
    ∧ (c.u8 1 < 48 → c.data.length = 32 → drCfgOk c = true →
        exec (.drnCfgSet c) s = s.becomes (s.m.strAccept s.env 0x68 c (s.m.strAppTick s.env)))
    ∧ (c.u8 1 < 48 → c.u8 3 ≤ 64 → exec (.drnAlloc c) s = s.becomes (s.m.strAccept s.env 0x69 c (s.m.strAppTick s.env)))
    ∧ (c.u8 1 < 3 → exec (.drnModeSet c) s = s.becomes (s.m.strAccept s.env 0x6A c (s.m.strAppTick s.env)))
    ∧ exec (.drnReset c) s = s.becomes (s.m.strAccept s.env 0x6B c (s.m.strAppTick s.env))
    ∧ (∀ p : Word, p = BitVec.ofNat 32 (c.u32 4) → c.u8 1 < 48 → fpIsFinite p = true → fpLe 0 p = true →
        exec (.drnPeriodSet c) s = s.becomes (s.m.strAccept s.env 0x6C c (s.m.strAppTick s.env)))
    ∧ (c.u8 1 < 48 → crc32c c.data = c.u32 4 →
        exec (.drnTableWrite c) s = s.becomes (s.m.strAccept s.env 0x6D c (s.m.strAppTick s.env)))
    ∧ (c.u8 1 < 48 → exec (.drnTableRead c) s = s.becomes (s.m.strAccept s.env 0x6E c (s.m.strAppTick s.env)))

/-- The string timing, streams and status commands (R374, R375, R395), a Drone table's ECC error (R392), its backup (R393), and a host write of a string's
set point (R340). -/
def Obligations.StringsAndDronesAnswer : Prop :=
  ∀ s : State,
    (∀ c : Cmd, s.takes c → 5 ≤ c.u32 0 % 64 → c.u32 0 % 64 ≤ 45 → s.m.isActive = true →
        exec (.strTimingSet c) s = s.becomes ((s.m.strQueue 0x66 { c with params := le 4 (c.u32 0 % 64) } (s.m.strAppTick s.env) true).linkSend 8
          (63 - 2 ^ s.m.g .STK_STS_pos) (le 1 0x66 ++ le 8 (s.m.strAppTick s.env) ++ c.params)))
    ∧ (∀ (c : Cmd) (q : Nat), s.takes c → q = c.u8 0 → q < 16 → c.u16 14 ≠ 0 → s.m.b (qEn .stq q) = true →
        exec (.strStream c) s = s.answers 0x64 c { s.m with str := { s.m.str with stream := some (q, c.un 8 6, c.u16 14) } } stOk [] [])
    ∧ (∀ c : Cmd, s.takes c → c.u8 0 % 2 = 0 → 580 ≤ c.bufLen →
        exec (.strStatusGet c) s = s.answers 0x65 c s.m stOk []
          (le 4 (s.m.rd Reg.STR_STS).toNat
            ++ (List.range 48).flatMap fun t => s.m.regBytes [Reg.STR_Ss_STS t, Reg.STR_Ss_CNT0 t, Reg.STR_Ss_CNT1 t]))
    ∧ (∀ c : Cmd, s.takes c → c.u8 0 % 2 = 0 → 584 ≤ c.bufLen →
        exec (.drnStatusGet c) s = s.answers 0x6F c s.m stOk []
          (s.m.regBytes [Reg.STR_DRN_STS, Reg.STR_DRN_ECC]
            ++ (List.range 48).flatMap fun t => s.m.regBytes [Reg.STR_DRN_Ss_STS t, Reg.STR_DRN_Ss_CNT t, Reg.STR_DRN_Ss_STEP t]))
    ∧ (∀ (page entry : Nat) (u : Bool), page < 256 → entry < 64 →
        exec (.droneEccError page entry u) s = s.becomes (s.m.drEcc s.env page entry u))
    ∧ (∃ t : State, exec .droneTableBackup s = .next t ∧ t.m.regs = s.m.regs ∧ t.env = s.env
        ∧ ∀ k : Nat, k < 48 → k < s.m.str.drn.length → (t.m.dr k).table = (s.m.dr k).table
          ∧ (t.m.dr k).copy = if s.m.g (.STR_DRN_Ss_ALLOC_count k) = 0 then none
              else some ((s.m.dr k).table, s.m.g (.STR_DRN_Ss_PHASE_phi k), s.m.g (.STR_DRN_Ss_STEP_step k)))
    ∧ (∀ (k : Nat) (v : Word), k < 48 →
        (s.m.isActive = true → exec (.strSphWrite k v) s = s.becomes (s.m.strRegQueue s.env (Reg.STR_Ss_SPH k) v))
        ∧ (s.m.isActive = false → s.m.rd (Reg.STR_Ss_SPH k) ≠ v → exec (.strSphWrite k v) s = s.becomes (s.m.writeIgnored (Reg.STR_Ss_SPH k) v)))

/-- The commands of the CAN controllers (R425, R426): configuration of an OFF controller, its actions, objects, sending, withdrawing,
reading, streams and status. -/
def Obligations.CanCommandsAnswer : Prop :=
  ∀ (s : State) (c : Cmd) (k o : Nat), s.takes c → k = c.u8 0 → k < 4 → o = c.u8 1 →
    (∀ m1 : Mach, c.data.length = 792 → s.m.g (.CAN_c_CTRL_mode k) = 0 → (s.m.canc k).mode = 0 → m1 = s.m.putData c 0 (canCfgRegs k) →
        m1.g (.CAN_c_CTRL_nomatch k) ≠ 3 → m1.g (.CAN_c_NBT_ntseg1 k) ≠ 0 → m1.g (.CAN_c_NBT_ntseg2 k) ≠ 0 → (k < 2 → m1.b (.CAN_c_CTRL_saf_res k) = false) → m1.g (.CAN_c_FIFOq_STS_wm k 0) ≤ 64 →
        m1.g (.CAN_c_FIFOq_STS_wm k 1) ≤ 64 → m1.canLeaveOff k 0 = true →
        exec (.canCfg c) s = s.answers 0x70 c ((m1.fifoSync k 0).fifoSync k 1) stOk [] [])
    ∧ (∀ m1 : Mach, o = 0 → c.u8 2 < 4 → m1 = s.m.s (.CAN_c_CTRL_mode k) (c.u8 2) → m1.canLeaveOff k (s.m.g (.CAN_c_CTRL_mode k)) = true →
        exec (.canCtrlAct c) s = s.answers 0x71 c (m1.canUnbar k) stOk [] [])
    ∧ (o = 1 → s.m.g (.CAN_c_STS_state k) = 2 → s.m.b (.CAN_c_STS_recovering k) = false →
        exec (.canCtrlAct c) s = s.answers 0x71 c (((s.m.sb (.CAN_c_STS_rec_wait k) false).sb (.CAN_c_STS_recovering k) true).setCan k
          fun x => { x with recAt := s.env.powered }) stOk [] [])
    ∧ (o = 2 → s.m.b (.CAN_c_STS_testing k) = false → s.m.b (.CAN_c_STS_isolated k) = false →
        exec (.canCtrlAct c) s = s.becomes ((s.m.canTest k).setCan k fun x => { x with testCmd := some c })
        ∧ ∃ t : State, exec (.canCtrlAct c) s = .next t ∧ t.m.b (.CAN_c_STS_testing k) = true ∧ t.env = s.env)
    ∧ (∀ (cfg : Word) (id : Nat), cfg = BitVec.ofNat 32 (c.u32 4) &&& objCfgMask → id = c.u32 8 % 2 ^ 30 → o < 128 → s.m.canSafe k o = false →
        (cfg.toNat.testBit 2 = true → cfg.toNat.testBit 4 = false ∧ s.m.b (.CAN_c_CTRL_fd_en k) = true) →
        (cfg.toNat.testBit 3 = true → cfg.toNat.testBit 2 = true) → (id < 2 ^ 29 → id % 2 ^ 18 = 0) →
        s.m.b (.CAN_c_OBJo_CFG_pending k o) = false → (s.m.canObj k o).target = none → s.m.canOwned k o = false →
        exec (.canObjCfg c) s = s.answers 0x72 c
          (((s.m.wr (Reg.CAN_c_OBJo_CFG k o) cfg).wr (Reg.CAN_c_OBJo_ID k o) (BitVec.ofNat 32 id)).setObj k o fun x =>
            { x with dlc := s.m.g (.CAN_c_OBJo_CFG_dlc k o), at_ := none, frame := [] }) stOk [] [])
    ∧ (s.m.canNames k o = none → s.m.b (.CAN_c_OBJo_CFG_en k o) = true → s.m.b (.CAN_c_OBJo_CFG_dir k o) = true → s.m.canOwned k o = false →
        (s.m.canc k).mode = 1 → s.m.shadowRole = false → (s.m.canObj k o).tx = none → c.u8 2 = 255 → s.m.b (.CAN_c_OBJo_CFG_tt_en k o) = false →
        dlcLen (s.m.b (.CAN_c_OBJo_CFG_fdf k o)) (s.m.g (.CAN_c_OBJo_CFG_dlc k o)) ≤ c.data.length →
        exec (.canTx c) s = s.becomes ((s.m.setObj k o fun x =>
          { x with payload := putBytes 0 (c.data.take (dlcLen (s.m.b (.CAN_c_OBJo_CFG_fdf k o)) (s.m.g (.CAN_c_OBJo_CFG_dlc k o)))) x.payload,
                   dlc := s.m.g (.CAN_c_OBJo_CFG_dlc k o), tx := some c, retries := 0, target := none, due := none }).sb
          (.CAN_c_OBJo_CFG_pending k o) true)
        ∧ ∃ t : State, exec (.canTx c) s = .next t ∧ t.m.b (.CAN_c_OBJo_CFG_pending k o) = true ∧ t.env = s.env)
    ∧ (s.m.canNames k o = none → (s.m.canc k).flight = none → (s.m.b (.CAN_c_OBJo_CFG_pending k o) = true ∨ (s.m.canObj k o).target.isSome = true) →
        exec (.canCancel c) s = s.answers 0x74 c ((s.m.canWithdraw s.env k o 0x41).canIrq k 6) stOk [0] [])
    ∧ (∀ n : Nat, n = c.u8 2 → o < 2 + 128 → 128 ≤ o → 1 ≤ n → n ≤ 64 → s.m.b (.CAN_c_FIFOq_STS_bound k (o - 128)) = false →
        (((s.m.canc k).fifo.getD (o - 128) []).take n).flatten.length ≤ c.bufLen →
        exec (.canRxRead c) s = s.answers 0x75 c (s.m.setFifoC k (o - 128) (((s.m.canc k).fifo.getD (o - 128) []).drop n)) stOk
          (le 1 (min n ((s.m.canc k).fifo.getD (o - 128) []).length)) (((s.m.canc k).fifo.getD (o - 128) []).take n).flatten)
    ∧ (∀ q : Nat, o < 2 → q = c.u8 2 → q < 16 → s.m.b (qEn .stq q) = true →
        exec (.canStream c) s = s.answers 0x76 c ((s.m.setCan k fun x => { x with bound := upd x.bound o fun _ => some q }).sb
          (.CAN_c_FIFOq_STS_bound k o) true) stOk [] [])
    ∧ (c.u8 0 % 2 = 0 → 96 ≤ c.bufLen → exec (.canStatusGet c) s = s.answers 0x77 c s.m stOk []
        ((List.range 4).flatMap fun k => s.m.regBytes [Reg.CAN_c_STS k, Reg.CAN_c_ERR k, Reg.CAN_c_CNT0 k, Reg.CAN_c_CNT1 k,
          Reg.CAN_c_FIFOq_STS k 0, Reg.CAN_c_FIFOq_STS k 1]))

/-- What happens on a CAN bus (R405 to R428): the next frame starts, ends and is received, errors, bus off and its recovery, integration, changes of mode,
time-triggered targets and their deadline, and the end of a loop test. -/
def Obligations.CanHappenings : Prop :=
  ∀ (s : State) (k o : Nat), k < 4 →
    (∀ lag sof : Nat, sof = (s.env.now.short + lag) % 2 ^ 32 → s.m.canOnBus k = true → (s.m.canc k).flight = none → (s.m.canc k).mode = 1 →
        s.m.canNext k = some o →
        exec (.canTxStart k lag) s = s.becomes ((s.m.setCan k fun x => { x with flight := some ⟨o, s.m.canFrame k o sof, false, false⟩ }).emit
          "CAN" k o (s.m.canFrame k o sof))
        ∧ (k < s.m.can.length → ∃ t : State, exec (.canTxStart k lag) s = .next t
            ∧ (t.m.canc k).flight = some ⟨o, s.m.canFrame k o sof, false, false⟩ ∧ t.env = s.env))
    ∧ (∀ (typ : Nat) (d tx dom : Bool), 1 ≤ typ → typ ≤ 6 → s.m.canOnBus k = true → (s.m.canc k).mode ≠ 3 →
        exec (.canBusError k typ d tx dom) s = s.becomes (s.m.canError s.env k typ d tx dom)
        ∧ ∃ t : State, exec (.canBusError k typ d tx dom) s = .next t ∧ t.m.g (.CAN_c_STS_lec k) = typ ∧ t.m.b (.CAN_c_STS_lec_data k) = d ∧ t.env = s.env)
    ∧ (∀ pass : Bool, s.m.b (.CAN_c_STS_testing k) = true → exec (.canLoopTestEnd k pass) s = s.becomes (s.m.canTestEnd s.env k pass))
    ∧ (s.m.b (.CAN_c_STS_testing k) = true → ∃ t : State, exec (.canLoopTestEnd k true) s = .next t ∧ t.m.b (.CAN_c_STS_testing k) = false
        ∧ t.m.b (.CAN_c_STS_isolated k) = false ∧ t.env = s.env)
    ∧ (s.m.g (.CAN_c_STS_state k) = 2 → s.m.b (.CAN_c_STS_recovering k) = true → (s.m.canc k).recAt + 4400 * s.m.canBit k ≤ s.env.powered →
        exec (.canBusoffRecovery k) s
          = s.becomes ((((s.m.sb (.CAN_c_STS_recovering k) false).s (.CAN_c_STS_rec_seq k) 128).canErr k 0 0).canState s.env k 0)
        ∧ (k < s.m.can.length → ∃ t : State, exec (.canBusoffRecovery k) s = .next t ∧ (t.m.canc k).tec = 0 ∧ (t.m.canc k).rec_ = 0 ∧ t.m.g (.CAN_c_STS_state k) = 0))
    ∧ (∀ (ago sof id dlc flags : Nat) (p : List Byte), sof = (((s.env.now.short : Int) - ago) % 2 ^ 32).toNat → s.m.canOnBus k = true → (s.m.canc k).mode = 1 → flags % 2 = 0 → (s.m.canc k).rec_ < 128 →
        exec (.canFrameReceive k ago id dlc flags p) s
          = s.becomes ((s.m.canCount s.env k (s.m.canc k).tec ((s.m.canc k).rec_ - 1)).canReceive s.env k sof id dlc flags p)
        ∧ (k < s.m.can.length → ∃ t : State, exec (.canFrameReceive k ago id dlc flags p) s = .next t ∧ (t.m.canc k).rec_ = (s.m.canc k).rec_ - 1
            ∧ t.env = s.env))
    ∧ (∀ (result tdcv : Nat) (f : CanFlight), (s.m.canc k).flight = some f →
        exec (.canTxEnd k result tdcv) s = s.becomes (s.m.canFlightEnd s.env k result tdcv f)
        ∧ (k < s.m.can.length → ∃ t : State, exec (.canTxEnd k result tdcv) s = .next t ∧ (t.m.canc k).flight = none ∧ t.env = s.env))
    ∧ (∀ (v : Word) (m1 : Mach), 2 ≤ k → s.m.g (.CAN_c_CTRL_mode k) = 0 → (s.m.canc k).mode = 0 → m1 = s.m.hostPut s.env.locked (!s.env.locked) (Reg.CAN_c_CTRL k) v →
        m1.g (.CAN_c_CTRL_nomatch k) ≠ 3 →
        exec (.canModeWrite k v) s
          = s.becomes (if m1.canLeaveOff k 0 then m1.canUnbar k else ((m1.s (.CAN_c_CTRL_mode k) 0).sb (.CAN_c_STS_cfg_err k) true).canUnbar k)
        ∧ (s.env.locked = false → ∃ t : State, exec (.canModeWrite k v) s = .next t ∧ t.env = s.env
            ∧ (t.m.g (.CAN_c_CTRL_mode k) = v.toNat % 4 ∨ t.m.g (.CAN_c_CTRL_mode k) = 0 ∧ t.m.b (.CAN_c_STS_cfg_err k) = true)))
    ∧ ((s.m.canc k).flight = none → (s.m.canc k).mode ≠ 0 → s.m.g (.CAN_c_CTRL_mode k) = 0 → s.m.b (.CAN_c_STS_testing k) = false →
        exec (.canModeApply k) s = s.becomes (s.m.canOff s.env k)
        ∧ (k < s.m.can.length → ∃ t : State, exec (.canModeApply k) s = .next t ∧ (t.m.canc k).mode = 0 ∧ (t.m.canc k).flight = none ∧ t.env = s.env))
    ∧ (∀ w : Nat, (s.m.canc k).flight = none → (s.m.canc k).mode = 0 → s.m.g (.CAN_c_CTRL_mode k) = w → (w = 1 ∨ w = 2) →
        s.m.b (.CAN_c_STS_testing k) = false → s.m.b (.CAN_c_STS_isolated k) = false →
        exec (.canModeApply k) s
          = s.becomes (((s.m.setCan k fun x => { x with mode := w }).setCan k fun x => { x with joined := false }).canState s.env k 3)
        ∧ (k < s.m.can.length → ∃ t : State, exec (.canModeApply k) s = .next t ∧ (t.m.canc k).mode = w ∧ (t.m.canc k).joined = false ∧ t.env = s.env))
    ∧ ((s.m.canc k).joined = false → ((s.m.canc k).mode = 1 ∨ (s.m.canc k).mode = 2) → s.m.b (.CAN_c_STS_testing k) = false →
        s.m.b (.CAN_c_STS_isolated k) = false → s.m.clkFailed 8 = false →
        exec (.canBusIntegration k) s
          = s.becomes ((s.m.setCan k fun x => { x with joined := true }).canState s.env k (errState (s.m.canc k).tec (s.m.canc k).rec_))
        ∧ (k < s.m.can.length → ∃ t : State, exec (.canBusIntegration k) s = .next t ∧ (t.m.canc k).joined = true
            ∧ t.m.g (.CAN_c_STS_state k) = errState (s.m.canc k).tec (s.m.canc k).rec_ ∧ t.env = s.env))
    ∧ (∀ t : Nat, o < 128 → (s.m.canObj k o).target = some t → shortDiff t s.env.now.short ≤ 0 →
        exec (.canTtTarget k o) s
          = s.becomes ((s.m.setObj k o fun x => { x with target := none, due := some t }).sb (.CAN_c_OBJo_CFG_pending k o) true)
        ∧ ∃ u : State, exec (.canTtTarget k o) s = .next u ∧ u.m.b (.CAN_c_OBJo_CFG_pending k o) = true ∧ u.env = s.env)
    ∧ (∀ t : Nat, o < 128 → (s.m.canc k).flight = none → (s.m.canObj k o).due = some t → s.m.b (.CAN_c_OBJo_CFG_pending k o) = true →
        s.m.g (.CAN_c_OBJo_CFG_tt_late k o) ≠ 0 → 125 * (s.m.g (.CAN_c_OBJo_CFG_tt_late k o) : Int) ≤ shortDiff s.env.now.short t →
        exec (.canTxLate k o) s = s.becomes ((((s.m.up (.CAN_c_OBJo_CNT_late_ovw k o)).canWithdraw s.env k o stLate).canIrq k 6).event s.env
          0x7003 (some 3) (le 1 k ++ le 1 o ++ le 4 t))
        ∧ ∃ u : State, exec (.canTxLate k o) s = .next u ∧ u.m.b (.CAN_c_OBJo_CFG_pending k o) = false ∧ u.env = s.env)

/-- The commands of the field input and output block (R452, R453): configuration, output sets at an instant, rearming, clearing
faults, the input stream, the field test and status. -/
def Obligations.FieldCommandsAnswer : Prop :=
  ∀ (s : State) (c : Cmd), s.takes c →
    (∀ m1 m2 m3 : Mach, c.data.length = 196 →
        ((List.range 32).any fun i => s.m.b (.DIO_DIi_CFG_en i)
          && ((s.m.rd (Reg.DIO_DIi_CFG i) ^^^ BitVec.ofNat 32 (c.d32 (4 + 4 * i))) &&& 0x3FF27F7F) != 0) = false →
        ((List.range 8).any fun k => (s.m.b (.DIO_AOk_CFG_en k) || s.m.b (.DIO_AOk_CFG_claimed k))
          && (s.m.g (.DIO_AOk_CFG_mode k) != c.d32 (132 + 8 * k) / 2 % 2
            || s.m.rd (Reg.DIO_AOk_OFF k) != BitVec.ofNat 32 (c.d32 (136 + 8 * k)))) = false →
        ((List.range 32).any fun i => c.d32 (4 + 4 * i) / 2 ^ 20 % 1024 == 0
          || ((c.d32 (4 + 4 * i)).testBit 16 && !diOk (c.d32 (4 + 4 * i)))) = false →
        m1 = s.m.s .DIO_DO_UNGATED_ungated (c.d32 0) →
        m2 = iter 32 (fun i m => (m.putImage (Reg.DIO_DIi_CFG i) (BitVec.ofNat 32 (c.d32 (4 + 4 * i)))).diEnChange i (m.b (.DIO_DIi_CFG_en i))) m1 →
        m3 = iter 8 (fun k m => ((m.s (.DIO_AOk_CFG_mode k) (c.d32 (132 + 8 * k) / 2)).s (.DIO_AOk_CFG_en k) (c.d32 (132 + 8 * k))).wr
          (Reg.DIO_AOk_OFF k) (BitVec.ofNat 32 (c.d32 (136 + 8 * k)))) m2 →
        exec (.dioCfg c) s = s.answers 0x78 c m3.dioWithdraw stOk [] [])
    ∧ (∀ tk : Nat, s.m.applyAt s.env (c.u32 4) = .ok tk →
        exec (.dioDoSet c) s = s.answers 0x79 c (s.m.dioSet tk 16 (c.u16 0) (BitVec.ofNat 32 (c.u16 2))) stOk (s.m.outShort tk) [])
    ∧ (∀ k tk : Nat, k = c.u8 0 → k < 8 → s.m.b (.DIO_AOk_CFG_claimed k) = false → s.m.b (.DIO_AOk_CFG_en k) = true →
        s.m.applyAt s.env (c.u32 8) = .ok tk →
        exec (.dioAoSet c) s = s.answers 0x7A c (s.m.dioSet tk (17 + k) 0 (BitVec.ofNat 32 (c.u32 4))) stOk (s.m.outShort tk) [])
    ∧ (∀ mask : Nat, ((List.range 4).any fun g => (c.u8 0).testBit g && (s.m.grp g).bad) = false → s.m.state ≠ 4 →
        mask = ((List.range 4).map fun g => if (s.m.grp g).level == 0 && (s.m.grp g).latch && !(s.m.grp g).bad then 2 ^ g else 0).sum →
        ∃ t : State, exec (.dioRearm c) s = .next t ∧ t.m.dio.rearm = s.m.dio.rearm ||| mask)
    ∧ (∀ hot : Nat, c.u16 0 = 0 → c.u8 2 = 0 → exec (.dioFaultClr c hot) s = s.answers 0x7C c s.m stOk [] [])
    ∧ (∀ hot : Nat, c.u16 0 &&& s.m.g .DIO_DO_FLT_flt &&& hot ≠ 0 → exec (.dioFaultClr c hot) s = s.answers 0x7C c s.m stState [] [])
    ∧ (∀ q : Nat, q = c.u8 0 → q < 16 → s.m.b (qEn .stq q) = true →
        exec (.dioStream c) s = s.answers 0x7D c { s.m with dio := { s.m.dio with stream := some (q, BitVec.ofNat 32 (c.u32 4)) } } stOk [] [])
    ∧ (∀ g : Nat, g = c.u8 0 → g < 4 → s.m.dio.test = none → s.m.grpOn g = false →
        exec (.dioTest c) s = s.becomes ({ s.m with dio := { s.m.dio with test := some (g, c) } }.dioReport s.env)
        ∧ ∃ t : State, exec (.dioTest c) s = .next t ∧ t.m.dio.test = some (g, c) ∧ t.m.b .DIO_STS_testing = true ∧ t.m.b .DIO_STS_per_group = false
          ∧ t.env = s.env)
    ∧ (72 ≤ c.bufLen → exec (.dioStatusGet c) s = s.answers 0x7F c s.m stOk [] (s.m.words Reg.DIO_STS 10 ++ s.m.regBytes ((List.range 8).map Reg.DIO_AOk_CFG)))

/-- What happens at the field connectors (R431 to R451): a host write of DIO_DO_CMD, overloads of digital and analogue outputs, supply measurements, input
samples, enabling an input, and the end of a field test. -/
def Obligations.FieldHappenings : Prop :=
  ∀ s : State,
    (∀ v : Word, exec (.dioDoCmdWrite v) s = s.becomes (s.m.hostPut s.env.locked true Reg.DIO_DO_CMD v)
        ∧ ∃ t : State, exec (.dioDoCmdWrite v) s = .next t ∧ t.m.g .DIO_DO_CMD_cmd = v.toNat % 65536 ∧ t.m.rd Reg.DIO_DO_STATE = s.m.rd Reg.DIO_DO_STATE
          ∧ t.env = s.env)
    ∧ (∀ j : Nat, j < 16 → s.m.bit Reg.DIO_DO_FLT j = false →
        ∃ t : State, exec (.doOverload j) s = .next t ∧ t.m.bit Reg.DIO_DO_FLT j = true ∧ t.m.bit Reg.DIO_DO_STATE j = false
          ∧ t.m.bit Reg.DIO_IRQ_STS 9 = true)
    ∧ (∀ k : Nat, k < 8 → s.m.b (.DIO_AOk_CFG_flt k) = false → s.m.aoRow k ≠ 1 →
        exec (.aoFault k) s = s.becomes ((((s.m.sb (.DIO_AOk_CFG_flt k) true).aoOff k).dioIrq 10).event s.env 0x7804 (some 3)
          (le 1 k ++ le 1 (s.m.g (.DIO_AOk_CFG_mode k)) ++ le 1 1))
        ∧ ∃ t : State, exec (.aoFault k) s = .next t ∧ t.m.b (.DIO_AOk_CFG_flt k) = true ∧ t.m.b (.DIO_AOk_CFG_live k) = false
          ∧ (s.m.state = 3 ∨ s.m.state = 4 → t.m.rd (Reg.DIO_AOk_OUT k) = 0) ∧ t.env = s.env)
    ∧ (∀ (mv : List Nat) (v : Nat → Nat) (m0 : Mach), (∀ t, s.m.dio.vfAt = some t → t + 2500 ≤ s.env.powered) → (∀ g, v g = min (mv.getD g 0) 65535) →
        m0 = { s.m with dio := { s.m.dio with vfAt := some s.env.powered } } →
        exec (.vfieldMeasure mv) s = s.becomes (iter 4 (fun g m => m.grpMeasure s.env g (v g))
          ((((m0.s .DIO_VF_MEAS0_mv_lo (v 0)).s .DIO_VF_MEAS0_mv_hi (v 1)).s .DIO_VF_MEAS1_mv_lo (v 2)).s .DIO_VF_MEAS1_mv_hi (v 3)))
        ∧ ∃ t : State, exec (.vfieldMeasure mv) s = .next t ∧ t.m.dio.vfAt = some s.env.powered ∧ t.m.vfMv 0 = v 0 ∧ t.m.vfMv 3 = v 3 ∧ t.env = s.env)
    ∧ (∀ mv : List Nat, (∀ t, s.m.dio.diAt = some t → t + 2500 ≤ s.env.powered) →
        exec (.diSample mv) s = s.becomes (iter 32 (fun i m => m.diSample s.env i (mv.getD i 0))
          { s.m with dio := { s.m.dio with diAt := some s.env.powered } })
        ∧ ∃ t : State, exec (.diSample mv) s = .next t ∧ t.m.dio.diAt = some s.env.powered ∧ t.env = s.env)
    ∧ (∀ (mv : List Nat) (t : Nat), s.m.dio.vfAt = some t → s.m.dio.diAt = some t → s.env.powered < t + 2500 →
        exec (.vfieldMeasure mv) s = .next s ∧ exec (.diSample mv) s = .next s)
    ∧ (∀ (i : Nat) (v : Word) (m1 : Mach), i < 32 → s.m.b (.DIO_DIi_CFG_en i) = false →
        m1 = s.m.hostPut s.env.locked (!s.env.locked) (Reg.DIO_DIi_CFG i) v → m1.g (.DIO_DIi_CFG_limit i) ≠ 0 → m1.b (.DIO_DIi_CFG_en i) = true →
        exec (.dioDiEnable i v) s = s.becomes (if diOk (m1.rd (Reg.DIO_DIi_CFG i)).toNat then m1.diEnChange i false
          else (m1.sb (.DIO_DIi_CFG_en i) false).sb (.DIO_DIi_STS_cfg_err i) true)
        ∧ ∃ t : State, exec (.dioDiEnable i v) s = .next t ∧ t.env = s.env
          ∧ (t.m.b (.DIO_DIi_CFG_en i) = true ∨ t.m.b (.DIO_DIi_CFG_en i) = false ∧ t.m.b (.DIO_DIi_STS_cfg_err i) = true))
    ∧ (∀ (part g : Nat) (c : Cmd), s.m.dio.test = some (g, c) → part % 4 = 0 → g < s.m.dio.grp.length →
        ∃ t : State, exec (.fieldTestEnd part) s = .next t ∧ t.m.dio.test = none ∧ (t.m.grp g).bad = false)

/-- The commands of the safety island (R482 to R487), which takes its mailbox commands in RUN only, but for the reads. -/
def Obligations.SafetyCommandsAnswer : Prop :=
  ∀ (s : State) (c : Cmd), s.takes c →
    (s.m.saf.state = 2 → ∀ (l : List Byte) (n : Nat), l = c.data → n = scfgCount l → c.u32 0 = l.length → l.length = 128 + 32 * n →
        (rw l 12).toNat = crc32c ((l.drop 32).take (32 * n)) → safSigned s.env s.m.saf l = true → scfgLayout l = true →
        scfgRules (scfgRecs l) = true →
        exec (.safCfgLoad c) s = s.answers 0x80 c ((((s.m.setSaf fun x => { x with cand := some l }).safIrq 10).event s.env 0x800A (some 6)
          (le 1 0 ++ le 4 (rw l 8).toNat))) stOk (le 4 (rw l 12).toNat) [])
    ∧ (∀ l : List Byte, s.m.saf.state = 2 → s.m.saf.cand = some l → s.m.saf.busy = false → c.u32 0 = (rw l 12).toNat →
        exec (.safCfgAccept c) s = s.answers 0x81 c (((((s.m.setSaf fun x => { x with cfg := some l, cand := none }).safApply s.env).safIrq 10).event
          s.env 0x800A (some 6) (le 1 1 ++ le 4 (rw l 8).toNat))) stOk (le 4 (rw l 8).toNat) [])
    ∧ (∀ mask : Nat, s.m.saf.state = 2 → mask = c.u16 0 → c.u16 2 ≤ 1 →
        ((List.range 16).any fun f => mask.testBit f && (s.m.saf.monRec f).isSome) = false →
        exec (.safDemand c) s = s.answers 0x82 c (s.m.setSaf fun x =>
          { x with host := if c.u16 2 = 1 then s.m.saf.host ||| mask else s.m.saf.host &&& (65535 - mask) }) stOk [] [])
    ∧ (s.m.saf.state ≠ 2 → exec (.safCfgLoad c) s = s.answers 0x80 c s.m stState [] [] ∧ exec (.safCfgAccept c) s = s.answers 0x81 c s.m stState [] []
        ∧ exec (.safDemand c) s = s.answers 0x82 c s.m stState [] [] ∧ exec (.safOutTest c) s = s.answers 0x84 c s.m stState [] [])
    ∧ (832 ≤ c.bufLen → exec (.safStatusGet c) s = s.answers 0x83 c s.m stOk [] (s.m.words 0x000B0000 208))
    ∧ (s.m.saf.state = 2 → c.u8 0 < 4 → s.m.saf.test = none →
        exec (.safOutTest c) s = s.becomes (s.m.setSaf fun x => { x with test := some (c.u8 0, c, [], false) })
        ∧ ∃ t : State, exec (.safOutTest c) s = .next t ∧ t.m.saf.test = some (c.u8 0, c, [], false) ∧ t.m.regs = s.m.regs ∧ t.env = s.env)
    ∧ (s.m.saf.logBytes.length ≤ c.bufLen → exec (.safFaultLog c) s = s.answers 0x85 c s.m stOk [] s.m.saf.logBytes)

/-- What happens in the safety island (R459 to R480): the firmware's heartbeat, an output test in RUN, a connection's frames, their pair window and timeout, and
the safety cycle. -/
def Obligations.SafetyHappenings : Prop :=
  ∀ s : State,
    (∃ t : State, exec .appHeartbeat s = .next t ∧ t.m = { s.m with saf := { s.m.saf with hb := 0 } } ∧ t.env = s.env ∧ t.pending = s.pending)
    ∧ (∀ (o : Nat) (low off : Bool), o < 4 →
        (s.m.saf.state = 2 → exec (.soSwitchTest o low off) s = s.becomes (s.m.soTested s.env o (if low then 1 else 0) off))
        ∧ (s.m.saf.state = 2 → o < s.m.saf.so.length → ∃ t : State, exec (.soSwitchTest o low false) s = .next t ∧ (t.m.saf.sout o).test = true ∧ t.env = s.env)
        ∧ (s.m.saf.state ≠ 2 → exec (.soSwitchTest o low off) s = .next s))
    ∧ (∀ (k : Nat) (r : List Byte), k < 16 → s.m.saf.state = 2 → s.m.saf.connRec k = some r → rb r 2 = 1 → k < s.m.saf.conn.length →
        (∀ t, (s.m.saf.kon k).sent = some t → t + rh r 6 * 1000000 ≤ s.env.upNs) →
        ∃ t : State, exec (.safeFrameProduce k) s = .next t ∧ (t.m.saf.kon k).out = ((s.m.saf.kon k).out + 1) % 65536)
    ∧ (∀ (k net : Nat) (b r : List Byte), k < 16 → s.m.saf.state = 2 → s.m.saf.connRec k = some r → rb r 2 = 2 → connNet r net = true →
        s.m.safOpen k net (rb b 4) = true →
        exec (.safeFrameReceive k net b) s = s.becomes (s.m.connReceive s.env k b r)
        ∧ (b.length ≠ 32 → ∃ t : State, exec (.safeFrameReceive k net b) s = .next t ∧ t.m.saf = { s.m.saf with conn := upd s.m.saf.conn k (SafConn.count · 0) }
            ∧ t.m.regs = s.m.regs ∧ t.env = s.env)
        ∧ (k < s.m.saf.conn.length → b.length = 32 → rb b 0 = 0x5A → rb b 1 = k → rb b 4 < 2 → unle ((b.drop 28).take 4) = safeCrc r b →
            (s.m.saf.kon k).last = none → (s.m.saf.kon k).held = [] →
            ∃ t : State, exec (.safeFrameReceive k net b) s = .next t ∧ (t.m.saf.kon k).held = [⟨rh b 2, rb b 4, (b.drop 8).take 20, s.env.upNs⟩]
              ∧ (t.m.saf.kon k).state = (s.m.saf.kon k).state ∧ t.m.regs = s.m.regs ∧ t.env = s.env))
    ∧ (∀ (k : Nat) (h : SafCopy) (l : List SafCopy) (r : List Byte), k < 16 → s.m.saf.state = 2 → (s.m.saf.kon k).held = h :: l →
        s.m.saf.connRec k = some r → h.at_ + rb r 10 * 1000000 ≤ s.env.upNs →
        exec (.safePairWindow k) s = s.becomes (s.m.connAccept s.env k h [h.letter])
        ∧ (k < s.m.saf.conn.length → ∃ t : State, exec (.safePairWindow k) s = .next t ∧ (t.m.saf.kon k).last = some h.seq
            ∧ (t.m.saf.kon k).taken = [h.letter] ∧ (t.m.saf.kon k).state = (if (s.m.saf.kon k).state = 3 then 3 else 2) ∧ t.env = s.env))
    ∧ (∀ (k : Nat) (r : List Byte), k < 16 → s.m.saf.state = 2 → s.m.saf.connRec k = some r → rb r 2 = 2 →
        (s.m.saf.kon k).acc + rh r 8 * 1000000 ≤ s.env.upNs →
        exec (.safeConnTimeout k) s = s.becomes (s.m.connSafe s.env k 3)
        ∧ (k < s.m.saf.conn.length → ∃ t : State, exec (.safeConnTimeout k) s = .next t ∧ (t.m.saf.kon k).state = 3))
    ∧ (∀ x : SafetyIn, s.m.saf.state = 0 → exec (.safetyCycle x) s = .next s)
    ∧ (∀ (x : SafetyIn) (m1 m2 m3 : Mach), s.m.saf.state ≠ 0 → m1 = (if x.broken then s.m.setIsland s.env 3 else s.m) → m2 = m1.hbStep →
        m3 = (if m2.saf.state = 2 then m2.safRun s.env x else m2.setSaf fun z => { z with mv := x.mv, so := z.so.mapIdx fun n o => { o with mirror := x.mirror.testBit n } }) →
        exec (.safetyCycle x) s = s.becomes (((m3.permitStep s.env).gateRestore s.env).safCount.safPublish)
        ∧ ∃ t : State, exec (.safetyCycle x) s = .next t ∧ t.m.saf.cyc = (s.m.saf.cyc + 1) % 160 ∧ t.m.g .SAF_STS_state = t.m.saf.state % 4
          ∧ t.env = s.env)

/-- The commands of the stack (R527, R528): status, switchover, isolation, rejoin, the configuration, resynchronisation and a port's test. -/
def Obligations.StackCommandsAnswer : Prop :=
  ∀ (s : State) (c : Cmd), s.takes c →
    (64 ≤ c.bufLen → exec (.stkStatusGet c) s = s.answers 0x88 c s.m stOk [] (s.m.words 0x000F0000 16))
    ∧ (s.m.mayswitch = true → exec (.stkSwitchover c) s = s.becomes (s.m.switchStart 0x89 c false)
        ∧ ∃ t : State, exec (.stkSwitchover c) s = .next t ∧ t.m.stk.switch = some (s.m.cycNum + 2, some (0x89, c), false) ∧ t.m.regs = s.m.regs
          ∧ t.env = s.env)
    ∧ (s.m.mayswitch = false → exec (.stkSwitchover c) s = s.answers 0x89 c s.m stState [] [])
    ∧ (1 ≤ s.m.role → s.m.role ≤ 3 → exec (.stkIsolate c) s = s.answers 0x8A c (s.m.setRole s.env 4 1) stOk [] []
        ∧ ∃ t : State, exec (.stkIsolate c) s = .next t ∧ t.m.role = 4 ∧ t.m.g .STK_STS_iso_cause = 1 ∧ t.env = s.env)
    ∧ (s.m.mayswitch = true → exec (.stkIsolate c) s = s.becomes (s.m.switchStart 0x8A c true)
        ∧ ∃ t : State, exec (.stkIsolate c) s = .next t ∧ t.m.stk.switch = some (s.m.cycNum + 2, some (0x8A, c), true) ∧ t.m.regs = s.m.regs
          ∧ t.env = s.env)
    ∧ (s.m.role = 4 → s.m.g .STK_STS_iso_cause ≠ 2 → s.m.g .STK_STS_iso_cause ≠ 8 →
        exec (.stkRejoin c) s = s.answers 0x8B c (s.m.setRole s.env (if 2 ≤ s.m.pos then 3 else 2) 0) stOk [] []
        ∧ ∃ t : State, exec (.stkRejoin c) s = .next t ∧ t.m.role = (if 2 ≤ s.m.pos then 3 else 2) ∧ t.env = s.env)
    ∧ (stkCfgOk (c.u32 0) = true → s.m.role = 0 →
        exec (.stkCfgSet c) s = s.answers 0x8C c ((s.m.setStk fun x => { x with cfgNext := some (BitVec.ofNat 32 (c.u32 0 % 2 ^ 21)) }).linkSend 8
          (63 - 2 ^ s.m.pos) (le 1 0x8C ++ c.params)) stOk [] []
        ∧ ∃ t : State, exec (.stkCfgSet c) s = .next t ∧ t.m.stk.cfgNext = some (BitVec.ofNat 32 (c.u32 0 % 2 ^ 21)) ∧ t.m.rd Reg.STK_CFG = s.m.rd Reg.STK_CFG
          ∧ t.env = s.env)
    ∧ (s.m.role = 1 → exec (.stkResync c) s = s.answers 0x8D c (s.m.setRole s.env 2 0) stOk [] []
        ∧ ∃ t : State, exec (.stkResync c) s = .next t ∧ t.m.role = 2 ∧ t.m.stk.sync = some ⟨s.env.upNs, none, none, none, [], false, 0⟩ ∧ t.env = s.env)
    ∧ (∀ p : Nat, p = c.u8 0 → p < 2 → (s.m.stk.test.any fun x => x.1 == p) = false → 2 ≤ s.m.pos →
        exec (.stkLinkTest c) s = s.becomes (s.m.setStk fun x => { x with test := x.test ++ [(p, c, x.errs.getD p 0, s.env.upNs)] })
        ∧ ∃ t : State, exec (.stkLinkTest c) s = .next t ∧ t.m.stk.test = s.m.stk.test ++ [(p, c, s.m.stk.errs.getD p 0, s.env.upNs)] ∧ t.m.regs = s.m.regs
          ∧ t.env = s.env)

/-- What happens at the bridge lines and to the roles (R460, R502 to R528): the condition holds or goes, claims are won and withdrawn, a peer that releases its line
or falls silent is taken over from, a holder is found or lost, roles resolve after start, and switchovers and port tests end. That the holder shows on
the controllers too, and that these durations are those of powered time, are the model's choices (log entry 125). -/
def Obligations.BridgeAndRoles : Prop :=
  ∀ (s : State),
    (∀ (n : Nat) (m1 : Mach), n < 2 → s.m.pos = n → s.m.ownBridged s.env = true → m1 = (s.m.holderNote s.env n).setBridge s.env true →
        exec (.bridgeCondition n) s = s.becomes (if m1.b .STK_BRG_claiming then m1.claimWon s.env else m1)
        ∧ ∃ t : State, exec (.bridgeCondition n) s = .next t ∧ t.m.b .STK_BRG_cond = true ∧ t.m.b .STK_BRG_claiming = false
          ∧ t.m.b .STK_STS_holder_valid = true ∧ t.m.g .STK_STS_holder = n ∧ t.env = s.env)
    ∧ (∀ n : Nat, n < 2 → 2 ≤ s.m.pos → s.m.lineHolds s.env n = true →
        exec (.bridgeCondition n) s = s.becomes (s.m.holderIs s.env n)
        ∧ ∃ t : State, exec (.bridgeCondition n) s = .next t ∧ t.m.b .STK_STS_holder_valid = true ∧ t.m.g .STK_STS_holder = n
          ∧ t.m.role = (if s.m.role = 7 then 3 else s.m.role) ∧ t.env = s.env)
    ∧ (s.m.pos < 2 → s.m.lineHolds s.env s.m.peerPos = true → exec (.bridgeCondition s.m.peerPos) s = s.becomes (s.m.holderNote s.env s.m.peerPos))
    ∧ (2 ≤ s.m.pos → s.m.pairBridged s.env = true →
        ∃ t : State, exec (.bridgeCondition 2) s = .next t ∧ t.m.b .STK_BRG_pair_cond = true ∧ t.m.b .STK_STS_xprimary = true ∧ t.m.b .STK_BRG_claiming = false
          ∧ t.env = s.env)
    ∧ (∀ (n : Nat) (low : Bool), n < 2 → s.m.pos = n →
        ∃ t : State, exec (.bridgeLineChange n low) s = .next t ∧ t.m.b .STK_BRG_own_rd = low ∧ t.env = s.env)
    ∧ (s.m.pos < 2 → ∃ t : State, exec (.bridgeLineChange s.m.peerPos true) s = .next t ∧ t.m.b .STK_BRG_peer_rd = true ∧ t.m.b .STK_BRG_cond = false
          ∧ t.env = s.env)
    ∧ (∀ (n : Nat) (low : Bool), n < 2 → 2 ≤ s.m.pos → exec (.bridgeLineChange n low) s = s.becomes (s.m.lineRead s.env n low))
    ∧ (s.m.mustWithdraw s.env = true → exec .claimWithdraw s = s.becomes (s.m.claimWithdraw s.env)
        ∧ ∃ t : State, exec .claimWithdraw s = .next t ∧ t.m.b .STK_BRG_claiming = false ∧ t.m.b .STK_BRG_own_drv = false ∧ t.env = s.env)
    ∧ (s.m.takesFrom s.m.overPos = true → s.m.b .STK_BRG_peer_rd = false → s.m.lineFor s.env s.m.peerLine 100000 = true →
        (s.m.peer s.m.overPos).flags.testBit 0 = true →
        exec .peerReleaseDetect s = s.becomes (s.m.claim s.env (s.m.takeCause 1))
        ∧ (s.m.lineAllowed = true → s.m.b .STK_BRG_claiming = false → s.m.b .STK_BRG_cond = false → s.m.b .STK_BRG_stuck_peer = false →
            ∃ t : State, exec .peerReleaseDetect s = .next t ∧ t.m.b .STK_BRG_claiming = true ∧ t.m.b .STK_BRG_own_drv = true
              ∧ t.m.stk.drvAt = s.env.upNs ∧ t.env = s.env))
    ∧ (s.m.pos < 2 → s.m.b .STK_BRG_own_drv = false → s.m.b .STK_BRG_own_rd = true → s.m.b .STK_BRG_stuck_own = false →
        ∃ t : State, exec (.bridgeStuck true) s = .next t ∧ t.m.b .STK_BRG_stuck_own = true ∧ t.m.bit Reg.STK_IRQ_STS 7 = true ∧ t.env = s.env)
    ∧ (s.m.pos < 2 → s.m.peerStuck s.env = true → s.m.b .STK_BRG_stuck_peer = false →
        ∃ t : State, exec (.bridgeStuck false) s = .next t ∧ t.m.b .STK_BRG_stuck_peer = true ∧ t.m.bit Reg.STK_IRQ_STS 7 = true ∧ t.env = s.env)
    ∧ (∀ p : Nat, p < 6 → s.m.hbMissed s.env p = true →
        ((s.m.peer p).miss + 1 ≠ 3 → exec (.heartbeatMiss p) s = s.becomes (s.m.setPeer p fun q => { q with miss := q.miss + 1, missed := some (dueMs s.env) }))
        ∧ (s.m.stk.peers.length = 6 → ∃ t : State, exec (.heartbeatMiss p) s = .next t ∧ (t.m.peer p).miss = (s.m.peer p).miss + 1 ∧ t.env = s.env
            ∧ ((s.m.peer p).miss = 2 → (t.m.peer p).present = false ∧ t.m.bit Reg.STK_MEMBERS p = false)))
    ∧ (2 ≤ s.m.pos → s.m.b .STK_STS_holder_valid = true →
        (s.m.holderSilent s.env = true → exec (.holderHoldExpire true) s = s.becomes ((s.m.isolate s.env 3).setBridge s.env false)
          ∧ ∃ t : State, exec (.holderHoldExpire true) s = .next t ∧ t.m.role = 4 ∧ t.m.g .STK_STS_iso_cause = 3 ∧ t.m.b .STK_BRG_cond = false ∧ t.env = s.env)
        ∧ (s.m.holderGone s.env = true → exec (.holderHoldExpire false) s = s.becomes (((s.m.sb .STK_STS_holder_valid false).stkIrq 11).xBridge s.env)
          ∧ ∃ t : State, exec (.holderHoldExpire false) s = .next t ∧ t.m.b .STK_STS_holder_valid = false ∧ t.m.b .STK_BRG_cond = false ∧ t.env = s.env))
    ∧ (s.m.pos < 2 → s.m.b .STK_STS_holder_valid = true → s.m.holderGone s.env = true →
        exec (.holderHoldExpire false) s = s.becomes (s.m.sb .STK_STS_holder_valid false))
    ∧ (s.m.role = 7 → s.m.pos < 2 → s.m.state = 3 → s.m.b .STK_BRG_claiming = false →
        s.m.boot.fhAt + 50000000 ≤ s.env.powered → exec .roleResolve s = s.becomes (s.m.resolveRole s.env)
        ∧ (s.m.stk.heard = true → ∃ t : State, exec .roleResolve s = .next t ∧ t.m.role = 2 ∧ t.env = s.env))
    ∧ (∀ (pass : Bool) (m1 : Mach), m1 = s.m.islandTested s.env pass →
        exec (.islandSelftestEnd pass) s = s.becomes (if m1.stk.waits && m1.lineAllowed then m1.resolveRole s.env else m1))
    ∧ (s.m.saf.state = 1 → s.m.stk.waits = false → ∀ pass : Bool,
        ∃ t : State, exec (.islandSelftestEnd pass) s = .next t ∧ t.m.saf.state = (if pass then 2 else 3) ∧ t.env = s.env)
    ∧ (s.m.role = 4 → s.m.g .STK_STS_iso_cause = 3 → s.m.b .STK_CFG_auto_rejoin = true → 2 ≤ s.m.pos →
        (s.m.activeFor s.env 0 = true ∨ s.m.activeFor s.env 1 = true) →
        exec .autoRejoin s = s.becomes (s.m.setRole s.env 3 0) ∧ ∃ t : State, exec .autoRejoin s = .next t ∧ t.m.role = 3 ∧ t.env = s.env)
    ∧ (s.m.role = 4 → s.m.g .STK_STS_iso_cause = 3 → s.m.b .STK_CFG_auto_rejoin = true → s.m.pos < 2 → s.m.activeFor s.env s.m.peerPos = true →
        ∃ t : State, exec .autoRejoin s = .next t ∧ t.m.role = 2 ∧ t.env = s.env)
    ∧ (∀ x : SyncIn, s.m.stk.sync = some x → x.done = false → s.m.role = 2 → x.start + 2000000000 ≤ s.env.upNs →
        exec .resyncTimeout s = s.becomes (s.m.syncFail s.env 2)
        ∧ (s.m.g .STK_SYNC_STS_attempts = 0 → ∃ t : State, exec .resyncTimeout s = .next t ∧ t.m.role = 2 ∧ t.m.g .STK_SYNC_STS_phase = 1
            ∧ t.m.g .STK_SYNC_STS_attempts = 1 ∧ t.m.stk.sync = some ⟨s.env.upNs, none, none, none, [], false, 0⟩ ∧ t.env = s.env))
    ∧ (s.m.pl.tail = none → s.m.pl.cyc.done = false → s.m.pl.cyc.formed = true → s.m.pl.cyc.at_ + 1500000 ≤ s.env.ns →
        exec .digestCompare s = s.becomes (((s.m.digestCompare s.env).syncLater).cycleCommit false)
        ∧ ∃ t : State, exec .digestCompare s = .next t ∧ t.m.pl.cyc.done = true ∧ t.env = s.env)
    ∧ (∀ c : CycleRec, s.m.pl.tail = some c → c.formed = true → c.at_ + 1500000 ≤ s.env.ns →
        ∃ t : State, exec .digestCompare s = .next t ∧ t.m.pl.tail = none ∧ t.m.pl.cyc = s.m.pl.cyc ∧ t.env = s.env)
    ∧ (∀ (n : Nat) (c : Cmd) (m2 : Mach), s.m.stk.switch = some (n, some (0x89, c), false) → s.m.role = 0 → s.m.switchNow s.env n = some true →
        m2 = (s.m.setStk fun x => { x with switch := none }).lineRelease s.env →
        exec .switchoverRelease s = s.answers 0x89 c (m2.setRole s.env 1 0) stOk (le 8 n) []
        ∧ ∃ t : State, exec .switchoverRelease s = .next t ∧ t.m.role = 1 ∧ t.m.b .STK_BRG_own_drv = false ∧ t.m.stk.switch = none ∧ t.env = s.env)
    ∧ (∀ (n : Nat) (c : Cmd), s.m.stk.switch = some (n, some (0x89, c), false) → s.m.role = 0 → s.m.switchNow s.env n = some false →
        exec .switchoverRelease s = s.answers 0x89 c (s.m.setStk fun x => { x with switch := none }) stState [] [])
    ∧ (∀ (port n at_ : Nat) (c : Cmd) (pass : Bool), port < 2 → (s.m.stk.test.find? fun x => x.1 == port) = some (port, c, n, at_) →
        at_ + 1000000000 ≤ s.env.upNs →
        exec (.linkTestEnd port pass) s = s.answers 0x8E c (s.m.setStk fun x => { x with test := x.test.filter fun y => y.1 != port }) stOk
          (le 1 (if pass then 0 else 1) ++ le 3 0 ++ le 4 (s.m.stk.errs.getD port 0 - n)) []
        ∧ ∃ t : State, exec (.linkTestEnd port pass) s = .next t ∧ (t.m.stk.test.any fun y => y.1 == port) = false ∧ t.env = s.env)

/-- Ports and frames of the stack link (R495 to R500, R505, R513 to R517): ports come and go, straps change, heartbeats and beacons are sent, and a frame that
is heard acts by its type. -/
def Obligations.LinkFrames : Prop :=
  ∀ (s : State),
    (∀ port nb : Nat, port < 2 → s.m.b (lkUp port) = false → (∀ t, s.m.stk.downAt.getD port none = some t → t + 1000000000 ≤ s.env.upNs) →
        ∃ t : State, exec (.linkPortUp port nb) s = .next t ∧ t.m.b (lkUp port) = true ∧ t.m.b (lkNbOk port) = true ∧ t.m.g (lkNb port) = nb % 8
          ∧ t.env = s.env)
    ∧ (∀ port : Nat, port < 2 → s.m.b (lkUp port) = true →
        ∃ t : State, exec (.linkPortDown port) s = .next t ∧ t.m.b (lkUp port) = false ∧ t.m.b (lkNbOk port) = false ∧ t.env = s.env)
    ∧ (∀ straps : Nat, s.m.b .STK_STS_strap_chg = false →
        exec (.strapChange straps) s = s.becomes (((s.m.sb .STK_STS_strap_chg true).stkIrq 10).event s.env 0x8809 (some 3) (le 1 straps))
        ∧ ∃ t : State, exec (.strapChange straps) s = .next t ∧ t.m.b .STK_STS_strap_chg = true ∧ t.m.bit Reg.STK_IRQ_STS 10 = true ∧ t.env = s.env)
    ∧ (∀ (h : LinkHdr) (b : List Byte) (m1 m0 : Mach), h.src < 6 →
        m1 = (s.m.setPeer h.src fun p => { p with ports := if p.ports.contains h.port then p.ports else h.port :: p.ports }) →
        (m1.setBit Reg.STK_MEMBERS (8 + h.src) (decide (2 ≤ (m1.peer h.src).ports.length))).hears h 1 m0 → s.m.b (lkUp h.port) = true → h.src ≠ s.m.pos →
        exec (.heartbeat h b none) s = s.becomes (m0.heartbeatIn s.env h b)
        ∧ (m0.stk.peers.length = 6 → ∃ t : State, exec (.heartbeat h b none) s = .next t ∧ t.env = s.env ∧ (t.m.peer h.src).present = true
            ∧ (t.m.peer h.src).miss = 0 ∧ (t.m.peer h.src).at_ = s.env.upNs ∧ t.m.bit Reg.STK_MEMBERS h.src = true))
    ∧ (s.m.state < 2 → exec .heartbeatSend s = .next s)
    ∧ (s.m.stk.sentMs = some (s.env.ns / 1000000) → exec .heartbeatSend s = .next s)
    ∧ (∀ m1 : Mach, 2 ≤ s.m.state → ((List.range 4).any fun d => s.m.clkFailed d) = false → s.m.stk.sentMs ≠ some (s.env.ns / 1000000) →
        m1 = (((s.m.s .STK_CFG_HASH_hash (unle (s.m.cfgHash.take 4))).s .STK_SHADOW_FMT_own s.m.stk.fmt).linkSend 1 63 s.m.heartbeat).setStk
          (fun x => { x with hold := true, sentAt := s.env.upNs, sentMs := some (s.env.ns / 1000000) }) → m1.role = 1 → m1.stk.waits = false →
        exec .heartbeatSend s = s.becomes m1
        ∧ ∃ t : State, exec .heartbeatSend s = .next t ∧ t.m.stk.hold = true ∧ t.m.stk.sentAt = s.env.upNs ∧ t.m.role = 1 ∧ t.env = s.env)
    ∧ (s.m.stk.sentAt + 2500000 ≤ s.env.upNs → exec .lineHoldExpire s = s.becomes ((s.m.setStk fun x => { x with hold := false }).lineCheck s.env)
        ∧ ∃ t : State, exec .lineHoldExpire s = .next t ∧ t.m.stk.hold = false ∧ t.m.b .STK_BRG_own_drv = false ∧ t.env = s.env)
    ∧ (s.env.upNs < s.m.stk.sentAt + 2500000 → exec .lineHoldExpire s = .next s)
    ∧ (s.m.b .STK_STS_master = true → s.m.stk.beaconMs ≠ some (s.env.ns / 1000000) →
        exec .delayBeaconSend s = s.becomes ((s.m.setStk fun x => { x with beaconMs := some (s.env.ns / 1000000) }).linkSend 0xC 63
          (s.env.now.bytes ++ (Stamp.ofNs s.m.cycOrg).bytes ++ le 8 s.m.cycNum))
        ∧ ∃ t : State, exec .delayBeaconSend s = .next t ∧ t.m.stk.beaconMs = some (s.env.ns / 1000000) ∧ t.m.regs = s.m.regs ∧ t.env = s.env)
    ∧ (∀ port d : Nat, port < 2 → exec (.linkDelayMeasure port d) s = s.becomes (s.m.setStk fun x => { x with delay := upd x.delay port fun _ => d })
        ∧ ∃ t : State, exec (.linkDelayMeasure port d) s = .next t ∧ t.m.regs = s.m.regs ∧ t.env = s.env)
    ∧ (∀ (h : LinkHdr) (t org : Stamp) (num unc freq want : Nat), s.m.b .STK_STS_master = true →
        exec (.delay h t org num unc freq want) s = s.becomes (s.m.linkIn s.env h 0xC id))
    ∧ (∀ (h : LinkHdr) (t org : Stamp) (num unc freq want : Nat) (m0 : Mach) (r : Timebase × Mach), s.m.hears h 0xC m0 →
        m0.stk.seqIn ≠ s.m.stk.seqIn → m0.b .STK_STS_master = false → 1 ≤ m0.role → m0.role ≤ 3 → r = beacon h t org num unc freq want s.env m0 →
        exec (.delay h t org num unc freq want) s = .next { s with env := { s.env with time := r.1 }, m := r.2 }
        ∧ ∃ u : State, exec (.delay h t org num unc freq want) s = .next u ∧ u.m.stk.aligned = true ∧ u.env.vault = s.env.vault)
    ∧ (∀ (h : LinkHdr) (slot : Nat) (x : LchSample) (m0 : Mach), s.m.hears h 2 m0 → slot < 24 →
        exec (.sample h slot x) s = s.becomes (if m0.pos < 2 then m0.lchAccept slot (m0.lchDated slot x) else m0)
        ∧ ∃ t : State, exec (.sample h slot x) s = .next t ∧ t.m.stk.seqIn = setAssoc (linkKey h 2) h.seq s.m.stk.seqIn ∧ t.env = s.env)
    ∧ (∀ (h : LinkHdr) (epoch : Nat) (named : List (Nat × Nat)) (m0 : Mach), s.m.hears h 3 m0 → (m0.role = 1 ∨ m0.role = 2) →
        exec (.epochAssign h epoch named) s
          = s.becomes ({ m0 with lch := { m0.lch with assign := m0.lch.assign ++ [(epoch, named)] } }.lchCloseNext s.env)
        ∧ (m0.shadows = true → m0.lch.assign = [] → m0.pos < 2 → epoch ≠ m0.lch.next →
            ∃ t : State, exec (.epochAssign h epoch named) s = .next t ∧ t.m.lch.assign = [(epoch, named)] ∧ t.m.regs = m0.regs ∧ t.env = s.env))
    ∧ (∀ (h : LinkHdr) (cycle at_ : Nat) (m0 : Mach), s.m.hears h 4 m0 → m0.role = 1 →
        exec (.release h cycle at_) s = s.becomes (m0.plAnnounced s.env cycle at_)
        ∧ ∃ t : State, exec (.release h cycle at_) s = .next t ∧ t.m.pl.announced = some (cycle, at_) ∧ t.m.pl.stage = m0.pl.stage ∧ t.m.regs = m0.regs)
    ∧ (∀ (h : LinkHdr) (b : List Byte) (m0 : Mach), s.m.hears h 5 m0 → rb b 0 = 0 → exec (.pace h b) s = s.becomes (m0.paceMark s.env (rb b 1))
        ∧ ∀ r : QpRun, m0.slv.run = some r → r.flags.testBit 7 = true →
            ∃ t : State, exec (.pace h b) s = .next t ∧ t.m.slv.run = some { r with mark := max r.mark (rb b 1), heard := s.env.ns } ∧ t.env = s.env)
    ∧ (∀ (h : LinkHdr) (cycle d st : Nat) (u : Bool) (m0 : Mach), s.m.hears h 6 m0 → m0.pos < 2 → h.src = m0.peerPos →
        exec (.digest h cycle d st u) s = s.becomes { m0 with pl := { m0.pl with peer := some (cycle, d, u) } }
        ∧ ∃ t : State, exec (.digest h cycle d st u) s = .next t ∧ t.m.pl.peer = some (cycle, d, u) ∧ t.m.regs = s.m.regs ∧ t.env = s.env)
    ∧ (∀ (h : LinkHdr) (at_ k : Nat) (v : Word) (m0 : Mach), s.m.hears h 9 m0 → k < 48 → m0.role ≠ 3 →
        exec (.setpoint h at_ k v) s = s.becomes (if at_ < s.env.ns
          then { m0.strLate s.env k ((s.env.ns - at_) / 1000) with
            pl := { (m0.strLate s.env k ((s.env.ns - at_) / 1000)).pl with remote := (m0.strLate s.env k ((s.env.ns - at_) / 1000)).pl.remote ++ [(at_, k, v)] } }
          else { m0 with pl := { m0.pl with remote := m0.pl.remote ++ [(at_, k, v)] } })
        ∧ ∃ t : State, exec (.setpoint h at_ k v) s = .next t ∧ t.m.pl.remote = s.m.pl.remote ++ [(at_, k, v)] ∧ t.env = s.env)
    ∧ (∀ (h : LinkHdr) (op at_ : Nat) (c : Cmd) (m0 : Mach), s.m.hears h 8 m0 → (m0.role = 1 ∨ m0.role = 2) →
        exec (.command h op c at_) s = s.becomes (m0.commandIn s.env op c at_)
        ∧ (0x40 ≤ op → op < 0x50 → ∃ t : State, exec (.command h op c at_) s = .next t ∧ t.m.lch.pend = s.m.lch.pend ++ [(at_, op, c)]
            ∧ t.m.regs = s.m.regs ∧ t.env = s.env))
    ∧ (∀ (h : LinkHdr) (b : List Byte) (m0 : Mach), s.m.hears h 7 m0 → m0.strShadow = true → rb b 1 < 48 → rb b 0 ≠ 1 →
        exec (.shadow h b) s = s.becomes ((m0.shadowApply s.env b).shadowLearn b)
        ∧ ∃ t : State, exec (.shadow h b) s = .next t ∧ t.m.strState (rb b 1) = s.m.strState (rb b 1) ∧ t.env = s.env)
    ∧ (∀ (h : LinkHdr) (cycle : Nat) (m0 : Mach), s.m.hears h 0xB m0 → m0.role = 1 → h.src = m0.peerPos →
        exec (.brgReq h cycle) s = s.becomes (m0.setStk fun x => { x with grant := some cycle, switch := none })
        ∧ ∃ t : State, exec (.brgReq h cycle) s = .next t ∧ t.m.stk.grant = some cycle ∧ t.m.regs = s.m.regs ∧ t.env = s.env)

/-- The general commands and those of the host interface and the Ethernet ports (R553, R565 to R577, R617 and the rows of the table). A completion is written
in host memory as a CQ entry with its phase tag, then the shadow word of its queue (R539, R546, R547, R552). -/
def Obligations.HostCommandsAnswer : Prop :=
  ∀ (s : State) (c : Cmd), s.takes c →
    exec (.nop c) s = s.answers 0x01 c s.m stOk [] []
    ∧ (∀ q n i size : Nat, c.path = .queue q → q < 16 → c.quiet = false → s.m.hif.prog = [] → n = s.m.g (.HIF_SQq_CFG_cq q) →
        s.m.ringOpen .cq n = true → n < s.m.hif.cq.length → i = (s.m.ring .cq n).mod_ → size = s.m.ringSize .cq n →
        ∃ t : State, exec (.nop c) s = .next t ∧ t.m.out =
          ⟨"MEM", s.m.rd64 Reg.HIF_SH_BASE_LO Reg.HIF_SH_BASE_HI + (8 * n + 0x80), 8,
            le 2 ((i + 1) % (2 * size) % size) ++ le 2 ((i + 1) % (2 * size) / size % 2) ++ le 4 s.env.now.short⟩
          :: ⟨"MEM", s.m.rd64 (QType.cq.base n) (QType.cq.base n + 4) + 32 * (i % size), 32,
            le 1 (1 - i / size % 2) ++ le 1 0 ++ le 2 c.cid ++ le 1 q ++ le 1 0x01 ++ le 2 (s.m.g (qPos .sq q) % 65536) ++ le 4 0
              ++ le 4 s.env.now.short ++ List.replicate 16 0⟩
          :: s.m.out)
    ∧ (∀ (mac : Nat → List Byte) (d : List Byte), (∀ n, mac n = (le 6 (s.env.vault.mac + n)).reverse) →
        d = s.m.words 0 4 ++ le 16 Config.serial.toNat ++ le 4 (s.m.rd Reg.UPD_VER_MAIN).toNat ++ le 4 (s.m.rd Reg.SAF_VER).toNat
          ++ le 4 (s.m.rd Reg.UPD_VER_GNSS).toNat ++ le 1 s.env.vault.life ++ le 1 s.m.pos ++ le 2 0 ++ mac 0 ++ mac 1 ++ le 2 0x1F3C
          ++ le 2 0x0980 ++ le 64 0 → 128 ≤ c.bufLen →
        exec (.genIdentify c) s = s.answers 0x02 c s.m stOk [] d)
    ∧ exec (.genStateGet c) s = s.answers 0x03 c s.m stOk
        (le 1 s.m.state ++ le 1 s.m.role ++ le 1 s.env.vault.life ++ le 1 0 ++ s.m.words Reg.GEN_CYC_LO 1 ++ s.m.words Reg.GEN_CYC_HI 1) []
    ∧ (∀ k : Nat, k = c.u8 0 → (k = 1 ∨ k = 2) → (c.u8 1 % 2 = 0 → s.m.role = 0 → s.m.b .STK_STS_peer_ok = true) →
        exec (.genReset c) s = s.answers 0x04 c { s.m with boot := { s.m.boot with
          restart := some (k == 1, if k = 1 then 4 else 3), restartAt := s.env.powered + 2500000,
          attempts := if s.m.state = 5 then 0 else s.m.boot.attempts } } stOk [] [])
    ∧ (∀ p : Nat, p = c.u8 0 → p < 2 → c.data.length = 28 → netCfgOk c = true →
        exec (.netCfg c) s = s.answers 0x05 c
          ((iter 7 (fun i m => m.wr ((netCfgRegs p).getD i 0) (netCfgWord c i)) s.m).sb (.NETp_STS_ip_ok p)
            ((iter 7 (fun i m => m.wr ((netCfgRegs p).getD i 0) (netCfgWord c i)) s.m).ipOn p)) stOk [] [])
    ∧ (∀ p g : Nat, p = c.u8 0 → g = c.u8 1 → p < 2 → g < 16 → c.u8 2 = 0 →
        exec (.net450Cfg c) s = s.answers 0x06 c ((s.m.s (.NETp_STS_joined p) (s.m.g (.NETp_STS_joined p) &&& (65535 - 2 ^ g))).setGroup p g
          fun _ => ⟨0, 0, [], 0⟩) stOk [] [])
    ∧ (∀ (p g : Nat) (m1 : Mach), p = c.u8 0 → g = c.u8 1 → p < 2 → g < 16 → c.u8 2 = 1 → c.u32 4 / 2 ^ 28 = 14 →
        m1 = (s.m.s (.NETp_STS_joined p) (s.m.g (.NETp_STS_joined p) ||| 2 ^ g)).setGroup p g
          (fun _ => ⟨c.u32 4, c.u16 8, (c.params.drop 10).take 6, 0⟩) →
        exec (.net450Cfg c) s = s.answers 0x06 c (if m1.ipOn p then m1.netSend "IGMP" p (c.u32 4) [] else m1) stOk [] [])
    ∧ (∀ d : List Byte, d = (List.range 2).flatMap (fun p => s.m.words (Reg.NETp_STS p) 4)
          ++ ((List.range 2).flatMap fun p => (List.range 16).flatMap fun g =>
            le 4 (s.m.group450 p g).addr ++ le 2 (s.m.group450 p g).udp ++ filterBytes (s.m.group450 p g).filter ++ le 4 (s.m.group450 p g).accepted) →
        d.length ≤ c.bufLen → exec (.netStatusGet c) s = s.answers 0x07 c s.m stOk [] d)
    ∧ (ptpCfgOk c = true → exec (.ptpCfg c) s = s.answers 0x08 c
        { s.m with hif := { s.m.hif with ptp := upd s.m.hif.ptp (c.u8 0) fun _ => (c.params.drop 1).take 9 } } stOk [] [])
    ∧ (∀ sts : QType → List Byte, (∀ t, sts t = (List.range t.count).flatMap fun n => le 4 (s.m.rd (qSts t n)).toNat) → 264 ≤ c.bufLen →
        exec (.hifStatusGet c) s = s.answers 0x09 c s.m stOk [] (s.m.words Reg.HIF_STS 10 ++ sts .sq ++ sts .cq ++ sts .eq ++ sts .stq))

/-- What happens at the host link and the Ethernet ports (R533 to R577): resets and training of the link, configuration writes, bad accesses, queues enabled and
disabled, the doorbell page, the fetch of an entry, and frames. -/
def Obligations.HostHappenings : Prop :=
  ∀ s : State,
    exec (.hostLinkReset 0) s = s.becomes (s.m.hostReset true false false).irqHostReset
    ∧ exec (.hostLinkReset 3) s = s.becomes (s.m.hostReset true false (s.m.b .HIF_STS_msix_en))
    ∧ (∀ k : Nat, k = 1 ∨ k = 2 → s.m.b .HIF_STS_link_up = true →
        ∃ t : State, exec (.hostLinkReset k) s = .next t ∧ t.m.b .HIF_STS_link_up = false ∧ t.m.b .HIF_STS_flr = true)
    ∧ (∀ speed width : Nat, exec (.hostLinkUp speed width) s = s.becomes
        (((((s.m.sb .HIF_STS_link_up true).s .HIF_PCIE_STS_speed speed).s .HIF_PCIE_STS_width width).hifChange.hifLinkEvent s.env true).msiResume s.env))
    ∧ (∀ (msix fmask : Bool) (mps mrrs : Nat) (m1 : Mach), s.m.b .HIF_STS_bus_master = true → m1 = s.m.hostReset true false msix →
        exec (.pcieConfigWrite false msix fmask mps mrrs) s = s.becomes
          (((((m1.sb .HIF_STS_msix_en msix).s .HIF_PCIE_STS_mps mps).s .HIF_PCIE_STS_mrrs mrrs).setIrq fun x => { x with funcMask := fmask }).msiRelease.msiResume
            s.env))
    ∧ (∃ t : State, exec .bar0BadAccess s = .next t ∧ t.m.g .HIF_STS_bad_access = 1 ∧ ∀ off : Nat, off ≠ Reg.HIF_STS → t.m.rd off = s.m.rd off)
    ∧ (∀ (typ n : Nat) (v : Word), typ < 4 → n < (qTypeOf typ).count →
        exec (.queueEnable typ n v) s = s.becomes (s.m.queueWrite (qTypeOf typ) n (v ||| 1))
        ∧ exec (.queueDisable typ n v) s = s.becomes (s.m.queueWrite (qTypeOf typ) n (v &&& ~~~1)))
    ∧ (∀ n : Nat, n < 16 → s.m.b (qEn .cq n) = true → ((List.range 16).any fun q => s.m.b (.HIF_SQq_CFG_en q) && s.m.g (.HIF_SQq_CFG_cq q) == n) = true →
        ∃ t : State, exec (.queueDisable 1 n 0) s = .next t ∧ t.m.b (qEn .cq n) = true ∧ t.m.g (qCode .cq n) = 8)
    ∧ (∀ words : List (Option Nat), (s.m.b .HIF_STS_pages_ok = false ∨ s.env.powered < s.m.hif.polled + s.m.g .HIF_POLL_cur * 250) →
        exec (.doorbellPoll words) s = .next s)
    ∧ (∀ (words : List (Option Nat)) (m1 m2 m3 m4 : Mach), s.m.b .HIF_STS_pages_ok = true → s.m.b .HIF_STS_bus_master = true →
        s.m.b .HIF_STS_link_up = true → s.m.hif.polled + s.m.g .HIF_POLL_cur * 250 ≤ s.env.powered → s.m.failedReads words = 0 →
        m1 = iter 56 (fun i m => m.pollQueue s.env (doorQueue i).1 (doorQueue i).2 (words.getD i none)) s.m →
        m2 = iter 16 (fun j m => m.tellGap s.env j) (iter 8 (fun q m => m.tellDrops s.env q) m1) → m3 = (m2.pollStreams s.env).pollLevels s.env →
        m4 = m3.pollNext ((List.range 56).any fun i => s.m.doorChanged i (words.getD i none)) →
        exec (.doorbellPoll words) s = s.becomes { m4 with hif := { m4.hif with polled := s.env.powered } })
    ∧ (∀ words : List (Option Nat), s.m.pollDue s.env = true →
        ∃ t : State, exec (.doorbellPoll words) s = .next t ∧ t.m.hif.polled = s.env.powered ∧ t.env = s.env)
    ∧ (∀ (q : Nat) (e : Option (Nat × Cmd)), q < 16 → s.m.sqCount q = 0 → exec (.commandFetch q e) s = .next s)
    ∧ (∀ q n : Nat, q < 16 → n = s.m.g (.HIF_SQq_CFG_cq q) → s.m.ringOpen .sq q = true → s.m.sqCount q ≠ 0 → s.m.hif.prog.length < 256 →
        (∀ e : Option (Nat × Cmd), s.m.cqRoom n = false → exec (.commandFetch q e) s = s.becomes (s.m.sb (qStall .sq q) true))
        ∧ (∀ e : Option (Nat × Cmd), s.m.cqRoom n = true → s.m.sqServed ≠ some q → exec (.commandFetch q e) s = .next s)
        ∧ (s.m.sqServed = some q → exec (.commandFetch q none) s = s.becomes (s.m.hostReadFail.queueError s.env .sq q 7))
        ∧ (∀ (op next : Nat) (c : Cmd), s.m.sqServed = some q → assigned op = true → next = ((s.m.ring .sq q).mod_ + 1) % (2 * s.m.ringSize .sq q) →
            ∃ t : State, exec (.commandFetch q (some (op, c))) s = .next t
              ∧ (t.m.out.map Out.idx).head? = some (s.m.rd64 Reg.HIF_SH_BASE_LO Reg.HIF_SH_BASE_HI + 8 * q)
              ∧ t.m.hif.prog = s.m.hif.prog ++ [⟨q, c.cid, op, next % s.m.ringSize .sq q, n, c.fence, false⟩]))

/-- Frames at the Ethernet ports (R565 to R570): a frame is counted, dropped where its FCS is bad, no buffer is free, its tag does not fit or the port does not
serve its use, and answered where it is an ARP or an echo request; the link comes and goes, and sentences of IEC 61162-450. -/
def Obligations.EthernetFrames : Prop :=
  ∀ (s : State) (p : Nat), p < 2 →
    (∀ (m1 : Mach) (f : List Byte), s.m.netUp p = true → m1 = s.m.upWrap (.NETp_RX_CNT_frames p) →
        (∀ noBuf : Bool, exec (.ethFrameReceive p f false noBuf) s = s.becomes (m1.netDrop (.NETp_DROP_CNT_fcs p)))
        ∧ exec (.ethFrameReceive p f true true) s = s.becomes (m1.netDrop (.NETp_DROP_CNT_no_buf p))
        ∧ ((m1.netServes p (m1.frameUse p f) = false ∨ (frameBody f == 18) ≠ m1.b (.NETp_VLAN_vlan_en p)) →
            exec (.ethFrameReceive p f true false) s = s.becomes (m1.netDrop (.NETp_DROP_CNT_other p)))
        ∧ ((frameBody f == 18) = m1.b (.NETp_VLAN_vlan_en p) → m1.netServes p (m1.frameUse p f) = true →
            (m1.frameUse p f = .arp → ∃ t : State, exec (.ethFrameReceive p f true false) s = .next t
              ∧ t.m.out = ⟨"ARP", p, 0, m1.arpReply s.env p f⟩ :: s.m.out ∧ t.env = s.env)
            ∧ (m1.frameUse p f = .icmp → ∃ t : State, exec (.ethFrameReceive p f true false) s = .next t
              ∧ t.m.out = ⟨"ICMP", p, 0, m1.echoReply s.env p f⟩ :: s.m.out ∧ t.env = s.env)
            ∧ (m1.frameUse p f ≠ .arp → m1.frameUse p f ≠ .icmp → exec (.ethFrameReceive p f true false) s = s.becomes m1)))
    ∧ (∀ (f : List Byte) (fcs noBuf : Bool), s.m.netUp p = false → exec (.ethFrameReceive p f fcs noBuf) s = .next s)
    ∧ (∀ up : Bool, s.m.b (.NETp_STS_link p) ≠ up →
        ∃ t : State, exec (.netLink p up) s = .next t ∧ t.m.b (.NETp_STS_link p) = up ∧ t.m.bit Reg.HIF_IRQ_STS 30 = true ∧ t.env = s.env)
    ∧ (∀ up : Bool, s.m.b (.NETp_STS_link p) = up → exec (.netLink p up) s = .next s)
    ∧ (∀ (g ago : Nat) (b : List Byte) (at_ : Stamp), g < 16 → s.m.netUp p = true → s.m.netServes p .n450 = true →
        (s.m.g (.NETp_STS_joined p)).testBit g = true → at_ = (Stamp.ofNs (s.env.ns - ago)).move (-(s.m.gi (.PTPp_RX_LAT_rx_lat p))) →
        exec (.n450Datagram p g b ago) s = s.becomes (if s.m.n450Ok p g b then
          (sentencesOf false [] (b.drop 6)).foldl (fun m l => m.n450Sentence p g at_ l)
            (s.m.setGroup p g fun x => { x with accepted := (x.accepted + 1) % 2 ^ 32 }) else s.m.n450Reject s.env p g)
        ∧ (s.m.n450Ok p g b = true → sentencesOf false [] (b.drop 6) = [] → p < s.m.hif.groups.length → g < (s.m.hif.groups.getD p []).length →
            ∃ t : State, exec (.n450Datagram p g b ago) s = .next t ∧ (t.m.group450 p g).accepted = ((s.m.group450 p g).accepted + 1) % 2 ^ 32
              ∧ t.m.regs = s.m.regs ∧ t.env = s.env))

/-- The interrupt controller (R577 to R592): a source's level is a bit of its owner's status register; a source that is high there rises and becomes pending
when enabled and unclaimed; one that is low there falls, which ends its claim;
windows commit, vectors are unmasked, claims repeat and are read, targets are written, and the software sources are set and cleared. -/
def Obligations.InterruptController : Prop :=
  ∀ (s : State),
    (∀ i : Nat, i < 32 → s.m.irqHigh i = s.m.bit Reg.HIF_IRQ_STS i ∧ s.m.irqHigh (32 + i) = s.m.bit Reg.TIME_IRQ_STS i
        ∧ s.m.irqHigh (64 + i) = s.m.bit Reg.GNS_IRQ_STS i ∧ s.m.irqHigh (96 + i) = s.m.bit Reg.FIL_IRQ_STS i
        ∧ s.m.irqHigh (128 + i) = s.m.bit Reg.FBK_IRQ_STS0 i ∧ s.m.irqHigh (224 + i) = s.m.bit Reg.STR_IRQ_STS0 i
        ∧ s.m.irqHigh (288 + i) = s.m.bit Reg.CAN_IRQ_STS i ∧ s.m.irqHigh (320 + i) = s.m.bit Reg.DIO_IRQ_STS i
        ∧ ∀ x : Nat, x < 3 → s.m.irqHigh (416 + 32 * x + i) = s.m.bit (Reg.IRQ_SWR_SETx x) i)
    ∧ (∀ i : Nat, i < 16 → s.m.irqHigh (160 + i) = s.m.bit Reg.FBK_IRQ_STS1 i ∧ s.m.irqHigh (176 + i) = s.m.bit Reg.LCH_IRQ_STS i
        ∧ s.m.irqHigh (192 + i) = s.m.bit Reg.STR_PL_IRQ_STS i ∧ s.m.irqHigh (208 + i) = s.m.bit Reg.SLV_IRQ_STS i
        ∧ s.m.irqHigh (256 + i) = s.m.bit Reg.STR_IRQ_STS1 i ∧ s.m.irqHigh (272 + i) = s.m.bit Reg.STR_DRN_IRQ_STS i
        ∧ s.m.irqHigh (352 + i) = s.m.bit Reg.SAF_IRQ_STS i ∧ s.m.irqHigh (368 + i) = s.m.bit Reg.STK_IRQ_STS i
        ∧ s.m.irqHigh (384 + i) = s.m.bit Reg.LOG_IRQ_STS i ∧ s.m.irqHigh (400 + i) = s.m.bit Reg.UPD_IRQ_STS i)
    ∧ (∀ n : Nat, n < 512 → s.m.irqLevel n = false → s.m.irqHigh n = true →
        ∃ t : State, exec (.irqSourceRise n) s = .next t ∧ t.m.irqLevel n = true
          ∧ (s.m.irqEn n = true → s.m.irqClaimed n = false → t.m.irqPend n = true))
    ∧ (∀ n : Nat, n < 512 → (s.m.irqLevel n = true ∨ s.m.irqHigh n = false) → exec (.irqSourceRise n) s = .next s)
    ∧ (∀ n : Nat, n < 512 → (s.m.irqLevel n = false ∨ s.m.irqHigh n = true) → exec (.irqSourceFall n) s = .next s)
    ∧ (∀ n : Nat, n < 512 → s.m.irqLevel n = true → s.m.irqHigh n = false →
        ∃ t : State, exec (.irqSourceFall n) s = .next t ∧ t.m.irqLevel n = false ∧ t.m.irqPend n = false ∧ t.m.irqClaimed n = false)
    ∧ (∀ gs : List Nat, (∀ g ∈ gs, g < 16) → exec (.irqWindowCommit gs) s = s.becomes (s.m.irqCommit s.env (gs.filter fun g => s.m.irqDue s.env g)))
    ∧ (∀ (v : Nat) (m1 : Mach), v < 32 → m1 = (s.m.setIrq fun x => { x with masked := s.m.irq.masked.filter fun a => a != v }) →
        exec (.msixUnmask v false) s = s.becomes m1.msiRelease)
    ∧ (∀ (ns due : List Nat), (∀ n ∈ ns, n < 512) →
        due = (ns.filter fun n => s.m.irqRepeatDue s.env n) →
        exec (.irqRepeat ns) s = s.becomes ((s.m.irqTargets due).foldl (Mach.irqDeliver s.env due) s.m))
    ∧ (∀ (v n : Nat) (l : List Nat), v < 32 →
        (irqAll fun n => s.m.irqClaimed n && !s.m.irq.looked.contains n && assoc ⟨true, 0⟩ s.m.irq.owner n == ⟨false, v⟩) = n :: l →
        ∃ t : State, exec (.irqVecClaimRead v) s = .next t ∧ t.m.g (.IRQ_VECv_CLAIM_valid v) = 1 ∧ t.m.g (.IRQ_VECv_CLAIM_source v) = n
          ∧ t.m.irq.looked = s.m.irq.looked ++ [n])
    ∧ (∀ v : Nat, v < 32 → (irqAll fun n => s.m.irqClaimed n && !s.m.irq.looked.contains n && assoc ⟨true, 0⟩ s.m.irq.owner n == ⟨false, v⟩) = [] →
        ∃ t : State, exec (.irqVecClaimRead v) s = .next t ∧ t.m.rd (Reg.IRQ_VECv_CLAIM v) = 0 ∧ t.m.irq = s.m.irq)
    ∧ (∀ w : Nat, w < 16 → ∃ t : State, exec (.irqClaimedRead w) s = .next t ∧ t.m.regs = s.m.regs
        ∧ ∀ n : Nat, n < 512 → n / 32 = w → s.m.irqClaimed n = true → n ∈ t.m.irq.looked)
    ∧ (∀ (n : Nat) (v : Word), n < 512 → s.m.b (.IRQ_SRCs_TGT_fw n) = false →
        (irqBadWrite n v = false → exec (.irqSrcTgtWrite n v) s = s.becomes (s.m.irqTgt s.env n v))
        ∧ (irqBadWrite n v = true → exec (.irqSrcTgtWrite n v) s = s.becomes (s.m.sb .IRQ_STS_bad_tgt true)))
    ∧ (∀ (x : Nat) (v : Word), x < 3 →
        (∃ t : State, exec (.irqSwrSet x v) s = .next t ∧ t.m.rd (Reg.IRQ_SWR_SETx x) = s.m.rd (Reg.IRQ_SWR_SETx x) ||| v
          ∧ t.m.rd (Reg.IRQ_SWR_CLRx x) = s.m.rd (Reg.IRQ_SWR_SETx x) ||| v
          ∧ ∀ off : Nat, off ≠ Reg.IRQ_SWR_SETx x → off ≠ Reg.IRQ_SWR_CLRx x → t.m.rd off = s.m.rd off)
        ∧ (∃ t : State, exec (.irqSwrClr x v) s = .next t ∧ t.m.rd (Reg.IRQ_SWR_SETx x) = s.m.rd (Reg.IRQ_SWR_SETx x) &&& ~~~v
          ∧ t.m.rd (Reg.IRQ_SWR_CLRx x) = s.m.rd (Reg.IRQ_SWR_SETx x) &&& ~~~v
          ∧ ∀ off : Nat, off ≠ Reg.IRQ_SWR_SETx x → off ≠ Reg.IRQ_SWR_CLRx x → t.m.rd off = s.m.rd off))

/-- The commands of the recorder Peat (R602 to R607), which complete with BUSY while an erase runs. -/
def Obligations.RecorderCommandsAnswer : Prop :=
  ∀ (s : State) (c : Cmd), s.takes c →
    (64 ≤ c.bufLen → exec (.logStatusGet c) s = s.answers 0x90 c s.m stOk [] (s.m.words Reg.LOG_STS 16))
    ∧ (s.m.peat.erase.isSome = true → exec (.logFlush c) s = s.answers 0x95 c s.m stBusy [] [] ∧ exec (.logWrite c) s = s.answers 0x93 c s.m stBusy [] []
        ∧ exec (.logErase c) s = s.answers 0x96 c s.m stBusy [] [] ∧ exec (.logCfgSet c) s = s.answers 0x94 c s.m stBusy [] [])
    ∧ (s.m.peat.erase = none →
        (∀ a : ReadAcc, c.u8 8 ≤ 7 → a = (s.m.peat.stored.filter fun x => decide (c.un 0 8 ≤ x.seq)).foldl
              (readOne (c.u8 8) (c.u8 9 % 2 == 1) (c.u32 12) c.bufLen) ⟨[], 0, 0, c.un 0 8, [], false, true⟩ →
            a.tight = false → a.data.length ≤ c.bufLen →
            exec (.logRead c) s = s.answers 0x91 c (a.bad.foldl (fun m x => m.corruptFound s.env x) s.m) stOk (le 8 a.first ++ le 8 a.next) a.data)
        ∧ (∀ k off n : Nat, k = c.u32 0 → off = c.u32 4 → n = c.u32 8 → k < segCount → off % 4 = 0 → n % 4 = 0 → off + n ≤ segSize →
            s.m.peat.retired.contains k = false → n ≤ c.bufLen →
            exec (.logSegRead c) s = s.answers 0x92 c s.m stOk [] ((List.range n).map fun i => s.m.peat.rawByte k (off + i)))
        ∧ (∀ r : PeatRec, r = ⟨c.u8 0, 0x12, c.u16 2, c.data, some c⟩ → c.u8 0 ≤ 4 → 0xE000 ≤ c.u16 2 → c.u16 2 ≤ 0xEFFF → 4 ≤ c.u32 4 →
            c.u32 4 ≤ 65532 → c.u32 4 % 4 = 0 → c.u32 4 = c.data.length → s.m.b .LOG_STS_buf_high = false → s.m.peatFiltered r = false →
            s.m.peatFull r = false → exec (.logWrite c) s = s.becomes (s.m.record r))
        ∧ (logCfgOk (BitVec.ofNat 32 (c.u32 0)) = true →
            exec (.logCfgSet c) s = s.answers 0x94 c (s.m.wr Reg.LOG_CFG (BitVec.ofNat 32 (c.u32 0) &&& 0xFF0FFF77)) stOk [] [])
        ∧ (s.m.peat.buffer = [] → exec (.logFlush c) s = s.answers 0x95 c s.m stOk (le 8 (s.m.peat.next - 1)) [])
        ∧ (s.m.peat.buffer ≠ [] → exec (.logFlush c) s = s.becomes (s.m.setPeat fun p => { p with flush := p.flush ++ [(c, s.m.peat.buffer.length, s.env.powered)] }))
        ∧ (s.m.state = 5 → exec (.logErase c) s = s.becomes ((s.m.setPeat fun p => { p with erase := some c }).sb .LOG_STS_erasing true)))

/-- What happens in the recorder (R596 to R598, R605, R607): the oldest record is committed, an anchor is taken when anchor_ms have passed, a flush times out after 10 s, an erase ends, and a record
that enters the buffer stands last in it. -/
def Obligations.RecorderHappenings : Prop :=
  ∀ s : State,
    (s.m.b .LOG_STS_ready = true → s.m.peat.erase = none → s.m.peat.buffer ≠ [] →
        ∀ life : Nat, exec (.recordCommit true life) s = s.becomes ((s.m.commitNext s.env).wear s.env life)
          ∧ exec (.recordCommit false life) s = s.becomes ((((s.m.segRetire s.env s.m.peat.seg).segAdvance).commitNext s.env).wear s.env life))
    ∧ (s.m.peat.buffer = [] → ∀ (ok : Bool) (life : Nat), exec (.recordCommit ok life) s = .next s)
    ∧ (s.m.b .LOG_STS_ready = true → s.m.anchorDue s.env = true →
        exec .timeAnchor s = s.becomes ((s.m.anchor s.env 0).setPeat fun p => { p with anchorAt := s.env.powered }))
    ∧ (∀ (c : Cmd) (n t : Nat) (l : List (Cmd × Nat × Nat)), s.m.peat.flush = (c, n, t) :: l → t + 2500000000 ≤ s.env.powered →
        exec .logFlushTimeout s = s.answers 0x95 c (s.m.setPeat fun p => { p with flush := l }) stTimeout (le 8 (s.m.peat.next - 1)) [])
    ∧ (∀ c : Cmd, s.m.peat.erase = some c →
        ∃ t : State, exec (.logErased []) s = .next t ∧ t.m.peat.erase = none ∧ t.m.peat.stored = [] ∧ t.m.peat.floor = s.m.peat.next
          ∧ t.m.peat.next = s.m.peat.next)
    ∧ (∀ r : PeatRec, s.m.peatFiltered r = false → s.m.peatFull r = false → (s.m.record r).peat.buffer = s.m.peat.buffer ++ [r])

/-- Supply, reset, watchdog and temperature (R564, R612 to R619, R682 to R686, R704): what each does to the module, and which of them start it again. -/
def Obligations.PowerAndStarts : Prop :=
  ∀ (s : State),
    (∀ feed v : Nat, feed < 2 → s.m.b (feedIn feed) = true → s.m.b (feedIn (1 - feed)) = true → s.m.boot.good = true →
        exec (.feedLost feed v) s = s.becomes ((((s.m.feedSet feed false v).feedTimed s.env).sb (feedLost feed) true).powerEvent s.env feed 0 v)
        ∧ ∃ t : State, exec (.feedLost feed v) s = .next t ∧ t.m.b (feedIn feed) = false ∧ t.m.b (feedIn (1 - feed)) = true ∧ t.m.b (feedLost feed) = true
          ∧ t.m.boot.offAt = none ∧ t.env = s.env)
    ∧ (∀ feed v : Nat, feed < 2 → s.m.b (feedIn feed) = true → s.m.b (feedIn (1 - feed)) = false → s.m.boot.offAt = none →
        ∃ t : State, exec (.feedLost feed v) s = .next t ∧ t.m.b (feedIn feed) = false ∧ t.m.boot.offAt = some s.env.powered ∧ t.m.out = s.m.out
          ∧ t.env = s.env)
    ∧ (∀ feed v : Nat, feed < 2 → s.m.b (feedIn feed) = false → s.m.b (feedIn (1 - feed)) = true → s.m.boot.good = true →
        exec (.feedReturn feed v) s = s.becomes (((s.m.feedSet feed true v).feedTimed s.env).powerEvent s.env feed 1 v)
        ∧ ∃ t : State, exec (.feedReturn feed v) s = .next t ∧ t.m.b (feedIn feed) = true ∧ t.m.boot.offAt = none ∧ t.env = s.env)
    ∧ (∀ feed v : Nat, feed < 2 → exec (.feedSurge feed v) s = s.becomes ((s.m.sb (feedSurge feed) true).powerEvent s.env feed 2 v)
        ∧ ∃ t : State, exec (.feedSurge feed v) s = .next t ∧ t.m.b (feedSurge feed) = true ∧ t.m.b (feedIn 0) = s.m.b (feedIn 0)
          ∧ t.m.b (feedIn 1) = s.m.b (feedIn 1) ∧ t.env = s.env)
    ∧ (∀ (a b : Bool) (va vb : Nat) (x : StartIn) (m1 : Mach), s.m.boot.good = false → (a || b) = true → s.m.boot.held = false → m1 = ((s.m.feedSet 0 a va).feedSet 1 b vb).feedTimed s.env →
        exec (.powerGood a b va vb x) s
          = .next (startRun false (if s.m.state = 1 then 1 else 0) x { s with m := { m1 with boot := { m1.boot with enable := true } } }))
    ∧ (∀ (a b : Bool) (va vb : Nat) (x : StartIn), s.m.boot.good = false → (a || b) = true → s.m.boot.held = true →
        ∃ t : State, exec (.powerGood a b va vb x) s = .next t ∧ t.m.boot.good = true ∧ t.m.b (feedIn 0) = a ∧ t.m.b (feedIn 1) = b ∧ t.env = s.env)
    ∧ (s.m.boot.good = true → s.m.powerLost s.env = true →
        ∃ t : State, exec .powerLoss s = .next t ∧ t.m.boot.good = false ∧ t.m.peat.buffer = [] ∧ t.m.g (feedIn 0) = 0 ∧ t.m.g (feedIn 1) = 0
          ∧ t.m.state = 0 ∧ t.m.b .STK_BRG_cond = false ∧ t.env = s.env)
    ∧ (s.m.powerLost s.env = false → exec .powerLoss s = .next s)
    ∧ (s.m.boot.good = true → exec .enableFall s = s.becomes ({ s.m with boot := { s.m.boot with enable := false } }.powerOff s.env 1)
        ∧ ∃ t : State, exec .enableFall s = .next t ∧ t.m.state = 1 ∧ t.m.boot.good = false ∧ t.m.boot.enable = false ∧ t.m.peat.buffer = [] ∧ t.env = s.env)
    ∧ (∀ mv : Nat, s.m.b (feedIn 0) = false → s.m.b (feedIn 1) = false → mv < 2000 →
        ∃ t : State, exec (.vbakLow mv) s = .next t ∧ t.m.time.aonValid = false ∧ t.m.boot.vbakLow = true
          ∧ t.m.boot.breach = (s.m.boot.breach || decide (mv < 1600)) ∧ t.m.regs = s.m.regs)
    ∧ (∃ t : State, exec .rstNLow s = .next t ∧ t.m.boot.held = true ∧ t.m.saf.state = 0 ∧ t.m.saf.permit = false ∧ t.env = s.env)
    ∧ (∀ x : StartIn, s.m.boot.held = true → exec (.rstNRelease x) s = .next (startRun false 2 x s))
    ∧ (∀ x : StartIn, s.m.boot.held = false → exec (.rstNRelease x) s = .next s)
    ∧ (∀ x : StartIn, 2 ≤ s.m.state → s.m.boot.held = false → exec (.watchdogExpire x) s = .next (startRun (s.m.b .GEN_START_CFG_warm_ok) 5 x s))
    ∧ (∀ (x : StartIn) (warm : Bool) (cause : Nat), s.m.boot.restart = some (warm, cause) → s.m.boot.held = false → s.m.boot.restartAt ≤ s.env.powered →
        exec (.resetDelayExpire x) s = .next (startRun warm cause x s))
    ∧ (∀ x : StartIn, s.m.startLateBy s.env = false → exec (.startTimeout x) s = .next s)
    ∧ (∀ x : StartIn, s.m.startLateBy s.env = true → exec (.startTimeout x) s = .next (startRun false 6 x s))
    ∧ (∀ plate die : Int, s.m.plateDue s.env = true → ∃ t : State, exec (.plateTempUpdate plate die) s = .next t ∧ t.m.g .GEN_TEMP_plate = ofInt 16 plate ∧ t.m.g .GEN_TEMP_die = ofInt 16 die
          ∧ t.m.boot.plateAt = some s.env.powered ∧ t.env = s.env)

/-- Isolation of failing parts (R636 to R642): a DRAM error, the march test of a Drone page, a correlator's parity error and its self-test. -/
def Obligations.FailingParts : Prop :=
  ∀ (s : State),
    (∀ (addr : Nat) (again : Bool) (x : StartIn), addr < 3758096384 →
        exec (.dramEccError addr false again x) s = s.becomes ((s.m.dramNote s.env addr false).dramJudge s.env addr again)
        ∧ ∃ t : State, exec (.dramEccError addr false again x) s = .next t
          ∧ t.m.g .GEN_DRAM_ECC_ce = min (2 ^ fldWidth .GEN_DRAM_ECC_ce - 1) (s.m.g .GEN_DRAM_ECC_ce + 1) ∧ t.env = s.env)
    ∧ (∀ (addr : Nat) (again : Bool) (x : StartIn) (m2 : Mach), addr < 3758096384 →
        m2 = (s.m.dramNote s.env addr true).pageRetire s.env (addr / 4096) addr 1 → m2.state ≠ 6 →
        exec (.dramEccError addr true again x) s = .next (startRun true 9 x { s with m := m2 }))
    ∧ (∀ (addr : Nat) (u again : Bool) (x : StartIn), 3758096384 ≤ addr → exec (.dramEccError addr u again x) s = .fault .noInstance)
    ∧ (∀ (page : Nat) (pass : Bool), page < 256 → s.m.str.testPages.contains page = true →
        ∃ t : State, exec (.dronePageTest page pass) s = .next t ∧ t.m.str.testPages.contains page = false ∧ (pass = false → t.m.str.badPages.contains page = true)
          ∧ t.env = s.env)
    ∧ (∀ k : Nat, k < 96 → s.m.gns.bad.contains k = false →
        ∃ t : State, exec (.correlatorParityError k) s = .next t ∧ t.m.gns.bist.contains k = true ∧ t.env = s.env)
    ∧ (∀ k : Nat, k < 96 → s.m.gns.bist.contains k = true →
        ∃ t : State, exec (.channelBistEnd k false) s = .next t ∧ t.m.gns.bist.contains k = false ∧ t.m.gns.bad.contains k = true ∧ t.env = s.env)

/-- The commands of the update unit (R661 to R671, R675). -/
def Obligations.UpdateCommandsAnswer : Prop :=
  ∀ (s : State) (c : Cmd) (n : Nat), s.takes c → n = c.u8 0 →
    (∀ m1 m2 : Mach, n < 2 → 1 ≤ c.u8 1 → c.u8 1 ≤ 3 → 513 ≤ c.u32 4 → c.u32 4 ≤ kindMax (c.u8 1) → s.m.verifying n = false →
        (s.m.slotState n < 4 ∨ 6 < s.m.slotState n) →
        m1 = ((s.m.slotTo s.env n 1 0).setSlot n fun _ => ⟨[], none⟩).s (.UPD_SLOTn_STS_kind n) (c.u8 1) →
        m2 = (m1.sb (.UPD_SLOTn_STS_rollback_low n) false).wr (Reg.UPD_SLOTn_SIZE n) (BitVec.ofNat 32 (c.u32 4)) →
        exec (.updBegin c) s = s.answers 0xA0 c ((m2.wr (Reg.UPD_SLOTn_RCVD n) 0).wr (Reg.UPD_SLOTn_VER n) 0) stOk [] [])
    ∧ (∀ (off len total rcvd : Nat) (m1 : Mach), off = c.u32 4 → len = c.u32 8 → total = (s.m.rd (Reg.UPD_SLOTn_SIZE n)).toNat → n < 2 →
        s.m.verifying n = false → s.m.slotState n = 1 → off % 512 = 0 → 1 ≤ len → len ≤ 65536 → off + len ≤ total →
        (len % 512 = 0 ∨ off + len = total) → len = c.data.length → crc32c c.data = c.u32 12 →
        unitsConflict (s.m.slot n).units (blockUnits (off / 512) 128 c.data) = false →
        rcvd = min ((unitsAdd (s.m.slot n).units (blockUnits (off / 512) 128 c.data)).length * 512) total →
        m1 = (s.m.setSlot n fun x => { x with units := unitsAdd (s.m.slot n).units (blockUnits (off / 512) 128 c.data) }).wr
          (Reg.UPD_SLOTn_RCVD n) (BitVec.ofNat 32 rcvd) →
        exec (.updBlock c) s = s.answers 0xA1 c (if rcvd = total then m1.slotTo s.env n 2 0 else m1) stOk (le 4 rcvd) [])
    ∧ (n < 2 → s.m.verifying n = false → s.m.slotState n = 2 →
        exec (.updVerify c) s = s.becomes (s.m.setFw fun x => { x with verify := x.verify ++ [(n, c)] }))
    ∧ (n < 2 → s.m.verifying n = false → s.m.slotState n = 3 → s.m.slotKind (1 - n) ≠ s.m.slotKind n → s.m.fw.backup.contains (s.m.slotKind n) = false → c.u8 1 % 2 = 0 →
        exec (.updActivate c) s = s.answers 0xA3 c (s.m.slotTo s.env n 4 0) stOk [] [])
    ∧ (n < 2 → s.m.verifying n = false → s.m.slotState n = 3 → s.m.slotKind (1 - n) ≠ s.m.slotKind n → s.m.fw.backup.contains (s.m.slotKind n) = false → c.u8 1 % 2 = 1 →
        s.m.b .STK_STS_peer_ok = true → ∀ m1 : Mach, m1 = s.m.slotTo s.env n 4 0 →
        exec (.updActivate c) s = s.answers 0xA3 c { m1 with boot := { m1.boot with restart := some (false, 8) } } stOk [] [])
    ∧ (n < 2 → s.m.verifying n = false → s.m.slotState n ≠ 0 → s.m.slotState n ≠ 5 → s.m.slotState n ≠ 6 →
        exec (.updAbort c) s = s.answers 0xA5 c (s.m.slotEmpty s.env n) stOk [] [])
    ∧ (n < 2 → s.m.verifying n = false → (bitmap (s.m.slot n).units).length ≤ c.bufLen →
        exec (.updBitmapGet c) s = s.answers 0xA6 c s.m stOk [] (bitmap (s.m.slot n).units))
    ∧ (64 ≤ c.bufLen → exec (.updStatusGet c) s = s.answers 0xA8 c s.m stOk [] (s.m.words Reg.UPD_STS 16))
    ∧ (∀ (gen : Nat) (m1 : Mach), cfgFail s.env c.data = none → gen = nextGen s.env s.m.fw.copies →
        m1 = (s.m.otpNote s.env [1, 2, 3]).cfgStore s.env c.data gen → m1.b .GEN_STATE_cfg_stop = false →
        exec (.updCfgWrite c) s = s.answers 0xA7 c m1 stOk (le 8 gen) [])
    ∧ (∀ st : Nat, cfgFail s.env c.data = some st → exec (.updCfgWrite c) s = s.answers 0xA7 c (s.m.otpNote s.env [1, 2, 3]) st [] [])

/-- What happens in the update unit (R656, R665, R669): a verification ends in VERIFIED or FAILED, a backup ends, and the window of failed envelopes ends after 1 s. -/
def Obligations.UpdateHappenings : Prop :=
  ∀ s : State,
    (∀ (n st : Nat) (c : Cmd) (vs : List (Nat × Cmd)) (m1 : Mach), s.m.fw.verify = (n, c) :: vs →
        m1 = (s.m.setFw fun x => { x with verify := vs }).otpNote s.env [numAt (slotBytes (s.m.slot n)) 7 1] →
        verifyFail s.env s.m (s.m.slotKind n) (s.m.rd (Reg.UPD_SLOTn_SIZE n)).toNat (slotBytes (s.m.slot n)) = some st →
        exec .verificationEnd s = s.answers 0xA2 c (m1.slotTo s.env n 7 st) st [] [])
    ∧ (∀ (n : Nat) (c : Cmd) (vs : List (Nat × Cmd)) (i : Image) (low : Bool) (m1 m2 : Mach), s.m.fw.verify = (n, c) :: vs →
        m1 = (s.m.setFw fun x => { x with verify := vs }).otpNote s.env [numAt (slotBytes (s.m.slot n)) 7 1] →
        verifyFail s.env s.m (s.m.slotKind n) (s.m.rd (Reg.UPD_SLOTn_SIZE n)).toNat (slotBytes (s.m.slot n)) = none →
        i = imageOfBytes (slotBytes (s.m.slot n)) →
        low = (!s.env.locked && decide (secVer i.version < s.env.vault.ctr.getD (kindCtr (s.m.slotKind n)) 0)) →
        m2 = ((m1.setSlot n fun x => { x with image := some i }).wr (Reg.UPD_SLOTn_VER n) (BitVec.ofNat 32 i.version)).sb
          (.UPD_SLOTn_STS_rollback_low n) low →
        exec .verificationEnd s = s.answers 0xA2 c (m2.slotTo s.env n 3 0) stOk (le 4 i.version) [])
    ∧ (∀ (kind : Nat) (x : Option Image) (m1 m2 : Mach), s.m.state = 4 → s.m.fw.backup = [kind] → x = s.m.imageOf kind →
        m1 = (s.m.setFw fun f => { f with backup := [], fallback := upd f.fallback (kind - 1) fun _ => x }) → m2 = m1.wr Reg.UPD_JOURNAL 0 →
        exec .updBackup s = s.becomes (m2.updSync.copyEvent s.env kind 3 (unitsOf x) 0))
    ∧ (∀ (n key op t : Nat), s.m.fw.window = some (n, key, op, t) → t + 250000000 ≤ s.env.powered →
        exec .authFailWindowEnd s = s.becomes ((s.m.setFw fun x => { x with window := none }).event s.env 0xB003 (some 3)
          (le 2 (min n 65535) ++ le 1 key ++ le 1 op)))
    ∧ (s.m.fw.window = none → exec .authFailWindowEnd s = .next s)

/-- The commands of the security unit (R645 to R654, R669, R672, R676): counters only rise, keys are programmed once and revoked for good, the lifecycle moves on, and what it
answers about itself. -/
def Obligations.SecurityCommandsAnswer : Prop :=
  ∀ (s : State) (c : Cmd), (s.takes c →
    (∀ (k v : Nat) (r : Vault × Mach), k = c.u8 0 → v = c.u8 1 → k ≤ 4 →
        (s.env.vault.ctr.getD k 0 < v → ((s.m.guarded k).any fun x => decide (secVer x < v)) = false) → r = ctrRaise s.env s.m k v →
        exec (.secCtrAdvance c) s = s.vaultAnswers 0xB5 c r.1 r.2 stOk (le 1 (r.1.ctr.getD k 0)))
    ∧ (∀ (kind n now : Nat) (r : Vault × Mach) (m1 m2 : Mach), kind = c.u8 0 → 1 ≤ kind → kind ≤ 3 → s.m.trialSlot kind = some n → s.m.state = 4 →
        (kind = 1 → s.m.b .GEN_START_fallback = false) →
        r = s.m.confirmCtr s.env kind →
        now = r.1.ctr.getD (kindCtr kind) 0 → m1 = ((r.2.slotEmpty s.env n).sb (trialBit kind) false).s (trialCnt kind) 0 →
        m2 = (m1.updIrq 3).event s.env 0xA004 (some 2) (le 1 kind ++ le 4 (versionOf (s.m.imageOf kind)) ++ le 1 now) →
        exec (.updConfirm c) s = s.vaultAnswers 0xA4 c r.1 (m2.backupStart kind (s.m.imageOf kind)).updSync stOk (le 1 now))
    ∧ (∀ (i : Nat) (v1 : Vault), c.u8 0 = 0 → i = c.u8 1 → 1 ≤ i → i ≤ 3 → c.u8 2 &&& 0xF3 = 0 → c.data.length = 96 → s.env.vault.life < 2 →
        (nth RootSlot.reset s.env.vault.roots i).key = [] →
        v1 = { s.env.vault with roots := upd s.env.vault.roots i fun r => { r with key := c.data, mask := c.u8 2, hash := sha384 c.data } } →
        exec (.secKeyProgram c) s = s.vaultAnswers 0xB3 c v1 ((s.m.vaultChanged v1 true).keyEvent s.env 0 i 0) stOk [])
    ∧ (∀ (i : Nat) (v1 : Vault), c.u8 0 = 1 → i = c.u8 1 → i ≤ 7 → c.data.length = 32 → s.env.vault.life < 2 →
        (nth ([], false) s.env.vault.cmds i).1 = [] → v1 = { s.env.vault with cmds := upd s.env.vault.cmds i fun k => (c.data, k.2) } →
        exec (.secKeyProgram c) s = s.vaultAnswers 0xB3 c v1 ((s.m.vaultChanged v1 true).keyEvent s.env 1 i 0) stOk [])
    ∧ (∀ (i : Nat) (v1 : Vault), c.u8 0 = 0 → i = c.u8 1 → 1 ≤ i → i ≤ 3 → (nth RootSlot.reset s.env.vault.roots i).programmed = true →
        (nth RootSlot.reset s.env.vault.roots i).revoked = false → s.m.slotInForce s.env i = false →
        v1 = { s.env.vault with roots := upd s.env.vault.roots i fun r => { r with revoked := true } } →
        exec (.secKeyRevoke c) s = s.vaultAnswers 0xB4 c v1 ((s.m.vaultChanged v1 true).keyEvent s.env 0 i 1) stOk [])
    ∧ (∀ (i : Nat) (v1 : Vault), c.u8 0 = 1 → i = c.u8 1 → i ≤ 7 → (nth ([], false) s.env.vault.cmds i).1 ≠ [] →
        (nth ([], false) s.env.vault.cmds i).2 = false → 1 < (s.env.vault.cmds.filter keyLive).length →
        v1 = { s.env.vault with cmds := upd s.env.vault.cmds i fun k => (k.1, true) } →
        exec (.secKeyRevoke c) s = s.vaultAnswers 0xB4 c v1 ((s.m.vaultChanged v1 true).keyEvent s.env 1 i 1) stOk [])
    ∧ (∀ (t : Nat) (v1 : Vault), t = c.u8 0 → s.env.vault.life = 0 → t = 1 → s.m.lifeOk s.env.vault t = true →
        v1 = { s.env.vault with fuses := upd s.env.vault.fuses (t - 1) fun _ => (true, true) } →
        exec (.secLifecycle c) s = s.vaultAnswers 0xB6 c v1 (((s.m.vaultChanged v1 true).updIrq 8).event s.env 0xB001 (some 3)
          (le 1 s.env.vault.life ++ le 1 v1.life)) stOk (le 1 v1.life))
    ∧ (128 ≤ c.bufLen → exec (.secStatusGet c) s = s.answers 0xB0 c s.m stOk [] (s.m.words Reg.SEC_STS 32))
    ∧ (∀ d : List Byte, d = le 8 s.env.vault.uid ++ sized 96 s.env.vault.idKey ++ sized 96 s.env.vault.idSig → d.length ≤ c.bufLen →
        exec (.secIdentityGet c) s = s.answers 0xB1 c s.m stOk [] d)
    ∧ (∀ (d : List Byte), s.env.vault.life ≠ 3 → c.data.length = 32 →
        d = le 160 (Config.attestReport (s.m.attestItems s.env c.data)).toNat
          ++ le 96 (Config.identitySign (Config.attestReport (s.m.attestItems s.env c.data))).toNat → d.length ≤ c.bufLen →
        exec (.secAttest c) s = s.answers 0xB2 c s.m stOk [] d))
    ∧ (∀ (q t : Nat) (v1 : Vault) (m0 : Mach), c.path = .queue q → c.lenBad = false → c.env ≠ [] → s.m.envelopeOk s.env 0xB6 c = true →
        s.m.b .GEN_START_boot_rom = false → m0 = s.m.envelopeTake c → t = c.u8 0 → t = 2 ∨ t = 3 → m0.lifeOk s.env.vault t = true →
        v1 = { s.env.vault with fuses := upd s.env.vault.fuses (t - 1) fun _ => (true, true),
                                cmds := if t = 3 then s.env.vault.cmds.map fun k => ([], k.2) else s.env.vault.cmds } →
        exec (.secLifecycle c) s = s.vaultAnswers 0xB6 c v1 (((m0.vaultChanged v1 true).updIrq 8).event s.env 0xB001 (some 3)
          (le 1 s.env.vault.life ++ le 1 v1.life)) stOk (le 1 v1.life))

/-- Tamper (R673): a breach is latched and told, and SEC_TAMPER_CLR, which always needs its envelope, ends it. -/
def Obligations.TamperIsLatched : Prop :=
  ∀ s : State,
    (∃ t : State, exec .tamperBreach s = .next t ∧ t.m.boot.breach = true ∧ t.env = s.env ∧ t.pending = s.pending
      ∧ (2 ≤ s.m.state → t.m.g .SEC_STS_tamper = 1))
    ∧ (∀ (c : Cmd) (q : Nat) (m0 m1 : Mach), c.path = .queue q → c.lenBad = false → c.env ≠ [] → s.m.envelopeOk s.env 0xB7 c = true →
        s.m.b .GEN_START_boot_rom = false → m0 = s.m.envelopeTake c → m0.b .SEC_STS_tamper = true →
        m1 = { m0 with boot := { m0.boot with breach := false } } →
        exec (.secTamperClr c) s = s.answers 0xB7 c ((m1.sb .SEC_STS_tamper false).tamperEvent s.env false) stOk [] [])
    ∧ (∀ c : Cmd, s.takes c → exec (.secTamperClr c) s = s.answers 0xB7 c s.m stAuth [] [])
end

