-- ==== Sys2Proof/Laws/State.lean ====
section
/-!
SUPPORT. What the named writes leave alone, one lemma per field and write: a write of registers changes the register file only, and what
leaves the module changes the list of what left it only.
-/
namespace Sys2Proof.Machine

@[simp] theorem Mach.wr_latch (m : Mach) (off : Nat) (v : Word) : (m.wr off v).latch = m.latch := rfl
@[simp] theorem Mach.wr_freeCount (m : Mach) (off : Nat) (v : Word) : (m.wr off v).freeCount = m.freeCount := rfl
@[simp] theorem Mach.wr_out (m : Mach) (off : Nat) (v : Word) : (m.wr off v).out = m.out := rfl
@[simp] theorem Mach.wr_hif (m : Mach) (off : Nat) (v : Word) : (m.wr off v).hif = m.hif := rfl
@[simp] theorem Mach.wr_irq (m : Mach) (off : Nat) (v : Word) : (m.wr off v).irq = m.irq := rfl
@[simp] theorem Mach.wr_peat (m : Mach) (off : Nat) (v : Word) : (m.wr off v).peat = m.peat := rfl
@[simp] theorem Mach.wr_time (m : Mach) (off : Nat) (v : Word) : (m.wr off v).time = m.time := rfl
@[simp] theorem Mach.wr_clk (m : Mach) (off : Nat) (v : Word) : (m.wr off v).clk = m.clk := rfl
@[simp] theorem Mach.wr_grid (m : Mach) (off : Nat) (v : Word) : (m.wr off v).grid = m.grid := rfl
@[simp] theorem Mach.wr_gns (m : Mach) (off : Nat) (v : Word) : (m.wr off v).gns = m.gns := rfl
@[simp] theorem Mach.wr_lch (m : Mach) (off : Nat) (v : Word) : (m.wr off v).lch = m.lch := rfl
@[simp] theorem Mach.wr_fil (m : Mach) (off : Nat) (v : Word) : (m.wr off v).fil = m.fil := rfl
@[simp] theorem Mach.wr_fbk (m : Mach) (off : Nat) (v : Word) : (m.wr off v).fbk = m.fbk := rfl
@[simp] theorem Mach.wr_can (m : Mach) (off : Nat) (v : Word) : (m.wr off v).can = m.can := rfl
@[simp] theorem Mach.wr_dio (m : Mach) (off : Nat) (v : Word) : (m.wr off v).dio = m.dio := rfl
@[simp] theorem Mach.wr_pl (m : Mach) (off : Nat) (v : Word) : (m.wr off v).pl = m.pl := rfl
@[simp] theorem Mach.wr_slv (m : Mach) (off : Nat) (v : Word) : (m.wr off v).slv = m.slv := rfl
@[simp] theorem Mach.wr_str (m : Mach) (off : Nat) (v : Word) : (m.wr off v).str = m.str := rfl
@[simp] theorem Mach.wr_faults (m : Mach) (off : Nat) (v : Word) : (m.wr off v).faults = m.faults := rfl
@[simp] theorem Mach.wr_saf (m : Mach) (off : Nat) (v : Word) : (m.wr off v).saf = m.saf := rfl
@[simp] theorem Mach.wr_stk (m : Mach) (off : Nat) (v : Word) : (m.wr off v).stk = m.stk := rfl
@[simp] theorem Mach.wr_boot (m : Mach) (off : Nat) (v : Word) : (m.wr off v).boot = m.boot := rfl
@[simp] theorem Mach.wr_fw (m : Mach) (off : Nat) (v : Word) : (m.wr off v).fw = m.fw := rfl

@[simp] theorem Mach.s_latch (m : Mach) (f : Fld) (v : Nat) : (m.s f v).latch = m.latch := rfl
@[simp] theorem Mach.s_freeCount (m : Mach) (f : Fld) (v : Nat) : (m.s f v).freeCount = m.freeCount := rfl
@[simp] theorem Mach.s_out (m : Mach) (f : Fld) (v : Nat) : (m.s f v).out = m.out := rfl
@[simp] theorem Mach.s_hif (m : Mach) (f : Fld) (v : Nat) : (m.s f v).hif = m.hif := rfl
@[simp] theorem Mach.s_irq (m : Mach) (f : Fld) (v : Nat) : (m.s f v).irq = m.irq := rfl
@[simp] theorem Mach.s_peat (m : Mach) (f : Fld) (v : Nat) : (m.s f v).peat = m.peat := rfl
@[simp] theorem Mach.s_time (m : Mach) (f : Fld) (v : Nat) : (m.s f v).time = m.time := rfl
@[simp] theorem Mach.s_clk (m : Mach) (f : Fld) (v : Nat) : (m.s f v).clk = m.clk := rfl
@[simp] theorem Mach.s_grid (m : Mach) (f : Fld) (v : Nat) : (m.s f v).grid = m.grid := rfl
@[simp] theorem Mach.s_gns (m : Mach) (f : Fld) (v : Nat) : (m.s f v).gns = m.gns := rfl
@[simp] theorem Mach.s_lch (m : Mach) (f : Fld) (v : Nat) : (m.s f v).lch = m.lch := rfl
@[simp] theorem Mach.s_fil (m : Mach) (f : Fld) (v : Nat) : (m.s f v).fil = m.fil := rfl
@[simp] theorem Mach.s_fbk (m : Mach) (f : Fld) (v : Nat) : (m.s f v).fbk = m.fbk := rfl
@[simp] theorem Mach.s_can (m : Mach) (f : Fld) (v : Nat) : (m.s f v).can = m.can := rfl
@[simp] theorem Mach.s_dio (m : Mach) (f : Fld) (v : Nat) : (m.s f v).dio = m.dio := rfl
@[simp] theorem Mach.s_pl (m : Mach) (f : Fld) (v : Nat) : (m.s f v).pl = m.pl := rfl
@[simp] theorem Mach.s_slv (m : Mach) (f : Fld) (v : Nat) : (m.s f v).slv = m.slv := rfl
@[simp] theorem Mach.s_str (m : Mach) (f : Fld) (v : Nat) : (m.s f v).str = m.str := rfl
@[simp] theorem Mach.s_faults (m : Mach) (f : Fld) (v : Nat) : (m.s f v).faults = m.faults := rfl
@[simp] theorem Mach.s_saf (m : Mach) (f : Fld) (v : Nat) : (m.s f v).saf = m.saf := rfl
@[simp] theorem Mach.s_stk (m : Mach) (f : Fld) (v : Nat) : (m.s f v).stk = m.stk := rfl
@[simp] theorem Mach.s_boot (m : Mach) (f : Fld) (v : Nat) : (m.s f v).boot = m.boot := rfl
@[simp] theorem Mach.s_fw (m : Mach) (f : Fld) (v : Nat) : (m.s f v).fw = m.fw := rfl

@[simp] theorem Mach.sb_latch (m : Mach) (f : Fld) (v : Bool) : (m.sb f v).latch = m.latch := rfl
@[simp] theorem Mach.sb_freeCount (m : Mach) (f : Fld) (v : Bool) : (m.sb f v).freeCount = m.freeCount := rfl
@[simp] theorem Mach.sb_out (m : Mach) (f : Fld) (v : Bool) : (m.sb f v).out = m.out := rfl
@[simp] theorem Mach.sb_hif (m : Mach) (f : Fld) (v : Bool) : (m.sb f v).hif = m.hif := rfl
@[simp] theorem Mach.sb_irq (m : Mach) (f : Fld) (v : Bool) : (m.sb f v).irq = m.irq := rfl
@[simp] theorem Mach.sb_peat (m : Mach) (f : Fld) (v : Bool) : (m.sb f v).peat = m.peat := rfl
@[simp] theorem Mach.sb_time (m : Mach) (f : Fld) (v : Bool) : (m.sb f v).time = m.time := rfl
@[simp] theorem Mach.sb_clk (m : Mach) (f : Fld) (v : Bool) : (m.sb f v).clk = m.clk := rfl
@[simp] theorem Mach.sb_grid (m : Mach) (f : Fld) (v : Bool) : (m.sb f v).grid = m.grid := rfl
@[simp] theorem Mach.sb_gns (m : Mach) (f : Fld) (v : Bool) : (m.sb f v).gns = m.gns := rfl
@[simp] theorem Mach.sb_lch (m : Mach) (f : Fld) (v : Bool) : (m.sb f v).lch = m.lch := rfl
@[simp] theorem Mach.sb_fil (m : Mach) (f : Fld) (v : Bool) : (m.sb f v).fil = m.fil := rfl
@[simp] theorem Mach.sb_fbk (m : Mach) (f : Fld) (v : Bool) : (m.sb f v).fbk = m.fbk := rfl
@[simp] theorem Mach.sb_can (m : Mach) (f : Fld) (v : Bool) : (m.sb f v).can = m.can := rfl
@[simp] theorem Mach.sb_dio (m : Mach) (f : Fld) (v : Bool) : (m.sb f v).dio = m.dio := rfl
@[simp] theorem Mach.sb_pl (m : Mach) (f : Fld) (v : Bool) : (m.sb f v).pl = m.pl := rfl
@[simp] theorem Mach.sb_slv (m : Mach) (f : Fld) (v : Bool) : (m.sb f v).slv = m.slv := rfl
@[simp] theorem Mach.sb_str (m : Mach) (f : Fld) (v : Bool) : (m.sb f v).str = m.str := rfl
@[simp] theorem Mach.sb_faults (m : Mach) (f : Fld) (v : Bool) : (m.sb f v).faults = m.faults := rfl
@[simp] theorem Mach.sb_saf (m : Mach) (f : Fld) (v : Bool) : (m.sb f v).saf = m.saf := rfl
@[simp] theorem Mach.sb_stk (m : Mach) (f : Fld) (v : Bool) : (m.sb f v).stk = m.stk := rfl
@[simp] theorem Mach.sb_boot (m : Mach) (f : Fld) (v : Bool) : (m.sb f v).boot = m.boot := rfl
@[simp] theorem Mach.sb_fw (m : Mach) (f : Fld) (v : Bool) : (m.sb f v).fw = m.fw := rfl

@[simp] theorem Mach.addSat_latch (m : Mach) (f : Fld) (n : Nat) : (m.addSat f n).latch = m.latch := rfl
@[simp] theorem Mach.addSat_freeCount (m : Mach) (f : Fld) (n : Nat) : (m.addSat f n).freeCount = m.freeCount := rfl
@[simp] theorem Mach.addSat_out (m : Mach) (f : Fld) (n : Nat) : (m.addSat f n).out = m.out := rfl
@[simp] theorem Mach.addSat_hif (m : Mach) (f : Fld) (n : Nat) : (m.addSat f n).hif = m.hif := rfl
@[simp] theorem Mach.addSat_irq (m : Mach) (f : Fld) (n : Nat) : (m.addSat f n).irq = m.irq := rfl
@[simp] theorem Mach.addSat_peat (m : Mach) (f : Fld) (n : Nat) : (m.addSat f n).peat = m.peat := rfl
@[simp] theorem Mach.addSat_time (m : Mach) (f : Fld) (n : Nat) : (m.addSat f n).time = m.time := rfl
@[simp] theorem Mach.addSat_clk (m : Mach) (f : Fld) (n : Nat) : (m.addSat f n).clk = m.clk := rfl
@[simp] theorem Mach.addSat_grid (m : Mach) (f : Fld) (n : Nat) : (m.addSat f n).grid = m.grid := rfl
@[simp] theorem Mach.addSat_gns (m : Mach) (f : Fld) (n : Nat) : (m.addSat f n).gns = m.gns := rfl
@[simp] theorem Mach.addSat_lch (m : Mach) (f : Fld) (n : Nat) : (m.addSat f n).lch = m.lch := rfl
@[simp] theorem Mach.addSat_fil (m : Mach) (f : Fld) (n : Nat) : (m.addSat f n).fil = m.fil := rfl
@[simp] theorem Mach.addSat_fbk (m : Mach) (f : Fld) (n : Nat) : (m.addSat f n).fbk = m.fbk := rfl
@[simp] theorem Mach.addSat_can (m : Mach) (f : Fld) (n : Nat) : (m.addSat f n).can = m.can := rfl
@[simp] theorem Mach.addSat_dio (m : Mach) (f : Fld) (n : Nat) : (m.addSat f n).dio = m.dio := rfl
@[simp] theorem Mach.addSat_pl (m : Mach) (f : Fld) (n : Nat) : (m.addSat f n).pl = m.pl := rfl
@[simp] theorem Mach.addSat_slv (m : Mach) (f : Fld) (n : Nat) : (m.addSat f n).slv = m.slv := rfl
@[simp] theorem Mach.addSat_str (m : Mach) (f : Fld) (n : Nat) : (m.addSat f n).str = m.str := rfl
@[simp] theorem Mach.addSat_faults (m : Mach) (f : Fld) (n : Nat) : (m.addSat f n).faults = m.faults := rfl
@[simp] theorem Mach.addSat_saf (m : Mach) (f : Fld) (n : Nat) : (m.addSat f n).saf = m.saf := rfl
@[simp] theorem Mach.addSat_stk (m : Mach) (f : Fld) (n : Nat) : (m.addSat f n).stk = m.stk := rfl
@[simp] theorem Mach.addSat_boot (m : Mach) (f : Fld) (n : Nat) : (m.addSat f n).boot = m.boot := rfl
@[simp] theorem Mach.addSat_fw (m : Mach) (f : Fld) (n : Nat) : (m.addSat f n).fw = m.fw := rfl

@[simp] theorem Mach.up_latch (m : Mach) (f : Fld) : (m.up f).latch = m.latch := rfl
@[simp] theorem Mach.up_freeCount (m : Mach) (f : Fld) : (m.up f).freeCount = m.freeCount := rfl
@[simp] theorem Mach.up_out (m : Mach) (f : Fld) : (m.up f).out = m.out := rfl
@[simp] theorem Mach.up_hif (m : Mach) (f : Fld) : (m.up f).hif = m.hif := rfl
@[simp] theorem Mach.up_irq (m : Mach) (f : Fld) : (m.up f).irq = m.irq := rfl
@[simp] theorem Mach.up_peat (m : Mach) (f : Fld) : (m.up f).peat = m.peat := rfl
@[simp] theorem Mach.up_time (m : Mach) (f : Fld) : (m.up f).time = m.time := rfl
@[simp] theorem Mach.up_clk (m : Mach) (f : Fld) : (m.up f).clk = m.clk := rfl
@[simp] theorem Mach.up_grid (m : Mach) (f : Fld) : (m.up f).grid = m.grid := rfl
@[simp] theorem Mach.up_gns (m : Mach) (f : Fld) : (m.up f).gns = m.gns := rfl
@[simp] theorem Mach.up_lch (m : Mach) (f : Fld) : (m.up f).lch = m.lch := rfl
@[simp] theorem Mach.up_fil (m : Mach) (f : Fld) : (m.up f).fil = m.fil := rfl
@[simp] theorem Mach.up_fbk (m : Mach) (f : Fld) : (m.up f).fbk = m.fbk := rfl
@[simp] theorem Mach.up_can (m : Mach) (f : Fld) : (m.up f).can = m.can := rfl
@[simp] theorem Mach.up_dio (m : Mach) (f : Fld) : (m.up f).dio = m.dio := rfl
@[simp] theorem Mach.up_pl (m : Mach) (f : Fld) : (m.up f).pl = m.pl := rfl
@[simp] theorem Mach.up_slv (m : Mach) (f : Fld) : (m.up f).slv = m.slv := rfl
@[simp] theorem Mach.up_str (m : Mach) (f : Fld) : (m.up f).str = m.str := rfl
@[simp] theorem Mach.up_faults (m : Mach) (f : Fld) : (m.up f).faults = m.faults := rfl
@[simp] theorem Mach.up_saf (m : Mach) (f : Fld) : (m.up f).saf = m.saf := rfl
@[simp] theorem Mach.up_stk (m : Mach) (f : Fld) : (m.up f).stk = m.stk := rfl
@[simp] theorem Mach.up_boot (m : Mach) (f : Fld) : (m.up f).boot = m.boot := rfl
@[simp] theorem Mach.up_fw (m : Mach) (f : Fld) : (m.up f).fw = m.fw := rfl

@[simp] theorem Mach.upWrap_latch (m : Mach) (f : Fld) : (m.upWrap f).latch = m.latch := rfl
@[simp] theorem Mach.upWrap_freeCount (m : Mach) (f : Fld) : (m.upWrap f).freeCount = m.freeCount := rfl
@[simp] theorem Mach.upWrap_out (m : Mach) (f : Fld) : (m.upWrap f).out = m.out := rfl
@[simp] theorem Mach.upWrap_hif (m : Mach) (f : Fld) : (m.upWrap f).hif = m.hif := rfl
@[simp] theorem Mach.upWrap_irq (m : Mach) (f : Fld) : (m.upWrap f).irq = m.irq := rfl
@[simp] theorem Mach.upWrap_peat (m : Mach) (f : Fld) : (m.upWrap f).peat = m.peat := rfl
@[simp] theorem Mach.upWrap_time (m : Mach) (f : Fld) : (m.upWrap f).time = m.time := rfl
@[simp] theorem Mach.upWrap_clk (m : Mach) (f : Fld) : (m.upWrap f).clk = m.clk := rfl
@[simp] theorem Mach.upWrap_grid (m : Mach) (f : Fld) : (m.upWrap f).grid = m.grid := rfl
@[simp] theorem Mach.upWrap_gns (m : Mach) (f : Fld) : (m.upWrap f).gns = m.gns := rfl
@[simp] theorem Mach.upWrap_lch (m : Mach) (f : Fld) : (m.upWrap f).lch = m.lch := rfl
@[simp] theorem Mach.upWrap_fil (m : Mach) (f : Fld) : (m.upWrap f).fil = m.fil := rfl
@[simp] theorem Mach.upWrap_fbk (m : Mach) (f : Fld) : (m.upWrap f).fbk = m.fbk := rfl
@[simp] theorem Mach.upWrap_can (m : Mach) (f : Fld) : (m.upWrap f).can = m.can := rfl
@[simp] theorem Mach.upWrap_dio (m : Mach) (f : Fld) : (m.upWrap f).dio = m.dio := rfl
@[simp] theorem Mach.upWrap_pl (m : Mach) (f : Fld) : (m.upWrap f).pl = m.pl := rfl
@[simp] theorem Mach.upWrap_slv (m : Mach) (f : Fld) : (m.upWrap f).slv = m.slv := rfl
@[simp] theorem Mach.upWrap_str (m : Mach) (f : Fld) : (m.upWrap f).str = m.str := rfl
@[simp] theorem Mach.upWrap_faults (m : Mach) (f : Fld) : (m.upWrap f).faults = m.faults := rfl
@[simp] theorem Mach.upWrap_saf (m : Mach) (f : Fld) : (m.upWrap f).saf = m.saf := rfl
@[simp] theorem Mach.upWrap_stk (m : Mach) (f : Fld) : (m.upWrap f).stk = m.stk := rfl
@[simp] theorem Mach.upWrap_boot (m : Mach) (f : Fld) : (m.upWrap f).boot = m.boot := rfl
@[simp] theorem Mach.upWrap_fw (m : Mach) (f : Fld) : (m.upWrap f).fw = m.fw := rfl

@[simp] theorem Mach.setBit_latch (m : Mach) (off i : Nat) (v : Bool) : (m.setBit off i v).latch = m.latch := rfl
@[simp] theorem Mach.setBit_freeCount (m : Mach) (off i : Nat) (v : Bool) : (m.setBit off i v).freeCount = m.freeCount := rfl
@[simp] theorem Mach.setBit_out (m : Mach) (off i : Nat) (v : Bool) : (m.setBit off i v).out = m.out := rfl
@[simp] theorem Mach.setBit_hif (m : Mach) (off i : Nat) (v : Bool) : (m.setBit off i v).hif = m.hif := rfl
@[simp] theorem Mach.setBit_irq (m : Mach) (off i : Nat) (v : Bool) : (m.setBit off i v).irq = m.irq := rfl
@[simp] theorem Mach.setBit_peat (m : Mach) (off i : Nat) (v : Bool) : (m.setBit off i v).peat = m.peat := rfl
@[simp] theorem Mach.setBit_time (m : Mach) (off i : Nat) (v : Bool) : (m.setBit off i v).time = m.time := rfl
@[simp] theorem Mach.setBit_clk (m : Mach) (off i : Nat) (v : Bool) : (m.setBit off i v).clk = m.clk := rfl
@[simp] theorem Mach.setBit_grid (m : Mach) (off i : Nat) (v : Bool) : (m.setBit off i v).grid = m.grid := rfl
@[simp] theorem Mach.setBit_gns (m : Mach) (off i : Nat) (v : Bool) : (m.setBit off i v).gns = m.gns := rfl
@[simp] theorem Mach.setBit_lch (m : Mach) (off i : Nat) (v : Bool) : (m.setBit off i v).lch = m.lch := rfl
@[simp] theorem Mach.setBit_fil (m : Mach) (off i : Nat) (v : Bool) : (m.setBit off i v).fil = m.fil := rfl
@[simp] theorem Mach.setBit_fbk (m : Mach) (off i : Nat) (v : Bool) : (m.setBit off i v).fbk = m.fbk := rfl
@[simp] theorem Mach.setBit_can (m : Mach) (off i : Nat) (v : Bool) : (m.setBit off i v).can = m.can := rfl
@[simp] theorem Mach.setBit_dio (m : Mach) (off i : Nat) (v : Bool) : (m.setBit off i v).dio = m.dio := rfl
@[simp] theorem Mach.setBit_pl (m : Mach) (off i : Nat) (v : Bool) : (m.setBit off i v).pl = m.pl := rfl
@[simp] theorem Mach.setBit_slv (m : Mach) (off i : Nat) (v : Bool) : (m.setBit off i v).slv = m.slv := rfl
@[simp] theorem Mach.setBit_str (m : Mach) (off i : Nat) (v : Bool) : (m.setBit off i v).str = m.str := rfl
@[simp] theorem Mach.setBit_faults (m : Mach) (off i : Nat) (v : Bool) : (m.setBit off i v).faults = m.faults := rfl
@[simp] theorem Mach.setBit_saf (m : Mach) (off i : Nat) (v : Bool) : (m.setBit off i v).saf = m.saf := rfl
@[simp] theorem Mach.setBit_stk (m : Mach) (off i : Nat) (v : Bool) : (m.setBit off i v).stk = m.stk := rfl
@[simp] theorem Mach.setBit_boot (m : Mach) (off i : Nat) (v : Bool) : (m.setBit off i v).boot = m.boot := rfl
@[simp] theorem Mach.setBit_fw (m : Mach) (off i : Nat) (v : Bool) : (m.setBit off i v).fw = m.fw := rfl

@[simp] theorem Mach.wr64_latch (m : Mach) (lo hi n : Nat) : (m.wr64 lo hi n).latch = m.latch := rfl
@[simp] theorem Mach.wr64_freeCount (m : Mach) (lo hi n : Nat) : (m.wr64 lo hi n).freeCount = m.freeCount := rfl
@[simp] theorem Mach.wr64_out (m : Mach) (lo hi n : Nat) : (m.wr64 lo hi n).out = m.out := rfl
@[simp] theorem Mach.wr64_hif (m : Mach) (lo hi n : Nat) : (m.wr64 lo hi n).hif = m.hif := rfl
@[simp] theorem Mach.wr64_irq (m : Mach) (lo hi n : Nat) : (m.wr64 lo hi n).irq = m.irq := rfl
@[simp] theorem Mach.wr64_peat (m : Mach) (lo hi n : Nat) : (m.wr64 lo hi n).peat = m.peat := rfl
@[simp] theorem Mach.wr64_time (m : Mach) (lo hi n : Nat) : (m.wr64 lo hi n).time = m.time := rfl
@[simp] theorem Mach.wr64_clk (m : Mach) (lo hi n : Nat) : (m.wr64 lo hi n).clk = m.clk := rfl
@[simp] theorem Mach.wr64_grid (m : Mach) (lo hi n : Nat) : (m.wr64 lo hi n).grid = m.grid := rfl
@[simp] theorem Mach.wr64_gns (m : Mach) (lo hi n : Nat) : (m.wr64 lo hi n).gns = m.gns := rfl
@[simp] theorem Mach.wr64_lch (m : Mach) (lo hi n : Nat) : (m.wr64 lo hi n).lch = m.lch := rfl
@[simp] theorem Mach.wr64_fil (m : Mach) (lo hi n : Nat) : (m.wr64 lo hi n).fil = m.fil := rfl
@[simp] theorem Mach.wr64_fbk (m : Mach) (lo hi n : Nat) : (m.wr64 lo hi n).fbk = m.fbk := rfl
@[simp] theorem Mach.wr64_can (m : Mach) (lo hi n : Nat) : (m.wr64 lo hi n).can = m.can := rfl
@[simp] theorem Mach.wr64_dio (m : Mach) (lo hi n : Nat) : (m.wr64 lo hi n).dio = m.dio := rfl
@[simp] theorem Mach.wr64_pl (m : Mach) (lo hi n : Nat) : (m.wr64 lo hi n).pl = m.pl := rfl
@[simp] theorem Mach.wr64_slv (m : Mach) (lo hi n : Nat) : (m.wr64 lo hi n).slv = m.slv := rfl
@[simp] theorem Mach.wr64_str (m : Mach) (lo hi n : Nat) : (m.wr64 lo hi n).str = m.str := rfl
@[simp] theorem Mach.wr64_faults (m : Mach) (lo hi n : Nat) : (m.wr64 lo hi n).faults = m.faults := rfl
@[simp] theorem Mach.wr64_saf (m : Mach) (lo hi n : Nat) : (m.wr64 lo hi n).saf = m.saf := rfl
@[simp] theorem Mach.wr64_stk (m : Mach) (lo hi n : Nat) : (m.wr64 lo hi n).stk = m.stk := rfl
@[simp] theorem Mach.wr64_boot (m : Mach) (lo hi n : Nat) : (m.wr64 lo hi n).boot = m.boot := rfl
@[simp] theorem Mach.wr64_fw (m : Mach) (lo hi n : Nat) : (m.wr64 lo hi n).fw = m.fw := rfl

@[simp] theorem Mach.emit_regs (m : Mach) (w : String) (i : Nat) (x : Int) (b : List Byte) : (m.emit w i x b).regs = m.regs := rfl
@[simp] theorem Mach.emit_latch (m : Mach) (w : String) (i : Nat) (x : Int) (b : List Byte) : (m.emit w i x b).latch = m.latch := rfl
@[simp] theorem Mach.emit_freeCount (m : Mach) (w : String) (i : Nat) (x : Int) (b : List Byte) : (m.emit w i x b).freeCount = m.freeCount := rfl
@[simp] theorem Mach.emit_hif (m : Mach) (w : String) (i : Nat) (x : Int) (b : List Byte) : (m.emit w i x b).hif = m.hif := rfl
@[simp] theorem Mach.emit_irq (m : Mach) (w : String) (i : Nat) (x : Int) (b : List Byte) : (m.emit w i x b).irq = m.irq := rfl
@[simp] theorem Mach.emit_peat (m : Mach) (w : String) (i : Nat) (x : Int) (b : List Byte) : (m.emit w i x b).peat = m.peat := rfl
@[simp] theorem Mach.emit_time (m : Mach) (w : String) (i : Nat) (x : Int) (b : List Byte) : (m.emit w i x b).time = m.time := rfl
@[simp] theorem Mach.emit_clk (m : Mach) (w : String) (i : Nat) (x : Int) (b : List Byte) : (m.emit w i x b).clk = m.clk := rfl
@[simp] theorem Mach.emit_grid (m : Mach) (w : String) (i : Nat) (x : Int) (b : List Byte) : (m.emit w i x b).grid = m.grid := rfl
@[simp] theorem Mach.emit_gns (m : Mach) (w : String) (i : Nat) (x : Int) (b : List Byte) : (m.emit w i x b).gns = m.gns := rfl
@[simp] theorem Mach.emit_lch (m : Mach) (w : String) (i : Nat) (x : Int) (b : List Byte) : (m.emit w i x b).lch = m.lch := rfl
@[simp] theorem Mach.emit_fil (m : Mach) (w : String) (i : Nat) (x : Int) (b : List Byte) : (m.emit w i x b).fil = m.fil := rfl
@[simp] theorem Mach.emit_fbk (m : Mach) (w : String) (i : Nat) (x : Int) (b : List Byte) : (m.emit w i x b).fbk = m.fbk := rfl
@[simp] theorem Mach.emit_can (m : Mach) (w : String) (i : Nat) (x : Int) (b : List Byte) : (m.emit w i x b).can = m.can := rfl
@[simp] theorem Mach.emit_dio (m : Mach) (w : String) (i : Nat) (x : Int) (b : List Byte) : (m.emit w i x b).dio = m.dio := rfl
@[simp] theorem Mach.emit_pl (m : Mach) (w : String) (i : Nat) (x : Int) (b : List Byte) : (m.emit w i x b).pl = m.pl := rfl
@[simp] theorem Mach.emit_slv (m : Mach) (w : String) (i : Nat) (x : Int) (b : List Byte) : (m.emit w i x b).slv = m.slv := rfl
@[simp] theorem Mach.emit_str (m : Mach) (w : String) (i : Nat) (x : Int) (b : List Byte) : (m.emit w i x b).str = m.str := rfl
@[simp] theorem Mach.emit_faults (m : Mach) (w : String) (i : Nat) (x : Int) (b : List Byte) : (m.emit w i x b).faults = m.faults := rfl
@[simp] theorem Mach.emit_saf (m : Mach) (w : String) (i : Nat) (x : Int) (b : List Byte) : (m.emit w i x b).saf = m.saf := rfl
@[simp] theorem Mach.emit_stk (m : Mach) (w : String) (i : Nat) (x : Int) (b : List Byte) : (m.emit w i x b).stk = m.stk := rfl
@[simp] theorem Mach.emit_boot (m : Mach) (w : String) (i : Nat) (x : Int) (b : List Byte) : (m.emit w i x b).boot = m.boot := rfl
@[simp] theorem Mach.emit_fw (m : Mach) (w : String) (i : Nat) (x : Int) (b : List Byte) : (m.emit w i x b).fw = m.fw := rfl

theorem State.act_eq (s : State) (f : Env → Mach → Mach) : s.act f = .next { s with m := f s.env s.m } := rfl

theorem State.actTime_eq (s : State) (f : Env → Mach → Timebase × Mach) :
    s.actTime f = .next { s with env := { s.env with time := (f s.env s.m).1 }, m := (f s.env s.m).2 } := rfl

theorem State.actVault_eq (s : State) (f : Env → Mach → Vault × Mach) :
    s.actVault f = .next { s with env := { s.env with vault := (f s.env s.m).1 }, m := (f s.env s.m).2 } := rfl

theorem State.onInst_eq (s : State) {ok : Bool} (h : ok = true) (f : Env → Mach → Mach) :
    s.onInst ok f = .next { s with m := f s.env s.m } := by
  simp [State.onInst, h, State.act]

theorem State.onInst_fault (s : State) {ok : Bool} (h : ok = false) (f : Env → Mach → Mach) :
    s.onInst ok f = .fault .noInstance := by
  simp [State.onInst, h]

end Sys2Proof.Machine
end

