-- ==== Sys2Proof/Laws/Regs.lean ====
section
/-!
SUPPORT. The register file: its canonical form, and what reading after writing gives, for whole registers and for fields.
-/
namespace Sys2Proof.Machine

/-! ### The list of cells -/

theorem cellGet_put_other {off o : Nat} (h : o ≠ off) (v : Word) (l : List (Nat × Word)) :
    cellGet (cellPut off v l) o = cellGet l o := by
  induction l with
  | nil => simp [cellPut, cellGet, Ne.symm h]
  | cons p l ih =>
    obtain ⟨a, w⟩ := p
    simp only [cellPut]
    split
    · simp [cellGet, Ne.symm h]
    · simp only [cellGet, ih]

theorem cellGet_put_same (off : Nat) (v : Word) (l : List (Nat × Word)) :
    cellGet (cellPut off v (cellDel off l)) off = some v := by
  induction l with
  | nil => simp [cellPut, cellDel, cellGet]
  | cons p l ih =>
    obtain ⟨a, w⟩ := p
    simp only [cellDel]
    split
    · exact ih
    · rename_i h
      simp only [cellPut]
      split
      · simp [cellGet]
      · simp only [cellGet, h, if_false, ih]

theorem cellGet_del_other {off o : Nat} (h : o ≠ off) (l : List (Nat × Word)) :
    cellGet (cellDel off l) o = cellGet l o := by
  induction l with
  | nil => rfl
  | cons p l ih =>
    obtain ⟨a, w⟩ := p
    simp only [cellDel]
    split
    · rename_i ha
      subst ha
      simp [cellGet, Ne.symm h, ih]
    · simp only [cellGet, ih]

theorem cellGet_del_same (off : Nat) (l : List (Nat × Word)) : cellGet (cellDel off l) off = none := by
  induction l with
  | nil => rfl
  | cons p l ih =>
    obtain ⟨a, w⟩ := p
    simp only [cellDel]
    split
    · exact ih
    · rename_i h
      simp only [cellGet, h, if_false, ih]

/-- Every listed offset is above a bound, offsets rise, and no value is its register's reset value. -/
def cellsAbove : Option Nat → List (Nat × Word) → Prop
  | _, [] => True
  | lo, (a, v) :: l => (∀ b ∈ lo, b < a) ∧ v ≠ resetOf a ∧ cellsAbove (some a) l

theorem regsWf_cons (a : Nat) (v : Word) (l : List (Nat × Word)) :
    regsWf ((a, v) :: l) = true ↔ v ≠ resetOf a ∧ cellsAbove (some a) l := by
  induction l generalizing a v with
  | nil => simp [regsWf, cellsAbove]
  | cons p l ih =>
    obtain ⟨b, w⟩ := p
    simp only [regsWf, Bool.and_eq_true, decide_eq_true_eq, bne_iff_ne, ne_eq, ih, cellsAbove, Option.mem_some_iff, forall_eq']
    constructor
    · rintro ⟨⟨h1, h2⟩, h3, h4⟩
      exact ⟨h2, h1, h3, h4⟩
    · rintro ⟨h2, h1, h3, h4⟩
      exact ⟨⟨h1, h2⟩, h3, h4⟩

theorem regsWf_iff (l : List (Nat × Word)) : regsWf l = true ↔ cellsAbove none l := by
  cases l with
  | nil => simp [regsWf, cellsAbove]
  | cons p l =>
    obtain ⟨a, v⟩ := p
    simp [regsWf_cons, cellsAbove]

theorem cellsAbove_mono {lo : Option Nat} {a : Nat} (h : ∀ b ∈ lo, b < a) (l : List (Nat × Word)) :
    cellsAbove (some a) l → cellsAbove lo l := by
  cases l with
  | nil => intro _; trivial
  | cons p l =>
    obtain ⟨c, v⟩ := p
    rintro ⟨h1, h2, h3⟩
    refine ⟨?_, h2, h3⟩
    intro b hb
    exact Nat.lt_trans (h b hb) (h1 a rfl)

theorem cellsAbove_del (off : Nat) (l : List (Nat × Word)) :
    ∀ lo : Option Nat, cellsAbove lo l → cellsAbove lo (cellDel off l) := by
  induction l with
  | nil => intro _ h; exact h
  | cons p l ih =>
    obtain ⟨a, w⟩ := p
    rintro lo ⟨h1, h2, h3⟩
    simp only [cellDel]
    split
    · exact ih lo (cellsAbove_mono h1 l h3)
    · exact ⟨h1, h2, ih _ h3⟩

theorem cellsAbove_put {off : Nat} {v : Word} (hv : v ≠ resetOf off) (l : List (Nat × Word)) :
    ∀ lo : Option Nat, (∀ b ∈ lo, b < off) → cellsAbove lo l → cellsAbove lo (cellPut off v (cellDel off l)) := by
  induction l with
  | nil =>
    intro lo h _
    exact ⟨h, hv, trivial⟩
  | cons p l ih =>
    obtain ⟨a, w⟩ := p
    rintro lo h ⟨h1, h2, h3⟩
    simp only [cellDel]
    split
    · exact ih lo h (cellsAbove_mono h1 l h3)
    · rename_i hne
      simp only [cellPut]
      split
      · rename_i hlt
        refine ⟨h, hv, ?_, h2, cellsAbove_del off l _ h3⟩
        intro b hb
        cases hb
        exact hlt
      · refine ⟨h1, h2, ih (some a) ?_ h3⟩
        intro b hb
        cases hb
        omega

/-! ### Registers -/

/-- Storing keeps the canonical form. -/
theorem regPut_wf {l : List (Nat × Word)} (h : regsWf l = true) (off : Nat) (v : Word) : regsWf (regPut l off v) = true := by
  rw [regsWf_iff] at h ⊢
  simp only [regPut]
  split
  · exact cellsAbove_del off l none h
  · rename_i hv
    exact cellsAbove_put hv l none (by simp) h

theorem regGet_put_same (l : List (Nat × Word)) (off : Nat) (v : Word) : regGet (regPut l off v) off = v := by
  simp only [regGet, regPut]
  split
  · rename_i hv
    rw [cellGet_del_same, hv]
    rfl
  · rw [cellGet_put_same]
    rfl

theorem regGet_put_other {off o : Nat} (h : o ≠ off) (l : List (Nat × Word)) (v : Word) :
    regGet (regPut l off v) o = regGet l o := by
  simp only [regGet, regPut]
  split
  · rw [cellGet_del_other h]
  · rw [cellGet_put_other h, cellGet_del_other h]

/-- The register file is in its canonical form. -/
def Mach.wf (m : Mach) : Prop := regsWf m.regs = true

theorem Mach.wf_wr {m : Mach} (h : m.wf) (off : Nat) (v : Word) : (m.wr off v).wf := regPut_wf h off v
theorem Mach.wf_s {m : Mach} (h : m.wf) (f : Fld) (v : Nat) : (m.s f v).wf := regPut_wf h _ _
theorem Mach.wf_sb {m : Mach} (h : m.wf) (f : Fld) (v : Bool) : (m.sb f v).wf := regPut_wf h _ _
theorem Mach.wf_addSat {m : Mach} (h : m.wf) (f : Fld) (n : Nat) : (m.addSat f n).wf := regPut_wf h _ _
theorem Mach.wf_up {m : Mach} (h : m.wf) (f : Fld) : (m.up f).wf := regPut_wf h _ _
theorem Mach.wf_upWrap {m : Mach} (h : m.wf) (f : Fld) : (m.upWrap f).wf := regPut_wf h _ _
theorem Mach.wf_setBit {m : Mach} (h : m.wf) (off i : Nat) (v : Bool) : (m.setBit off i v).wf := regPut_wf h _ _
theorem Mach.wf_wr64 {m : Mach} (h : m.wf) (lo hi n : Nat) : (m.wr64 lo hi n).wf := regPut_wf (regPut_wf h _ _) _ _
theorem Mach.wf_emit {m : Mach} (h : m.wf) (w : String) (i : Nat) (x : Int) (b : List Byte) : (m.emit w i x b).wf := h

@[simp] theorem Mach.rd_wr_same (m : Mach) (off : Nat) (v : Word) : (m.wr off v).rd off = v := regGet_put_same m.regs off v

theorem Mach.rd_wr_other {off o : Nat} (h : o ≠ off) (m : Mach) (v : Word) : (m.wr off v).rd o = m.rd o :=
  regGet_put_other h m.regs v

@[simp] theorem Mach.rd_emit (m : Mach) (w : String) (i : Nat) (x : Int) (b : List Byte) (o : Nat) : (m.emit w i x b).rd o = m.rd o :=
  rfl

/-! ### Fields -/

theorem fldPut_toNat {f : Fld} (hf : f.lo ≤ f.hi) (hh : f.hi < 32) (w : Word) (v : Nat) :
    (fldPut f w v).toNat
      = w.toNat / 2 ^ (f.hi + 1) * 2 ^ (f.hi + 1) + (v % 2 ^ fldWidth f * 2 ^ f.lo + w.toNat % 2 ^ f.lo)
    ∧ v % 2 ^ fldWidth f * 2 ^ f.lo + w.toNat % 2 ^ f.lo < 2 ^ (f.hi + 1) := by
  have hw : w.toNat < 2 ^ 32 := w.isLt
  have hlo := Nat.mod_lt w.toNat (Nat.two_pow_pos f.lo)
  have hv := Nat.mod_lt v (Nat.two_pow_pos (fldWidth f))
  have hsplit : 2 ^ (f.hi + 1) = 2 ^ fldWidth f * 2 ^ f.lo := by
    rw [← Nat.pow_add]
    congr 1
    simp only [fldWidth]
    omega
  have h32 : 2 ^ 32 = 2 ^ (31 - f.hi) * 2 ^ (f.hi + 1) := by
    rw [← Nat.pow_add]
    congr 1
    omega
  have hq : w.toNat / 2 ^ (f.hi + 1) < 2 ^ (31 - f.hi) := by
    rw [Nat.div_lt_iff_lt_mul (Nat.two_pow_pos _), ← h32]
    exact hw
  simp only [fldPut, BitVec.toNat_ofNat]
  generalize w.toNat / 2 ^ (f.hi + 1) = q at *
  generalize w.toNat % 2 ^ f.lo = r at *
  generalize v % 2 ^ fldWidth f = x at *
  have hx : x * 2 ^ f.lo + r < 2 ^ (f.hi + 1) := by
    rw [hsplit]
    calc x * 2 ^ f.lo + r < x * 2 ^ f.lo + 2 ^ f.lo := by omega
      _ = (x + 1) * 2 ^ f.lo := by rw [Nat.add_mul, Nat.one_mul]
      _ ≤ 2 ^ fldWidth f * 2 ^ f.lo := Nat.mul_le_mul_right _ hv
  have hlt : q * 2 ^ (f.hi + 1) + (x * 2 ^ f.lo + r) < 2 ^ 32 := by
    rw [h32]
    calc q * 2 ^ (f.hi + 1) + (x * 2 ^ f.lo + r) < q * 2 ^ (f.hi + 1) + 2 ^ (f.hi + 1) := by omega
      _ = (q + 1) * 2 ^ (f.hi + 1) := by rw [Nat.add_mul, Nat.one_mul]
      _ ≤ 2 ^ (31 - f.hi) * 2 ^ (f.hi + 1) := Nat.mul_le_mul_right _ hq
  exact ⟨by rw [Nat.add_assoc, Nat.mod_eq_of_lt hlt], hx⟩

/-- The field written. -/
theorem fldGet_put_same {f : Fld} (hf : f.lo ≤ f.hi) (hh : f.hi < 32) (w : Word) (v : Nat) :
    fldGet f (fldPut f w v) = v % 2 ^ fldWidth f := by
  obtain ⟨e, -⟩ := fldPut_toNat hf hh w v
  have hsplit : 2 ^ (f.hi + 1) = 2 ^ fldWidth f * 2 ^ f.lo := by
    rw [← Nat.pow_add]
    congr 1
    simp only [fldWidth]
    omega
  simp only [fldGet, e]
  rw [hsplit, ← Nat.mul_assoc, ← Nat.add_assoc, ← Nat.add_mul, Nat.add_comm, Nat.add_mul_div_right _ _ (Nat.two_pow_pos _),
    Nat.div_eq_of_lt (Nat.mod_lt _ (Nat.two_pow_pos _)), Nat.zero_add, Nat.add_comm, Nat.add_mul_mod_self_right, Nat.mod_mod]

/-- A field read after it is written. -/
theorem Mach.g_s_same (m : Mach) {f : Fld} (hf : f.lo ≤ f.hi) (hh : f.hi < 32) (v : Nat) :
    (m.s f v).g f = v % 2 ^ fldWidth f := by
  simp only [Mach.g, Mach.s, Mach.rd_wr_same, fldGet_put_same hf hh]

/-- A field of another register. -/
theorem Mach.g_s_other {f g : Fld} (h : g.off ≠ f.off) (m : Mach) (v : Nat) : (m.s f v).g g = m.g g := by
  simp only [Mach.g, Mach.s, Mach.rd_wr_other h]

/-- A field above the one written. -/
theorem fldGet_put_above {f g : Fld} (hf : f.lo ≤ f.hi) (hh : f.hi < 32) (h : f.hi < g.lo) (w : Word) (v : Nat) :
    fldGet g (fldPut f w v) = fldGet g w := by
  obtain ⟨e, hx⟩ := fldPut_toNat hf hh w v
  have hp : 2 ^ g.lo = 2 ^ (f.hi + 1) * 2 ^ (g.lo - (f.hi + 1)) := by
    rw [← Nat.pow_add]
    congr 1
    omega
  simp only [fldGet, e]
  rw [hp, ← Nat.div_div_eq_div_mul, ← Nat.div_div_eq_div_mul, Nat.add_comm, Nat.add_mul_div_right _ _ (Nat.two_pow_pos _),
    Nat.div_eq_of_lt hx, Nat.zero_add]

/-- A field below the one written. -/
theorem fldGet_put_below {f g : Fld} (hf : f.lo ≤ f.hi) (hh : f.hi < 32) (hg : g.lo ≤ g.hi) (h : g.hi < f.lo) (w : Word)
    (v : Nat) : fldGet g (fldPut f w v) = fldGet g w := by
  obtain ⟨e, -⟩ := fldPut_toNat hf hh w v
  have hmod : ∀ x : Nat, x / 2 ^ g.lo % 2 ^ fldWidth g = x % 2 ^ (g.hi + 1) / 2 ^ g.lo := by
    intro x
    have hp : 2 ^ (g.hi + 1) = 2 ^ g.lo * 2 ^ fldWidth g := by
      rw [← Nat.pow_add]
      congr 1
      simp only [fldWidth]
      omega
    rw [hp, Nat.mod_mul_right_div_self]
  have hd : 2 ^ (g.hi + 1) ∣ 2 ^ f.lo := Nat.pow_dvd_pow 2 (by omega)
  have hd' : 2 ^ (g.hi + 1) ∣ 2 ^ (f.hi + 1) := Nat.pow_dvd_pow 2 (by omega)
  simp only [fldGet, hmod, e]
  congr 1
  rw [Nat.add_mod, Nat.mod_eq_zero_of_dvd (Nat.dvd_mul_left_of_dvd hd' _), Nat.zero_add, Nat.mod_mod, Nat.add_mod,
    Nat.mod_eq_zero_of_dvd (Nat.dvd_mul_left_of_dvd hd _), Nat.zero_add, Nat.mod_mod, Nat.mod_mod_of_dvd _ hd]

/-- A field of the same register beside the one written. -/
theorem Mach.g_s_beside (m : Mach) {f g : Fld} (hf : f.lo ≤ f.hi) (hh : f.hi < 32) (hg : g.lo ≤ g.hi)
    (hfg : f.hi < g.lo ∨ g.hi < f.lo) (v : Nat) : (m.s f v).g g = m.g g := by
  by_cases ho : g.off = f.off
  · rcases hfg with h' | h'
    · simp only [Mach.g, Mach.s, ho, Mach.rd_wr_same, fldGet_put_above hf hh h']
    · simp only [Mach.g, Mach.s, ho, Mach.rd_wr_same, fldGet_put_below hf hh hg h']
  · exact Mach.g_s_other ho m v

end Sys2Proof.Machine
end

