-- ==== Sys2Proof/Laws/Ops.lean ====
section
/-!
SUPPORT. What admission and the shared part of a command do, said once.
-/
namespace Sys2Proof.Machine

/-- A command that State.takes admits is admitted unchanged, whether or not it needs an envelope in SEALED. -/
theorem Mach.admit_takes {s : State} {c : Cmd} (h : s.takes c) (op : Nat) (ro : Bool) :
    s.m.accept s.env op c s.env.isSealed ro = (s.m, none) ∧ s.m.accept s.env op c false ro = (s.m, none) := by
  obtain ⟨⟨q, hq⟩, hl, he, hk, hb⟩ := h
  have hp : (c.path == Path.config) = false := by rw [hq]; rfl
  have hm : c.isMaint = false := by simp [Cmd.isMaint, hq]
  constructor <;> simp [Mach.accept, hp, hl, he, hb, hm, Env.isSealed, hk]

theorem runCmd_done {s : State} {c : Cmd} (h : s.takes c) (op : Nat) (need ro : Bool) (hn : need = false ∨ need = s.env.isSealed)
    {body : Env → Mach → Res} {m' : Mach} {st : Nat} {res data : List Byte} (hb : body s.env s.m = .done m' st res data)
    (hd : data.length ≤ c.bufLen) : runCmd op c need ro body s.env s.m = m'.complete s.env op c st res data := by
  have ha : s.m.accept s.env op c need ro = (s.m, none) := by
    rcases hn with rfl | rfl
    · exact (Mach.admit_takes h op ro).2
    · exact (Mach.admit_takes h op ro).1
  have : ¬ c.bufLen < data.length := Nat.not_lt.mpr hd
  simp [runCmd, ha, hb, this]

theorem runCmd_wait {s : State} {c : Cmd} (h : s.takes c) (op : Nat) (need ro : Bool) (hn : need = false ∨ need = s.env.isSealed)
    {body : Env → Mach → Res} {m' : Mach} (hb : body s.env s.m = .wait m') : runCmd op c need ro body s.env s.m = m' := by
  have ha : s.m.accept s.env op c need ro = (s.m, none) := by
    rcases hn with rfl | rfl
    · exact (Mach.admit_takes h op ro).2
    · exact (Mach.admit_takes h op ro).1
  simp [runCmd, ha, hb]

/-- The meaning of a command that State.takes admits and whose own part is done. -/
theorem State.command_done {s : State} {c : Cmd} (h : s.takes c) {op : Nat} {need : Env → Bool} {ro : Bool} {body : Env → Mach → Res}
    {m' : Mach} {st : Nat} {res data : List Byte} (hb : body s.env s.m = .done m' st res data)
    (hn : need s.env = false ∨ need s.env = s.env.isSealed) (hd : data.length ≤ c.bufLen) :
    s.act (fun e m => runCmd op c (need e) ro body e m) = s.answers op c m' st res data := by
  simp only [State.act, State.answers, runCmd_done h op (need s.env) ro hn hb hd]

/-- The meaning of a command that State.takes admits and whose own part goes on. -/
theorem State.command_wait {s : State} {c : Cmd} (h : s.takes c) {op : Nat} {need : Env → Bool} {ro : Bool} {body : Env → Mach → Res}
    {m' : Mach} (hb : body s.env s.m = .wait m') (hn : need s.env = false ∨ need s.env = s.env.isSealed) :
    s.act (fun e m => runCmd op c (need e) ro body e m) = s.becomes m' := by
  simp only [State.act, State.becomes, runCmd_wait h op (need s.env) ro hn hb]

end Sys2Proof.Machine
end

