-- ==== Sys2Proof/Laws/Events.lean ====
section
/-!
SUPPORT. What events, records and completions leave alone: they write registers of the host interface and of the recorder only.
-/
namespace Sys2Proof.Machine

theorem Mach.alike_refl (m : Mach) : m.alike m := fun _ _ => rfl

theorem Mach.alike_trans {a b c : Mach} (h : a.alike b) (h' : b.alike c) : a.alike c := fun off ho => (h' off ho).trans (h off ho)

theorem Mach.alike_regs {m m' : Mach} (h : m'.regs = m.regs) : m.alike m' := by
  intro off _
  simp only [Mach.rd, h]

theorem Mach.alike_wr {m m' : Mach} (h : m.alike m') {off : Nat} (hf : ¬ farReg off) (v : Word) : m.alike (m'.wr off v) := by
  intro o ho
  rw [Mach.rd_wr_other (by rintro rfl; exact hf ho)]
  exact h o ho

theorem Mach.alike_s {m m' : Mach} (h : m.alike m') {f : Fld} (hf : ¬ farReg f.off) (v : Nat) : m.alike (m'.s f v) :=
  Mach.alike_wr h hf _

theorem Mach.alike_sb {m m' : Mach} (h : m.alike m') {f : Fld} (hf : ¬ farReg f.off) (v : Bool) : m.alike (m'.sb f v) :=
  Mach.alike_wr h hf _

theorem Mach.alike_addSat {m m' : Mach} (h : m.alike m') {f : Fld} (hf : ¬ farReg f.off) (v : Nat) : m.alike (m'.addSat f v) :=
  Mach.alike_wr h hf _

theorem Mach.alike_up {m m' : Mach} (h : m.alike m') {f : Fld} (hf : ¬ farReg f.off) : m.alike (m'.up f) :=
  Mach.alike_wr h hf _

theorem Mach.alike_upWrap {m m' : Mach} (h : m.alike m') {f : Fld} (hf : ¬ farReg f.off) : m.alike (m'.upWrap f) :=
  Mach.alike_wr h hf _

theorem Mach.alike_setBit {m m' : Mach} (h : m.alike m') {off : Nat} (hf : ¬ farReg off) (i : Nat) (v : Bool) :
    m.alike (m'.setBit off i v) :=
  Mach.alike_wr h hf _

theorem fldGet_lt (f : Fld) (w : Word) : fldGet f w < 2 ^ fldWidth f := Nat.mod_lt _ (Nat.two_pow_pos _)

/-- A field's value fits its width. -/
theorem Mach.g_lt (m : Mach) (f : Fld) : m.g f < 2 ^ fldWidth f := fldGet_lt _ _

theorem Mach.alike_bufSync {m m' : Mach} (h : m.alike m') : m.alike m'.bufSync := by
  unfold Mach.bufSync
  refine Mach.alike_s (Mach.alike_s ?_ (by decide) _) (by decide) _
  split
  · exact Mach.alike_setBit (Mach.alike_sb h (by decide) _) (by decide) _ _
  · exact h

theorem Mach.alike_peatDrop {m m' : Mach} (h : m.alike m') (sev : Nat) : m.alike (m'.peatDrop sev) := by
  unfold Mach.peatDrop
  exact Mach.alike_trans (Mach.alike_setBit (Mach.alike_sb (Mach.alike_up h (by decide)) (by decide) _)
    (by decide) _ _) (Mach.alike_regs rfl)

/-- A record entering the write buffer. -/
theorem Mach.alike_record {m m' : Mach} (h : m.alike m') (r : PeatRec) : m.alike (m'.record r) := by
  unfold Mach.record
  split
  · exact Mach.alike_up h (by decide)
  · split
    · exact Mach.alike_peatDrop h _
    · exact Mach.alike_bufSync (Mach.alike_trans h (Mach.alike_regs rfl))

theorem Mach.alike_anchor {m m' : Mach} (h : m.alike m') (e : Env) (flags : Nat) : m.alike (m'.anchor e flags) :=
  Mach.alike_record h _

/-- The registers of a queue lie in the host interface. -/
theorem qSts_near (t : QType) {n : Nat} (h : n < 16) : ¬ farReg (qSts t n) := by
  cases t <;> simp [farReg, qSts, QType.base] <;> omega

theorem Mach.alike_setRing {m m' : Mach} (h : m.alike m') (t : QType) {n : Nat} (hn : n < 16) (r : Ring) :
    m.alike (m'.setRing t n r) := by
  unfold Mach.setRing
  exact Mach.alike_s (Mach.alike_trans h (Mach.alike_regs rfl)) (qSts_near t hn) _

theorem Mach.hostStore_regs (m : Mach) (a : Nat) (b : List Byte) : (m.hostStore a b).regs = m.regs := rfl

theorem iter_regs {n : Nat} {f : Nat → Mach → Mach} (hf : ∀ i m, (f i m).regs = m.regs) (m : Mach) : (iter n f m).regs = m.regs := by
  unfold iter
  generalize List.range n = l
  induction l generalizing m with
  | nil => rfl
  | cons a l ih => exact (ih _).trans (hf a m)

/-- Writing the slots of an entry in host memory moves no register. -/
theorem Mach.storeHeld_regs (m : Mach) (t : QType) (n i : Nat) (h : Held) : (m.storeHeld t n i h).regs = m.regs :=
  (Mach.hostStore_regs _ _ _).trans (iter_regs (fun _ _ => Mach.hostStore_regs _ _ _) m)

theorem Mach.storeShadow_regs (m : Mach) (t : QType) (n : Nat) (a : Stamp) : (m.storeShadow t n a).regs = m.regs := rfl

theorem Mach.alike_push {m m' : Mach} (h : m.alike m') (t : QType) {n : Nat} (hn : n < 16) (r : Ring) (x : Held) :
    m.alike (m'.push t n r x) :=
  Mach.alike_trans (Mach.alike_setRing (Mach.alike_trans h (Mach.alike_regs (Mach.storeHeld_regs _ _ _ _ _))) t hn _)
    (Mach.alike_regs (Mach.storeShadow_regs _ _ _ _))

theorem Mach.alike_putEvent {m m' : Mach} (h : m.alike m') (e : Env) {q : Nat} (hq : q < 16) (sev code : Nat) (p : List Byte) :
    m.alike (m'.putEvent e q sev code p) := by
  unfold Mach.putEvent
  exact Mach.alike_setBit (Mach.alike_push h _ hq _ _) (by decide) _ _

theorem Mach.alike_eqDrop {m m' : Mach} (h : m.alike m') {q : Nat} (hq : q < 16) : m.alike (m'.eqDrop q) := by
  unfold Mach.eqDrop
  exact Mach.alike_setBit (Mach.alike_up (Mach.alike_up (Mach.alike_setRing h _ hq _) (qSts_near .eq hq)) (by decide))
    (by decide) _ _

theorem Mach.alike_toEq {m m' : Mach} (h : m.alike m') (e : Env) {q : Nat} (hq : q < 16) (sev code : Nat) (p : List Byte) :
    m.alike (m'.toEq e q sev code p) := by
  unfold Mach.toEq
  split
  · exact h
  · split
    · exact Mach.alike_putEvent h e hq _ _ _
    · exact Mach.alike_eqDrop h hq

theorem Mach.routed_lt (m : Mach) (b : Nat) : m.g (.HIF_EVT_ROUTEb_eq b) < 16 :=
  Nat.lt_of_lt_of_le (Mach.g_lt m _) (by simp [fldWidth, Fld.HIF_EVT_ROUTEb_eq])

theorem Mach.alike_route {m m' : Mach} (h : m.alike m') (e : Env) (sev code : Nat) (p : List Byte) : m.alike (m'.route e sev code p) := by
  unfold Mach.route
  simp only
  split
  · exact Mach.alike_toEq h e (Mach.routed_lt _ _) _ _ _
  · exact h

theorem Mach.alike_tellDrops {m m' : Mach} (h : m.alike m') (e : Env) {q : Nat} (hq : q < 16) : m.alike (m'.tellDrops e q) := by
  unfold Mach.tellDrops
  simp only
  split
  · exact Mach.alike_putEvent (Mach.alike_record (Mach.alike_setRing h _ hq _) _) e hq _ _ _
  · exact h

/-- An event is posted: only registers of the host interface and of the recorder move. -/
theorem Mach.alike_event {m m' : Mach} (h : m.alike m') (e : Env) (code : Nat) (psev : Option Nat) (p : List Byte) :
    m.alike (m'.event e code psev p) := by
  unfold Mach.event
  simp only
  refine Mach.alike_route (Mach.alike_tellDrops ?_ e (Mach.routed_lt _ _)) e _ _ _
  cases psev with
  | none => exact h
  | some sev => exact Mach.alike_record h _

theorem Mach.alike_note {m m' : Mach} (h : m.alike m') (e : Env) (code : Nat) (p : List Byte) : m.alike (m'.note e code p) :=
  Mach.alike_event h e code none p

theorem Mach.rd_event (m : Mach) (e : Env) (code : Nat) (psev : Option Nat) (p : List Byte) {off : Nat} (h : farReg off) :
    (m.event e code psev p).rd off = m.rd off :=
  Mach.alike_event (Mach.alike_refl m) e code psev p off h

theorem Mach.g_event (m : Mach) (e : Env) (code : Nat) (psev : Option Nat) (p : List Byte) {f : Fld} (h : farReg f.off) :
    (m.event e code psev p).g f = m.g f := by
  simp only [Mach.g, Mach.rd_event m e code psev p h]

theorem Mach.g_anchor (m : Mach) (e : Env) (flags : Nat) {f : Fld} (h : farReg f.off) : (m.anchor e flags).g f = m.g f := by
  simp only [Mach.g, Mach.alike_anchor (Mach.alike_refl m) e flags f.off h]

theorem Mach.alike_sqSync {m m' : Mach} (h : m.alike m') {q : Nat} (hq : q < 16) : m.alike (m'.sqSync q) := by
  unfold Mach.sqSync
  exact Mach.alike_sb (Mach.alike_s h (qSts_near .sq hq) _) (qSts_near .sq hq) _

theorem Mach.alike_toCq {m m' : Mach} (h : m.alike m') (e : Env) {q : Nat} (hq : q < 16) (index cid sq op st : Nat) (quiet : Bool)
    (res data : List Byte) : m.alike (m'.toCq e q index cid sq op st quiet res data) := by
  unfold Mach.toCq
  simp only
  split
  · exact Mach.alike_setRing h _ hq _
  · exact Mach.alike_setBit (Mach.alike_push h _ hq _ _) (by decide) _ _

/-- A completion of a submission-queue command. -/
theorem Mach.alike_complete {m m' : Mach} (h : m.alike m') (e : Env) (op : Nat) {c : Cmd} {q : Nat} (hc : c.path = .queue q) (hq : q < 16)
    (st : Nat) (res data : List Byte) : m.alike (m'.complete e op c st res data) := by
  have h0 : m.alike { m' with hif := { m'.hif with prog := progRemove q c.cid op m'.hif.prog } } :=
    Mach.alike_trans h (Mach.alike_regs rfl)
  have h1 := Mach.alike_upWrap (Mach.alike_sqSync h0 hq) (f := .HIF_CMD_CNT_done) (by decide)
  unfold Mach.complete
  simp only [hc]
  generalize (({ m' with hif := { m'.hif with prog := progRemove q c.cid op m'.hif.prog } }.sqSync q).upWrap .HIF_CMD_CNT_done) = m1 at h1 ⊢
  have h2 : m.alike (if data.isEmpty = true then m1 else m1.hostStore c.bufAddr data) := by
    split
    · exact h1
    · exact Mach.alike_trans h1 (Mach.alike_regs rfl)
  cases hf : m'.hif.prog.find? fun p => p.sq == q && p.cid == c.cid && p.op == op with
  | none =>
    have hb : m'.g (.HIF_SQq_CFG_cq q) < 16 := Nat.lt_of_lt_of_le (Mach.g_lt m' _) (by simp [fldWidth, Fld.HIF_SQq_CFG_cq])
    simp only [Bool.false_eq_true, if_false]
    exact Mach.alike_toCq h2 e hb _ _ _ _ _ _ _ _
  | some p =>
    have hb : p.cq % 16 < 16 := Nat.mod_lt _ (by decide)
    simp only
    split
    · exact h1
    · exact Mach.alike_toCq h2 e hb _ _ _ _ _ _ _ _

end Sys2Proof.Machine
end

