-- ==== Sys2Proof/Tests/Slice0.lean ====
section
/-!
SUPPORT. The model's own tests: the operand checks refuse what they must, one step of a command on a small state does what the spec's words or a
hand calculation from them say, and every statement with premises has a state and operands that meet them.
-/
namespace Sys2Proof.Tests
open Sys2Proof Sys2Proof.Machine

set_option Elab.async false

/-- Bytes written as numbers. -/
def bs (l : List Nat) : List Byte := l.map (BitVec.ofNat 8)

/-- A command of SQ 0 with a result buffer of 4096 bytes. -/
def cmd (ps : List Nat) : Cmd := ⟨.queue 0, 1, false, false, [], 0, 4096, 0x1000, bs ps, []⟩

/-- The same with data. -/
def cmdD (ps : List Nat) (d : List Byte) : Cmd := { cmd ps with data := d, dataLen := d.length }

/-- The same on the maintenance path. -/
def cmdM (ps : List Nat) : Cmd := { cmd ps with path := .maint 0 7, bufLen := 0, bufAddr := 0 }

def s0 : State := State.reset

/-- A state with some fields of its registers set. -/
def put (l : List (Fld × Nat)) (s : State) : State := { s with m := l.foldl (fun m x => m.s x.1 x.2) s.m }

/-- A state with its machine changed. -/
def withM (f : Mach → Mach) (s : State) : State := { s with m := f s.m }

/-- A state ten seconds on. -/
def later (s : State) : State := { s with env := { s.env with time := { s.env.time with sec := 10 }, powered := 2500000000 } }

theorem takes_of {s : State} {c : Cmd} (h : (c.path == .queue c.sq && !c.lenBad && c.env.isEmpty && !s.env.locked && !s.m.b .GEN_START_boot_rom) = true) :
    s.takes c := by
  simp only [Bool.and_eq_true, beq_iff_eq, Bool.not_eq_true', List.isEmpty_iff] at h
  exact ⟨⟨_, h.1.1.1.1⟩, h.1.1.1.2, h.1.1.2, h.1.2, h.2⟩

/-! ### Premises that can be met: the whole machine -/

def toHear (m : Mach) (h : LinkHdr) (typ : Nat) : Mach := (m.linkForward h typ).setStk fun x => { x with seqIn := setAssoc (linkKey h typ) h.seq x.seqIn }

theorem hears_of {m : Mach} {h : LinkHdr} {typ : Nat}
    (w : (decide (h.port < 2) && m.b (lkUp h.port) && h.crcOk && h.src != m.pos && h.dest.testBit m.pos && m.linkNew h typ) = true) :
    m.hears h typ (toHear m h typ) := by
  simp only [Bool.and_eq_true, decide_eq_true_eq, bne_iff_ne, ne_eq] at w
  exact ⟨w.1.1.1.1.1, w.1.1.1.1.2, w.1.1.1.2, w.1.1.2, w.1.2, w.2, rfl⟩

/-- A frame of position 1 at port 0 for every position. -/
def hdr : LinkHdr := ⟨0, 1, 63, 0, 5, 0, true⟩

/-- Port 0 up, and position 0. -/
def linked (s : State) : State := put [(lkUp 0, 1)] s

theorem witness_StepRunsTheFrontCommand : { s0 with pending := [.baseTick, .enableFall] }.pending = .baseTick :: [.enableFall] := rfl

theorem witness_IdleStepIsOneTimeCycle :
    (s0.pending = [] ∧ 2 ≤ s0.m.state ∧ s0.Inv ∧ s0.env.time.ns * 2 ^ 32 + s0.env.time.frac + s0.env.time.inc < 1000000000 * 2 ^ 32)
    ∧ ∃ s : State, s = { s0 with env := { s0.env with time := ⟨0, 999999999, 4294967295, 0x400000000⟩ } } ∧ s.pending = [] ∧ 2 ≤ s.m.state ∧ s.Inv
      ∧ 1000000000 * 2 ^ 32 ≤ s.env.time.ns * 2 ^ 32 + s.env.time.frac + s.env.time.inc :=
  ⟨⟨rfl, by decide, by simp [State.Inv, s0, State.reset, Timebase.ok, Timebase.reset, incOk], by decide⟩,
    _, rfl, rfl, by decide, by simp [State.Inv, Timebase.ok, incOk], by decide⟩

theorem witness_EveryStepKeepsTheTimebase : s0.Inv ∧ ∃ t, step s0 = .next t :=
  ⟨by simp [State.Inv, s0, State.reset, Timebase.ok, Timebase.reset, incOk], _, rfl⟩

theorem witness_EveryStepKeepsTheVault : ∃ t, step s0 = .next t := ⟨_, rfl⟩

theorem witness_OnlyAbsentInstancesStop :
    (∃ t, exec (.nop (cmd [])) s0 = .next t) ∧ exec (.tpoEdge 8) s0 = .fault .noInstance ∧ (Instr.tpoEdge 8).wf = false :=
  ⟨⟨_, rfl⟩, rfl, rfl⟩

theorem witness_OnlyNamedCommandsMoveTimeOrVault :
    ∃ t, exec .baseTick s0 = .next t ∧ movesTime .baseTick = false ∧ changesVault .baseTick = false := ⟨_, rfl, rfl, rfl⟩

/-- One bit of each access code, with a register of its kind. -/
theorem witness_AccessCodesOfAWrite :
    (∃ d, regAt Reg.TIME_DISC = some d ∧ farReg Reg.TIME_DISC ∧ d.rw.testBit 8 = true ∧ d.w1c.testBit 8 = false ∧ d.rwl.testBit 0 = true
      ∧ d.rw.testBit 0 = false ∧ d.rwq.testBit 0 = false ∧ d.w1c.testBit 0 = false ∧ d.rw.testBit 31 = false
      ∧ d.rwl.testBit 31 = false ∧ d.rwq.testBit 31 = false ∧ d.w1c.testBit 31 = false)
    ∧ (∃ d, regAt Reg.GEN_PINMUX = some d ∧ farReg Reg.GEN_PINMUX ∧ d.rwq.testBit 0 = true ∧ d.rw.testBit 0 = false ∧ d.rwl.testBit 0 = false
      ∧ d.w1c.testBit 0 = false)
    ∧ (∃ d, regAt Reg.GEN_CLK_FAIL = some d ∧ farReg Reg.GEN_CLK_FAIL ∧ d.w1c.testBit 0 = true ∧ d.rw.testBit 0 = false ∧ d.rwl.testBit 0 = false
      ∧ d.rwq.testBit 0 = false) := by decide

theorem witness_ShortStamps : (⟨34, 359738360⟩ : Stamp).toNs - (⟨34, 359738352⟩ : Stamp).toNs = 8 := by decide

def lastingTable : List FaultEntry := (List.range 63).map (fun n => ⟨1, n, 0, 1, [], true⟩) ++ [⟨2, 0, 0, 1, [], false⟩]

theorem witness_FaultTableIsBounded :
    ({ s0.m with faults := lastingTable }.faults.length ≤ 64 ∧ { s0.m with faults := lastingTable }.faults.all FaultEntry.lasting = false
      ∧ ∃ f ∈ { s0.m with faults := lastingTable }.faults, f.lasting = true)
    ∧ s0.m.faults.length < 64 := by
  refine ⟨⟨by decide, by decide, ⟨1, 0, 0, 1, [], true⟩, by decide, rfl⟩, by decide⟩

theorem witness_RecordsEnterOrDrop :
    (0 < (put [(.LOG_CFG_min_sev, 1)] s0).m.g .LOG_CFG_min_sev ∧ (put [(.LOG_CFG_min_sev, 1)] s0).m.g .LOG_CNT_filtered + 1 < 2 ^ fldWidth .LOG_CNT_filtered)
    ∧ (s0.m.g .LOG_CFG_min_sev ≤ 2 ∧ (put [(.LOG_STS_buf_high, 1)] s0).m.b .LOG_STS_buf_high = true)
    ∧ (s0.m.g .LOG_CFG_min_sev ≤ 3 ∧ bufFill s0.m.peat.buffer + recSize ⟨3, 1, 0x1001, [], none⟩ ≤ bufSize ∧ (0x1001 : Nat) ≠ typAnchor) := by decide

/-- An event queue of 16 entries, with one event of the size of one slot held. -/
def sEq : State := put [(qEn .eq 0, 1), (qK .eq 0, 4)] s0

theorem witness_EventsLeaveOneEntryFree :
    0 < sEq.m.hif.eq.length ∧ 1 ≤ sEq.m.ringSize .eq 0 ∧ sEq.m.ringUsed .eq 0 + 1 ≤ sEq.m.ringSize .eq 0 ∧ sEq.m.ringOpen .eq 0 = true := by decide

theorem witness_AbsentInstancesAnswerRange :
    s0.takes (cmd [8]) ∧ s0.takes (cmd [12]) ∧ s0.takes (cmd [24]) ∧ s0.takes (cmd [0, 48]) ∧ s0.takes (cmd [4]) ∧ s0.takes (cmd [2])
      ∧ (cmd [8]).u8 0 = 8 ∧ (cmd [0, 48]).u8 1 = 48 :=
  ⟨takes_of (by decide), takes_of (by decide), takes_of (by decide), takes_of (by decide), takes_of (by decide), takes_of (by decide), by decide, by decide⟩

theorem witness_ReportsChangeNothingElse : s0.takes (cmd []) ∧ (cmd []).path = .queue 0 ∧ (cmd []).u8 0 % 2 = 0 :=
  ⟨takes_of (by decide), rfl, by decide⟩

/-! ### Premises that can be met: cycles, registers and time -/

def sGrid : State := withM (fun m => { m with grid := { m.grid with running := true, first := false } }) s0

/-- A module that runs its self-test, and its start's self-check for the third time. -/
def sTest : State := put [(.SLV_STS_state, 3)] (withM (fun m => { m with slv := { m.slv with selfTest := some none } }) s0)

def sCheck : State := withM (fun m => { m with boot := { m.boot with checking := true, fails := 2 } }) sTest

theorem witness_CyclesAndTicks :
    s0.m.grid.running = false
    ∧ (sGrid.m.grid.running = true ∧ sGrid.m.grid.first = false ∧ sGrid.m.time.step = none ∧ sGrid.m.grid.next ≤ sGrid.env.ns)
    ∧ (∃ s : State, s.m.grid.running = true ∧ s.env.ns < s.m.grid.next)
    ∧ (put [(.STK_STS_pos, 1), (.STK_STS_role, 1)] s0).m.shadows = true ∧ s0.m.shadows = false
    ∧ (withM (fun m => { m with clk := List.replicate 12 ⟨0, 0, 3, some 0⟩ }) s0).m.clkDue s0.env 4 = false
    ∧ (s0.m.clk.length = 12 ∧ nth ClkMon.reset s0.m.clk 11 = ⟨0, 0, 0, none⟩ ∧ s0.m.clkDue s0.env 11 = true ∧ clkIn 11 32768 = true ∧ clkIn 4 25125 = true ∧ clkIn 4 25126 = false)
    ∧ (∃ s : State, s.m.clk.length = 12 ∧ (nth ClkMon.reset s.m.clk 11).both = 2 ∧ s.m.clkDue s.env 11 = true ∧ clkIn 11 33096 = false)
    ∧ (sTest.m.selfTesting = true ∧ sTest.m.boot.checking = false)
    ∧ (sCheck.m.selfTesting = true ∧ sCheck.m.boot.checking = true ∧ 2 ≤ (sCheck.m.selfTestEnd sCheck.env 0).boot.fails)
    ∧ 2 ≤ (sCheck.m.selfTestEnd sCheck.env 1).boot.fails
    ∧ (s0.m.grid.fh = none ∧ s0.m.str.tick = none ∧ s0.m.str.out = none)
    ∧ (∃ m : Mach, m.grid.fh = some (s0.env.ns / 200000000 * 200000000) ∧ m.str.tick = some (s0.env.ns / s0.m.tickNs * s0.m.tickNs)
        ∧ m.str.out = some s0.env.ns)
    ∧ (∃ m : Mach, m.str.out = some (s0.env.ns + 1)) := by
  refine ⟨by decide, by decide, ⟨withM (fun m => { m with grid := { m.grid with next := 1 } }) sGrid, by decide⟩, by decide, by decide, by decide,
    by decide, ⟨withM (fun m => { m with clk := List.replicate 12 ⟨2, 0, 3, none⟩ }) s0, by decide⟩, by decide, by decide, by decide, by decide,
    ⟨{ s0.m with grid := { s0.m.grid with fh := some (s0.env.ns / 200000000 * 200000000) }, str := { s0.m.str with tick := some (s0.env.ns / s0.m.tickNs * s0.m.tickNs), out := some s0.env.ns } }, rfl, rfl, rfl⟩,
    ⟨{ s0.m with str := { s0.m.str with out := some (s0.env.ns + 1) } }, rfl⟩⟩

/-- A SYNCING controller at position 0, in the phase that takes the configuration. -/
def sSync : State := put [(.STK_STS_role, 2), (.STK_SYNC_STS_phase, 2)] (linked s0)

theorem witness_CyclesAndTicks_frames :
    sSync.m.hears hdr 0xA (toHear sSync.m hdr 0xA) ∧ (toHear sSync.m hdr 0xA).stk.seqIn ≠ sSync.m.stk.seqIn ∧ (toHear sSync.m hdr 0xA).role = 2
      ∧ (toHear sSync.m hdr 0xA).g .STK_SYNC_STS_phase = 2 :=
  ⟨hears_of (by decide), by decide, by decide, by decide⟩

/-- Port 0 up, with the maintenance service. -/
def sMaint : State := put [(.NETp_CTRL_en 0, 1), (.NETp_STS_link 0, 1), (.NETp_CTRL_maint 0, 1), (.NETp_MAINT_port 0, 5000), (.NETp_IP_addr 0, 0x0A000001)] s0

theorem witness_RegisterAccesses :
    (Reg.TIME_NOW_SL ∈ snapOf Reg.TIME_NOW_NS ∧ s0.m.latch = [] ∧ (put [(.GEN_STATE_state, 1)] s0).m.state < 2 ∧ 2 ≤ s0.m.state
      ∧ famIdx (Reg.CAPk_SH 0) 0x20 8 Reg.TIME_NOW_NS = none ∧ famIdx (Reg.IRQ_VECv_CLAIM 0) 4 32 Reg.TIME_NOW_NS = none
      ∧ famIdx (Reg.IRQ_CLAIMEDw 0) 4 16 Reg.TIME_NOW_NS = none)
    ∧ (∃ d : RegDef, regAt Reg.LOG_IRQ_STS = some d ∧ 0xD0000 ≤ Reg.LOG_IRQ_STS ∧ hostIgnores d true true 0 0 = false)
    ∧ (∃ s : State, s.env.locked = true ∧ ((s.m.rd Reg.GEN_PINMUX ^^^ 0) &&& 0xFF) = 0)
    ∧ (sMaint.m.netUp 0 = true ∧ sMaint.m.netServes 0 .maint = true ∧ sMaint.m.maintTaken sMaint.env 0 < 100
      ∧ sMaint.m.hif.maintBusy.contains (0, 7) = false ∧ (cmdM []).lenBad = false ∧ (cmdM []).env = [] ∧ sMaint.m.b .GEN_START_boot_rom = false)
    ∧ s0.m.netUp 0 = false
    ∧ ((regAt Reg.LCH_IRQ_STS).isSome = true ∧ 0x48000 ≤ Reg.LCH_IRQ_STS ∧ Reg.LCH_IRQ_STS < 0x70000 ∧ (regAt Reg.SAF_IRQ_STS).isSome = true
      ∧ 0xB0000 ≤ Reg.SAF_IRQ_STS ∧ Reg.SAF_IRQ_STS < 0xC0000 ∧ (regAt Reg.IRQ_STS).isSome = true ∧ 0x20000 ≤ Reg.IRQ_STS ∧ Reg.IRQ_STS < 0x30000
      ∧ famIdx (Reg.IRQ_SRCs_TGT 0) 4 512 Reg.IRQ_STS = none ∧ famIdx (Reg.IRQ_SWR_SETx 0) 4 3 Reg.IRQ_STS = none
      ∧ famIdx (Reg.IRQ_SWR_CLRx 0) 4 3 Reg.IRQ_STS = none)
    ∧ (Reg.TIME_DISC ≠ Reg.TIME_CTRL ∧ Reg.TIME_DISC ≠ Reg.TIME_INC_HI ∧ Reg.TIME_DISC ≠ Reg.GNS_CTRL ∧ Reg.TIME_DISC ≠ Reg.DIO_DO_CMD
      ∧ ([(Reg.TPOk_CTRL 0, 0x20, 8), (Reg.CAPk_STS 0, 0x20, 8), (Reg.PTPp_STS 0, 0x20, 2), (Reg.FBK_CHc_CFG 0, 0x80, 12), (Reg.STR_Ss_SPH 0, 0x100, 48),
          (Reg.CAN_c_CTRL 0, 0x1000, 4), (Reg.DIO_DIi_CFG 0, 0x10, 32), (Reg.IRQ_SRCs_TGT 0, 4, 512), (Reg.IRQ_SWR_SETx 0, 4, 3),
          (Reg.IRQ_SWR_CLRx 0, 4, 3)] : List (Nat × Nat × Nat)).all (fun f => (famIdx f.1 f.2.1 f.2.2 Reg.TIME_DISC).isNone) = true) :=
  ⟨by decide, ⟨⟨"LOG_IRQ_STS", 0x000d0004, 0x0, 1, 0x0, 1, 0x0, 0x0, 0x0, 0xffff, 0x0⟩, by decide⟩, ⟨{ s0 with env := { s0.env with vault := { s0.env.vault with fuses := [(true, true), (true, true), (false, false)] } } }, by decide⟩, by decide, by decide, by decide, by decide⟩

theorem witness_TimeCommandsAnswer :
    s0.takes (cmd [3, 1, 200, 0]) ∧ (cmd [3, 1, 200, 0]).u16 2 = 200
    ∧ s0.takes (cmd ([7, 2, 1, 0] ++ [0, 0, 0, 0, 0, 0] ++ [0, 0, 0, 0] ++ [16, 0, 0, 0] ++ [8, 0, 0, 0]))
    ∧ tpoOk ⟨2, 1, 0, 16, 8⟩ = true ∧ tpoOk ⟨1, 0, s0.env.time.twoAhead, 0, 8⟩ = true
    ∧ (s0.m.tpo 7).trail = none ∧ s0.takes (cmd [7, 3, 0, 1]) ∧ s0.takes (cmd [1]) :=
  ⟨takes_of (by decide), by decide, takes_of (by decide), by decide, by decide, by decide, takes_of (by decide), takes_of (by decide)⟩

/-- TIME_ADJUST with an increment at the lower limit of R55. -/
def adj : Cmd := cmd [1, 0, 0, 0, 0, 0, 0, 0, 0x23, 0xDB, 0xF9, 0xFE, 0x03]

theorem witness_TimeSetSetsTheTime :
    s0.takes (cmd []) ∧ s0.m.srcFree = true ∧ s0.m.stepAllowed = true ∧ s0.m.time.step = none ∧ s0.m.grid.running = false
    ∧ s0.takes adj ∧ adj.u8 0 = 1 ∧ incOk (adj.un 8 5) = true :=
  ⟨takes_of (by decide), by decide, by decide, by decide, by decide, takes_of (by decide), by decide, by decide⟩

theorem witness_IncrementCommits :
    (s0.m.srcFree = true ∧ incOk ((4 : Word).toNat % 256 * 2 ^ 32 + s0.m.time.incLo) = true
      ∧ incOk ((5 : Word).toNat % 256 * 2 ^ 32 + s0.m.time.incLo) = false)
    ∧ (put [(.TIME_DISC_src, 1), (.TIME_STS_src_eff, 1)] s0).m.srcFree = false := by decide

theorem witness_StepIsTakenOrRefused :
    ((1 : Word).toNat % 2 = 1 ∧ s0.m.srcFree = true ∧ stepNsOk (s0.m.gi .TIME_STEP_NS_step_ns) = true ∧ s0.m.stepAllowed = true
      ∧ s0.m.grid.running = false ∧ s0.m.time.step = none)
    ∧ (sGrid.m.srcFree = true ∧ sGrid.m.stepAllowed = true ∧ sGrid.m.grid.running = true)
    ∧ stepNsOk ((put [(.TIME_STEP_NS_step_ns, 1000000000)] s0).m.gi .TIME_STEP_NS_step_ns) = false := by decide

/-- Output 7 as set, with its next edge and its pulse's end. -/
def sTpo (trail next : Option Nat) : State :=
  withM (fun m => m.setTpo s0.env.time 7 ⟨⟨2, 1, 0, 16, 8⟩, none, false, next, none, trail⟩) s0

/-- Output 7 with admissible settings staged. -/
def sStage (period : Nat) : State := put [(.TPOk_CTRL_mode 7, 2), (.TPOk_PERIOD_period 7, period), (.TPOk_WIDTH_width 7, 8)] s0

theorem witness_TimedPulses :
    (((sTpo none (some 0)).m.tpo 7).trail = none ∧ ((sTpo none (some 0)).m.tpo 7).next = some 0 ∧ 0 ≤ (sTpo none (some 0)).env.ns
      ∧ (sTpo none (some 0)).m.time.tpo.length = 8)
    ∧ (((sTpo (some 0) none).m.tpo 7).trail = some 0 ∧ ((sTpo (some 0) none).m.tpo 7).disarm = false ∧ ((sTpo (some 0) none).m.tpo 7).pend = none)
    ∧ (((sTpo none (some 16)).m.tpo 7).trail = none ∧ ((sTpo none (some 16)).m.tpo 7).next = some 16 ∧ (sTpo none (some 16)).env.ns < 16)
    ∧ (10 : Word).toNat / 8 % 2 = 1
    ∧ (tpoOk (((sStage 16).m.hostPut false true (Reg.TPOk_CTRL 7) 10).tpoStaged 7) = true
      ∧ (((sStage 16).m.hostPut false true (Reg.TPOk_CTRL 7) 10).tpoStaged 7).mode ≠ 1) := by decide

theorem witness_PulseSettingsOutsideTheirRanges :
    tpoOk ⟨2, 0, 0, 15, 8⟩ = false ∧ s0.takes (cmd [0, 2]) ∧ tpoOk ⟨(cmd [0, 2]).u8 1, (cmd [0, 2]).u8 2,
        (cmd [0, 2]).un 4 6 * 1000000000 + (cmd [0, 2]).u32 10, (cmd [0, 2]).u32 14, (cmd [0, 2]).u32 18⟩ = false
    ∧ (10 : Word).toNat / 8 % 2 = 1 ∧ tpoOk (((sStage 15).m.hostPut (sStage 15).env.locked true (Reg.TPOk_CTRL 7) 10).tpoStaged 7) = false :=
  ⟨by decide, takes_of (by decide), by decide, by decide, by decide⟩

def sCap (n : Nat) : State := withM (fun m => { m with time := { m.time with cap := List.replicate 8 (List.replicate n ⟨⟨0, 0⟩, true⟩) } })
  (put [(.CAPk_CTRL_edge 7, 1), (.CAPk_CTRL_filt 7, 255), (.PTPp_CTRL_en 1, 1), (.PTPp_CTRL_l2 1, 1)] s0)

/-- A Sync of PTP version 2 over IEEE 802.3 (EtherType 0x88F7, messageType 0, sequenceId 5), behind one VLAN tag where asked. -/
def syncFrame (tag : Bool) : List Byte :=
  List.replicate 12 0 ++ (if tag then bs [0x81, 0, 0, 1] else []) ++ bs [0x88, 0xF7] ++ (bs [0x10, 2] ++ List.replicate 28 0 ++ bs [0, 5]) ++ List.replicate 12 0

theorem witness_CapturesAndPtpStamps :
    ((sCap 15).m.b (.CAPk_CTRL_src 7) = false ∧ (sCap 15).m.g (.CAPk_CTRL_filt 7) ≤ 255 ∧ ¬ (sCap 15).m.g (.CAPk_CTRL_filt 7) ≤ 254
      ∧ ((sCap 15).m.g (.CAPk_CTRL_edge 7)).testBit 0 = true ∧ ((sCap 15).m.cap 7).length < 16 ∧ (sCap 15).m.time.cap.length = 8)
    ∧ (((sCap 16).m.g (.CAPk_CTRL_edge 7)).testBit 0 = true ∧ 16 ≤ ((sCap 16).m.cap 7).length)
    ∧ (0x80000000 : Word).toNat / 2 ^ 31 % 2 = 1
    ∧ (ptpAt (syncFrame false) = some (14, false) ∧ ptpEvent (syncFrame false) 14 = true ∧ ptpAt (syncFrame true) = some (18, false)
      ∧ netAt (syncFrame true) 48 2 = 5)
    ∧ (s0.m.time.ptp.length = 2 ∧ (sCap 0).m.b (.PTPp_CTRL_en 1) = true ∧ (sCap 0).m.b (.PTPp_CTRL_l2 1) = true
      ∧ (sCap 0).m.b (.PTPp_CTRL_one_step 1) = false ∧ (nth [] (sCap 0).m.time.ptp 1).length < 16)
    ∧ (netAt (syncFrame false) 14 1 % 16 = 0 ∧ (put [(.PTPp_CTRL_one_step 1, 1)] (sCap 0)).m.b (.PTPp_CTRL_one_step 1) = true) := by decide

def sDisc : State := put [(.TIME_DISC_src, 1), (.TIME_STS_src_eff, 1), (.TIME_STS_valid, 1), (.GNS_STS_valid_time, 1)] s0

def sHold : State := put [(.TIME_STS_hold, 1), (.TIME_STS_bound_over, 1)] sDisc

/-- A holdover with 2 s of unbroken measurements behind it. -/
def sBack : State := withM (fun m => { m with time := { m.time with runSince := some 8000000000, lastMeas := 8500000000 } }) (later sHold)

theorem witness_DisciplineAndHoldover :
    (sDisc.m.g .TIME_STS_src_eff = 1 ∧ sDisc.m.gnssValid = true ∧ sDisc.m.b .TIME_STS_hold = false ∧ sDisc.m.b .TIME_STS_valid = true
      ∧ sDisc.m.b .TIME_DISC_allow_step = false ∧ sDisc.m.time.step = none ∧ sDisc.m.servoWindow sDisc.env = true
      ∧ incOk (clampInt ((0x400000000 : Int) - slewLimit (sDisc.m.g .TIME_SLEW_rate) 0x400000000)
          (0x400000000 + slewLimit (sDisc.m.g .TIME_SLEW_rate) 0x400000000) 0x400000000).toNat = true)
    ∧ (put [(.GNS_STS_fsi_over, 1)] sDisc).m.b .GNS_STS_fsi_over = true
    ∧ ((later sDisc).m.holdDue (later sDisc).env = true ∧ sDisc.m.holdDue sDisc.env = false)
    ∧ (sHold.m.b .TIME_STS_hold = true ∧ sHold.m.b .TIME_STS_bound_over = true ∧ sHold.m.b .GEN_CLK_REF_ref_lost = false)
    ∧ (sBack.m.b .TIME_STS_hold = true ∧ sBack.m.time.runSince = some 8000000000 ∧ 8000000000 + 2000000000 ≤ sBack.env.ns
      ∧ sBack.env.ns ≤ sBack.m.time.lastMeas + 1500000000)
    ∧ (∃ s : State, (s.m.tpo 0).next = some 200000000 ∧ s.m.ppsRole = true ∧ s.m.time.ppsReported ≠ some 200000000
      ∧ 200000000 ≤ s.env.ns + 200000000 ∧ s.env.ns + 100000000 ≤ 200000000)
    ∧ (sDisc.m.b .TIME_STS_valid = true ∧ sDisc.m.clkFailed 11 = false)
    ∧ (s0.env.time.secondStarts = true ∧ (if s0.m.b .GEN_CLK_REF_ref_sel then false else true) = true ∧ s0.m.gnsRuns = true)
    ∧ Timebase.secondStarts ⟨0, 8, 0, incNominal⟩ = false := by
  refine ⟨by decide, by decide, by decide, by decide, by decide,
    ⟨withM (fun m => m.setTpo s0.env.time 0 ⟨⟨2, 1, 0, 1000000000, 8⟩, none, false, some 200000000, none, none⟩) s0, by decide⟩, by decide, by decide, by decide⟩

/-! ### Premises that can be met: GNSS, inputs and feedback -/

/-- A frame of message type 1074 with its CRC-24Q. -/
def rtcm1074 : List Byte := bs [0xD3, 0, 2, 67, 32, 214, 158, 204]

theorem witness_GnssCommandsAnswer :
    s0.takes (cmd [3])
    ∧ ((toSigned 64 ((cmd [0, 0, 0, 0, 0, 0, 0, 0]).un 0 8)).natAbs ≤ 90000000000)
    ∧ (s0.takes (cmdD [8, 0, 0, 0] rtcm1074) ∧ (cmdD [8, 0, 0, 0] rtcm1074).u32 0 = 8
      ∧ (rtcmFrames 8 (rtcm1074.take 8) ⟨0, 0, 0, false, false⟩).dropped = 0
      ∧ (rtcmFrames 8 (rtcm1074.take 8) ⟨0, 0, 0, false, false⟩).partial_ = false
      ∧ (rtcmFrames 8 (rtcm1074.take 8) ⟨0, 0, 0, false, false⟩).corr = true)
    ∧ (s0.takes (cmd [0, 4, 0, 0, 0, 0, 0, 0, 0x50, 0xC3, 0, 0, 0, 0, 120, 0]) ∧ baseOk 50000 = true ∧ ageOk 120 = true)
    ∧ s0.takes (cmd [95, 15]) ∧ s0.takes (cmd [0xFF, 15]) ∧ s0.takes (cmd [2, 63, 1])
    ∧ (put [(qEn .stq 15, 1)] s0).takes (cmd [15, 1]) ∧ (put [(qEn .stq 15, 1)] s0).m.b (qEn .stq 15) = true :=
  ⟨takes_of (by decide +kernel), by decide +kernel, ⟨takes_of (by decide +kernel), by decide +kernel, by decide +kernel, by decide +kernel, by decide +kernel⟩, ⟨takes_of (by decide +kernel), by decide +kernel, by decide +kernel⟩,
    takes_of (by decide +kernel), takes_of (by decide +kernel), takes_of (by decide +kernel), takes_of (by decide +kernel), by decide +kernel⟩

/-- Antenna 1 enabled with its bias, in a state of R93; channel 95 searches; the notches are enabled. -/
def sGns (st : Nat) : State := put [(antState 1, st), (antEn 1, 1), (antBias 1, 1), (.GNS_CHc_STS_state 95, 1), (.GNS_CFG_notch_en, 1)] s0

theorem witness_GnssHappenings :
    ((sGns 0).m.b (antEn 1) = true ∧ (sGns 0).m.b (antBias 1) = true ∧ (sGns 0).m.g (antState 1) ≠ 2 ∧ (sGns 2).m.g (antState 1) = 2)
    ∧ (sGns 0).m.g (.GNS_CHc_STS_state 95) ≠ 0
    ∧ ((put [(.GNS_STS_no_signal, 1)] (sGns 0)).m.b .GNS_STS_no_signal = true
      ∧ (put [(.GNS_STS_no_signal, 1)] (sGns 0)).m.g (.GNS_CHc_STS_state 95) ≠ 0)
    ∧ (∃ s : State, s.m.gns.spacing.getD 95 none = some 15 ∧ s.m.chLocked 95 = true)
    ∧ ((sGns 0).m.satWeak (sGns 0).env 1 0 0 = false ∧ s0.m.satWeak s0.env 1 2 63 = true)
    ∧ ((put [(.GNS_STS_no_signal, 0)] (later s0)).m.b .GNS_STS_no_signal = false
      ∧ (List.range 96).any (put [(.GNS_STS_no_signal, 0)] (later s0)).m.chLocked = false
      ∧ (later s0).m.gns.lastLock + 1000000000 ≤ (later s0).env.ns ∧ s0.env.ns < s0.m.gns.lastLock + 1000000000)
    ∧ ((put [(.GNS_CFG_notch_en, 0)] s0).m.b .GNS_CFG_notch_en = false ∧ (sGns 0).m.b .GNS_CFG_notch_en = true
      ∧ (List.range 4).all (fun i => !(sGns 0).m.bit (notchReg (notchAt 1 1 i)) 31) = true)
    ∧ ((3 : Word).toNat % 4 ≠ 0 ∧ s0.env.locked = false)
    ∧ ((put [(.GEN_CLK_REF_ocxo_ok, 1)] s0).m.gnsRuns = true ∧ s0.m.gns.epochAt ≠ some (s0.env.ns / s0.m.gnsPeriod * s0.m.gnsPeriod)
      ∧ s0.env.ns ≤ s0.env.ns / s0.m.gnsPeriod * s0.m.gnsPeriod + 15000000) := by
  refine ⟨by decide, by decide, by decide, ⟨withM (fun m => { m with gns := { m.gns with spacing := List.replicate 96 (some 15) } })
    (put [(.GNS_CHc_STS_state 95, 3)] s0), by decide⟩, by decide +kernel, by decide +kernel, by decide +kernel, by decide, by decide +kernel⟩

/-- FIL_AN_CFG for channel 15: N 3, R 64, one output in every 1 ms, thresholds off. -/
def anCfg : Cmd := cmd [15, 0, 0, 0, 0x31, 64, 0, 0, 1, 0, 0, 0, 0, 0, 0, 0, 0, 0, 0x80, 0x7F, 0, 0, 0x80, 0xFF, 0, 0, 0, 0, 0, 0, 0, 0]

def anPut : Mach := s0.m.putImages anCfg 4 ((anCfgRegs 15).map Prod.fst)

/-- FIL_SER_CFG for port 2: 4800 baud. -/
def spCfg : Cmd := cmd [2, 0, 0, 0, 1, 0, 0, 0, 0xC0, 0x12, 0, 0, 0, 0, 0, 0, 0, 0, 0, 0, 0, 0, 0, 0, 0, 0, 0, 0]

def spPut : Mach := s0.m.putImages spCfg 4 (spCfgRegs 2)

/-- Port 2 and stream queue 15 enabled, and port 2's gap and silence timers set. -/
def sSer : State := put [(.FIL_SPp_CFG_en 2, 1), (qEn .stq 15, 1), (.FIL_SPp_GAP_gap_max 2, 1), (.FIL_SPp_GAP_silent 2, 1)] s0

theorem witness_FilterCommandsAnswer :
    (s0.takes anCfg ∧ anCfg.u8 0 = 15 ∧ s0.m.b (.FIL_ANk_CFG_en 15) = false ∧ anPut.cicCodes 15 = true ∧ anPut.cicBound 15 = true
      ∧ anPut.ratioOk 15 = true ∧ anPut.dcbOk 15 = true ∧ anPut.thrOk 15 = true)
    ∧ (sSer.takes (cmd [2, 15, 1, 0]) ∧ sSer.m.b (qEn .stq 15) = true ∧ (cmd [2, 15, 1, 0]).u16 2 ≠ 0)
    ∧ (put [(.FIL_ANk_DCB_en 15, 1)] s0).m.b (.FIL_ANk_DCB_en 15) = true
    ∧ (s0.takes spCfg ∧ spCfg.u8 0 = 2 ∧ s0.m.spUnconnected 2 = false ∧ spPut.spOk 2 = true ∧ s0.m.b (.FIL_SPp_CFG_en 2) = false)
    ∧ (sSer.takes (cmdD [2, 0, 1, 0] (bs [65])) ∧ (cmdD [2, 0, 1, 0] (bs [65])).u16 2 = 1 ∧ sSer.m.spUnconnected 2 = false
      ∧ sSer.m.b (.FIL_SPp_CFG_en 2) = true ∧ (sSer.m.sp 2).sending = none)
    ∧ 160 ≤ (cmd [0]).bufLen :=
  ⟨⟨takes_of (by decide +kernel), by decide +kernel, by decide +kernel, by decide +kernel, by decide +kernel, by decide +kernel, by decide +kernel, by decide +kernel⟩, ⟨takes_of (by decide +kernel), by decide +kernel, by decide +kernel⟩, by decide +kernel,
    ⟨takes_of (by decide +kernel), by decide +kernel, by decide +kernel, by decide +kernel, by decide +kernel⟩, ⟨takes_of (by decide +kernel), by decide +kernel, by decide +kernel, by decide +kernel, by decide +kernel⟩, by decide +kernel⟩

/-- Four parameter bytes that spell a number below 2³² are read back. -/
theorem u32_le {c : Cmd} (a : List Byte) (x : Nat) (r : List Byte) (hp : c.params = a ++ (le 4 x ++ r)) (h : x < 2 ^ 32) : c.u32 a.length = x := by
  have h4 : ((a ++ (le 4 x ++ r)).drop a.length).take 4 = le 4 x := by
    rw [List.drop_left, List.take_append_of_le_length (by simp [le])]; simp [le]
  have e : unle (le 4 x) = x := by
    simp only [le, unle, BitVec.toNat_ofNat]; omega
  show unle ((c.params.drop a.length).take 4) % 2 ^ (8 * 4) = x
  rw [hp, h4, e]; omega

/-- Channel 15 with its shunt open. -/
def sShunt : State := put [(.FIL_ANk_STS_prot 15, 1)] s0

theorem witness_FilterHappenings :
    ((anPut.b (.FIL_ANk_CFG_en 15)) = true
      ∧ ∃ s : State, s.m.b (.FIL_ANk_CFG_en 15) = false ∧ ∃ m1, m1 = s.m.hostPut s.env.locked (!s.env.locked) (Reg.FIL_ANk_CFG 15) 0x4031
          ∧ m1.b (.FIL_ANk_CFG_en 15) = true ∧ m1.cicCodes 15 = true ∧ m1.cicBound 15 = true ∧ m1.ratioOk 15 = true ∧ m1.dcbOk 15 = true)
    ∧ (∃ s : State, s.m.b (.FIL_ANk_CFG_en 15) = true ∧ s.m.ratioNominal 15 - s.m.ratioNominal 15 / 5000 ≤ s.m.ratioNominal 15)
    ∧ (∃ m : Mach, (m.an 15).nextGrid = some 0 ∧ (m.an 15).moves = [] ∧ m.fil.an.length = 16 ∧ ((m.an 15).value 3 1 (15 * 2 ^ 24)).isSome = true)
    ∧ ((s0.m.an 15).value 3 1 0 = none ∧ ((sShunt.m.b (.FIL_ANk_STS_prot 15)) = true ∧ (sShunt.m.an 15).protAt + 250000000 ≤ (later sShunt).env.powered
      ∧ sShunt.env.powered < (sShunt.m.an 15).protAt + 250000000))
    ∧ (sSer.m.b (.FIL_SPp_CFG_en 2) = true ∧ sSer.m.spUnconnected 2 = false ∧ (sSer.m.sp 2).buf = [] ∧ (sSer.m.sp 2).open_ = false
      ∧ sSer.m.fil.sp.length = 8 ∧ sSer.m.g (.FIL_SPp_CFG_frame 2) = 0)
    ∧ (sSer.m.g (.FIL_SPp_GAP_gap_max 2) ≠ 0 ∧ ((sSer.m.setSp 2 fun x => { x with buf := [(65, ⟨0, 0⟩)] }).sp 2).buf ≠ []
      ∧ (sSer.m.sp 2).charAt + sSer.m.spBits 2 (sSer.m.g (.FIL_SPp_GAP_gap_max 2)) < (later sSer).env.powered
      ∧ sSer.env.powered ≤ (sSer.m.sp 2).charAt + sSer.m.spBits 2 (sSer.m.g (.FIL_SPp_GAP_gap_max 2)))
    ∧ (sSer.m.g (.FIL_SPp_GAP_silent 2) ≠ 0 ∧ sSer.m.b (.FIL_SPp_STS_silent 2) = false
      ∧ (sSer.m.sp 2).frameAt + 250000 * sSer.m.g (.FIL_SPp_GAP_silent 2) ≤ (later sSer).env.powered
      ∧ sSer.env.powered < (sSer.m.sp 2).frameAt + 250000 * sSer.m.g (.FIL_SPp_GAP_silent 2))
    ∧ (((s0.m.setSp 7 fun x => { x with errMoved := true }).sp 7).errMoved = true ∧ (s0.m.sp 7).errAt = none
      ∧ ((s0.m.setSp 7 fun x => { x with errAt := some 0 }).sp 7).errAt = some 0 ∧ s0.env.powered < 0 + 250000000)
    ∧ (((s0.m.setSp 7 fun x => { x with sending := some (cmd [], ⟨0, 0⟩) }).sp 7).sending = some (cmd [], ⟨0, 0⟩)
      ∧ (s0.m.sp 7).txEnd ≤ s0.env.powered ∧ s0.env.powered < ((s0.m.setSp 7 fun x => { x with txEnd := 1 }).sp 7).txEnd) := by
  refine ⟨⟨by decide +kernel, put [(.FIL_ANk_OUT_out_div 15, 1)] s0, by decide +kernel, _, rfl, by decide +kernel, by decide +kernel, by decide +kernel, by decide +kernel, by decide +kernel⟩,
    ⟨put [(.FIL_ANk_CFG_en 15, 1)] s0, by decide +kernel, Nat.sub_le _ _⟩,
    ⟨s0.m.setAn 15 fun a => { a with nextGrid := some 0, have_ := 24 }, by decide +kernel, by decide +kernel, by decide +kernel, by decide +kernel⟩,
    by decide +kernel, by decide +kernel, by decide +kernel, by decide +kernel, by decide +kernel, by decide +kernel⟩

/-- FBK_CFG for channel 11: quadrature, enabled. -/
def fbCfg : Cmd := cmd [11, 0, 0, 0, 1, 0, 0, 0, 0xE8, 3, 0, 0, 0, 0, 0, 0, 0, 0, 1, 0]

def fbPut : Mach := (s0.m.putImages fbCfg 4 ((fbCfgRegs 11).map Prod.fst)).supplySync s0.env 11 s0.m

/-- FBK_EMU_CFG for emulator 3: ratio 4 to 1, its pins chosen. -/
def emCfg : Cmd := cmd [3, 0, 0, 0, 0xB1, 0, 0, 0, 4, 0, 1, 0]

def sEmu : State := put [(⟨Reg.GEN_PINMUX, 7, 7⟩, 1)] s0

def emPut : Mach := sEmu.m.putImages emCfg 4 [Reg.FBK_EMUe_CFG 3, Reg.FBK_EMUe_RATIO 3]

/-- Channel 11 enabled, with a line test due. -/
def sFb : State := put [(.FBK_CHc_CFG_en 11, 1)] s0

theorem witness_FeedbackCommandsAnswer :
    (s0.takes fbCfg ∧ fbCfg.u8 0 = 11 ∧ s0.m.fbUnconnected 11 = false ∧ s0.m.b (.FBK_CHc_CFG_en 11) = false ∧ fbPut.b (.FBK_CHc_CFG_en 11) = true
      ∧ fbPut.fbRanges 11 = true ∧ fbPut.fbCheck 11 = none)
    ∧ (s0.takes (cmd [11]) ∧ s0.m.g (.FBK_CHc_CFG_mode 11) ≠ 1)
    ∧ (put [(.FBK_CHc_CFG_idx_mode 11, 2)] s0).m.g (.FBK_CHc_CFG_idx_mode 11) = 2
    ∧ (sEmu.takes emCfg ∧ emCfg.u8 0 = 3 ∧ sEmu.m.emuUnconnected 3 = false ∧ emPut.g (.FBK_EMUe_CFG_src 3) < 12 ∧ emPut.g (.FBK_EMUe_RATIO_num 3) = 4
      ∧ emPut.g (.FBK_EMUe_RATIO_num 3) ≤ 4 * emPut.g (.FBK_EMUe_RATIO_den 3) ∧ sEmu.m.b (.FBK_EMUe_CFG_en 3) = false)
    ∧ (sSer.takes (cmd [11, 15, 1, 0]) ∧ sSer.m.b (qEn .stq 15) = true)
    ∧ (sFb.takes (cmd [11]) ∧ sFb.m.b (.FBK_CHc_CFG_en 11) = true ∧ (sFb.m.fb 11).testDue = false ∧ (sFb.m.fb 11).testCmd = none) :=
  ⟨⟨takes_of (by decide +kernel), by decide +kernel, by decide +kernel, by decide +kernel, by decide +kernel, by decide +kernel, by decide +kernel⟩, ⟨takes_of (by decide +kernel), by decide +kernel⟩, by decide +kernel,
    ⟨takes_of (by decide +kernel), by decide +kernel, by decide +kernel, by decide +kernel, by decide +kernel, by decide +kernel, by decide +kernel⟩, ⟨takes_of (by decide +kernel), by decide +kernel⟩,
    ⟨takes_of (by decide +kernel), by decide +kernel, by decide +kernel, by decide +kernel⟩⟩

theorem witness_CountIsPresetAndIndexArmed :
    (s0.takes (cmd [11]) ∧ s0.m.g (.FBK_CHc_CFG_mode 11) ≠ 1 ∧ 11 < s0.m.fbk.ch.length)
    ∧ (put [(.FBK_CHc_CFG_mode 11, 1)] s0).m.g (.FBK_CHc_CFG_mode 11) = 1
    ∧ (cmd [11, 1]).u8 1 < 2 ∧ (put [(.FBK_CHc_CFG_idx_mode 11, 2)] s0).m.g (.FBK_CHc_CFG_idx_mode 11) = 2 ∧ s0.m.g (.FBK_CHc_CFG_idx_mode 11) ≠ 2 :=
  ⟨⟨takes_of (by decide +kernel), by decide +kernel, by decide +kernel⟩, by decide +kernel, by decide +kernel, by decide +kernel, by decide +kernel⟩

/-- Channel 11 in SSI mode with a frame asked for. -/
def sSsi : State := withM (fun m => m.setFb 11 fun h => { h with req := some 0, testDue := true }) (put [(.FBK_CHc_CFG_en 11, 1), (.FBK_CHc_CFG_mode 11, 1)] s0)

def sSup : State := put [(.FBK_CHc_CFG_sup_en 11, 1), (.FBK_CHc_STS_sup_fault 11, 1)] s0

/-- Emulator 3 enabled on channel 0, whose newest sample is valid. -/
def sEmu3 : State := withM (fun m => m.setBit Reg.FBK_STS 0 true) (put [(.FBK_EMUe_CFG_en 3, 1)] s0)

theorem witness_FeedbackHappenings :
    ((sFb.m.fbk.ch.length = 12 ∧ sFb.m.b (.FBK_CHc_CFG_en 11) = true ∧ sFb.m.b (.FBK_CHc_CFG_invert 11) = false ∧ (sFb.m.fb 11).a = false
      ∧ (sFb.m.fb 11).b = false ∧ (sFb.m.fb 11).z = false ∧ sFb.m.g (.FBK_CHc_CFG_mode 11) = 0 ∧ sFb.m.g (.FBK_CHc_CFG_filt 11) + 4 ≤ 4)
      ∧ (put [(.FBK_CHc_CFG_mode 11, 3), (.FBK_CHc_CFG_filt 11, 15)] sFb).m.g (.FBK_CHc_CFG_mode 11) = 3
      ∧ (put [(.FBK_CHc_CFG_mode 11, 3), (.FBK_CHc_CFG_filt 11, 15)] sFb).m.g (.FBK_CHc_CFG_filt 11) + 4 = 19)
    ∧ (s0.m.b (.FBK_CHc_CFG_en 11) = false ∧ (1 : Word).toNat % 2 = 1 ∧ s0.m.fbUnconnected 11 = false
      ∧ ((s0.m.hostPut s0.env.locked (!s0.env.locked) (Reg.FBK_CHc_CFG 11) 1).supplySync s0.env 11 s0.m).fbCheck 11 = none)
    ∧ (1 &&& monitored (sFb.m.g (.FBK_CHc_CFG_mode 11)) ≠ 0 ∧ sFb.m.b (.FBK_CHc_CFG_en 11) = true ∧ sFb.m.b (.FBK_CHc_STS_line_err 11) = false)
    ∧ (put [(.FBK_CHc_STS_line_err 11, 1)] s0).m.b (.FBK_CHc_STS_line_err 11) = true
    ∧ ((sSsi.m.fb 11).req = some 0 ∧ sSsi.m.b (.FBK_CHc_CFG_en 11) = true ∧ sSsi.m.g (.FBK_CHc_CFG_mode 11) = 1 ∧ sSsi.m.g (.FBK_CHc_SSI_crc_w 11) = 0
      ∧ sSsi.m.b (.FBK_CHc_SSI_err_en 11) = false ∧ sSsi.m.b (.FBK_CHc_SSI_gray 11) = false ∧ sSsi.m.fbk.ch.length = 12
      ∧ (sSsi.m.fb 11).lastWord = none ∧ (sSsi.m.fb 11).testDue = true)
    ∧ (sSup.m.b (.FBK_CHc_CFG_sup_en 11) = true ∧ (put [(.FBK_CHc_STS_sup_fault 11, 0)] sSup).m.b (.FBK_CHc_STS_sup_fault 11) = false
      ∧ (sSup.m.b (.FBK_CHc_STS_sup_fault 11) = true ∧ ((sSup.m.setFb 11 fun h => { h with supAt := some 0 }).fb 11).supAt = some 0
      ∧ 0 + 250000000 ≤ (later sSup).env.powered ∧ sSup.env.powered < 0 + 250000000))
    ∧ 7500 < [7501].sum
    ∧ (∃ s : State, s.m.b (.FBK_EMUe_CFG_en 3) = true ∧ s.m.emuHeld 3 = false ∧ s.m.fbk.emu.length = 4
        ∧ (s.m.emu 3).queue = .index :: [] ∧ (s.m.emu 3).z = false)
    ∧ (∃ s : State, s.m.b (.FBK_EMUe_CFG_en 3) = true ∧ s.m.emuHeld 3 = false ∧ (s.m.emu 3).queue = .counts 1 :: []
        ∧ s.m.b (.FBK_EMUe_CFG_invert 3) = false ∧ s.m.emuReady s.env 3 = true)
    ∧ ∃ s : State, s.m.b (.FBK_EMUe_CFG_en 3) = true ∧ s.m.emuHeld 3 = false ∧ (s.m.emu 3).queue = .counts 1 :: []
        ∧ (s.m.emu 3).lastOut = some 0 ∧ s.env.powered < 0 + 25 := by
  refine ⟨by decide +kernel, by decide +kernel, by decide +kernel, by decide +kernel, by decide +kernel, by decide +kernel, by decide +kernel,
    ⟨withM (fun m => m.setEmu 3 fun u => { u with queue := [.index] }) sEmu3, by decide +kernel⟩,
    ⟨withM (fun m => m.setEmu 3 fun u => { u with queue := [.counts 1] }) sEmu3, by decide +kernel⟩,
    ⟨withM (fun m => m.setEmu 3 fun u => { u with queue := [.counts 1], lastOut := some 0 }) sEmu3, by decide +kernel⟩⟩

/-! ### Premises that can be met: fusion, law, solver and strings -/

theorem crc32c_lt (l : List Byte) : crc32c l < 2 ^ 32 := by
  have h8 : ∀ (n c : Nat), c < 2 ^ 32 →
      (List.range n).foldl (fun c _ => if c % 2 = 1 then c / 2 ^^^ 0x82F63B78 else c / 2) c < 2 ^ 32 := by
    intro n
    induction n with
    | zero => intro c h; simpa using h
    | succ n ih =>
      intro c h
      rw [List.range_succ, List.foldl_append]
      simp only [List.foldl_cons, List.foldl_nil]
      have := ih c h
      split
      · exact Nat.xor_lt_two_pow (by omega) (by decide)
      · omega
  have hl : ∀ (l : List Byte) (c : Nat), c < 2 ^ 32 →
      l.foldl (fun c b => (List.range 8).foldl (fun c _ => if c % 2 = 1 then c / 2 ^^^ 0x82F63B78 else c / 2) (c ^^^ b.toNat)) c < 2 ^ 32 := by
    intro l
    induction l with
    | nil => intro c h; exact h
    | cons b l ih => intro c h; exact ih _ (h8 8 _ (Nat.xor_lt_two_pow h (Nat.lt_trans b.isLt (by decide))))
  exact Nat.xor_lt_two_pow (hl l _ (by decide)) (by decide)

/-- A command whose parameter bytes 4 to 7 spell the CRC of its data, whatever the data. -/
theorem crc_param (k a : Nat) (d : List Byte) : crc32c ({ cmdD [] d with params := bs [k, a, 0, 0] ++ (le 4 (crc32c d) ++ []) }).data
    = ({ cmdD [] d with params := bs [k, a, 0, 0] ++ (le 4 (crc32c d) ++ []) }).u32 4 :=
  (u32_le (bs [k, a, 0, 0]) (crc32c d) [] rfl (crc32c_lt d)).symm

/-- Coefficients for chain 15. -/
@[irreducible] def coefs : List Byte := List.replicate 4224 0

def coef : Cmd := { cmd [] with data := coefs, dataLen := 4224, bufLen := 4224, params := bs [15, 0, 0, 0] ++ (le 4 (crc32c coefs) ++ [0x80, 0x10, 0, 0]) }

theorem coefs_length : coefs.length = 4224 := by rw [coefs, List.length_replicate]

theorem witness_FilterCommandsAnswer_coef :
    coef.data.length = 4224 ∧ crc32c coef.data = coef.u32 4 ∧ coef.u8 0 = 15 ∧ coef.u8 1 % 2 = 0 ∧ s0.takes coef := by
  refine ⟨coefs_length, ?_, by rfl, by rfl, ⟨0, rfl⟩, by rfl, rfl, by decide, by decide⟩
  exact (u32_le (bs [15, 0, 0, 0]) (crc32c coefs) [0x80, 0x10, 0, 0] rfl (crc32c_lt coefs)).symm

/-- The ACTIVE controller. -/
def sAct : State := put [(.STK_STS_role, 0)] s0

/-- Slot 23: suspect; designated; a relative reference with a sample. -/
def lchCfg : Cmd := cmd ([23, 0, 0, 0] ++ List.replicate 32 0 ++ [0, 0, 0x80, 0x3F, 50, 0, 0, 0])

def lchSet : Cmd := cmd [1, 1, 1, 0, 0, 4, 16, 1, 0, 0, 0, 1, 1, 1, 0, 0]

def sRel : State := withM (fun m => m.setLslot 23 fun x => { x with samples := [⟨0, 0, none, [(6, 0), (7, 0)]⟩] })
  (put [(.LCH_Ss_CFG_en 23, 1), (.LCH_Ss_CFG_relative 23, 1), (.LCH_Ss_STS_stale 23, 0), (.LCH_STS_pstep, 3)] sAct)

theorem witness_FusionCommandsQueue :
    (sAct.m.isActive = true ∧ sAct.takes lchCfg ∧ lchCfg.u8 0 = 23 ∧ lchCfg.data.length = 0 ∧ sAct.m.lchNext.lchOn 23 = false ∧ lchCfgOk lchCfg = true
      ∧ sAct.m.lchNext.lchCaps lchCfg = true)
    ∧ sAct.takes (cmd [23, 1])
    ∧ ((put [(.LCH_Ss_STS_suspect 23, 1), (.LCH_Ss_STS_stale 23, 0)] sAct).m.b (.LCH_Ss_STS_suspect 23) = true
      ∧ (put [(.LCH_Ss_STS_suspect 23, 1), (.LCH_Ss_STS_stale 23, 0)] sAct).m.b (.LCH_Ss_STS_stale 23) = false
      ∧ (put [(.LCH_Ss_STS_suspect 23, 1), (.LCH_Ss_STS_stale 23, 0)] sAct).m.b (.LCH_Ss_STS_qual0 23) = false)
    ∧ (put [(.LCH_Ss_STS_designated 23, 1)] sAct).m.b (.LCH_Ss_STS_designated 23) = true
    ∧ ((toSigned 64 ((cmd []).un 0 8)).natAbs ≤ 90000000000 ∧ sAct.m.plHolds = false)
    ∧ lchSetOk lchSet = true
    ∧ (sRel.m.lchOn 23 = true ∧ sRel.m.b (.LCH_Ss_CFG_relative 23) = true ∧ sRel.m.b (.LCH_Ss_STS_stale 23) = false ∧ sRel.m.g .LCH_STS_pstep ≠ 4
      ∧ (sRel.m.lslot 23).samples = ⟨0, 0, none, [(6, 0), (7, 0)]⟩ :: [] ∧ ∃ o, sRel.m.relOffset 23 ⟨0, 0, none, [(6, 0), (7, 0)]⟩ = some o)
    ∧ (put [(qEn .stq 15, 1)] sAct).m.b (qEn .stq 15) = true ∧ 388 ≤ (cmd [0]).bufLen :=
  ⟨⟨by decide, takes_of (by decide), by decide, by decide, by decide, by decide +kernel, by decide +kernel⟩, takes_of (by decide), by decide, by decide,
    ⟨by decide +kernel, by decide⟩, by decide +kernel, ⟨by decide, by decide, by decide, by decide, by decide, _, rfl⟩, by decide, by decide⟩

/-- Slot 23 with a slip and a jump behind it. -/
def sSlip : State := withM (fun m => m.setLslot 23 fun x => { x with slips := [0], jumpAt := some 0 })
  (put [(.LCH_Ss_STS_timing_suspect 23, 1)] { s0 with env := { s0.env with time := { s0.env.time with sec := 4096 } } })

/-- A stream without samples at the wait limit; an epoch whose instant lies ahead; a standby with an assignment. -/
def sGap : State := later (put [(.LCH_Ss_CFG_en 23, 1), (.LCH_Ss_NOMPER_nomper 23, 50)] s0)
def sEarly : State := withM (fun m => { m with grid := { m.grid with e0 := 1000000000000 } }) s0
def sStb : State := withM (fun m => { m with lch := { m.lch with assign := [(m.lch.next, [])] } }) (put [(.STK_STS_role, 1)] s0)

theorem witness_FusionHappenings :
    (s0.m.g .STK_STS_pos < 2 ∧ s0.m.shadows = false ∧ s0.m.lchAll = true ∧ s0.m.epochInstant s0.m.lch.next ≤ s0.env.ns)
    ∧ (sGap.m.shadows = false ∧ sGap.m.lchAll = false ∧ sGap.m.epochInstant sGap.m.lch.next + sGap.m.g .LCH_CFG_wait * 1000000 ≤ sGap.env.ns)
    ∧ (sEarly.m.shadows = false ∧ sEarly.env.ns < sEarly.m.epochInstant sEarly.m.lch.next)
    ∧ (sStb.m.g .STK_STS_pos < 2 ∧ sStb.m.shadows = true ∧ sStb.m.lch.assign = (sStb.m.lch.next, []) :: [])
    ∧ (put [(.STK_STS_role, 1)] s0).m.shadows = true ∧ (put [(.STK_STS_role, 1)] s0).m.lch.assign = []
    ∧ (sSlip.m.b (.LCH_Ss_STS_timing_suspect 23) = true ∧ (sSlip.m.lslot 23).slips = 0 :: [] ∧ (sSlip.m.lslot 23).jumpAt = some 0
      ∧ 0 + sSlip.m.g .LCH_SLIP_CFG_ts_clear * 1000000000 ≤ sSlip.env.ns
      ∧ 0 + sSlip.m.g .LCH_TRUST_THR_jump_hold * 1000000000 ≤ sSlip.env.ns
      ∧ s0.env.ns < 0 + s0.m.g .LCH_SLIP_CFG_ts_clear * 1000000000) := by decide

def plCfg : Cmd := cmdD [] (le 4 50 ++ le 4 264 ++ le 4 0x010101 ++ le 4 0x0501 ++ List.replicate 76 0)

def plThr : Cmd := cmdD [23] (le 4 2 ++ le 4 0 ++ le 4 0 ++ le 4 0x3F800000 ++ List.replicate 36 0)

def plTable : Cmd := { cmdD [] (List.replicate 4096 0) with
  params := bs [23, 0, 0, 0] ++ (le 4 (crc32c (List.replicate 4096 0)) ++ []) }

/-- SLV_CFG_SET with the least value of every field. -/
def slvCfg : Cmd := cmd [1, 0x33, 0x14, 1, 0, 0, 0x80, 0x3F]

theorem witness_LawCommandsHold :
    sAct.m.isActive = true ∧ sAct.takes (cmd [5]) ∧ (sAct.takes (cmd [3]) ∧ (cmd [3]).data = [])
    ∧ (sAct.takes (cmd [0, 0, 0, 0, 0, 0, 0, 0, 0x3F, 0x7E, 5, 0]) ∧ (cmd [0, 0, 0, 0, 0, 0, 0, 0, 0x3F, 0x7E, 5, 0]).u32 8 = 359999)
    ∧ (sAct.takes (cmdD [1] (List.replicate 16 0)) ∧ ((trackPoints (cmdD [1] (List.replicate 16 0))).any fun w => decide (360000 ≤ w.hdg)) = false)
    ∧ (sAct.takes plCfg ∧ plCfg.data.length = 92 ∧ plCfgOk plCfg = true)
    ∧ (sAct.takes plThr ∧ plThr.u8 0 = 23 ∧ plThr.data.length = 52 ∧ plThrOk plThr = true)
    ∧ (plTable.u8 0 = 23 ∧ plTable.data.length = 4096 ∧ crc32c plTable.data = plTable.u32 4)
    ∧ (sAct.takes slvCfg ∧ slvCfgOk slvCfg = true)
    ∧ (sAct.takes (cmdD [3, 1] (bs [7, 1])) ∧ (cmdD [3, 1] (bs [7, 1])).data.length = 1 * 2 ∧ feedOk 3 1 (cmdD [3, 1] (bs [7, 1])) = true) :=
  ⟨by decide, takes_of (by decide), ⟨takes_of (by decide), by decide⟩, ⟨takes_of (by decide), by decide⟩, ⟨takes_of (by decide), by decide +kernel⟩,
    ⟨takes_of (by decide), by decide, by decide +kernel⟩, ⟨takes_of (by decide), by decide, by decide, by decide +kernel⟩,
    ⟨by rfl, by simp only [plTable, cmdD, List.length_replicate], crc_param 23 0 _⟩, ⟨takes_of (by decide), by decide +kernel⟩,
    ⟨takes_of (by decide), by decide, by decide +kernel⟩⟩

/-- SERVICE in a stage of a cycle of 50 ms. -/
def sLaw (stage mode : Nat) : State :=
  withM (fun m => { m with grid := { m.grid with running := true, first := false, periodMs := 50 }, pl := { m.pl with stage := stage, waits := true } })
    (put [(.GEN_STATE_state, 4), (.STR_PL_STS_mode, mode)] sAct)

/-- MANUAL, ten seconds after its last feed. -/
def sManual : State := { sLaw 1 5 with env := { (sLaw 1 5).env with time := { (sLaw 1 5).env.time with sec := 10 } } }

def run0 : QpRun := ⟨⟨1, false, ⟨true, 0, [], [], [], 0, 0, 1, 0, false, []⟩, none, none, 0⟩, ⟨[], [], [], []⟩, [], 0, 0, 0, 0, 0, 0, 0, 0, 0, none, 0, 0, none⟩

/-- A cycle in a stage whose planned release is a second ahead. -/
def sAhead (stage : Nat) : State := withM (fun m => { m with pl := { m.pl with planned := m.pl.planned + 1000000000 } }) (sLaw stage 0)

/-- A cycle in assembly while the release of the one before it has come. -/
def sOver : State :=
  withM (fun m => { m with pl := { m.pl with ahead := some ⟨0, false, true, 0, 0, 3, m.pl.cyc, [], []⟩ } }) (sAhead 1)

/-- A standby in the last stage before the release, without an announcement. -/
def sFollow : State := put [(.STK_STS_role, 1)] (sLaw 4 0)

theorem witness_LawHappenings :
    ((sLaw 1 0).m.pl.stage = 1 ∧ (sLaw 1 0).m.onReduced = false ∧ (sLaw 1 0).m.plT ≠ 0)
    ∧ s0.m.pl.stage ≠ 3
    ∧ ((sLaw 3 0).m.pl.stage = 3 ∧ (sLaw 3 0).m.onReduced = false)
    ∧ ((sLaw 4 0).m.pl.stage = 4 ∧ (sLaw 4 0).m.onReduced = false ∧ (sLaw 4 0).m.pl.due = false ∧ (sLaw 4 0).m.shadows = false
      ∧ (sLaw 4 0).m.pl.ahead = none ∧ (sLaw 4 0).m.pl.planned ≤ (sLaw 4 0).env.ns)
    ∧ ((sAhead 4).m.pl.stage = 4 ∧ (sAhead 4).m.onReduced = false ∧ (sAhead 4).m.pl.due = false ∧ (sAhead 4).m.shadows = false
      ∧ (sAhead 4).m.pl.ahead = none ∧ (sAhead 4).env.ns < (sAhead 4).m.pl.planned)
    ∧ ((sLaw 3 0).m.pl.due = false ∧ (sLaw 3 0).m.shadows = false ∧ (sLaw 3 0).m.pl.ahead = none ∧ (sLaw 3 0).m.pl.planned ≤ (sLaw 3 0).env.ns)
    ∧ (sOver.m.onReduced = false ∧ sOver.m.shadows = false ∧ sOver.m.pl.ahead = some ⟨0, false, true, 0, 0, 3, sOver.m.pl.cyc, [], []⟩ ∧ 0 ≤ sOver.env.ns
      ∧ sOver.m.pl.stage = 1 ∧ sOver.env.ns < sOver.m.pl.planned)
    ∧ (sFollow.m.onReduced = false ∧ sFollow.m.shadows = true ∧ sFollow.m.pl.ahead = none ∧ sFollow.m.pl.announced = none ∧ sFollow.m.pl.stage = 4)
    ∧ ((later (sLaw 1 0)).m.pl.waits = true ∧ (later (sLaw 1 0)).m.pl.pend = []
      ∧ (later (sLaw 1 0)).m.grid.next - (later (sLaw 1 0)).m.plT + (later (sLaw 1 0)).m.plT / 4 ≤ (later (sLaw 1 0)).env.ns)
    ∧ ((sLaw 1 0).env.ns < (sLaw 1 0).m.grid.next - (sLaw 1 0).m.plT + (sLaw 1 0).m.plT / 4)
    ∧ (sManual.m.plMode = 5 ∧ sManual.m.b .STR_PL_STS_manual_stale = false
      ∧ sManual.m.pl.manualAt + sManual.m.g .STR_PL_FAIL_CFG_manual_tmo * 100000000 ≤ sManual.env.ns)
    ∧ (∃ s : State, s.m.slv.run = some { run0 with ended := some 0 } ∧ ({ run0 with ended := some 0 } : QpRun).ended = some 0) :=
  ⟨by decide, by decide, by decide, by decide, by decide, by decide, by decide, by decide, by decide, by decide, by decide,
    withM (fun m => m.setRun (some { run0 with ended := some 0 })) s0, rfl, rfl⟩

/-- Work that waited for the dispatch, and none that waited: the two ends of DISPATCH_COMPLETE. -/
def sNoWait : State := withM (fun m => { m with pl := { m.pl with waits := false } }) (sLaw 3 0)

theorem witness_LawHappenings_dispatch :
    (sNoWait.m.plStage4 sNoWait.env).pl.waits = false
    ∧ (((sLaw 3 0).m.plStage4 (sLaw 3 0).env).plAnnounce ((sLaw 3 0).m.plStage4 (sLaw 3 0).env).pl.planned).pl.waits = true := by decide +kernel

/-- A DENSE problem with one unknown: the least of x²/2. -/
def qp1 : List Byte := bs ([0x42, 0x4B, 0x51, 0x50, 1, 1, 0, 0, 1, 0] ++ List.replicate 14 0 ++ [16, 0, 0, 0] ++ [101, 192, 93, 118] ++ List.replicate 32 0
  ++ [0, 0, 0, 0, 0, 0, 0xF0, 0x3F] ++ List.replicate 8 0)

def sServe : State := put [(.GEN_STATE_state, 4)] s0

def solve1 : Cmd := cmdD [80, 0, 0, 0, 1, 0, 0, 0] qp1

def sRun : State := withM (fun m => m.setRun (some run0)) sServe

/-- The same solve with its stop instant ahead. -/
def sAfter : State := put [(.SLV_DEADLINE_deadline, 5000)] sRun

theorem witness_SolverCommandsAnswer :
    (sServe.takes solve1 ∧ solve1.u32 0 = solve1.data.length ∧ solve1.u32 4 = 1 ∧ sServe.m.slvServes = true ∧ sServe.m.slv.host = none
      ∧ sServe.m.slv.run = none ∧ ∃ q, qpParse solve1.data sServe.m.slvBanks = .ok q)
    ∧ (sRun.m.slv.run = some run0 ∧ run0.job.src = 1 ∧ run0.ended = none)
    ∧ (sServe.m.slv.selfTest = none ∧ sServe.m.slv.bankTest = []) ∧ sServe.takes (cmd [7]) := by
  refine ⟨⟨takes_of (by decide), by decide, by decide, by decide, by decide, by decide, ?_⟩, ⟨by decide, by decide, by decide⟩, ⟨by decide, by decide⟩,
    takes_of (by decide)⟩
  have h : (match qpParse solve1.data sServe.m.slvBanks with | .ok _ => true | .error _ => false) = true := by decide +kernel
  revert h
  cases qpParse solve1.data sServe.m.slvBanks with
  | ok q => exact fun _ => ⟨q, rfl⟩
  | error e => intro h; cases h

theorem witness_SolverHappenings_stop : sRun.m.stopReached sRun.env = true ∧ run0.job.src = 1
    ∧ shortDiff sAfter.env.now.short ((sAfter.m.g .SLV_DEADLINE_deadline + 2 ^ 32 - 1250) % 2 ^ 32) < 0 ∧ sAfter.m.slv.run = some run0 := by decide +kernel

/-- The worked example of an exact zero pivot: one replacement, and z = (1, 0, 1). -/
theorem test_zero_pivot :
    (cholesky ⟨pivValue 0 12 (fdOfInt 5), pivValue 0 9 (fdOfInt 5)⟩ [[fdOfInt 4, fdOfInt 2, fdOfInt 2], [fdOfInt 2, fdOfInt 1, fdOfInt 1],
      [fdOfInt 2, fdOfInt 1, fdOfInt 5]]).count = 1
    ∧ (cholesky ⟨pivValue 0 12 (fdOfInt 5), pivValue 0 9 (fdOfInt 5)⟩ [[fdOfInt 4, fdOfInt 2, fdOfInt 2], [fdOfInt 2, fdOfInt 1, fdOfInt 1],
      [fdOfInt 2, fdOfInt 1, fdOfInt 5]]).solve [fdOfInt 6, fdOfInt 3, fdOfInt 7] = [fdOfInt 1, 0, fdOfInt 1] := by decide +kernel

theorem witness_SolverHappenings :
    (sRun.m.slv.run = some run0 ∧ run0.ended = none ∧ run0.flags.testBit 7 = false)
    ∧ (({ run0 with flags := 128, k := 1 } : QpRun).flags.testBit 7 = true ∧ ({ run0 with flags := 128, k := 1 } : QpRun).mark < 1
      ∧ ∃ s : State, s.m.slv.run = some { run0 with flags := 128, k := 1 } ∧ run0.heard + 2000000 ≤ s.env.ns)
    ∧ (s0.m.slv.run = none ∧ s0.m.bankNow = none ∧ s0.m.slv.bankTest = []
      ∧ ((put [(.SLV_ECC_isolated, 128)] s0).m.g .SLV_ECC_isolated).testBit 7 = true)
    ∧ ∃ s : State, s.m.bankNow = some 7 :=
  ⟨by decide, ⟨by decide, by decide, withM (fun m => m.setRun (some { run0 with flags := 128, k := 1 })) sManual, rfl, by decide⟩, by decide,
    ⟨withM (fun m => { m with slv := { m.slv with bankTest := [(7, none)] } }) (put [(.SLV_STS_bank_testing, 1)] s0), by decide⟩⟩

/-- STR_CFG_SET for string 47: gains of zero, divisors and limits of one. -/
def strCfg : Cmd := cmdD [5, 47] ((List.range 31).flatMap fun i =>
  if i = 1 then le 4 1 else if i = 6 then le 4 0x3F800000 else if i = 25 then le 4 0x3F800000
  else if i = 29 then le 4 0x10001 else if i = 30 then le 4 0x10100 else le 4 0)

/-- DRN_CFG_SET: 8 values a period, a divisor of one. -/
def drnCfg : Cmd := cmdD [0, 47] (le 4 0x80000 ++ List.replicate 20 0 ++ le 4 0x3F800000 ++ le 4 0)

theorem witness_StringCommandsQueue :
    (sAct.takes strCfg ∧ strCfg.u8 0 = 5 ∧ strCfg.u8 1 = 47 ∧ strCfg.data.length = 124
      ∧ ((List.range 31).all fun i => strFieldOk i (BitVec.ofNat 32 (strCfg.d32 (4 * i)))) = true)
    ∧ (sAct.takes (cmdD [5, 1] (List.replicate 8 0)) ∧ ((spEntries (cmdD [5, 1] (List.replicate 8 0))).any fun p => decide (48 ≤ p.1)) = false)
    ∧ (sAct.takes drnCfg ∧ drnCfg.data.length = 32 ∧ drCfgOk drnCfg = true)
    ∧ (sAct.takes (cmd [5, 47, 0, 64]) ∧ sAct.takes (cmd [5, 2]))
    ∧ (fpIsFinite 0 = true ∧ fpLe 0 0 = true)
    ∧ (crc32c ({ cmdD [] [] with params := bs [5, 47, 0, 0] ++ (le 4 (crc32c []) ++ []) }).data
        = ({ cmdD [] [] with params := bs [5, 47, 0, 0] ++ (le 4 (crc32c []) ++ []) }).u32 4) :=
  ⟨⟨takes_of (by decide +kernel), by decide, by decide, by decide +kernel, by decide +kernel⟩, ⟨takes_of (by decide), by decide +kernel⟩,
    ⟨takes_of (by decide), by decide, by decide +kernel⟩, ⟨takes_of (by decide), takes_of (by decide)⟩, by decide, crc_param 5 47 []⟩

theorem witness_StringsAndDronesAnswer :
    (sAct.takes (cmd [5]) ∧ (cmd [5]).u32 0 % 64 = 5 ∧ (cmd [45]).u32 0 % 64 = 45)
    ∧ ((cmd ([15] ++ List.replicate 13 0 ++ [1, 0])).u16 14 ≠ 0)
    ∧ (sAct.m.isActive = true ∧ 47 < sAct.m.str.drn.length)
    ∧ ((put [(.STK_STS_role, 1)] s0).m.isActive = false ∧ (put [(.STK_STS_role, 1)] s0).m.rd (Reg.STR_Ss_SPH 47) ≠ 1) :=
  ⟨⟨takes_of (by decide), by decide, by decide⟩, by decide, by decide, by decide⟩

/-! ### Premises that can be met: CAN, field connectors, safety and stack -/

/-- CAN_CFG for controller 3 that leaves it OFF. -/
def canCfg : Cmd := { cmdD [3] (le 4 0 ++ le 4 0x3EFC7C00 ++ List.replicate 784 0) with dataLen := 792 }

/-- Controller 3 on its bus in NORMAL, with object 127 to send. -/
def sCan (pending : Nat) (f : Option CanFlight) : State := withM (fun m => m.setCan 3 fun x => { x with mode := 1, joined := true, flight := f })
  (put [(.CAN_c_CTRL_mode 3, 1), (.CAN_c_STS_state 3, 0), (.CAN_c_OBJo_CFG_en 3 127, 1), (.CAN_c_OBJo_CFG_dir 3 127, 1), (.CAN_c_OBJo_CFG_pending 3 127, pending)] sAct)

def sBusOff : State := put [(.CAN_c_STS_state 3, 2), (.CAN_c_STS_recovering 3, 1), (.CAN_c_STS_testing 3, 1)] s0

theorem witness_CanCommandsAnswer :
    (s0.takes canCfg ∧ canCfg.u8 0 = 3 ∧ canCfg.data.length = 792 ∧ s0.m.g (.CAN_c_CTRL_mode 3) = 0 ∧ (s0.m.canc 3).mode = 0
      ∧ (s0.m.putData canCfg 0 (canCfgRegs 3)).g (.CAN_c_NBT_ntseg1 3) ≠ 0 ∧ (s0.m.putData canCfg 0 (canCfgRegs 3)).g (.CAN_c_NBT_ntseg2 3) ≠ 0)
    ∧ (s0.takes (cmd [3, 0, 0]) ∧ (s0.m.s (.CAN_c_CTRL_mode 3) 0).canLeaveOff 3 (s0.m.g (.CAN_c_CTRL_mode 3)) = true)
    ∧ ((put [(.CAN_c_STS_recovering 3, 0)] sBusOff).m.g (.CAN_c_STS_state 3) = 2 ∧ (put [(.CAN_c_STS_recovering 3, 0)] sBusOff).m.b (.CAN_c_STS_recovering 3) = false)
    ∧ ((sCan 0 none).m.b (.CAN_c_STS_testing 3) = false ∧ (sCan 0 none).m.b (.CAN_c_STS_isolated 3) = false)
    ∧ (s0.takes (cmd [3, 111]) ∧ s0.m.canSafe 3 111 = false ∧ s0.m.b (.CAN_c_OBJo_CFG_pending 3 111) = false ∧ (s0.m.canObj 3 111).target = none
      ∧ s0.m.canOwned 3 111 = false)
    ∧ ((sCan 0 none).takes (cmdD [3, 127, 255] []) ∧ (sCan 0 none).m.canNames 3 127 = none ∧ (sCan 0 none).m.b (.CAN_c_OBJo_CFG_en 3 127) = true
      ∧ (sCan 0 none).m.b (.CAN_c_OBJo_CFG_dir 3 127) = true ∧ (sCan 0 none).m.canOwned 3 127 = false ∧ ((sCan 0 none).m.canc 3).mode = 1
      ∧ (sCan 0 none).m.shadowRole = false ∧ ((sCan 0 none).m.canObj 3 127).tx = none ∧ (sCan 0 none).m.b (.CAN_c_OBJo_CFG_tt_en 3 127) = false
      ∧ dlcLen ((sCan 0 none).m.b (.CAN_c_OBJo_CFG_fdf 3 127)) ((sCan 0 none).m.g (.CAN_c_OBJo_CFG_dlc 3 127)) = 0)
    ∧ ((sCan 1 none).m.canNames 3 127 = none ∧ ((sCan 1 none).m.canc 3).flight = none ∧ (sCan 1 none).m.b (.CAN_c_OBJo_CFG_pending 3 127) = true)
    ∧ (s0.takes (cmd [3, 129, 64]) ∧ s0.m.b (.CAN_c_FIFOq_STS_bound 3 1) = false ∧ (((s0.m.canc 3).fifo.getD 1 []).take 64).flatten.length ≤ 4096)
    ∧ (put [(qEn .stq 15, 1)] s0).m.b (qEn .stq 15) = true :=
  ⟨⟨takes_of (by decide +kernel), by decide +kernel, by decide +kernel, by decide, by decide, by decide +kernel, by decide +kernel⟩, ⟨takes_of (by decide), by decide +kernel⟩, by decide +kernel, by decide +kernel,
    ⟨takes_of (by decide), by decide, by decide, by decide, by decide +kernel⟩,
    ⟨takes_of (by decide +kernel), by decide +kernel, by decide +kernel, by decide +kernel, by decide +kernel, by decide +kernel, by decide +kernel, by decide +kernel,
      by decide +kernel, by decide +kernel⟩, ⟨by decide +kernel, by decide +kernel, by decide +kernel⟩, ⟨takes_of (by decide), by decide, by decide⟩, by decide⟩

theorem witness_CanHappenings :
    ((sCan 1 none).m.canOnBus 3 = true ∧ ((sCan 1 none).m.canc 3).flight = none ∧ ((sCan 1 none).m.canc 3).mode = 1
      ∧ ((sCan 1 none).m.canc 3).rec_ < 128)
    ∧ (sBusOff.m.b (.CAN_c_STS_testing 3) = true ∧ sBusOff.m.g (.CAN_c_STS_state 3) = 2 ∧ sBusOff.m.b (.CAN_c_STS_recovering 3) = true ∧ 3 < sBusOff.m.can.length
      ∧ ({ sBusOff with env := { sBusOff.env with powered := 704000 } }.m.canc 3).recAt + 4400 * sBusOff.m.canBit 3 ≤ 704000)
    ∧ ((sCan 1 (some ⟨127, [], false, false⟩)).m.canc 3).flight = some ⟨127, [], false, false⟩
    ∧ (s0.m.g (.CAN_c_CTRL_mode 3) = 0 ∧ (s0.m.canc 3).mode = 0 ∧ (s0.m.hostPut s0.env.locked (!s0.env.locked) (Reg.CAN_c_CTRL 3) 1).g (.CAN_c_CTRL_nomatch 3) ≠ 3)
    ∧ (∃ s : State, (s.m.canc 3).flight = none ∧ (s.m.canc 3).mode ≠ 0 ∧ s.m.g (.CAN_c_CTRL_mode 3) = 0 ∧ s.m.b (.CAN_c_STS_testing 3) = false)
    ∧ (∃ s : State, (s.m.canc 3).flight = none ∧ (s.m.canc 3).mode = 0 ∧ s.m.g (.CAN_c_CTRL_mode 3) = 2 ∧ s.m.b (.CAN_c_STS_testing 3) = false
        ∧ s.m.b (.CAN_c_STS_isolated 3) = false)
    ∧ (∃ s : State, (s.m.canc 3).joined = false ∧ (s.m.canc 3).mode = 2 ∧ s.m.b (.CAN_c_STS_testing 3) = false ∧ s.m.b (.CAN_c_STS_isolated 3) = false
        ∧ s.m.clkFailed 8 = false)
    ∧ (∃ s : State, (s.m.canObj 3 127).target = some 0 ∧ shortDiff 0 s.env.now.short ≤ 0)
    ∧ ∃ s : State, (s.m.canc 3).flight = none ∧ (s.m.canObj 3 127).due = some 4294967171 ∧ s.m.b (.CAN_c_OBJo_CFG_pending 3 127) = true
        ∧ s.m.g (.CAN_c_OBJo_CFG_tt_late 3 127) = 1 ∧ 125 * (1 : Int) ≤ shortDiff s.env.now.short 4294967171 := by
  refine ⟨by decide +kernel, by decide +kernel, by decide +kernel, by decide +kernel, ⟨withM (fun m => m.setCan 3 fun x => { x with mode := 1 }) s0, by decide +kernel⟩,
    ⟨put [(.CAN_c_CTRL_mode 3, 2)] s0, by decide +kernel⟩, ⟨withM (fun m => m.setCan 3 fun x => { x with mode := 2 }) s0, by decide +kernel⟩,
    ⟨withM (fun m => m.setObj 3 127 fun x => { x with target := some 0 }) s0, by decide +kernel⟩,
    ⟨withM (fun m => m.setObj 3 127 fun x => { x with due := some 4294967171 }) (put [(.CAN_c_OBJo_CFG_pending 3 127, 1), (.CAN_c_OBJo_CFG_tt_late 3 127, 1)] s0), by decide +kernel⟩⟩

/-- DIO_CFG: every input as it stands at reset. -/
def dioCfg : Cmd := { cmdD [] (le 4 0 ++ ((List.range 32).flatMap fun _ => le 4 0xA12C20) ++ List.replicate 64 0) with dataLen := 196 }

theorem witness_FieldCommandsAnswer :
    (s0.takes dioCfg ∧ dioCfg.data.length = 196
      ∧ ((List.range 32).any fun i => s0.m.b (.DIO_DIi_CFG_en i)
          && ((s0.m.rd (Reg.DIO_DIi_CFG i) ^^^ BitVec.ofNat 32 (dioCfg.d32 (4 + 4 * i))) &&& 0x3FF27F7F) != 0) = false
      ∧ ((List.range 8).any fun k => (s0.m.b (.DIO_AOk_CFG_en k) || s0.m.b (.DIO_AOk_CFG_claimed k))
          && (s0.m.g (.DIO_AOk_CFG_mode k) != dioCfg.d32 (132 + 8 * k) / 2 % 2
            || s0.m.rd (Reg.DIO_AOk_OFF k) != BitVec.ofNat 32 (dioCfg.d32 (136 + 8 * k)))) = false
      ∧ ((List.range 32).any fun i => dioCfg.d32 (4 + 4 * i) / 2 ^ 20 % 1024 == 0
          || ((dioCfg.d32 (4 + 4 * i)).testBit 16 && !diOk (dioCfg.d32 (4 + 4 * i)))) = false)
    ∧ (s0.takes (cmd [1]) ∧ ∃ tk, s0.m.applyAt s0.env ((cmd [1]).u32 4) = .ok tk)
    ∧ ((put [(.DIO_AOk_CFG_en 7, 1)] s0).m.b (.DIO_AOk_CFG_claimed 7) = false ∧ (put [(.DIO_AOk_CFG_en 7, 1)] s0).m.b (.DIO_AOk_CFG_en 7) = true)
    ∧ (((List.range 4).any fun g => ((cmd [15]).u8 0).testBit g && (s0.m.grp g).bad) = false ∧ s0.m.state ≠ 4)
    ∧ ((cmd []).u16 0 = 0 ∧ (cmd []).u8 2 = 0 ∧ (cmd [1]).u16 0 &&& (put [(.DIO_DO_FLT_flt, 1)] s0).m.g .DIO_DO_FLT_flt &&& 1 ≠ 0)
    ∧ (s0.m.dio.test = none ∧ s0.m.grpOn 3 = false) ∧ (put [(qEn .stq 15, 1)] s0).m.b (qEn .stq 15) = true :=
  ⟨⟨takes_of (by decide +kernel), by decide +kernel, by decide +kernel, by decide +kernel, by decide +kernel⟩, ⟨takes_of (by decide), _, rfl⟩, by decide, by decide,
    by decide, by decide +kernel, by decide⟩

/-- Input 31 disabled. -/
def sDi : State := put [(.DIO_DIi_CFG_en 31, 0)] s0

theorem witness_FieldHappenings :
    s0.m.bit Reg.DIO_DO_FLT 15 = false ∧ (s0.m.b (.DIO_AOk_CFG_flt 7) = false ∧ ∃ s : State, s.m.b (.DIO_AOk_CFG_flt 7) = false ∧ s.m.aoRow 7 ≠ 1)
    ∧ (sDi.m.b (.DIO_DIi_CFG_en 31) = false
      ∧ (sDi.m.hostPut sDi.env.locked (!sDi.env.locked) (Reg.DIO_DIi_CFG 31) 0x113C28).g (.DIO_DIi_CFG_limit 31) ≠ 0
      ∧ (sDi.m.hostPut sDi.env.locked (!sDi.env.locked) (Reg.DIO_DIi_CFG 31) 0x113C28).b (.DIO_DIi_CFG_en 31) = true)
    ∧ (s0.m.dio.vfAt = none ∧ s0.m.dio.diAt = none)
    ∧ (∃ s : State, s.m.dio.vfAt = some s.env.powered ∧ s.m.dio.diAt = some s.env.powered)
    ∧ ∃ s : State, s.m.dio.test = some (3, cmd []) ∧ 3 < s.m.dio.grp.length := by
  refine ⟨by decide, ⟨by decide, ⟨withM (fun m => { m with dio := { m.dio with grp := List.replicate 4 { VGroup.reset with latch := false } } }) s0, by decide⟩⟩,
    by decide +kernel, by decide, ⟨withM (fun m => { m with dio := { m.dio with vfAt := some s0.env.powered, diAt := some s0.env.powered } }) s0, rfl, rfl⟩,
    ⟨withM (fun m => { m with dio := { m.dio with test := some (3, cmd []) } }) s0, by decide⟩⟩

/-- A safety configuration with one input unused, signed: key and signature are chosen so that R = G + Q. -/
def safImage : List Byte := be 32 0x53434647010001000700000061e637b700000000000000000000000000000000 ++ 1 :: List.replicate 31 0 ++ be 48 0x507d2270063277a38008c80a6f83b288793533e8963c477904fe7720997d62905fac85671200ad72118fa76549b855a8 ++ be 48 0x507d2270063277a38008c80a6f83b288793533e8963c477904fe7720997d62905fac85671200ad72118fa76549b855a8

def safKey : RootSlot := ⟨be 96 0xa90c422c057ee4e1f0db420126bacba6421f017bb0b6ed481650104e7b7b615717d36cbc978d7146e5a487e066bfd3eb22422b94ce41409ddc74050f4d1354fc430f81558b0bfa3c298f3ac4927d3eefb81db8893332fd32d753e979c386cced, 8, be 48 0x9168c86bdc100f1be3399bc3f3b0dd81b25f254d0e93f89094a342c3fee6a784bd7818fa340fbaff917ecf5cadf82773, false⟩

/-- The island in RUN, with that key in slot 1; and with records. -/
def sSaf : State := withM (fun m => m.setSaf fun x => { x with state := 2, keys := [RootSlot.reset, safKey, RootSlot.reset, RootSlot.reset] }) s0

def safLoad : Cmd := { cmdD [160, 0, 0, 0] safImage with dataLen := 160 }

theorem witness_SafetyCommandsAnswer_load :
    sSaf.takes safLoad ∧ sSaf.m.saf.state = 2 ∧ scfgCount safImage = 1 ∧ safLoad.u32 0 = safImage.length ∧ safImage.length = 128 + 32 * 1
      ∧ (rw safImage 12).toNat = crc32c ((safImage.drop 32).take (32 * 1)) ∧ safSigned sSaf.env sSaf.m.saf safImage = true
      ∧ scfgLayout safImage = true ∧ scfgRules (scfgRecs safImage) = true :=
  ⟨takes_of (by decide +kernel), by decide, by decide +kernel, by decide +kernel, by decide +kernel, by decide +kernel, by decide +kernel, by decide +kernel, by decide +kernel⟩

theorem witness_SafetyCommandsAnswer :
    (∃ s : State, s.m.saf.state = 2 ∧ s.m.saf.cand = some [] ∧ s.m.saf.busy = false ∧ (cmd []).u32 0 = (rw [] 12).toNat)
    ∧ (sSaf.takes (cmd [255, 255, 1, 0]) ∧ ((List.range 16).any fun f => ((cmd [255, 255, 1, 0]).u16 0).testBit f && (sSaf.m.saf.monRec f).isSome) = false
      ∧ (cmd [255, 255, 1, 0]).u16 2 = 1)
    ∧ s0.m.saf.state ≠ 2 ∧ (sSaf.takes (cmd [3]) ∧ sSaf.m.saf.test = none) ∧ sSaf.m.saf.logBytes.length ≤ 4096 := by
  refine ⟨⟨withM (fun m => m.setSaf fun x => { x with state := 2, cand := some [] }) s0, by decide +kernel⟩, ⟨takes_of (by decide), by decide +kernel, by decide⟩,
    by decide, ⟨takes_of (by decide), by decide⟩, ?_⟩
  have h : ∀ (l : List Nat) (f : Nat → List Byte), (∀ i, (f i).length = 16) → (l.flatMap f).length = 16 * l.length := by
    intro l f hf
    induction l with
    | nil => rfl
    | cons a l ih => rw [List.flatMap_cons, List.length_append, hf, ih, List.length_cons]; omega
  rw [Saf.logBytes, h _ _ (fun i => by split <;> rfl)]
  decide

/-- A record of connection 15: a consumer or a producer on both networks. -/
def connRec (dir : Nat) : List Byte := bs ([7, 15, dir, 2, 0, 0, 10, 0, 10, 0, 1] ++ List.replicate 21 0)

def sConn (dir : Nat) (held : List SafCopy) : State := withM (fun m => m.setSaf fun x => { x with
  cfg := some (bs ([0, 0, 0, 0, 1, 0, 1, 0] ++ List.replicate 24 0) ++ connRec dir ++ List.replicate 96 0)
  conn := upd x.conn 15 fun c => { c with held := held } }) (later sSaf)

/-- Copy B of a frame of connection 15 with sequence 1, its signature 0: the CRC is that of R478. -/
def safeCopy : List Byte := bs ([0x5A, 15, 1, 0, 1] ++ List.replicate 23 0 ++ [0x83, 0x93, 0x3D, 0x5C])

theorem witness_SafetyHappenings :
    ((sConn 1 []).m.saf.state = 2 ∧ (sConn 1 []).m.saf.connRec 15 = some (connRec 1) ∧ rb (connRec 1) 2 = 1 ∧ 15 < (sConn 1 []).m.saf.conn.length
      ∧ ((sConn 1 []).m.saf.kon 15).sent = none ∧ ((sConn 1 []).m.saf.kon 15).period (connRec 1) (sConn 1 []).env = true)
    ∧ ((sConn 2 []).m.saf.connRec 15 = some (connRec 2) ∧ rb (connRec 2) 2 = 2 ∧ connNet (connRec 2) 1 = true
      ∧ ((sConn 2 []).m.saf.kon 15).acc + rh (connRec 2) 8 * 1000000 ≤ (sConn 2 []).env.upNs)
    ∧ (put [(.NETp_CTRL_en 0, 1), (.NETp_STS_link 0, 1), (.NETp_CTRL_safe 0, 1), (.NETp_SAFE_DST_addr 0, 1), (.NETp_IP_addr 0, 1)] s0).m.safOpen 15 0 0 = true
    ∧ (put [(.CAN_c_CTRL_saf_res 3, 1)] (sCan 0 none)).m.safOpen 15 1 1 = true
    ∧ (((sConn 2 [⟨0, 0, [], 0⟩]).m.saf.kon 15).held = ⟨0, 0, [], 0⟩ :: [] ∧ 0 + rb (connRec 2) 10 * 1000000 ≤ (sConn 2 [⟨0, 0, [], 0⟩]).env.upNs)
    ∧ s0.m.saf.state = 0 ∧ (sSaf.m.saf.state = 2 ∧ 3 < sSaf.m.saf.so.length)
    ∧ (safeCopy.length = 32 ∧ rb safeCopy 0 = 0x5A ∧ rb safeCopy 1 = 15 ∧ rb safeCopy 4 = 1 ∧ unle ((safeCopy.drop 28).take 4) = safeCrc (connRec 2) safeCopy
      ∧ ((sConn 2 []).m.saf.kon 15).last = none ∧ ((sConn 2 []).m.saf.kon 15).held = []) := by
  refine ⟨by decide +kernel, by decide +kernel, by decide +kernel, by decide +kernel, by decide +kernel, by decide, by decide, by decide +kernel⟩

def sSwitch : State := withM (fun m => (m.setPeer 1 fun q => { q with present := true, role := 1 }).setStk fun x => { x with recent := [true, true, true, true] }) sAct

theorem witness_StackCommandsAnswer :
    (sSwitch.takes (cmd []) ∧ sSwitch.m.mayswitch = true) ∧ s0.m.mayswitch = false
    ∧ ((put [(.STK_STS_role, 3)] s0).m.role = 3 ∧ (put [(.STK_STS_role, 1)] s0).m.role = 1)
    ∧ ((put [(.STK_STS_role, 4), (.STK_STS_iso_cause, 1)] s0).m.role = 4 ∧ (put [(.STK_STS_role, 4), (.STK_STS_iso_cause, 1)] s0).m.g .STK_STS_iso_cause = 1)
    ∧ (stkCfgOk 0x10400 = true ∧ sAct.takes (cmd [0, 4, 1, 0]) ∧ (cmd [0, 4, 1, 0]).u32 0 = 0x10400 ∧ sAct.m.role = 0)
    ∧ ((put [(.STK_STS_pos, 2)] s0).takes (cmd [1]) ∧ ((put [(.STK_STS_pos, 2)] s0).m.stk.test.any fun x => x.1 == 1) = false ∧ 2 ≤ (put [(.STK_STS_pos, 2)] s0).m.pos) :=
  ⟨⟨takes_of (by decide), by decide⟩, by decide, by decide, by decide, ⟨by decide, takes_of (by decide), by decide, by decide⟩, ⟨takes_of (by decide), by decide, by decide⟩⟩

def sBrg (l : List (Fld × Nat)) : State := put l s0

/-- Half a second after reset, BRG_0 and BRG_1 have read what they read since then. -/
def sLines (l : List (Fld × Nat)) : State := later (sBrg l)

theorem witness_BridgeAndRoles :
    ((sLines [(.STK_STS_pos, 1), (.STK_BRG_own_drv, 1)]).m.pos = 1 ∧ (sLines [(.STK_STS_pos, 1), (.STK_BRG_own_drv, 1)]).m.ownBridged (later s0).env = true)
    ∧ ((sLines [(.STK_STS_pos, 2), (.STK_BRG_brg1_low, 1)]).m.lineHolds (later s0).env 1 = true ∧ (sLines [(.STK_STS_pos, 2)]).m.pos = 2)
    ∧ (sLines [(.STK_BRG_brg1_low, 1)]).m.lineHolds (later s0).env (sBrg []).m.peerPos = true
    ∧ (sLines [(.STK_STS_pos, 2), (.STK_CFG_pair23, 1), (.STK_BRG_own_drv, 1)]).m.pairBridged (later s0).env = true
    ∧ (sLines [(.STK_BRG_claiming, 1), (.STK_BRG_peer_rd, 1)]).m.mustWithdraw (later s0).env = true
    ∧ (∃ s : State, s.m.takesFrom s.m.overPos = true ∧ s.m.b .STK_BRG_peer_rd = false ∧ s.m.lineFor s.env s.m.peerLine 100000 = true
        ∧ (s.m.peer s.m.overPos).flags.testBit 0 = true ∧ s.m.lineAllowed = true ∧ s.m.b .STK_BRG_claiming = false ∧ s.m.b .STK_BRG_cond = false
        ∧ s.m.b .STK_BRG_stuck_peer = false)
    ∧ ((sBrg [(.STK_BRG_own_rd, 1)]).m.pos = 0 ∧ (sBrg [(.STK_BRG_own_rd, 1)]).m.b .STK_BRG_own_drv = false ∧ (sBrg [(.STK_BRG_own_rd, 1)]).m.b .STK_BRG_own_rd = true
      ∧ (sBrg [(.STK_BRG_own_rd, 1)]).m.b .STK_BRG_stuck_own = false)
    ∧ (∃ s : State, s.m.pos = 0 ∧ s.m.peerStuck s.env = true ∧ s.m.b .STK_BRG_stuck_peer = false)
    ∧ ((later sSwitch).m.hbMissed (later s0).env 1 = true ∧ (sSwitch.m.peer 1).miss + 1 ≠ 3 ∧ sSwitch.m.stk.peers.length = 6
      ∧ ∃ s : State, s.m.hbMissed s.env 1 = true ∧ (s.m.peer 1).miss = 2 ∧ s.m.stk.peers.length = 6)
    ∧ ((sBrg [(.STK_STS_pos, 2), (.STK_STS_holder_valid, 1)]).m.b .STK_STS_holder_valid = true
      ∧ (later (sBrg [(.STK_STS_pos, 2), (.STK_STS_holder_valid, 1)])).m.holderSilent (later s0).env = true
      ∧ ∃ s : State, s.m.b .STK_STS_holder_valid = true ∧ 2 ≤ s.m.pos ∧ s.m.holderGone s.env = true)
    ∧ (∃ s : State, s.m.b .STK_STS_holder_valid = true ∧ s.m.pos = 0 ∧ s.m.holderGone s.env = true)
    ∧ ((sBrg [(.STK_STS_role, 7), (.GEN_STATE_state, 3)]).m.role = 7 ∧ (sBrg [(.STK_STS_role, 7), (.GEN_STATE_state, 3)]).m.state = 3
      ∧ (sBrg [(.STK_STS_role, 7), (.GEN_STATE_state, 3)]).m.b .STK_BRG_claiming = false ∧ (sBrg []).m.boot.fhAt + 50000000 ≤ (later s0).env.powered
      ∧ (withM (fun m => m.setStk fun x => { x with heard := true }) s0).m.stk.heard = true)
    ∧ ((withM (fun m => m.setSaf fun x => { x with state := 1 }) s0).m.saf.state = 1 ∧ s0.m.stk.waits = false)
    ∧ ((sBrg [(.STK_STS_pos, 2), (.STK_STS_role, 4), (.STK_STS_iso_cause, 3), (.STK_CFG_auto_rejoin, 1)]).m.role = 4
      ∧ (sBrg [(.STK_STS_pos, 2), (.STK_STS_role, 4), (.STK_STS_iso_cause, 3), (.STK_CFG_auto_rejoin, 1)]).m.b .STK_CFG_auto_rejoin = true
      ∧ (sBrg [(.STK_STS_pos, 2), (.STK_STS_role, 4), (.STK_STS_iso_cause, 3), (.STK_CFG_auto_rejoin, 1)]).m.g .STK_STS_iso_cause = 3
      ∧ (∃ s : State, s.m.role = 4 ∧ s.m.g .STK_STS_iso_cause = 3 ∧ s.m.b .STK_CFG_auto_rejoin = true ∧ 2 ≤ s.m.pos ∧ s.m.activeFor s.env 0 = true)
      ∧ ∃ s : State, s.m.role = 4 ∧ s.m.g .STK_STS_iso_cause = 3 ∧ s.m.b .STK_CFG_auto_rejoin = true ∧ s.m.pos = 0 ∧ s.m.activeFor s.env s.m.peerPos = true)
    ∧ (∃ (s : State) (x : SyncIn), s.m.stk.sync = some x ∧ x.done = false ∧ s.m.role = 2 ∧ x.start + 2000000000 ≤ s.env.upNs
        ∧ s.m.g .STK_SYNC_STS_attempts = 0)
    ∧ (∃ s : State, s.m.pl.tail = none ∧ s.m.pl.cyc.done = false ∧ s.m.pl.cyc.formed = true ∧ s.m.pl.cyc.at_ + 1500000 ≤ s.env.ns)
    ∧ (∃ (s : State) (c : CycleRec), s.m.pl.tail = some c ∧ c.formed = true ∧ c.at_ + 1500000 ≤ s.env.ns)
    ∧ (∃ s : State, s.m.stk.switch = some (s.m.pl.cyc.num, some (0x89, cmd []), false) ∧ s.m.role = 0 ∧ s.m.switchNow s.env s.m.pl.cyc.num = some true)
    ∧ (∃ s : State, s.m.stk.switch = some (0, some (0x89, cmd []), false) ∧ s.m.role = 0 ∧ s.m.switchNow s.env 0 = some false)
    ∧ ∃ s : State, (s.m.stk.test.find? fun x => x.1 == 1) = some (1, cmd [], 5, 0) ∧ 0 + 1000000000 ≤ s.env.upNs := by
  refine ⟨by decide, by decide, by decide, by decide, by decide,
    ⟨withM (fun m => (m.setPeer 1 fun q => { q with role := 0, flags := 1 }).setStk fun x => { x with hold := true })
      (withM (fun m => m.setSaf fun x => { x with state := 2 }) (later (put [(.STK_STS_role, 1)] s0))), by decide⟩, by decide,
    ⟨withM (fun m => m.setPeer 1 fun q => { q with freeFor := some 0 }) (sLines [(.STK_BRG_peer_rd, 1)]), by decide⟩,
    ⟨by decide, by decide, by decide, withM (fun m => m.setPeer 1 fun q => { q with miss := 2 }) (later sSwitch), by decide⟩,
    ⟨by decide, by decide, withM (fun m => m.setStk fun x => { x with freeAt := some 0 }) (later (sBrg [(.STK_STS_pos, 2), (.STK_STS_holder_valid, 1)])), by decide⟩,
    ⟨withM (fun m => m.setStk fun x => { x with freeAt := some 0 }) (later (sBrg [(.STK_STS_holder_valid, 1)])), by decide⟩,
    by decide, by decide, ⟨by decide, by decide, by decide,
      ⟨withM (fun m => m.setPeer 0 fun q => { q with present := true, role := 0 }) (later (sBrg [(.STK_STS_pos, 2), (.STK_STS_role, 4), (.STK_STS_iso_cause, 3), (.STK_CFG_auto_rejoin, 1)])), by decide⟩,
      ⟨withM (fun m => m.setPeer 1 fun q => { q with present := true, role := 0 }) (later (sBrg [(.STK_STS_role, 4), (.STK_STS_iso_cause, 3), (.STK_CFG_auto_rejoin, 1)])), by decide⟩⟩,
    ⟨withM (fun m => m.setStk fun x => { x with sync := some ⟨0, none, none, none, [], false, 0⟩ }) (later (put [(.STK_STS_role, 2)] s0)), _, rfl, rfl, by decide, by decide, by decide⟩,
    ⟨withM (fun m => { m with pl := { m.pl with cyc := { m.pl.cyc with done := false, formed := true } } }) (later s0), by decide⟩,
    ⟨withM (fun m => { m with pl := { m.pl with tail := some { m.pl.cyc with formed := true } } }) (later s0), _, rfl, by decide, by decide⟩,
    ⟨withM (fun m => { m.setStk fun x => { x with switch := some (m.pl.cyc.num, some (0x89, cmd []), false) } with
      pl := { m.pl with cyc := { m.pl.cyc with formed := true }, peer := some (m.pl.cyc.num, m.pl.cyc.digest, false) } }) (later sSwitch), by decide⟩,
    ⟨withM (fun m => (m.setStk fun x => { x with switch := some (0, some (0x89, cmd []), false) }).setPeer 1 fun q => { q with role := 4 }) sSwitch, by decide⟩,
    ⟨withM (fun m => m.setStk fun x => { x with test := [(1, cmd [], 5, 0)] }) (later s0), by decide⟩⟩

/-- Port 0 up on a member in a role. -/
def sLink (role pos : Nat) : State := put [(.STK_STS_role, role), (.STK_STS_pos, pos)] (linked s0)

theorem witness_LinkFrames :
    (s0.m.b (lkUp 1) = false ∧ s0.m.stk.downAt.getD 1 none = none) ∧ (linked s0).m.b (lkUp 0) = true ∧ s0.m.b .STK_STS_strap_chg = false
    ∧ ((∀ p, p = (fun q : Peer => { q with ports := if q.ports.contains 0 then q.ports else 0 :: q.ports }) →
        (((sLink 0 0).m.setPeer 1 p).setBit Reg.STK_MEMBERS 9 (decide (2 ≤ (((sLink 0 0).m.setPeer 1 p).peer 1).ports.length))).hears hdr 1
          (toHear (((sLink 0 0).m.setPeer 1 p).setBit Reg.STK_MEMBERS 9 (decide (2 ≤ (((sLink 0 0).m.setPeer 1 p).peer 1).ports.length))) hdr 1)))
    ∧ (put [(.GEN_STATE_state, 1)] s0).m.state < 2
    ∧ (2 ≤ s0.m.state ∧ ((List.range 4).any fun d => s0.m.clkFailed d) = false ∧ s0.m.stk.waits = false ∧ s0.m.stk.sentMs = none
      ∧ s0.m.stk.sentAt + 2500000 ≤ (later s0).env.upNs ∧ s0.env.upNs < s0.m.stk.sentAt + 2500000)
    ∧ ((put [(.STK_STS_master, 1)] s0).m.b .STK_STS_master = true ∧ s0.m.stk.beaconMs = none)
    ∧ ((sLink 1 0).m.hears hdr 0xC (toHear (sLink 1 0).m hdr 0xC) ∧ (toHear (sLink 1 0).m hdr 0xC).b .STK_STS_master = false ∧ (toHear (sLink 1 0).m hdr 0xC).role = 1
      ∧ (toHear (sLink 1 0).m hdr 0xC).stk.seqIn ≠ (sLink 1 0).m.stk.seqIn)
    ∧ (sLink 1 0).m.hears hdr 2 (toHear (sLink 1 0).m hdr 2)
    ∧ ((sLink 2 0).m.hears hdr 3 (toHear (sLink 2 0).m hdr 3) ∧ (toHear (sLink 2 0).m hdr 3).role = 2)
    ∧ ((sLink 1 0).m.hears hdr 4 (toHear (sLink 1 0).m hdr 4) ∧ (toHear (sLink 1 0).m hdr 4).role = 1 ∧ 1 ≠ (toHear (sLink 1 0).m hdr 4).pl.num)
    ∧ ((sLink 1 0).m.hears hdr 5 (toHear (sLink 1 0).m hdr 5) ∧ rb [] 0 = 0)
    ∧ ((sLink 1 0).m.hears hdr 6 (toHear (sLink 1 0).m hdr 6) ∧ (toHear (sLink 1 0).m hdr 6).pos = 0 ∧ hdr.src = (toHear (sLink 1 0).m hdr 6).peerPos)
    ∧ ((sLink 1 0).m.hears hdr 9 (toHear (sLink 1 0).m hdr 9) ∧ (toHear (sLink 1 0).m hdr 9).role ≠ 3)
    ∧ (sLink 1 0).m.hears hdr 8 (toHear (sLink 1 0).m hdr 8)
    ∧ ((sLink 1 0).m.hears hdr 7 (toHear (sLink 1 0).m hdr 7) ∧ (toHear (sLink 1 0).m hdr 7).strShadow = true)
    ∧ ((sLink 1 0).m.hears hdr 0xB (toHear (sLink 1 0).m hdr 0xB) ∧ (toHear (sLink 1 0).m hdr 0xB).role = 1) :=
  ⟨by decide, by decide, by decide, fun p h => h ▸ hears_of (by decide), by decide, by decide, by decide, ⟨hears_of (by decide), by decide, by decide, by decide⟩,
    hears_of (by decide), ⟨hears_of (by decide), by decide⟩, ⟨hears_of (by decide), by decide, by decide⟩, ⟨hears_of (by decide), by decide⟩,
    ⟨hears_of (by decide), by decide, by decide⟩, ⟨hears_of (by decide), by decide⟩, hears_of (by decide), ⟨hears_of (by decide), by decide⟩, ⟨hears_of (by decide), by decide⟩⟩

/-! ### Premises that can be met: host, interrupts, recorder, power, update and security -/

def netCfg : Cmd := { cmdD [1] (List.replicate 28 0) with dataLen := 28 }

def ptpCfg : Cmd := cmd [1, 1, 127, 0, 0xF9, 0xFD, 0xF9, 0, 0, 2]

/-- CQ 0 of sixteen entries, to which SQ 0 is bound. -/
def sCq : State := put [(qEn .cq 0, 1), (qK .cq 0, 4)] s0

theorem witness_HostCommandsAnswer_entry :
    sCq.takes (cmd []) ∧ (cmd []).path = .queue 0 ∧ (cmd []).quiet = false ∧ sCq.m.hif.prog = [] ∧ sCq.m.g (.HIF_SQq_CFG_cq 0) = 0
      ∧ sCq.m.ringOpen .cq 0 = true ∧ 0 < sCq.m.hif.cq.length :=
  ⟨takes_of (by decide), by decide, by decide, by decide, by decide, by decide, by decide⟩

theorem witness_HostCommandsAnswer :
    (s0.takes (cmd [2, 1]) ∧ (cmd [2, 1]).u8 0 = 2 ∧ (cmd [2, 1]).u8 1 % 2 = 1)
    ∧ (s0.takes netCfg ∧ netCfg.u8 0 = 1 ∧ netCfg.data.length = 28 ∧ netCfgOk netCfg = true)
    ∧ (s0.takes (cmd [1, 15, 0]) ∧ (cmd [1, 15, 0]).u8 2 = 0)
    ∧ (s0.takes (cmd [1, 15, 1, 0, 0, 0, 0, 0xEF]) ∧ (cmd [1, 15, 1, 0, 0, 0, 0, 0xEF]).u32 4 / 2 ^ 28 = 14)
    ∧ (s0.takes ptpCfg ∧ ptpCfgOk ptpCfg = true)
    ∧ 264 ≤ (cmd []).bufLen :=
  ⟨⟨takes_of (by decide), by decide, by decide⟩, ⟨takes_of (by decide), by decide, by decide, by decide +kernel⟩, ⟨takes_of (by decide), by decide⟩,
    ⟨takes_of (by decide), by decide⟩, ⟨takes_of (by decide), by decide +kernel⟩, by decide⟩

/-- SQ 15 with two entries told, its CQ 15, both of sixteen entries. -/
def sQ (cqEn : Nat) : State := withM (fun m => m.setRing .sq 15 { m.ring .sq 15 with host := 2 })
  (put [(qEn .sq 15, 1), (qK .sq 15, 4), (.HIF_SQq_CFG_cq 15, 15), (qEn .cq 15, cqEn), (qK .cq 15, 4)] s0)

def sHost : State := put [(.HIF_STS_link_up, 1), (.HIF_STS_bus_master, 1), (.HIF_STS_pages_ok, 1)] s0

/-- One TIME cycle after a poll. -/
def sSoon : State := put [(.HIF_POLL_cur, 1)] sHost

/-- Two queues of one class: SQ 0 is served before SQ 15. -/
def sQ2 : State := withM (fun m => m.setRing .sq 0 { m.ring .sq 0 with host := 1 }) (put [(qEn .sq 0, 1), (qK .sq 0, 4), (.HIF_SQq_CFG_cq 0, 15)] (sQ 1))

theorem witness_HostHappenings :
    (sHost.m.b .HIF_STS_link_up = true ∧ sHost.m.b .HIF_STS_bus_master = true)
    ∧ (qTypeOf 3).count = 16
    ∧ ((sQ 1).m.b (qEn .cq 15) = true ∧ ((List.range 16).any fun q => (sQ 1).m.b (.HIF_SQq_CFG_en q) && (sQ 1).m.g (.HIF_SQq_CFG_cq q) == 15) = true)
    ∧ s0.m.b .HIF_STS_pages_ok = false ∧ sSoon.env.powered < sSoon.m.hif.polled + sSoon.m.g .HIF_POLL_cur * 250
    ∧ sHost.m.pollDue sHost.env = true
    ∧ (sHost.m.b .HIF_STS_pages_ok = true ∧ sHost.m.hif.polled + sHost.m.g .HIF_POLL_cur * 250 ≤ sHost.env.powered ∧ sHost.m.failedReads (List.replicate 56 (some 0)) = 0)
    ∧ s0.m.sqCount 15 = 0
    ∧ ((sQ 0).m.g (.HIF_SQq_CFG_cq 15) = 15 ∧ (sQ 0).m.ringOpen .sq 15 = true ∧ (sQ 0).m.sqCount 15 ≠ 0 ∧ (sQ 0).m.hif.prog.length < 256
      ∧ (sQ 0).m.cqRoom 15 = false)
    ∧ ((sQ 1).m.ringOpen .sq 15 = true ∧ (sQ 1).m.sqCount 15 ≠ 0 ∧ (sQ 1).m.sqServed = some 15 ∧ assigned 0xB7 = true)
    ∧ (sQ2.m.ringOpen .sq 15 = true ∧ sQ2.m.sqCount 15 ≠ 0 ∧ sQ2.m.cqRoom 15 = true ∧ sQ2.m.sqServed = some 0) := by
  refine ⟨by decide, by decide, by decide +kernel, by decide, by decide, by decide +kernel, by decide +kernel, by decide, by decide +kernel, by decide +kernel⟩

def sNet : State := put [(.NETp_CTRL_en 1, 1), (.NETp_STS_link 1, 1), (.NETp_CTRL_n450 1, 1), (.NETp_IP_addr 1, 1), (.NETp_STS_joined 1, 32768)] s0

/-- The head of a frame from 02-00-00-00-00-09 to every station. -/
def frameHead (typ : List Nat) : List Byte := bs ([255, 255, 255, 255, 255, 255, 2, 0, 0, 0, 0, 9] ++ typ)

/-- An ARP request of 0.0.0.2 for 0.0.0.1, and an echo request of 0.0.0.2 to it. -/
def arpFrame : List Byte := frameHead [8, 6] ++ bs [0, 1, 8, 0, 6, 4, 0, 1, 2, 0, 0, 0, 0, 9, 0, 0, 0, 2, 0, 0, 0, 0, 0, 0, 0, 0, 0, 1]
def echoFrame : List Byte := frameHead [8, 0] ++ bs [0x45, 0, 0, 28, 0, 0, 0, 0, 64, 1, 0, 0, 0, 0, 0, 2, 0, 0, 0, 1, 8, 0, 0xF7, 0xFD, 0, 1, 0, 1]

/-- The reply to an ARP request (RFC 826): operation 2, the port as sender, the requester as target. -/
theorem test_arp_reply : (sNet.m.arpReply sNet.env 1 arpFrame).drop 20 = bs [0, 2, 0, 0, 0, 0, 0, 1, 0, 0, 0, 1, 2, 0, 0, 0, 0, 9, 0, 0, 0, 2] := by decide +kernel

/-- The echo reply (RFC 792): addresses exchanged, type 0, and a checksum over it. -/
theorem test_echo_reply : (sNet.m.echoReply sNet.env 1 echoFrame).drop 26 = bs [0, 0, 0, 1, 0, 0, 0, 2, 0, 0, 0xFF, 0xFD, 0, 1, 0, 1] := by decide +kernel

theorem witness_EthernetFrames :
    (sNet.m.netUp 1 = true ∧ (frameBody arpFrame == 18) = (sNet.m.upWrap (.NETp_RX_CNT_frames 1)).b (.NETp_VLAN_vlan_en 1)
      ∧ (sNet.m.upWrap (.NETp_RX_CNT_frames 1)).frameUse 1 arpFrame = .arp ∧ (sNet.m.upWrap (.NETp_RX_CNT_frames 1)).netServes 1 .arp = true
      ∧ (sNet.m.upWrap (.NETp_RX_CNT_frames 1)).frameUse 1 echoFrame = .icmp ∧ (sNet.m.upWrap (.NETp_RX_CNT_frames 1)).netServes 1 .icmp = true
      ∧ (put [(.NETp_CTRL_ptp 1, 1)] sNet).m.netServes 1 ((put [(.NETp_CTRL_ptp 1, 1)] sNet).m.frameUse 1 (frameHead [0x88, 0xF7])) = true
      ∧ sNet.m.netServes 1 (sNet.m.frameUse 1 (frameHead [0x88, 0xF7])) = false)
    ∧ s0.m.netUp 1 = false ∧ (sNet.m.netServes 1 .n450 = true ∧ (sNet.m.g (.NETp_STS_joined 1)).testBit 15 = true)
    ∧ (s0.m.b (.NETp_STS_link 1) = false ∧ sNet.m.b (.NETp_STS_link 1) = true)
    ∧ (sNet.m.n450Ok 1 15 udpbc = true ∧ sentencesOf false [] (udpbc.drop 6) = [] ∧ 1 < sNet.m.hif.groups.length ∧ 15 < (sNet.m.hif.groups.getD 1 []).length) := by
  decide +kernel

def sIrq : State := put [(⟨Reg.IRQ_LEVELw 15, 31, 31⟩, 1), (⟨Reg.IRQ_CLAIMEDw 15, 31, 31⟩, 1), (.IRQ_SRCs_TGT_en 511, 1)] s0

theorem witness_InterruptController :
    s0.m.irqLevel 511 = false ∧ (put [(⟨Reg.IRQ_SWR_SETx 2, 31, 31⟩, 1)] s0).m.irqHigh 511 = true ∧ sIrq.m.irqHigh 511 = false ∧ sIrq.m.irqLevel 511 = true ∧ sIrq.m.irqEn 511 = true ∧ s0.m.irqClaimed 511 = false ∧ sIrq.m.irqClaimed 511 = true
    ∧ (∃ s : State, (irqAll fun n => s.m.irqClaimed n && !s.m.irq.looked.contains n && assoc ⟨true, 0⟩ s.m.irq.owner n == ⟨false, 31⟩) = 511 :: [])
    ∧ (irqAll fun n => s0.m.irqClaimed n && !s0.m.irq.looked.contains n && assoc ⟨true, 0⟩ s0.m.irq.owner n == ⟨false, 31⟩) = []
    ∧ ((∃ n, n < 512 ∧ s0.m.b (.IRQ_SRCs_TGT_fw n) = false) ∧ irqBadWrite 511 0 = false ∧ irqBadWrite 511 0xE00 = true) := by
  refine ⟨by decide, by decide, by decide, by decide, by decide, by decide, by decide,
    ⟨withM (fun m => { m with irq := { m.irq with owner := [(511, ⟨false, 31⟩)] } }) sIrq, by decide +kernel⟩, by decide +kernel, ⟨⟨511, by decide, by decide⟩, by decide, by decide⟩⟩

/-- A LOG_WRITE of four bytes, severity 4. -/
def logW : Cmd := cmdD [4, 0, 0xFF, 0xEF, 4, 0, 0, 0] (bs [1, 2, 3, 4])

theorem witness_RecorderCommandsAnswer :
    (∃ s : State, s.m.peat.erase.isSome = true) ∧ s0.m.peat.erase = none
    ∧ ((s0.m.peat.stored.filter fun x => decide (0 ≤ x.seq)).foldl (readOne 0 false 0 4096) ⟨[], 0, 0, 0, [], false, true⟩).tight = false
    ∧ (s0.takes (cmd [255, 11, 0, 0, 0, 0, 0, 0, 4, 0, 0, 0]) ∧ (cmd [255, 11, 0, 0]).u32 0 = 3071 ∧ 3071 < segCount ∧ s0.m.peat.retired.contains 3071 = false)
    ∧ (s0.takes logW ∧ logW.u16 2 = 0xEFFF ∧ logW.u32 4 = 4 ∧ s0.m.b .LOG_STS_buf_high = false
      ∧ s0.m.peatFiltered ⟨4, 0x12, 0xEFFF, bs [1, 2, 3, 4], some logW⟩ = false ∧ s0.m.peatFull ⟨4, 0x12, 0xEFFF, bs [1, 2, 3, 4], some logW⟩ = false)
    ∧ logCfgOk (s0.m.rd Reg.LOG_CFG) = true
    ∧ (s0.m.peat.buffer = [] ∧ ∃ s : State, s.m.peat.buffer ≠ [] ∧ s.m.peat.erase = none) ∧ (put [(.GEN_STATE_state, 5)] s0).m.state = 5 := by
  refine ⟨⟨withM (fun m => m.setPeat fun p => { p with erase := some (cmd []) }) s0, by decide⟩, by decide, by decide,
    ⟨takes_of (by decide), by decide, by decide, by decide⟩, ⟨takes_of (by decide), by decide, by decide, by decide, by decide, by decide⟩, by decide,
    ⟨by decide, withM (fun m => m.setPeat fun p => { p with buffer := [⟨0, 1, 0x1001, [], none⟩] }) s0, by decide⟩, by decide⟩

theorem witness_RecorderHappenings :
    (∃ s : State, s.m.b .LOG_STS_ready = true ∧ s.m.peat.erase = none ∧ s.m.peat.buffer ≠ []) ∧ s0.m.peat.buffer = []
    ∧ (∃ s : State, s.m.peat.flush = (cmd [], 1, 0) :: [] ∧ 0 + 2500000000 ≤ s.env.powered)
    ∧ ((put [(.LOG_STS_ready, 1)] (later s0)).m.b .LOG_STS_ready = true ∧ (put [(.LOG_STS_ready, 1)] (later s0)).m.anchorDue (put [(.LOG_STS_ready, 1)] (later s0)).env = true) ∧ (∃ s : State, s.m.peat.erase = some (cmd [])) := by
  refine ⟨⟨withM (fun m => m.setPeat fun p => { p with buffer := [⟨0, 1, 0x1001, [], none⟩] }) (put [(.LOG_STS_ready, 1)] s0), by decide⟩, by decide,
    ⟨withM (fun m => m.setPeat fun p => { p with flush := [(cmd [], 1, 0)] }) (later s0), by decide⟩, ⟨by decide, by decide⟩, ⟨withM (fun m => m.setPeat fun p => { p with erase := some (cmd []) }) s0, by decide⟩⟩

/-- Power good on both feeds. -/
def sPwr : State := withM (fun m => { m with boot := { m.boot with good := true } }) (put [(feedIn 0, 1), (feedIn 1, 1)] s0)

/-- 60 s after the start. -/
def s60 : State := { s0 with env := { s0.env with powered := 15000000000 } }

theorem witness_PowerAndStarts :
    (sPwr.m.b (feedIn 1) = true ∧ sPwr.m.b (feedIn (1 - 1)) = true ∧ sPwr.m.boot.good = true)
    ∧ ((put [(feedIn 1, 1), (feedIn 0, 0)] s0).m.b (feedIn 1) = true ∧ (put [(feedIn 1, 1), (feedIn 0, 0)] s0).m.b (feedIn (1 - 1)) = false
      ∧ (put [(feedIn 1, 1), (feedIn 0, 0)] s0).m.boot.offAt = none)
    ∧ ((withM (fun m => { m with boot := { m.boot with good := true } }) (put [(feedIn 0, 1), (feedIn 1, 0)] s0)).m.b (feedIn 1) = false)
    ∧ (∃ s : State, s.m.boot.good = false ∧ s.m.boot.held = false) ∧ (∃ s : State, s.m.boot.good = false ∧ s.m.boot.held = true)
    ∧ (∃ s : State, s.m.boot.good = true ∧ s.m.powerLost s.env = true) ∧ sPwr.m.powerLost sPwr.env = false
    ∧ (∃ s : State, s.m.b (feedIn 0) = false ∧ s.m.b (feedIn 1) = false)
    ∧ (∃ s : State, s.m.boot.held = true) ∧ (2 ≤ s0.m.state ∧ s0.m.boot.held = false)
    ∧ (∃ s : State, s.m.boot.restart = some (true, 4) ∧ s.m.boot.held = false ∧ s.m.boot.restartAt ≤ s.env.powered)
    ∧ (s60.m.startLateBy s60.env = true ∧ s0.m.startLateBy s0.env = false ∧ s0.m.plateDue s0.env = true) := by
  refine ⟨by decide, by decide, by decide, ⟨withM (fun m => { m with boot := { m.boot with good := false } }) s0, by decide⟩,
    ⟨withM (fun m => { m with boot := { m.boot with held := true } }) s0, by decide⟩,
    ⟨withM (fun m => { m with boot := { m.boot with good := true, offAt := some 0 } }) (later (put [(feedIn 0, 0), (feedIn 1, 0)] s0)), by decide⟩, by decide,
    ⟨put [(feedIn 0, 0), (feedIn 1, 0)] s0, by decide⟩,
    ⟨withM (fun m => { m with boot := { m.boot with held := true } }) s0, by decide⟩, by decide,
    ⟨withM (fun m => { m with boot := { m.boot with restart := some (true, 4), restartAt := 2500000 } }) (later s0), by decide⟩, by decide⟩

theorem witness_FailingParts :
    3758096383 < 3758096384 ∧ ((s0.m.dramNote s0.env 0 true).pageRetire s0.env (0 / 4096) 0 1).state ≠ 6
    ∧ (∃ s : State, s.m.str.testPages.contains 255 = true)
    ∧ s0.m.gns.bad.contains 95 = false
    ∧ ∃ s : State, s.m.gns.bist.contains 95 = true := by
  refine ⟨by decide, by decide +kernel, ⟨withM (fun m => { m with str := { m.str with testPages := [255] } }) s0, by decide⟩, by decide +kernel,
    ⟨withM (fun m => { m with gns := { m.gns with bist := [95] } }) s0, by decide⟩⟩

/-- A MAIN image of one byte, signed under slot 1; and a configuration image without records. Their keys are chosen so that R = G + Q. -/
def fwImage : List Byte := be 80 0x4e58494d0100010100000000020000010000000001000000000000000000000040cd056bb48d25cacb34e2b1b1e81c53ef4d210b57597bfa323ca2d430d133af9aa70b5db0b40937561bf5e7e1942053 ++ be 48 0x8b59612d4317c62b5791eef242ac61f82304e5c37651d529fc64157e1bc22acfd6826f199df3d32cb8ecab80f61a4d6e ++ be 48 0x8b59612d4317c62b5791eef242ac61f82304e5c37651d529fc64157e1bc22acfd6826f199df3d32cb8ecab80f61a4d6e ++ List.replicate 336 0 ++ [0x5A]

def cfgImage : List Byte := be 64 0x4e5843460100000000000000000000000700000000000000a00000003d4105720000000000000000000000000000000000000000000000000000000000000000 ++ be 48 0x5cd5c6663d2e8d2215472bf2cf29a354f1d6c8782fbc8682856bb60e1b0c6259092b5775484121e45f22c968c1c3e4c0 ++ be 48 0x5cd5c6663d2e8d2215472bf2cf29a354f1d6c8782fbc8682856bb60e1b0c6259092b5775484121e45f22c968c1c3e4c0

/-- A vault with those keys in slots 1 and 2, and command key 0. -/
def vault1 : Vault := { Vault.reset with
  roots := [RootSlot.reset, ⟨be 96 0xe57837e61f1dccb289072599c1014d13f61cbad945da0155d4b90f6eb681977376abfe1345827d88d83a8525c879b97b32e337f2b3403d27dec4fa602825b5b06cfaa6da4f1498add7696e352bf7b10947fbd4d0739deb1c73b09d545e9c9b2f, 1, be 48 0x3208b0c5f4a59eb7041e672c94324597539d2e36ecf4c0306a2297f3560c4ad42cbbca4090401af22ea885f9ff9b1f9b, false⟩, ⟨be 96 0xf24fcd169b88272e9f212dc70a10bd9d666d9b07ffee56c44ff01707795e1dd12a682369530f83a15f8a28673540987c0af0db837c135e31c5f2e307be29c4fd34f836677e659f1617c64146b47b1998bc258d58c94458ed90918f4c09dab53e, 4, be 48 0xe85eb2d618ac6d0a811d0f34fd230d467ca086bef600a0e95955537545a2274d212fc3f2890629b51da1884083a54158, false⟩, RootSlot.reset]
  cmds := (be 32 0x000102030405060708090a0b0c0d0e0f101112131415161718191a1b1c1d1e1f, false) :: List.replicate 7 ([], false) }

def sVault (f : Mach → Mach) : State := { s0 with env := { s0.env with vault := vault1 }, m := f s0.m }

/-- The image's two units in slot 1. -/
def sImage : State := sVault fun m => ((m.setSlot 1 fun _ => ⟨[(0, fwImage.take 512), (1, fwImage.drop 512)], none⟩).setFw fun x =>
  { x with verify := [(1, cmd [1])] }).s (.UPD_SLOTn_STS_kind 1) 1

/-- A block of one byte at offset 512 of an image of 513. -/
def blk : Cmd := { cmdD [] [0x5A] with params := bs [1, 0, 0, 0, 0, 2, 0, 0, 1, 0, 0, 0] ++ (le 4 (crc32c [0x5A]) ++ []) }

def sSlot (state kind size : Nat) : State := withM (fun m => m.wr (Reg.UPD_SLOTn_SIZE 1) (BitVec.ofNat 32 size))
  (put [(.UPD_SLOTn_STS_state 1, state), (.UPD_SLOTn_STS_kind 1, kind), (.STK_STS_peer_ok, 1)] s0)

theorem witness_UpdateCommandsAnswer :
    (s0.takes (cmd [1, 3, 0, 0, 1, 2, 0, 0]) ∧ (cmd [1, 3, 0, 0, 1, 2, 0, 0]).u32 4 = 513 ∧ 513 ≤ kindMax 3 ∧ s0.m.verifying 1 = false ∧ s0.m.slotState 1 < 4)
    ∧ ((sSlot 1 1 513).takes blk ∧ blk.u32 4 = 512 ∧ blk.u32 8 = 1 ∧ ((sSlot 1 1 513).m.rd (Reg.UPD_SLOTn_SIZE 1)).toNat = 513 ∧ (sSlot 1 1 513).m.slotState 1 = 1
      ∧ crc32c blk.data = blk.u32 12 ∧ unitsConflict ((sSlot 1 1 513).m.slot 1).units (blockUnits (512 / 512) 128 blk.data) = false)
    ∧ (s0.m.verifying 1 = false ∧ (sSlot 2 1 513).m.slotState 1 = 2)
    ∧ ((sSlot 3 1 513).m.slotState 1 = 3 ∧ (sSlot 3 1 513).m.slotKind (1 - 1) ≠ (sSlot 3 1 513).m.slotKind 1 ∧ (sSlot 3 1 513).m.fw.backup.contains 1 = false
      ∧ (sSlot 3 1 513).m.b .STK_STS_peer_ok = true)
    ∧ (bitmap (s0.m.slot 1).units).length ≤ { cmd [1] with bufLen := 32768 }.bufLen :=
  ⟨⟨takes_of (by decide), by decide, by decide, by decide, by decide⟩,
    ⟨takes_of (by decide), by decide, by decide, by decide, by decide, (u32_le (bs [1, 0, 0, 0, 0, 2, 0, 0, 1, 0, 0, 0]) _ [] rfl (crc32c_lt _)).symm, by decide⟩,
    by decide, by decide, by simp [bitmap]⟩

/-- CRC-32C with every step's value formed at once, for the evaluation of the tests. -/
def now (n : Nat) (f : Nat → Nat) : Nat := match n with | 0 => f 0 | k + 1 => f (k + 1)

def crcBits8 : Nat → Nat → Nat
  | 0, c => c
  | n + 1, c => now (if c % 2 = 1 then c / 2 ^^^ 0x82F63B78 else c / 2) (crcBits8 n)

def crcNow : List Byte → Nat → Nat
  | [], c => c
  | b :: bs, c => now (crcBits8 8 (c ^^^ b.toNat)) (crcNow bs)

theorem now_eq (n : Nat) (f : Nat → Nat) : now n f = f n := by cases n <;> rfl

theorem crcNow_eq (l : List Byte) (c : Nat) :
    l.foldl (fun c b => (List.range 8).foldl (fun c _ => if c % 2 = 1 then c / 2 ^^^ 0x82F63B78 else c / 2) (c ^^^ b.toNat)) c = crcNow l c := by
  have h : ∀ (n c : Nat) (l : List Nat), l.length = n → l.foldl (fun c _ => if c % 2 = 1 then c / 2 ^^^ 0x82F63B78 else c / 2) c = crcBits8 n c := by
    intro n
    induction n with
    | zero => intro c l h; rw [List.length_eq_zero_iff.mp h]; rfl
    | succ n ih =>
      intro c l h
      cases l with
      | nil => cases h
      | cons a l => rw [List.foldl_cons, crcBits8, now_eq]; exact ih _ l (by simpa using h)
  induction l generalizing c with
  | nil => rfl
  | cons b l ih => rw [List.foldl_cons, crcNow, now_eq, ih, h 8 _ _ (by rfl)]

theorem witness_UpdateCommandsAnswer_config :
    (sVault id).takes { cmdD [] cfgImage with dataLen := 160 } ∧ cfgFail (sVault id).env cfgImage = none
    ∧ cfgFail s0.env [] = some 0x40 ∧ s0.m.b .GEN_STATE_cfg_stop = false := by
  refine ⟨takes_of (by decide +kernel), ?_, by decide, by decide⟩
  unfold cfgFail cfgCrc crc32c crc32cFrom
  simp only [crcNow_eq]
  decide +kernel

theorem witness_UpdateHappenings :
    (sImage.m.fw.verify = [(1, cmd [1])] ∧ slotBytes (sImage.m.slot 1) = fwImage
      ∧ verifyFail sImage.env sImage.m 1 513 fwImage = none ∧ verifyFail s0.env s0.m 1 513 fwImage = some 0x43)
    ∧ (∃ s : State, s.m.state = 4 ∧ s.m.fw.backup = [3]) ∧ (∃ s : State, s.m.fw.window = some (1, 7, 0xB7, 0) ∧ 0 + 250000000 ≤ s.env.powered) ∧ s0.m.fw.window = none := by
  refine ⟨⟨by decide +kernel, by decide +kernel, by decide +kernel, by decide +kernel⟩, ⟨withM (fun m => m.setFw fun x => { x with backup := [3] }) (put [(.GEN_STATE_state, 4)] s0), by decide⟩,
    ⟨withM (fun m => m.setFw fun x => { x with window := some (1, 7, 0xB7, 0) }) (later s0), by decide⟩, by decide⟩

/-- A FACTORY module whose identity key and slot 0 are written. -/
def sFact : State := { s0 with env := { s0.env with vault := { vault1 with
  fuses := List.replicate 3 (false, false), idKey := [1], roots := vault1.roots.drop 1 ++ [RootSlot.reset] } } }

def sTrial : State := put [(.GEN_STATE_state, 4), (.UPD_SLOTn_STS_state 1, 6), (.UPD_SLOTn_STS_kind 1, 2)] s0

def sTrial1 : State := put [(.GEN_STATE_state, 4), (.UPD_SLOTn_STS_state 1, 6), (.UPD_SLOTn_STS_kind 1, 1)] s0

/-- Two command keys. -/
def sKeys : State := { s0 with env := { s0.env with vault := { vault1 with cmds := upd vault1.cmds 7 fun _ => ([1], false) } } }

/-- SEC_LIFECYCLE to RETIRED with its envelope under command key 0. -/
def retire : Cmd := { cmd [3] with env := be 32 0x015e000001000000000000000000000000000000000000000000000000000000 ++ be 32 0xac1509e743513c1714858a641f9682b3f7f158f368057dbc851ca67cc2c90637 }

theorem witness_SecurityCommandsAnswer :
    (s0.takes (cmd [4, 255]) ∧ s0.env.vault.ctr.getD 4 0 < 255 ∧ ((s0.m.guarded 4).any fun x => decide (secVer x < 255)) = false)
    ∧ (sTrial.m.trialSlot 2 = some 1 ∧ sTrial.m.state = 4)
    ∧ (s0.takes { cmdD [0, 3, 0xC] (List.replicate 96 0) with dataLen := 96 } ∧ (cmd [0, 3, 0xC]).u8 2 &&& 0xF3 = 0 ∧ s0.env.vault.life < 2
      ∧ (nth RootSlot.reset s0.env.vault.roots 3).key = [])
    ∧ (s0.takes { cmdD [1, 7] (List.replicate 32 0) with dataLen := 32 } ∧ (nth ([], false) s0.env.vault.cmds 7).1 = [])
    ∧ ((nth RootSlot.reset vault1.roots 1).programmed = true ∧ (nth RootSlot.reset vault1.roots 1).revoked = false ∧ (sVault id).m.slotInForce (sVault id).env 1 = false)
    ∧ (sFact.takes (cmd [1]) ∧ sFact.env.vault.life = 0 ∧ sFact.m.lifeOk sFact.env.vault 1 = true)
    ∧ s0.env.vault.life ≠ 3
    ∧ ((nth ([], false) sKeys.env.vault.cmds 7).1 ≠ [] ∧ (nth ([], false) sKeys.env.vault.cmds 7).2 = false ∧ 1 < (sKeys.env.vault.cmds.filter keyLive).length)
    ∧ (retire.path = .queue 0 ∧ retire.lenBad = false ∧ retire.env ≠ [] ∧ (sVault id).m.envelopeOk (sVault id).env 0xB6 retire = true
      ∧ retire.u8 0 = 3 ∧ ((sVault id).m.envelopeTake retire).lifeOk (sVault id).env.vault 3 = true)
    ∧ (sTrial1.m.trialSlot 1 = some 1 ∧ sTrial1.m.state = 4 ∧ sTrial1.m.b .GEN_START_fallback = false) :=
  ⟨⟨takes_of (by decide), by decide, by decide⟩, by decide +kernel, ⟨takes_of (by decide +kernel), by decide, by decide, by decide⟩,
    ⟨takes_of (by decide +kernel), by decide⟩, ⟨by decide +kernel, by decide, by decide +kernel⟩, ⟨takes_of (by decide), by decide, by decide +kernel⟩, by decide,
    ⟨by decide, by decide, by decide⟩, ⟨rfl, by decide +kernel, by decide +kernel, by decide +kernel, by decide +kernel, by decide +kernel⟩, by decide +kernel⟩

/-- SEC_TAMPER_CLR with its envelope under command key 0. -/
def clr : Cmd := { cmd [] with env := be 32 0x015e000001000000000000000000000000000000000000000000000000000000 ++ be 32 0x7b2ac6aacb3c470c12283aa7118b014d2392a81eaa26f32cffb6e6a94f0974ee }

theorem witness_TamperIsLatched :
    (2 ≤ s0.m.state)
    ∧ (clr.path = .queue 0 ∧ clr.lenBad = false ∧ clr.env ≠ [] ∧ (sVault fun m => m.s .SEC_STS_tamper 1).m.envelopeOk (sVault id).env 0xB7 clr = true
      ∧ ((sVault fun m => m.s .SEC_STS_tamper 1).m.envelopeTake clr).b .SEC_STS_tamper = true)
    ∧ s0.takes (cmd []) :=
  ⟨by decide, ⟨rfl, by decide +kernel, by decide +kernel, by decide +kernel, by decide +kernel⟩, takes_of (by decide)⟩

/-! ### Operands: each check refuses a term outside it, and passes one inside -/

def start0 : StartIn := ⟨3000, 0, false, true, [], [], [], true, true, true, false, 0, [], none, true, true, [], true, false, [], 0, 0⟩

theorem test_illformed_command : ([{ cmd [] with path := .queue 16 }, { cmd [] with path := .maint 2 0 }, { cmd [] with cid := 65536 }, { cmd [] with env := [0] }, { cmd [] with dataLen := 2 ^ 32 }, { cmd [] with bufLen := 2 ^ 32 }, { cmd [] with bufAddr := 2 ^ 64 }, { cmd [] with params := List.replicate 45 0 }, { cmd [] with dataLen := 1 }] : List Cmd).all (fun c => !c.wf && !(Instr.nop c).wf) = true := by decide

theorem test_illformed_header : ([{ hdr with port := 2 }, { hdr with src := 6 }, { hdr with dest := 64 }, { hdr with hops := 256 }, { hdr with seq := 65536 }] : List LinkHdr).all (fun h => !h.wf) = true := by decide

theorem test_illformed_stamp : Stamp.wf ⟨2 ^ 48, 0⟩ = false ∧ Stamp.wf ⟨0, 1000000000⟩ = false ∧ Stamp.wf ⟨2 ^ 48 - 1, 999999999⟩ = true := by decide

theorem test_wellformed_1 : ([.registerWrite 0 0, .snapshotRead 0, .clockMonitorWindow 0 0 0 false false, .tpoEdge 0, .tpoCommit 0 0, .captureEdge 0 false 0, .capFifoPop 0, .capOvfClear 0 0, .ptpEventStamp 0 false [], .ptpOvfClear 0 0, .antBiasRetry 0 0, .channelStateChange 0 0 0] : List Instr).all Instr.wf = true := by decide

theorem test_wellformed_2 : ([.spacingApply 0, .channelCn0Release 0 0 0, .notchEngage 0 0 [], .filAnEnable 0 0, .anOutputSample 0 [] false, .ratioServoUpdate 0 0, .anShuntRetry 0 false, .serialCharacter 0 0 0, .serialGapTimeout 0, .serialSilentTimeout 0, .filSpErr 0, .serialSendDone 0] : List Instr).all Instr.wf = true := by decide

theorem test_wellformed_3 : ([.fbkChEnable 0 0, .fbkLineChange 0 false false false 0 0 0, .lineAmplitudeLoss 0 0, .lineErrClear 0, .ssiFrameEnd 0 false false [], .ssiLineTest 0 0, .emuCountOutput 0, .supplyOverload 0, .supplyRetry 0 false, .supplyBudget (List.replicate 12 0), .timingSuspectClear 0, .jumpHoldEnd 0] : List Instr).all Instr.wf = true := by decide

theorem test_wellformed_4 : ([.scratchEccError 0 0 false false, .bankMarchTest 0 false, .selfCheckEnd 0 start0, .strSphWrite 0 0, .droneEccError 0 0 false, .dronePageTest 0 false, .canModeWrite 0 0, .canModeApply 0, .canTxStart 0 0, .canTxEnd 0 0 0, .canFrameReceive 0 0 0 0 0 [], .canBusError 0 1 false false false] : List Instr).all Instr.wf = true := by decide

theorem test_wellformed_5 : ([.canLoopTestEnd 0 false, .canBusoffRecovery 0, .canTtTarget 0 0, .canTxLate 0 0, .vfieldMeasure (List.replicate 4 0), .diSample (List.replicate 32 0), .dioDiEnable 0 0, .doOverload 0, .aoFault 0, .dioFaultClr (cmd []) 0, .soSwitchTest 0 false false, .safeFrameProduce 0] : List Instr).all Instr.wf = true := by decide

theorem test_wellformed_6 : ([.safeFrameReceive 0 0 [], .safePairWindow 0, .safeConnTimeout 0, .strapChange 0, .linkPortUp 0 0, .linkPortDown 0, .heartbeat hdr [] none, .sample hdr 0 ⟨0, 0, none, []⟩, .epochAssign hdr 0 [], .release hdr 0 0, .pace hdr [], .digest hdr 0 0 0 false] : List Instr).all Instr.wf = true := by decide

theorem test_wellformed_7 : ([.shadow hdr [], .command hdr 0 (cmd []) 0, .setpoint hdr 0 0 0, .syncBulk hdr (.commit 0 0) start0, .brgReq hdr 0, .delay hdr ⟨0, 0⟩ ⟨0, 0⟩ 0 0 0 0, .linkDelayMeasure 0 0, .heartbeatMiss 0, .bridgeLineChange 0 false, .bridgeCondition 0, .linkTestEnd 0 false, .hostLinkReset 0] : List Instr).all Instr.wf = true := by decide

theorem test_wellformed_8 : ([.queueEnable 0 0 0, .queueDisable 0 0 0, .doorbellPoll (List.replicate 56 none), .commandFetch 0 none, .ethFrameReceive 0 [] false false, .n450Datagram 0 0 [] 0, .maintRequest 0 0 0 (cmd []), .netLink 0 false, .irqSourceRise 0, .irqSourceFall 0, .irqWindowCommit [], .msixUnmask 0 false] : List Instr).all Instr.wf = true := by decide

theorem test_wellformed_9 : ([.irqRepeat [], .irqVecClaimRead 0, .irqClaimedRead 0, .irqSrcTgtWrite 0 0, .irqSwrSet 0 0, .irqSwrClr 0 0, .logErased [], .powerGood false false 0 0 start0, .dramEccError 0 false false start0, .correlatorParityError 0, .feedLost 0 0, .feedReturn 0 0] : List Instr).all Instr.wf = true := by decide

theorem test_wellformed_10 : ([.feedSurge 0 0, .canBusIntegration 0, .channelBistEnd 0 false] : List Instr).all Instr.wf = true := by decide

theorem test_illformed_1 : ([.registerWrite 2 0, .registerWrite 4194304 0, .snapshotRead 2, .snapshotRead 4194304, .clockMonitorWindow 12 0 0 false false, .tpoEdge 8, .tpoCommit 8 0, .captureEdge 8 false 0, .capFifoPop 8, .capOvfClear 8 0, .ptpEventStamp 2 false []] : List Instr).all (fun i => !i.wf) = true := by decide

theorem test_illformed_frame : (Instr.ptpEventStamp 0 false (List.replicate 2048 0)).wf = false ∧ (Instr.ptpEventStamp 1 true (List.replicate 2047 0)).wf = true := by
  decide +kernel

theorem test_illformed_2 : ([.ptpOvfClear 2 0, .antBiasRetry 2 0, .channelStateChange 96 0 0, .channelStateChange 0 4 0, .spacingApply 96, .channelCn0Release 2 0 0, .notchEngage 2 0 [], .notchEngage 0 2 [], .filAnEnable 16 0] : List Instr).all (fun i => !i.wf) = true := by decide

theorem test_illformed_3 : ([.anOutputSample 16 [] false, .ratioServoUpdate 16 0, .anShuntRetry 16 false, .serialCharacter 8 0 0, .serialGapTimeout 8, .serialSilentTimeout 8, .filSpErr 8, .serialSendDone 8, .fbkChEnable 12 0, .fbkLineChange 12 false false false 0 0 0] : List Instr).all (fun i => !i.wf) = true := by decide

theorem test_illformed_4 : ([.lineAmplitudeLoss 12 0, .lineAmplitudeLoss 0 8, .lineErrClear 12, .ssiFrameEnd 12 false false [], .ssiLineTest 12 0, .ssiLineTest 0 8, .emuCountOutput 4, .supplyOverload 12, .supplyRetry 12 false, .supplyBudget [], .timingSuspectClear 24, .jumpHoldEnd 24] : List Instr).all (fun i => !i.wf) = true := by decide

theorem test_illformed_5 : ([.scratchEccError 8 0 false false, .bankMarchTest 8 false, .selfCheckEnd 8 start0, .strSphWrite 48 0, .droneEccError 256 0 false, .droneEccError 0 64 false, .dronePageTest 256 false, .canModeWrite 4 0, .canModeApply 4, .canTxStart 4 0, .canTxEnd 4 0 0, .canFrameReceive 4 0 0 0 0 []] : List Instr).all (fun i => !i.wf) = true := by decide

theorem test_illformed_6 : ([.canFrameReceive 0 0 2147483648 0 0 [], .canFrameReceive 0 0 0 16 0 [], .canFrameReceive 0 0 0 0 0 (List.replicate 65 0), .canBusError 4 1 false false false, .canBusError 0 0 false false false, .canBusError 0 7 false false false, .canLoopTestEnd 4 false, .canBusoffRecovery 4, .canTtTarget 4 0, .canTtTarget 0 128, .canTxLate 4 0, .canTxLate 0 128] : List Instr).all (fun i => !i.wf) = true := by decide

theorem test_illformed_7 : ([.vfieldMeasure [], .diSample [], .dioDiEnable 32 0, .doOverload 16, .aoFault 8, .dioFaultClr { cmd [] with cid := 65536 } 0, .dioFaultClr (cmd []) 65536, .soSwitchTest 4 false false, .safeFrameProduce 16, .safeFrameReceive 16 0 [], .safePairWindow 16, .safeConnTimeout 16] : List Instr).all (fun i => !i.wf) = true := by decide

theorem test_illformed_8 : ([.strapChange 16, .linkPortUp 2 0, .linkPortDown 2, .heartbeat { hdr with src := 6 } [] none, .heartbeat { hdr with port := 2 } [] none, .sample hdr 24 ⟨0, 0, none, []⟩, .sample { hdr with port := 2 } 0 ⟨0, 0, none, []⟩, .epochAssign { hdr with port := 2 } 0 [], .release { hdr with port := 2 } 0 0, .pace { hdr with port := 2 } [], .digest { hdr with port := 2 } 0 0 0 false, .shadow { hdr with port := 2 } []] : List Instr).all (fun i => !i.wf) = true := by decide

theorem test_illformed_9 : ([.command { hdr with port := 2 } 0 (cmd []) 0, .command hdr 0 { cmd [] with cid := 65536 } 0, .command hdr 256 (cmd []) 0, .setpoint hdr 0 48 0, .setpoint { hdr with port := 2 } 0 0 0, .syncBulk { hdr with port := 2 } (.commit 0 0) start0, .brgReq { hdr with port := 2 } 0, .delay { hdr with port := 2 } ⟨0, 0⟩ ⟨0, 0⟩ 0 0 0 0, .delay hdr ⟨0, 1000000000⟩ ⟨0, 0⟩ 0 0 0 0, .delay hdr ⟨0, 0⟩ ⟨0, 1000000000⟩ 0 0 0 0, .linkDelayMeasure 2 0, .heartbeatMiss 6] : List Instr).all (fun i => !i.wf) = true := by decide

theorem test_illformed_10 : ([.bridgeLineChange 3 false, .bridgeCondition 3, .linkTestEnd 2 false, .hostLinkReset 4, .queueEnable 4 0 0, .queueEnable 0 16 0, .queueEnable 2 8 0, .queueDisable 4 0 0, .queueDisable 0 16 0, .queueDisable 2 8 0, .doorbellPoll [], .commandFetch 16 none] : List Instr).all (fun i => !i.wf) = true := by decide

theorem test_illformed_11 : ([.ethFrameReceive 2 [] false false, .n450Datagram 2 0 [] 0, .n450Datagram 0 16 [] 0, .maintRequest 0 0 0 { cmd [] with cid := 65536 }, .maintRequest 2 0 0 (cmd []), .maintRequest 0 0 256 (cmd []), .netLink 2 false, .irqSourceRise 512, .irqSourceFall 512, .irqWindowCommit [16], .msixUnmask 32 false] : List Instr).all (fun i => !i.wf) = true := by decide

theorem test_illformed_12 : ([.irqRepeat [512], .irqVecClaimRead 32, .irqClaimedRead 16, .irqSrcTgtWrite 512 0, .irqSwrSet 3 0, .irqSwrClr 3 0, .logErased [3072], .powerGood false false 65536 0 start0, .powerGood false false 0 65536 start0, .dramEccError 3758096384 false false start0, .correlatorParityError 96, .feedLost 2 0] : List Instr).all (fun i => !i.wf) = true := by decide

theorem test_illformed_13 : ([.feedLost 0 65536, .feedReturn 2 0, .feedReturn 0 65536, .feedSurge 2 0, .feedSurge 0 65536, .canBusIntegration 4, .channelBistEnd 96 false, .commandFetch 16 none, .commandFetch 0 (some (256, cmd [])), .commandFetch 0 (some (1, { cmd [] with cid := 65536 }))] : List Instr).all (fun i => !i.wf) = true := by decide

/-! ### Effects: one step each, against the spec's words and its worked examples -/

/-- The state a step gives. -/
def after (i : Instr) (s : State) : State := match step { s with pending := i :: s.pending } with | .next t => t | _ => s

/-- Chapter 02, expanding a frame stamp across a wrap. -/
theorem test_short_stamp_wrap : (⟨100, 0⟩ : Stamp).short = 0xE90EDD00 ∧ shortDiff 0x1F40 0xE90EDD00 = 384909888 ∧ (⟨103, 79279104⟩ : Stamp).short = 8000 := by decide

/-- Chapter 03, the last TIME cycle before a PPS edge. -/
theorem test_time_cycle_carries :
    (match step { s0 with env := { s0.env with time := ⟨1799999999, 999999997, 0x40000000, 0x400000A3D⟩ } } with
      | .next t => t.env.time | _ => Timebase.reset) = ⟨1800000000, 1, 0x40000A3D, 0x400000A3D⟩ := by decide

/-- R55: 4 ns + 0.1 % is the last admissible increment. -/
theorem test_increment_out_of_range :
    (after (.timeIncCommit 5) s0).m.g .TIME_STS_inc_range = 1 ∧ (after (.timeIncCommit 5) s0).env.time.inc = 0x400000000 := by decide

/-- R56: a step of −1 ns borrows from the seconds. -/
theorem test_step_borrows :
    (after (.timeStepRequest 1) (put [(.TIME_STEP_NS_step_ns, 0xFFFFFFFF)] { s0 with env := { s0.env with time := { s0.env.time with sec := 1 } } })).env.time.nowNs
      = 999999999 := by decide

/-- R66: a period of 15 ns is refused with RANGE, status 4. -/
theorem test_tpo_arm_range :
    ((after (.tpoArm (cmd ([0, 2, 0, 0] ++ List.replicate 10 0 ++ [15, 0, 0, 0, 8, 0, 0, 0]))) (put [(qEn .cq 0, 1), (qK .cq 0, 4)] s0)).m.hif.cq.getD 0 ⟨0, 0, 0, 0, 0, 0, []⟩).held.map
      (fun h => match h.entry with | .completion st _ _ op _ _ _ _ _ => (op, st) | _ => (0, 0)) = [(0x14, 4)] := by decide +kernel

/-- R74: the seventeenth capture is dropped and counted. -/
theorem test_capture_overflow :
    ((after (.captureEdge 7 true 255) (sCap 16)).m.cap 7).length = 16 ∧ (after (.captureEdge 7 true 255) (sCap 16)).m.g (.CAPk_STS_ovf 7) = 1 := by decide

/-- R72: the stamp is that of the cycle in which the edge reached the synchroniser: 257 TIME cycles of 4 ns before now, 10 s. -/
theorem test_capture_stamp : (after (.captureEdge 7 true 255) (later (sCap 0))).m.cap 7 = [⟨⟨9, 999998972⟩, true⟩] := by decide

/-- R73: a level kept for 254 cycles under a filter of 255 is no edge. -/
theorem test_capture_short_pulse : (after (.captureEdge 7 true 254) (sCap 0)).m.cap 7 = [] := by decide

/-- R60: a compare does not fire before its target. -/
theorem test_tpo_waits : (after (.tpoEdge 7) (sTpo none (some 16))).m.out = [] ∧ (after (.tpoEdge 7) (later (sTpo none (some 16)))).m.out.length = 1 := by decide

/-- R61: the error stays below the increment: a target a fraction beyond the present cycle. -/
theorem test_quant_err : quantErr ⟨0, 7, 0xFFFFFFFF, incNominal⟩ 4 = 3999 := by decide

/-- Chapter 04, a joystick axis: R 96 and out_div 2 give 0x0CCC_CCCD; out_div 39 is the largest. -/
def joy (r m n div : Nat) : Mach := (put [(.FIL_ANk_CFG_cic_r 3, r - 1), (.FIL_ANk_CFG_cic_m 3, m - 1), (.FIL_ANk_CFG_cic_n 3, n), (.FIL_ANk_OUT_out_div 3, div)] s0).m

theorem test_joystick : (joy 96 1 4 2).ratioNominal 3 = 0x0CCCCCCD ∧ (joy 96 1 4 39).ratioOk 3 = true ∧ (joy 96 1 4 40).ratioOk 3 = false
    ∧ (joy 4096 2 5 7).cicBound 3 = false ∧ (joy 4096 1 5 7).cicBound 3 = true ∧ (joy 4096 1 5 7).ratioOk 3 = true ∧ (joy 4096 1 5 6).ratioOk 3 = false := by decide +kernel

/-- R178: FBK_SET_POS loads 48 bits. -/
theorem test_set_pos : ((after (.fbkSetPos (cmd [11, 0, 0, 0, 0, 0, 0, 0, 0xFF, 0, 0, 0, 0, 0x80])) s0).m.fb 11).count = 0x8000000000FF := by decide +kernel

/-- R108: a frame with its CRC is used, the same frame with a flipped bit is not. -/
theorem test_rtcm : (rtcmFrames 8 rtcm1074 ⟨0, 0, 0, false, false⟩).used = 1
    ∧ (rtcmFrames 8 (bs [0xD3, 0, 2, 67, 33, 214, 158, 204]) ⟨0, 0, 0, false, false⟩).dropped = 1 := by decide +kernel

/-- Chapter 11, 500 kbit/s with a data phase of 5 Mbit/s: the timing is admissible, and with nsjw above its second segment it is not. -/
def canT (nbt : Nat) : Mach := { s0 with m := ((s0.m.wr (Reg.CAN_c_NBT 1) (BitVec.ofNat 32 nbt)).wr (Reg.CAN_c_DBT 1) 0x030A0300).wr (Reg.CAN_c_TDC 1) 0x8C00 }.m

theorem test_can_timing : (canT 0x3EFC7C00).canTiming 1 = true ∧ (canT 0x7EFC7C00).canTiming 1 = false := by decide +kernel

/-- R421: a transmitter's bit error counts 8, a receiver's 1. -/
theorem test_can_error_counts :
    ((after (.canBusError 3 4 false true false) (sCan 1 none)).m.canc 3).tec = 8 ∧ ((after (.canBusError 3 4 false false false) (sCan 1 none)).m.canc 3).rec_ = 1 := by
  decide +kernel

/-- R451: an overload latches its fault and switches the output off. -/
theorem test_do_overload : (after (.doOverload 15) (put [(⟨Reg.DIO_DO_STATE, 15, 15⟩, 1)] s0)).m.bit Reg.DIO_DO_STATE 15 = false
    ∧ (after (.doOverload 15) s0).m.bit Reg.DIO_DO_FLT 15 = true := by decide

/-- R540, chapter 15: index 13 phase 1 against 13 phase 0 in a ring of 16. -/
theorem test_ring_full : ringCount 16 29 13 = 16 ∧ ringCount 16 5 21 = 16 ∧ ringCount 16 5 5 = 0 := by decide

/-- Chapter 16: source 2 becomes pending in group 2, whose window opens. -/
theorem test_irq_window : (after (.irqSourceRise 2) (put [(.IRQ_SRCs_TGT_en 2, 1), (.IRQ_SRCs_TGT_grp 2, 2), (.IRQ_SRCs_TGT_num 2, 1),
      (.IRQ_GRPg_CFG_count_thr 2, 4), (.IRQ_GRPg_CFG_time_thr 2, 50), (⟨Reg.HIF_IRQ_STS, 2, 2⟩, 1)] s0)).m.rd (Reg.IRQ_GRPg_STS 2) = 0x80010000 := by decide +kernel

/-- Chapter 20: 85.0 °C reads 0x0352. -/
theorem test_plate_temperature : (after (.plateTempUpdate 850 700) s0).m.g .GEN_TEMP_plate = 0x0352 := by decide +kernel

/-- R674: a breach is latched. -/
theorem test_tamper : (after .tamperBreach s0).m.boot.breach = true ∧ (after .tamperBreach s0).m.g .SEC_STS_tamper = 1 := by decide

/-- R654: a counter only rises, and not above the security version of an image in force. -/
theorem test_counter_rises : (after (.secCtrAdvance (cmd [3, 3])) (after (.secCtrAdvance (cmd [3, 5])) s0)).env.vault.ctr.getD 3 0 = 5
    ∧ (after (.secCtrAdvance (cmd [2, 5])) s0).env.vault.ctr.getD 2 0 = 0 := by decide +kernel

/-- R597: the oldest record leaves the buffer for flash under the next number. -/
theorem test_commit : (after (.recordCommit true 0) (withM (fun m => m.setPeat fun p => { p with buffer := [⟨0, 1, 0x1001, [], none⟩] })
      (put [(.LOG_STS_ready, 1)] s0))).m.peat.stored.map (fun x => x.seq) = [s0.m.peat.next] := by decide +kernel

/-- The standards' own vectors: CRC-32C of "123456789", and the SHA-384 of "abc". -/
theorem test_crc32c : crc32c (bs [49, 50, 51, 52, 53, 54, 55, 56, 57]) = 0xE3069283 := by decide +kernel

theorem test_sha384 : (sha384 (bs [97, 98, 99])).take 8 = be 8 0xcb00753f45a35e8b := by decide +kernel

/-- R711: no row of the table spells a word, so no word decodes. -/
theorem test_no_words : decodeTableWord 16 0x1234 = none ∧ (s0.withFetchWord 16 0x1234).pending = [] := by decide

/-- Chapter 05: a rising edge of A acts once it has stood for filt + 4 cycles, and A and B one cycle apart are a sequence error (R167, R170). -/
theorem test_fbk_line :
    ((after (.fbkLineChange 11 true false false 4 9 9) sFb).m.fb 11).count = 1 ∧ ((after (.fbkLineChange 11 true false false 3 9 9) sFb).m.fb 11).count = 0
    ∧ ((after (.fbkLineChange 11 true true false 5 4 9) sFb).m.fb 11).count = 0
    ∧ (after (.fbkLineChange 11 true true false 5 4 9) sFb).m.g (.FBK_CHc_CNT_seq_err 11) = 1 := by
  decide +kernel

end Sys2Proof.Tests
end

section
/-!
PROOFS. What every command keeps of the state and when one stops, the state after reset, short stamps, and host writes and reads of registers.
-/
namespace Sys2Proof.Machine

/-! ### What an outcome may be -/

/-- What every meaning keeps of the state it starts from: the queue, and a timebase in range; the timebase itself unless it may be moved, and the vault
unless it may be changed. -/
structure State.Keeps (s : State) (time vault : Bool) (t : State) : Prop where
  pending : t.pending = s.pending
  inv : s.Inv → t.Inv
  time_eq : time = false → t.env.time = s.env.time
  vault_eq : vault = false → t.env.vault = s.env.vault

/-- An outcome is a next state with a property, or the fault of a unit that is not there, and then the command was not well-formed. -/
inductive Ends (P : State → Prop) (wf : Bool) : Host.Outcome State Fault Refusal → Prop where
  | next {t : State} (h : P t) : Ends P wf (.next t)
  | absent (h : wf = false) : Ends P wf (.fault .noInstance)

theorem Ends.next_iff {P : State → Prop} {wf : Bool} {t : State} : Ends P wf (.next t) ↔ P t :=
  ⟨fun h => by cases h with | next h => exact h, .next⟩

/-- A weaker property, and more checks on the operands. -/
theorem Ends.mono {P Q : State → Prop} {wf wf' : Bool} {o : Host.Outcome State Fault Refusal} (h : Ends P wf o) (hPQ : ∀ t, P t → Q t)
    (hw : wf' = true → wf = true) : Ends Q wf' o := by
  cases h with
  | next h => exact .next (hPQ _ h)
  | absent h => exact .absent (by simpa [h] using hw)

theorem State.Keeps.any {s t : State} {a b : Bool} (h : s.Keeps a b t) : s.Keeps true true t := ⟨h.pending, h.inv, nofun, nofun⟩

theorem State.Keeps.trans {s t u : State} {a b : Bool} (h : s.Keeps a b t) (h' : t.Keeps a b u) : s.Keeps a b u where
  pending := h'.pending.trans h.pending
  inv := h'.inv ∘ h.inv
  time_eq := fun e => (h'.time_eq e).trans (h.time_eq e)
  vault_eq := fun e => (h'.vault_eq e).trans (h.vault_eq e)

section
variable (s : State) (a b wf : Bool)

theorem State.keeps_self : s.Keeps a b s := ⟨rfl, id, fun _ => rfl, fun _ => rfl⟩

theorem State.keeps_mach (m : Mach) : s.Keeps a b { s with m := m } := ⟨rfl, id, fun _ => rfl, fun _ => rfl⟩

theorem Ends.act (f : Env → Mach → Mach) : Ends (s.Keeps a b) wf (s.act f) := .next (s.keeps_mach a b _)

theorem Ends.actTime {f : Env → Mach → Timebase × Mach} (h : s.env.time.ok → (f s.env s.m).1.ok) : Ends (s.Keeps true b) wf (s.actTime f) :=
  .next ⟨rfl, h, nofun, fun _ => rfl⟩

theorem Ends.actVault (f : Env → Mach → Vault × Mach) : Ends (s.Keeps a true) wf (s.actVault f) := .next ⟨rfl, id, fun _ => rfl, nofun⟩

theorem Ends.onInst {wf ok : Bool} (h : wf = true → ok = true) (f : Env → Mach → Mach) : Ends (s.Keeps a b) wf (s.onInst ok f) := by
  cases ok with
  | true => exact .act s a b wf f
  | false => exact .absent (by simpa using h)

variable (op : Nat) (c : Cmd) (need ro : Bool)

theorem Ends.strCmd (bad at_ : Env → Mach → Nat) : Ends (s.Keeps a b) wf (strCmd op c need bad at_ s) := .act s a b wf _

theorem Ends.plCmd (bad : Nat) : Ends (s.Keeps a b) wf (plCmd op c need bad s) := .act s a b wf _

theorem Ends.safCmd (body : Env → Mach → Res) : Ends (s.Keeps a b) wf (safCmd op c need body s) := .act s a b wf _

theorem Ends.logCmd (body : Env → Mach → Res) : Ends (s.Keeps a b) wf (logCmd op c need ro body s) := .act s a b wf _

theorem Ends.vaultCmd (need : Env → Bool) (body : Env → Mach → Vault × Mach × Nat × List Byte) :
    Ends (s.Keeps a true) wf (vaultCmd op c need body s) := .actVault s a wf _

/-- A command of the law on a state whose machine may have changed before. -/
theorem Ends.plCmd_ite (bad : Nat) (q : Bool) (m : Mach) :
    Ends (s.Keeps a b) wf (Machine.plCmd op c need bad (if q = true then { s with m := m } else s)) := by
  cases q with
  | true => exact .next (s.keeps_mach a b _)
  | false => exact .plCmd s a b wf op c need bad

end

/-! ### The timebase stays in range -/

theorem Timebase.load_ok (sec : Nat) : (Timebase.load sec).ok :=
  ⟨Nat.mod_lt _ (by decide), by simp [Timebase.load], by simp [Timebase.load], by simp only [Timebase.load]; decide⟩

/-- An admissible increment adds less than 5 ns, so one carry is enough (R50, R55). -/
theorem Timebase.tick_ok {t : Timebase} (h : t.ok) : t.tick.ok := by
  obtain ⟨hs, hn, hf, hi⟩ := h
  have hhi : t.inc ≤ 0x4010624DD := by simp [incOk] at hi; omega
  unfold Timebase.tick
  simp only
  split
  · exact ⟨Nat.mod_lt _ (by decide), by dsimp only; omega, Nat.mod_lt _ (by decide), hi⟩
  · exact ⟨hs, by dsimp only; omega, Nat.mod_lt _ (by decide), hi⟩

/-- A step wraps modulo 2^48 s and leaves fraction and increment alone. -/
theorem Timebase.shift_ok {t : Timebase} (h : t.ok) (d : Int) : (t.shift d).ok := by
  obtain ⟨-, -, hf, hi⟩ := h
  have hlt := Int.emod_lt_of_pos ((t.nowNs : Int) + d) (b := 2 ^ 48 * 1000000000) (by decide)
  exact ⟨by simp only [Timebase.shift]; omega, Nat.mod_lt _ (by decide), hf, hi⟩

/-- Of two timebases in range either is in range. -/
theorem ite_fst_ok {p : Prop} [Decidable p] {x y : Timebase × Mach} (hx : p → x.1.ok) (hy : ¬p → y.1.ok) : (if p then x else y).1.ok := by
  split
  · next hp => exact hx hp
  · next hp => exact hy hp

theorem pair_fst_ok {t : Timebase} (h : t.ok) (m : Mach) : (t, m).1.ok := h

section
variable {e : Env} (h : e.time.ok)
include h

theorem setInc_ok {i : Nat} (hi : incOk i = true) (m : Mach) : (setInc i e m).1.ok := by
  obtain ⟨hs, hn, hf, -⟩ := h
  exact ⟨hs, hn, hf, hi⟩

theorem applyStep_ok (d : Int) (m : Mach) : (applyStep d e m).1.ok := Timebase.shift_ok h d

theorem requestStep_ok (d : Int) (m : Mach) : (requestStep d e m).1.ok := ite_fst_ok (fun _ => h) fun _ => applyStep_ok h _ m

theorem incCommit_ok (v : Word) (m : Mach) : (incCommit v e m).1.ok := by
  unfold incCommit
  dsimp only
  exact ite_fst_ok (fun _ => h) fun _ => ite_fst_ok (fun hi => pair_fst_ok (setInc_ok h hi m) _) fun _ => h

theorem stepWrite_ok (v : Word) (m : Mach) : (stepWrite v e m).1.ok :=
  ite_fst_ok (fun _ => h) fun _ => ite_fst_ok (fun _ => h) fun _ => ite_fst_ok (fun _ => h) fun _ => requestStep_ok h _ m

theorem commitDue_ok (m : Mach) : (commitDue e m).1.ok := by
  unfold commitDue
  split
  · exact ite_fst_ok (fun hi => setInc_ok h hi m) fun _ => h
  · exact h

theorem tpoEdge_ok (k : Nat) (m : Mach) : (tpoEdge k e m).1.ok := by
  unfold tpoEdge
  split
  · exact ite_fst_ok (fun _ => h) fun _ => h
  · split
    · exact h
    · exact ite_fst_ok (fun _ => h) fun _ => ite_fst_ok (fun _ => commitDue_ok h _) fun _ => h

/-- The increment a servo asks for comes into force only when it is admissible. -/
theorem servoInc_ok (i : Nat) (m : Mach) : (if incOk i then servoInc i e m else (e.time, m)).1.ok :=
  ite_fst_ok (fun hi => ite_fst_ok (fun _ => setInc_ok h hi m) fun _ => h) fun _ => h

theorem measurement_ok (offset : Int) (unc freq want : Nat) (m : Mach) : (measurement offset unc freq want e m).1.ok := by
  unfold measurement
  dsimp only
  refine ite_fst_ok (fun _ => h) fun _ => ite_fst_ok (fun _ => h) fun _ => ite_fst_ok (fun _ => requestStep_ok h _ _) fun _ =>
    ite_fst_ok (fun _ => requestStep_ok h _ _) fun _ => pair_fst_ok (servoInc_ok h _ _) _

theorem disciplineMeasurement_ok (time sys : Int) (unc freq want : Nat) (m : Mach) : (disciplineMeasurement time sys unc freq want e m).1.ok := by
  unfold disciplineMeasurement
  split
  · exact ite_fst_ok (fun _ => measurement_ok h _ _ _ _ _) fun _ => h
  · exact measurement_ok h _ _ _ _ _
  · exact measurement_ok h _ _ _ _ _
  · exact h

theorem holdEnter_ok (m : Mach) : (holdEnter e m).1.ok := by
  unfold holdEnter
  exact ite_fst_ok (fun _ => h) fun _ => pair_fst_ok (servoInc_ok h _ _) _

theorem commandStep_ok (op : Nat) (c : Cmd) (d : Int) (m : Mach) : (commandStep op c d e m).1.ok := requestStep_ok h d _

theorem timeSet_ok (c : Cmd) (m : Mach) : (timeSet c e m).1.ok := by
  unfold timeSet
  dsimp only
  split
  · exact h
  · exact ite_fst_ok (fun _ => h) fun _ => ite_fst_ok (fun _ => h) fun _ => ite_fst_ok (fun _ => h) fun _ => commandStep_ok h _ _ _ _

/-- The increment of TIME_ADJUST is loaded only when it is admissible; the step comes after it. -/
theorem timeAdjust_ok (c : Cmd) (m : Mach) : (timeAdjust c e m).1.ok := by
  unfold timeAdjust
  dsimp only
  split
  · exact h
  · refine ite_fst_ok (fun _ => h) fun _ => ite_fst_ok (fun _ => h) fun hl => ite_fst_ok (fun _ => h) fun _ => ite_fst_ok (fun _ => h) fun _ => ?_
    generalize hr : (if (c.u8 0 % 2 == 1) = true then _ else _ : Timebase × Mach) = r
    have hok : r.1.ok := hr ▸ ite_fst_ok (fun hb => pair_fst_ok (setInc_ok h (by simpa [hb] using hl) _) _) fun _ => h
    exact ite_fst_ok (fun _ => commandStep_ok (e := { e with time := r.1 }) hok _ _ _ _) fun _ => hok

theorem beacon_ok (x : LinkHdr) (t org : Stamp) (num unc freq want : Nat) (m : Mach) : (beacon x t org num unc freq want e m).1.ok := by
  unfold beacon
  dsimp only
  exact ite_fst_ok (fun _ => ite_fst_ok (fun _ => measurement_ok h _ _ _ _ _) fun _ => h) fun _ =>
    ite_fst_ok (fun _ => h) fun _ => pair_fst_ok (applyStep_ok h _ _) _

theorem boundaryStep_ok (m : Mach) : (boundaryStep e m).1.ok := by
  unfold boundaryStep
  split
  · exact h
  · exact applyStep_ok h _ m

theorem cycleBoundary_ok (m : Mach) : (cycleBoundary e m).1.ok :=
  ite_fst_ok (fun _ => h) fun _ => pair_fst_ok (boundaryStep_ok h m) _

end

theorem execTpoEdge_ends (k : Nat) (s : State) (b : Bool) : Ends (s.Keeps true b) (decide (k < 8)) (execTpoEdge k s) := by
  unfold execTpoEdge
  split
  · exact .actTime s b _ fun h => tpoEdge_ok h k s.m
  · next hk => exact .absent (decide_eq_false hk)

theorem execDelay_ends (x : LinkHdr) (t org : Stamp) (num unc freq want : Nat) (s : State) (b wf : Bool) :
    Ends (s.Keeps true b) wf (execDelay x t org num unc freq want s) := by
  refine .actTime s b wf fun h => ?_
  simp only
  split
  · exact h
  · exact beacon_ok h _ _ _ _ _ _ _ _

/-! ### A command by its opcode -/

/-- The opcodes that may move the timebase. -/
def timeOps : List Nat := [0x11, 0x12]

/-- The opcodes that may change the vault. -/
def vaultOps : List Nat := [0xA4, 0xB3, 0xB4, 0xB5, 0xB6]

/-- The opcodes over the shared operation of the positioning law; PL_MODEL_LOAD first, which notes key slots before it. -/
def lawOps : List Nat := [0x56, 0x50, 0x51, 0x52, 0x53, 0x54, 0x55, 0x57, 0x5B]

/-- The opcodes over the shared operation of strings and Drone. -/
def stringOps : List Nat := [0x60, 0x61, 0x62, 0x63, 0x68, 0x69, 0x6A, 0x6B, 0x6C, 0x6D, 0x6E]

/-- The opcodes over the shared operation of the safety island. -/
def islandOps : List Nat := [0x80, 0x81, 0x82, 0x84]

/-- The opcodes over the shared operation of the recorder. -/
def logOps : List Nat := [0x91, 0x92, 0x93, 0x94, 0x95, 0x96]

section
variable (c : Cmd) (s : State) (a b wf : Bool)

theorem runOp_time : ∀ op ∈ timeOps, Ends (s.Keeps true b) wf (runOp op c s) := by
  simp only [timeOps, List.forall_mem_cons, List.not_mem_nil, false_imp_iff, implies_true, and_true]
  exact ⟨.actTime s b wf fun h => timeSet_ok h c s.m, .actTime s b wf fun h => timeAdjust_ok h c s.m⟩

theorem runOp_vault : ∀ op ∈ vaultOps, Ends (s.Keeps a true) wf (runOp op c s) := by
  intro op h
  simp only [vaultOps, List.mem_cons, List.not_mem_nil, or_false] at h
  rcases h with rfl | rfl | rfl | rfl | rfl
  all_goals
    simp only [runOp]
    exact .vaultCmd s a wf _ _ _ _

theorem vaultOps_le : ∀ op ∈ vaultOps, 0xA0 ≤ op := by decide

theorem runOp_string : ∀ op ∈ stringOps, Ends (s.Keeps a b) wf (runOp op c s) := by
  intro op h
  simp only [stringOps, List.mem_cons, List.not_mem_nil, or_false] at h
  rcases h with rfl | rfl | rfl | rfl | rfl | rfl | rfl | rfl | rfl | rfl | rfl
  all_goals exact .strCmd s a b wf _ _ _ _ _

theorem runOp_law : ∀ op ∈ lawOps, Ends (s.Keeps a b) wf (runOp op c s) := by
  intro op h
  simp only [lawOps, List.mem_cons, List.not_mem_nil, or_false] at h
  rcases h with rfl | rfl | rfl | rfl | rfl | rfl | rfl | rfl | rfl
  · exact .plCmd_ite s a b wf _ _ _ _ _ _
  all_goals exact .plCmd s a b wf _ _ _ _

theorem runOp_island : ∀ op ∈ islandOps, Ends (s.Keeps a b) wf (runOp op c s) := by
  intro op h
  simp only [islandOps, List.mem_cons, List.not_mem_nil, or_false] at h
  rcases h with rfl | rfl | rfl | rfl
  all_goals exact .safCmd s a b wf _ _ _ _

theorem runOp_log : ∀ op ∈ logOps, Ends (s.Keeps a b) wf (runOp op c s) := by
  intro op h
  simp only [logOps, List.mem_cons, List.not_mem_nil, or_false] at h
  rcases h with rfl | rfl | rfl | rfl | rfl | rfl
  all_goals exact .logCmd s a b wf _ _ _ _ _

/-- Every other opcode changes only what lies beside timebase and vault. -/
theorem runOp_other {op : Nat} (h : op ∉ timeOps ++ vaultOps ++ lawOps ++ stringOps ++ islandOps ++ logOps) : Ends (s.Keeps a b) wf (runOp op c s) := by
  unfold runOp
  split
  any_goals (refine absurd ?_ h; decide)
  all_goals exact .act s a b wf _

theorem runOp_ends (op : Nat) : Ends (s.Keeps true (decide (0xA0 ≤ op))) true (runOp op c s) := by
  by_cases h : op ∈ timeOps ++ vaultOps ++ lawOps ++ stringOps ++ islandOps ++ logOps
  · simp only [List.mem_append] at h
    rcases h with ((((h | h) | h) | h) | h) | h
    · exact runOp_time c s _ _ op h
    · rw [decide_eq_true (vaultOps_le op h)]
      exact runOp_vault c s _ _ op h
    · exact runOp_law c s _ _ _ op h
    · exact runOp_string c s _ _ _ op h
    · exact runOp_island c s _ _ _ op h
    · exact runOp_log c s _ _ _ op h
  · exact runOp_other c s _ _ _ h

theorem execMaintRequest_ends (p src op : Nat) : Ends (s.Keeps true true) (decide (p < 2)) (execMaintRequest p src op c s) := by
  unfold execMaintRequest
  split
  · next hp => exact .absent (decide_eq_false (Nat.not_lt.mpr hp))
  · simp only
    split
    · exact .next (s.keeps_self _ _)
    · split
      · exact .act s _ _ _ _
      · exact (runOp_ends _ _ op).mono (fun _ ht => (s.keeps_mach _ _ _).trans ht.any) fun _ => rfl

end

/-! ### Register accesses -/

/-- The number of a register in a family is below their count. -/
theorem famIdx_lt {base step n off i : Nat} (h : famIdx base step n off = some i) : i < n := by
  unfold famIdx at h
  split at h
  · cases h
  · next hn =>
    cases h
    simp only [Bool.or_eq_true, decide_eq_true_eq, not_or] at hn
    omega

/-- A register that is one of a family names a unit the module has. -/
theorem Ends.ofFam (s : State) (a b wf : Bool) {base step n off i : Nat} (h : famIdx base step n off = some i) (f : Env → Mach → Mach) :
    Ends (s.Keeps a b) wf (s.onInst (decide (i < n)) f) := .onInst s a b (fun _ => decide_eq_true (famIdx_lt h)) f

theorem writeAny_ends (off : Nat) (v : Word) (s : State) : Ends (s.Keeps true false) true (writeAny off v s) := by
  unfold writeAny
  dsimp only
  split
  · exact .actTime s false true fun h => stepWrite_ok h v s.m
  split
  · exact .actTime s false true fun h => incCommit_ok h v s.m
  split
  · exact .act s _ _ _ _
  split
  · exact .act s _ _ _ _
  split
  · next h => exact .ofFam s _ _ _ h _
  split
  · next h => exact .ofFam s _ _ _ h _
  split
  · next h => exact .ofFam s _ _ _ h _
  split
  · next h => exact .ofFam s _ _ _ h _
  split
  · next h => exact .ofFam s _ _ _ h _
  split
  · next h => exact .ofFam s _ _ _ h _
  split
  · next h => exact .ofFam s _ _ _ h _
  split
  · next h => exact .ofFam s _ _ _ h _
  split
  · next h => exact .ofFam s _ _ _ h _
  split
  · next h => exact .ofFam s _ _ _ h _
  · exact .act s _ _ _ _

theorem readAny_ends (off : Nat) (s : State) : Ends (s.Keeps false false) true (readAny off s) := by
  unfold readAny
  split
  · exact .next (s.keeps_self _ _)
  split
  · next h => exact .ofFam s _ _ _ h _
  split
  · next h => exact .ofFam s _ _ _ h _
  split
  · next h => exact .ofFam s _ _ _ h _
  · exact .act s _ _ _ _

/-! ### A start -/

theorem stateOf_of_ends {P : State → Prop} {wf : Bool} {s : State} {o : Host.Outcome State Fault Refusal} (h : Ends P wf o) (hs : P s) : P (stateOf s o) := by
  cases h with
  | next h => exact h
  | absent => exact hs

/-- A record is replayed in an unlocked lifecycle, and the vault is put back after it. -/
theorem replayWrite_keeps (off : Nat) (v : Word) (s : State) : s.Keeps true false (replayWrite off v s) := by
  unfold replayWrite
  dsimp only
  generalize hs : ({ s with env := s.env.unlocked, m := _ } : State) = s1
  have hk : s1.Keeps true false (stateOf s1 (writeAny off v s1)) := stateOf_of_ends (writeAny_ends off v s1) (s1.keeps_self _ _)
  subst hs
  exact ⟨hk.pending, hk.inv, nofun, fun _ => rfl⟩

/-- No record reaches the opcodes of the update and the security unit. -/
theorem replayCommand_keeps (op : Nat) (params data : List Byte) (s : State) : s.Keeps true false (replayCommand op params data s).1 := by
  unfold replayCommand
  split
  · exact s.keeps_self _ _
  · next hop =>
    dsimp only
    have hk (c : Cmd) (s1 : State) : s1.Keeps true false (stateOf s1 (runOp op c s1)) :=
      stateOf_of_ends (decide_eq_false hop ▸ runOp_ends c s1 op) (s1.keeps_self _ _)
    exact ((s.keeps_mach _ _ _).trans (hk _ _)).trans (State.keeps_mach _ _ _ _)

theorem replay_keeps (l : List CfgRec) (ws : List Nat) (s : State) : s.Keeps true false (replay l ws s).1 := by
  induction l generalizing ws s with
  | nil => exact s.keeps_self _ _
  | cons r l ih =>
    cases r with
    | write off v => exact (replayWrite_keeps off v s).trans (ih ws _)
    | command op params data =>
      have hk := replayCommand_keeps op params data s
      unfold replay
      dsimp only
      split
      · exact hk.trans (ih ws _)
      · exact hk
      · split
        · exact hk.trans (ih _ _)
        · exact hk

/-- A configuration that is rejected leaves the timebase as its records left it. -/
theorem startRecords_keeps (warm : Bool) (x : StartIn) (s : State) : s.Keeps true false (startRecords warm x s) := by
  unfold startRecords
  split
  · exact s.keeps_self _ _
  · next recs _ =>
    have hk := replay_keeps recs x.waits s
    dsimp only
    split
    · exact hk.trans (State.keeps_mach _ _ _ _)
    · exact ⟨rfl, hk.inv, nofun, fun _ => rfl⟩

theorem startLate_keeps (warm : Bool) (x : StartIn) (s : State) : s.Keeps true false (startLate warm x s) := by
  unfold startLate
  dsimp only
  split
  · exact s.keeps_mach _ _ _
  · split
    · exact s.keeps_mach _ _ _
    · have hk := (s.keeps_mach true false _).trans
        (startRecords_keeps warm x { s with m := (((s.m.startCopy s.env x).startImage s.env x).startConfig s.env).startStraps s.env x.straps })
      split
      · exact hk.trans (State.keeps_mach _ _ _ _)
      · exact hk.trans (State.keeps_mach _ _ _ _)

/-- A warm start keeps the timebase; a cold one loads it from the AON counter (R51). -/
theorem startRun_keeps (ask : Bool) (cause : Nat) (x : StartIn) (s : State) : s.Keeps true false (startRun ask cause x s) := by
  unfold startRun
  dsimp only
  generalize ht : (if (ask && s.m.warmOk) = true then s.env.time else Timebase.load _) = t
  have hok : s.env.time.ok → t.ok := by
    intro h
    rw [← ht]
    split
    · exact h
    · exact Timebase.load_ok _
  have hload (m : Mach) : s.Keeps true false { s with env := { s.env with time := t }, m := m } := ⟨rfl, hok, nofun, fun _ => rfl⟩
  split
  · exact (hload _).trans (startLate_keeps _ _ _)
  split
  · exact hload _
  split
  · exact hload _
  · exact (hload _).trans (startLate_keeps _ _ _)

section
variable (s : State) (a b wf : Bool) (x : StartIn)

theorem Ends.start (ask : Bool) (cause : Nat) (m : Mach) : Ends (s.Keeps true false) wf (.next (startRun ask cause x { s with m := m })) :=
  .next ((s.keeps_mach _ _ m).trans (startRun_keeps ask cause x _))

theorem Ends.becomes (m : Mach) : Ends (s.Keeps a b) wf (.next { s with m := m }) := .next (s.keeps_mach a b m)

theorem execPowerGood_ends (aOk bOk : Bool) (va vb : Nat) : Ends (s.Keeps true false) wf (execPowerGood aOk bOk va vb x s) := by
  unfold execPowerGood
  split
  · exact .next (s.keeps_self _ _)
  extract_lets m1 m2
  split
  · exact .becomes s _ _ _ _
  · exact .start s wf x _ _ _

theorem execRstNRelease_ends : Ends (s.Keeps true false) wf (execRstNRelease x s) := by
  unfold execRstNRelease
  split
  · exact .start s wf x _ _ s.m
  · exact .next (s.keeps_self _ _)

theorem execWatchdogExpire_ends : Ends (s.Keeps true false) wf (execWatchdogExpire x s) := by
  unfold execWatchdogExpire
  split
  · exact .next (s.keeps_self _ _)
  · exact .start s wf x _ _ s.m

theorem execResetDelayExpire_ends : Ends (s.Keeps true false) wf (execResetDelayExpire x s) := by
  unfold execResetDelayExpire
  split
  · split
    · exact .next (s.keeps_self _ _)
    · exact .start s wf x _ _ s.m
  · exact .next (s.keeps_self _ _)

theorem execStartTimeout_ends : Ends (s.Keeps true false) wf (execStartTimeout x s) := by
  unfold execStartTimeout
  split
  · exact .start s wf x _ _ s.m
  · exact .next (s.keeps_self _ _)

theorem execDramEccError_ends (addr : Nat) (u r : Bool) : Ends (s.Keeps true false) (decide (addr < 3758096384)) (execDramEccError addr u r x s) := by
  unfold execDramEccError
  dsimp only
  split
  · next h => exact .absent (decide_eq_false (Nat.not_lt.mpr h))
  split
  · exact .becomes s _ _ _ _
  split
  · exact .becomes s _ _ _ _
  · exact .start s _ x _ _ _

theorem execSelfCheckEnd_ends (parts : Nat) : Ends (s.Keeps true false) wf (execSelfCheckEnd parts x s) := by
  unfold execSelfCheckEnd
  dsimp only
  split
  · exact .next (s.keeps_self _ _)
  split
  · exact .becomes s _ _ _ _
  split
  · exact .becomes s _ _ _ _
  split
  · exact .start s _ x _ _ _
  · exact .becomes s _ _ _ _

theorem syncConfig_keeps (image : List Byte) (gen : Nat) : s.Keeps true false (syncConfig image gen x s) := by
  unfold syncConfig
  dsimp only
  split
  · exact (s.keeps_mach _ _ _).trans (startRun_keeps _ _ _ _)
  · exact (s.keeps_mach _ _ _).trans (startRun_keeps _ _ _ _)

theorem execSyncBulk_ends (h : LinkHdr) (item : SyncItem) : Ends (s.Keeps true false) wf (execSyncBulk h item x s) := by
  unfold execSyncBulk
  dsimp only
  split
  · exact .becomes s _ _ _ _
  split
  · split
    · exact .next ((s.keeps_mach _ _ _).trans (syncConfig_keeps _ _ _ _))
    · exact .becomes s _ _ _ _
  · exact .becomes s _ _ _ _

end

/-! ### Every command -/

/-- The queues of a type number eight for events and sixteen otherwise. -/
theorem qTypeOf_count {typ : Nat} (h : typ < 4) : (qTypeOf typ).count = if typ = 2 then 8 else 16 := by
  obtain rfl | rfl | rfl | rfl : typ = 0 ∨ typ = 1 ∨ typ = 2 ∨ typ = 3 := by omega
  all_goals rfl

/-- A command of a queue type and number that is well-formed names a queue the module has. -/
theorem queue_of_wf {typ n : Nat} (h : (decide (typ < 4) && decide (n < (if typ = 2 then 8 else 16))) = true) :
    (decide (typ < 4) && decide (n < (qTypeOf typ).count)) = true := by
  simp only [Bool.and_eq_true, decide_eq_true_eq] at h ⊢
  exact ⟨h.1, qTypeOf_count h.1 ▸ h.2⟩

/-- What every command keeps of the state, and when one stops (R5). The groups of cases are the forms a meaning has: those that start the module or move
the timebase, those on the vault, those over an operation that the commands of a block share, those about one unit of several, and all others. -/
theorem exec_ends (i : Instr) (s : State) : Ends (s.Keeps (movesTime i) (changesVault i)) i.wf (exec i s) := by
  cases i with
  | registerWrite off v => exact (writeAny_ends off v s).mono (fun _ h => h) fun _ => rfl
  | snapshotRead off => exact (readAny_ends off s).mono (fun _ h => h) fun _ => rfl
  | maintRequest p src op c =>
    refine (execMaintRequest_ends c s p src op).mono (fun _ h => h) fun h => ?_
    simp only [Instr.wf, Bool.and_eq_true] at h
    exact h.1.2
  | cycleBoundary => exact .actTime s _ _ fun h => cycleBoundary_ok h s.m
  | timeIncCommit v => exact .actTime s _ _ fun h => incCommit_ok h v s.m
  | timeStepRequest v => exact .actTime s _ _ fun h => stepWrite_ok h v s.m
  | tpoEdge k => exact execTpoEdge_ends k s _
  | disciplineMeasurement time sys unc freq want => exact .actTime s _ _ fun h => disciplineMeasurement_ok h time sys unc freq want s.m
  | holdoverEntry => exact .actTime s _ _ fun h => holdEnter_ok h s.m
  | timeSet c => exact .actTime s _ _ fun h => timeSet_ok h c s.m
  | timeAdjust c => exact .actTime s _ _ fun h => timeAdjust_ok h c s.m
  | delay h t org num unc freq want => exact execDelay_ends h t org num unc freq want s _ _
  | selfCheckEnd parts x => exact execSelfCheckEnd_ends s _ x parts
  | syncBulk h item x => exact execSyncBulk_ends s _ x h item
  | dramEccError addr u r x => exact execDramEccError_ends s x addr u r
  | powerGood aOk bOk va vb x => exact execPowerGood_ends s _ x aOk bOk va vb
  | rstNRelease x => exact execRstNRelease_ends s _ x
  | watchdogExpire x => exact execWatchdogExpire_ends s _ x
  | resetDelayExpire x => exact execResetDelayExpire_ends s _ x
  | startTimeout x => exact execStartTimeout_ends s _ x
  | updConfirm c | secKeyProgram c | secKeyRevoke c | secCtrAdvance c | secLifecycle c =>
    delta exec
    exact .vaultCmd s _ _ _ _ _ _
  | plModelLoad c => exact .plCmd_ite s _ _ _ _ _ _ _ _ _
  | plModeSet c | plSetpoint c | plTrack c | plCfgSet c | plThrCfg c | plTableLoad c | plFeed c | slvCfgSet c => exact .plCmd s _ _ _ _ _ _ _
  | strCfgSet c | strStateSet c | strSpSet c | strOutSet c | drnCfgSet c | drnAlloc c | drnModeSet c | drnReset c | drnPeriodSet c | drnTableWrite c
  | drnTableRead c => exact .strCmd s _ _ _ _ _ _ _ _
  | safCfgLoad c | safCfgAccept c | safDemand c | safOutTest c => exact .safCmd s _ _ _ _ _ _ _
  | logRead c | logSegRead c | logWrite c | logCfgSet c | logFlush c | logErase c => exact .logCmd s _ _ _ _ _ _ _ _
  | queueEnable typ n v | queueDisable typ n v => exact .onInst s _ _ queue_of_wf _
  | clockMonitorWindow | tpoCommit | captureEdge | capFifoPop | capOvfClear | ptpEventStamp | ptpOvfClear | antBiasRetry | channelStateChange
  | spacingApply | channelCn0Release | notchEngage | filAnEnable | anOutputSample | ratioServoUpdate | anShuntRetry | serialCharacter
  | serialGapTimeout | serialSilentTimeout | filSpErr | serialSendDone | fbkChEnable | fbkLineChange | lineAmplitudeLoss | lineErrClear
  | ssiFrameEnd | ssiLineTest | emuCountOutput | supplyOverload | supplyRetry | timingSuspectClear | jumpHoldEnd | scratchEccError | bankMarchTest
  | strSphWrite | droneEccError | dronePageTest | canModeWrite | canModeApply | canTxStart | canTxEnd | canFrameReceive | canBusError
  | canLoopTestEnd | canBusoffRecovery | canTtTarget | canTxLate | dioDiEnable | doOverload | aoFault | soSwitchTest | safeFrameProduce
  | safeFrameReceive | safePairWindow | safeConnTimeout | linkPortUp | linkPortDown | heartbeat | sample | setpoint | linkDelayMeasure
  | heartbeatMiss | bridgeLineChange | bridgeCondition | linkTestEnd | hostLinkReset | commandFetch | ethFrameReceive | n450Datagram | netLink
  | irqSourceRise | irqSourceFall | irqWindowCommit | msixUnmask | irqRepeat | irqVecClaimRead | irqClaimedRead | irqSrcTgtWrite | irqSwrSet
  | irqSwrClr | logErased | correlatorParityError | feedLost | feedReturn | feedSurge | canBusIntegration | channelBistEnd =>
    exact .onInst s _ _ (by simp +contextual [Instr.wf, segCount]) _
  | _ =>
    delta exec
    exact .act s _ _ _ _

/-- TIME stands still in OFF and SLEEP, and moves by one TIME cycle otherwise. -/
theorem State.idle_inv {s : State} (h : s.Inv) : s.idle.Inv := by
  unfold State.idle
  split
  · exact h
  · exact Timebase.tick_ok h

/-- Settles O4: a TIME cycle, a step, an increment and a start leave the timebase in range, and every command is one of these or leaves it alone. -/
theorem everyStepKeepsTheTimebase : Obligations.EveryStepKeepsTheTimebase := by
  intro s t hs h
  unfold step at h
  split at h
  · cases h
    exact State.idle_inv hs
  · next c rest _ =>
    have hc := exec_ends c { s with pending := rest }
    rw [h, Ends.next_iff] at hc
    exact hc.inv hs

/-- Settles O6: every meaning ends in a next state or in the fault of a unit that a well-formed command cannot name. -/
theorem onlyAbsentInstancesStop : Obligations.OnlyAbsentInstancesStop := by
  intro c s
  have hc := exec_ends c s
  generalize exec c s = o at hc ⊢
  cases hc with
  | @next t h => exact .inl ⟨t, rfl, h.pending⟩
  | absent h => exact .inr ⟨rfl, h⟩

/-! ### The state after reset -/

/-- Settles O3: no register is listed at reset, so every register reads its table's value. -/
theorem resetState : Obligations.ResetState := by
  unfold Obligations.ResetState
  refine ⟨?_, rfl, ?_, ?_, ?_, ?_, ?_, ?_, ?_, rfl, rfl⟩
  · exact ⟨by decide, by decide, by decide, by decide⟩
  all_goals decide

/-! ### Short stamps (R11, R12) -/

/-- A short difference is the signed 32-bit number congruent to the difference. -/
theorem shortDiff_spec (a b : Nat) :
    (-(2 ^ 31 : Int) ≤ shortDiff a b ∧ shortDiff a b < 2 ^ 31) ∧ ((a : Int) - b - shortDiff a b) % 2 ^ 32 = 0 := by
  unfold shortDiff toSigned
  dsimp only
  split <;> omega

/-- Settles O9: within half the range of a short stamp the signed difference has the sign of the difference of the stamps. -/
theorem shortStamps : Obligations.ShortStamps := by
  refine ⟨fun x => rfl, fun a b _ _ => shortDiff_spec a b, fun x y hlo hhi => ?_⟩
  unfold Stamp.short
  obtain ⟨⟨hl, hh⟩, hmod⟩ := shortDiff_spec (x.toNs / 8 % 2 ^ 32) (y.toNs / 8 % 2 ^ 32)
  generalize shortDiff _ _ = d at *
  constructor <;> intro h <;> omega

/-! ### Host writes of one register (R8, R9) -/

/-- A host write of a register: the record where a field ignores it, then the merged value. -/
theorem Mach.hostPut_eq {off : Nat} {d : RegDef} (h : regAt off = some d) (m : Mach) (locked quiet : Bool) (v : Word) :
    m.hostPut locked quiet off v
      = (if hostIgnores d locked quiet (m.rd off) v = true then m.writeIgnored off v else m).wr off (hostMerge d locked quiet (m.rd off) v) := by
  have hv : v &&& ~~~(0 : Word) ||| m.rd off &&& 0 = v := by
    change v &&& ~~~(0#32) ||| m.rd off &&& 0#32 = v
    rw [BitVec.not_zero, BitVec.and_allOnes, BitVec.and_zero, BitVec.or_zero]
  have hb : ((m.rd off ^^^ v) &&& (0 : Word) != 0) = false := by simp
  simp only [Mach.hostPut, Mach.hostPutBar, h, hv, hb, Bool.or_false]

theorem Mach.rd_hostPut_same {off : Nat} {d : RegDef} (h : regAt off = some d) (m : Mach) (locked quiet : Bool) (v : Word) :
    (m.hostPut locked quiet off v).rd off = hostMerge d locked quiet (m.rd off) v := by
  rw [Mach.hostPut_eq h, Mach.rd_wr_same]

theorem Mach.rd_hostPut_other {off o : Nat} {d : RegDef} (h : regAt off = some d) (m : Mach) (locked quiet : Bool) (v : Word)
    (hi : hostIgnores d locked quiet (m.rd off) v = false) (ho : o ≠ off) : (m.hostPut locked quiet off v).rd o = m.rd o := by
  rw [Mach.hostPut_eq h, Mach.rd_wr_other ho, hi]
  rfl

/-- The record of an ignored write moves registers of the recorder only. -/
theorem Mach.rd_hostPut_far {off o : Nat} {d : RegDef} (h : regAt off = some d) (m : Mach) (locked quiet : Bool) (v : Word)
    (hf : farReg o) (ho : o ≠ off) : (m.hostPut locked quiet off v).rd o = m.rd o := by
  rw [Mach.hostPut_eq h, Mach.rd_wr_other ho]
  split
  · exact Mach.alike_record (Mach.alike_refl m) _ o hf
  · rfl

/-- Bit i takes a write. -/
def takesBit (d : RegDef) (locked quiet : Bool) (i : Nat) : Bool :=
  d.rw.testBit i || (!locked && d.rwl.testBit i) || (quiet && d.rwq.testBit i)

/-- The access codes bit by bit (R8). -/
theorem hostMerge_bit (d : RegDef) (locked quiet : Bool) (old v : Word) {i : Nat} (hi : i < 32) :
    (hostMerge d locked quiet old v).getLsbD i
      = ((if takesBit d locked quiet i then v.getLsbD i else old.getLsbD i) && !(d.w1c.testBit i && v.getLsbD i)) := by
  have h0 : (0 : Word).getLsbD i = false := BitVec.getLsbD_zero
  have hset : (BitVec.ofNat 32 d.rw ||| (if locked then 0 else BitVec.ofNat 32 d.rwl)
      ||| (if quiet then BitVec.ofNat 32 d.rwq else 0) : Word).getLsbD i = takesBit d locked quiet i := by
    cases locked <;> cases quiet <;>
      simp only [takesBit, BitVec.getLsbD_or, BitVec.getLsbD_ofNat, h0, hi, decide_true, Bool.true_and, Bool.false_and,
        Bool.or_false, Bool.not_true, Bool.not_false, if_true, if_false, Bool.false_eq_true]
  simp only [hostMerge, BitVec.getLsbD_and, BitVec.getLsbD_or, BitVec.getLsbD_not, hset, hi, BitVec.getLsbD_ofNat, decide_true, Bool.true_and]
  cases takesBit d locked quiet i <;> simp

/-- Settles O8: the value of each access code is the merge's bit under it. -/
theorem accessCodesOfAWrite : Obligations.AccessCodesOfAWrite := by
  intro m locked quiet off v d w hd _ hw
  rw [Mach.rd_hostPut_same hd] at hw
  refine ⟨fun i hi => ?_, fun o hf ho => Mach.rd_hostPut_far hd m locked quiet v hf ho⟩
  rw [hw, hostMerge_bit d locked quiet _ v hi]
  refine ⟨?_, ?_, ?_, ?_, ?_⟩
  · intro hrw hc
    simp [takesBit, hrw, hc]
  · intro hl hrw hq hc
    cases locked <;> simp [takesBit, hl, hrw, hq, hc]
  · intro hq hrw hl hc
    cases quiet <;> simp [takesBit, hl, hrw, hq, hc]
  · intro hc hrw hl hq
    simp [takesBit, hl, hrw, hq, hc]
  · intro hrw hl hq hc
    simp [takesBit, hl, hrw, hq, hc]
  

/-! ### Which row a register access is (R7 to R9, R34) -/

/-- A register outside a family, or between two of its members. -/
theorem famIdx_eq_none {base step n off : Nat} (h : off < base ∨ (off - base) % step ≠ 0 ∨ (0 < step ∧ base + step * n ≤ off)) :
    famIdx base step n off = none := by
  unfold famIdx
  rw [if_pos]
  simp only [Bool.or_eq_true, decide_eq_true_eq, bne_iff_ne, ne_eq]
  rcases h with h | h | ⟨hs, h⟩
  · exact .inl (.inl h)
  · exact .inl (.inr h)
  · exact .inr ((Nat.le_div_iff_mul_le hs).mpr (by rw [Nat.mul_comm]; omega))

/-- Member k of a family. -/
theorem famIdx_member {base step n k : Nat} (hs : 0 < step) (hk : k < n) : famIdx base step n (base + step * k) = some k := by
  simp [famIdx, Nat.mul_div_cancel_left k hs, hk]

/-- The families of registers that have rows of their own: base, step and number. -/
def rowFamilies : List (Nat × Nat × Nat) :=
  [(Reg.TPOk_CTRL 0, 0x20, 8), (Reg.CAPk_STS 0, 0x20, 8), (Reg.PTPp_STS 0, 0x20, 2), (Reg.FBK_CHc_CFG 0, 0x80, 12), (Reg.STR_Ss_SPH 0, 0x100, 48),
    (Reg.CAN_c_CTRL 0, 0x1000, 4), (Reg.DIO_DIi_CFG 0, 0x10, 32), (Reg.IRQ_SRCs_TGT 0, 4, 512), (Reg.IRQ_SWR_SETx 0, 4, 3), (Reg.IRQ_SWR_CLRx 0, 4, 3)]

section
variable (s : State) (v : Word)

/-- A write of a register without a row of its own goes by its block. -/
theorem writeAny_other {off : Nat} (h1 : off ≠ Reg.TIME_CTRL) (h2 : off ≠ Reg.TIME_INC_HI) (h3 : off ≠ Reg.GNS_CTRL) (h4 : off ≠ Reg.DIO_DO_CMD)
    (hf : (rowFamilies.all fun f => (famIdx f.1 f.2.1 f.2.2 off).isNone) = true) :
    writeAny off v s = s.becomes (s.m.regWrite s.env off v) := by
  simp only [rowFamilies, List.all_cons, List.all_nil, Bool.and_true, Bool.and_eq_true, Option.isNone_iff_eq_none] at hf
  obtain ⟨f1, f2, f3, f4, f5, f6, f7, f8, f9, f10⟩ := hf
  unfold writeAny
  dsimp only
  rw [if_neg h1, if_neg h2, if_neg h3, if_neg h4, f1, f2, f3, f4, f5, f6, f7, f8, f9, f10]
  rfl

/-- The blocks in which no rule but the access codes bears on a write. -/
theorem Mach.regWrite_plain (m : Mach) (e : Env) {off : Nat}
    (h : (0x20000 ≤ off ∧ off < 0x30000) ∨ (0x48000 ≤ off ∧ off < 0x70000) ∨ (0xB0000 ≤ off ∧ off < 0xC0000) ∨ 0xD0000 ≤ off) :
    m.regWrite e off v = m.hostPut e.locked true off v := by
  rcases h with h | h | h | h
  all_goals simp (disch := omega) only [Mach.regWrite, if_neg, if_pos]

/-- A write by the access codes alone leaves the merged value, and every other register unless it is recorded. -/
theorem hostPut_leaves {off : Nat} {d : RegDef} (hd : regAt off = some d)
    (hx : exec (.registerWrite off v) s = s.becomes (s.m.hostPut s.env.locked true off v)) :
    ∃ t : State, exec (.registerWrite off v) s = .next t ∧ t.env = s.env ∧ t.m.rd off = hostMerge d s.env.locked true (s.m.rd off) v
      ∧ (hostIgnores d s.env.locked true (s.m.rd off) v = false → ∀ o : Nat, o ≠ off → t.m.rd o = s.m.rd o) :=
  ⟨_, hx, rfl, Mach.rd_hostPut_same hd _ _ _ _, fun hi _ ho => Mach.rd_hostPut_other hd _ _ _ _ hi ho⟩

/-- In the blocks of Lichen, the safety island, the recorder and those above no register has a row of its own. -/
theorem registerWrite_plain {off : Nat} (h : (0x48000 ≤ off ∧ off < 0x70000) ∨ (0xB0000 ≤ off ∧ off < 0xC0000) ∨ 0xD0000 ≤ off) :
    exec (.registerWrite off v) s = s.becomes (s.m.hostPut s.env.locked true off v) := by
  rw [← Mach.regWrite_plain v s.m s.env (by omega)]
  refine writeAny_other s v ?_ ?_ ?_ ?_ ?_
  any_goals
    rintro rfl
    revert h
    decide
  · simp (disch := omega) only [rowFamilies, List.all_cons, List.all_nil, Reg.TPOk_CTRL, Reg.CAPk_STS, Reg.PTPp_STS, Reg.FBK_CHc_CFG, Reg.STR_Ss_SPH,
      Reg.CAN_c_CTRL, Reg.DIO_DIi_CFG, Reg.IRQ_SRCs_TGT, Reg.IRQ_SWR_SETx, Reg.IRQ_SWR_CLRx, famIdx_eq_none, Option.isNone_none, Bool.and_self]

/-- A register of the interrupt controller that is no target, SET or CLR register. -/
theorem registerWrite_irq {off : Nat} (h : 0x20000 ≤ off ∧ off < 0x30000) (ht : famIdx (Reg.IRQ_SRCs_TGT 0) 4 512 off = none)
    (hs : famIdx (Reg.IRQ_SWR_SETx 0) 4 3 off = none) (hc : famIdx (Reg.IRQ_SWR_CLRx 0) 4 3 off = none) :
    exec (.registerWrite off v) s = s.becomes (s.m.hostPut s.env.locked true off v) := by
  rw [← Mach.regWrite_plain v s.m s.env (by omega)]
  refine writeAny_other s v ?_ ?_ ?_ ?_ ?_
  any_goals
    rintro rfl
    revert h
    decide
  · simp (disch := omega) only [rowFamilies, List.all_cons, List.all_nil, ht, hs, hc, Reg.TPOk_CTRL, Reg.CAPk_STS, Reg.PTPp_STS, Reg.FBK_CHc_CFG,
      Reg.STR_Ss_SPH, Reg.CAN_c_CTRL, Reg.DIO_DIi_CFG, famIdx_eq_none, Option.isNone_none, Bool.and_self]

theorem exec_registerWrite (off : Nat) : exec (.registerWrite off v) s = writeAny off v s := rfl

theorem exec_snapshotRead (off : Nat) : exec (.snapshotRead off) s = readAny off s := rfl

/-- A write of a register with a row of its own is that row. -/
theorem registerWrite_rows :
    exec (.registerWrite Reg.TIME_CTRL v) s = exec (.timeStepRequest v) s ∧ exec (.registerWrite Reg.TIME_INC_HI v) s = exec (.timeIncCommit v) s
      ∧ exec (.registerWrite Reg.GNS_CTRL v) s = exec (.gnsCtrlRestart v) s ∧ exec (.registerWrite Reg.DIO_DO_CMD v) s = exec (.dioDoCmdWrite v) s := by
  simp only [exec_registerWrite]
  exact ⟨rfl, rfl, rfl, rfl⟩

/-- A write of a register of a family is the row of that family. -/
theorem registerWrite_families (k : Nat) :
    (k < 8 → exec (.registerWrite (Reg.TPOk_CTRL k) v) s = exec (.tpoCommit k v) s)
      ∧ (k < 8 → exec (.registerWrite (Reg.CAPk_STS k) v) s = exec (.capOvfClear k v) s)
      ∧ (k < 2 → exec (.registerWrite (Reg.PTPp_STS k) v) s = exec (.ptpOvfClear k v) s)
      ∧ (k < 12 → exec (.registerWrite (Reg.FBK_CHc_CFG k) v) s = exec (.fbkChEnable k v) s)
      ∧ (k < 48 → exec (.registerWrite (Reg.STR_Ss_SPH k) v) s = exec (.strSphWrite k v) s)
      ∧ (k < 4 → exec (.registerWrite (Reg.CAN_c_CTRL k) v) s = exec (.canModeWrite k v) s)
      ∧ (k < 32 → exec (.registerWrite (Reg.DIO_DIi_CFG k) v) s = exec (.dioDiEnable k v) s)
      ∧ (k < 512 → exec (.registerWrite (Reg.IRQ_SRCs_TGT k) v) s = exec (.irqSrcTgtWrite k v) s)
      ∧ (k < 3 → exec (.registerWrite (Reg.IRQ_SWR_SETx k) v) s = exec (.irqSwrSet k v) s)
      ∧ (k < 3 → exec (.registerWrite (Reg.IRQ_SWR_CLRx k) v) s = exec (.irqSwrClr k v) s) := by
  refine ⟨?_, ?_, ?_, ?_, ?_, ?_, ?_, ?_, ?_, ?_⟩
  all_goals
    intro hk
    rw [exec_registerWrite]
    simp (disch := omega) only [writeAny, if_neg, famIdx_eq_none, famIdx_member, Reg.TIME_CTRL, Reg.TIME_INC_HI, Reg.GNS_CTRL, Reg.DIO_DO_CMD,
      Reg.TPOk_CTRL, Reg.CAPk_STS, Reg.PTPp_STS, Reg.FBK_CHc_CFG, Reg.STR_Ss_SPH, Reg.CAN_c_CTRL, Reg.DIO_DIi_CFG, Reg.IRQ_SRCs_TGT,
      Reg.IRQ_SWR_SETx, Reg.IRQ_SWR_CLRx, Nat.mul_zero, Nat.add_zero]
    rfl

/-- In OFF and SLEEP no read is answered (R3). -/
theorem readAny_off {off : Nat} (h : s.m.state < 2) : readAny off s = .next s := if_pos h

/-- A read that removes or claims is its own row. -/
theorem snapshotRead_families (k : Nat) (h : 2 ≤ s.m.state) :
    (k < 8 → exec (.snapshotRead (Reg.CAPk_SH k)) s = exec (.capFifoPop k) s)
      ∧ (k < 32 → exec (.snapshotRead (Reg.IRQ_VECv_CLAIM k)) s = exec (.irqVecClaimRead k) s)
      ∧ (k < 16 → exec (.snapshotRead (Reg.IRQ_CLAIMEDw k)) s = exec (.irqClaimedRead k) s) := by
  refine ⟨?_, ?_, ?_⟩
  all_goals
    intro hk
    rw [exec_snapshotRead, readAny, if_neg (Nat.not_lt.mpr h)]
    simp (disch := omega) only [famIdx_eq_none, famIdx_member, Reg.CAPk_SH, Reg.IRQ_VECv_CLAIM, Reg.IRQ_CLAIMEDw, Nat.mul_zero, Nat.add_zero]
    rfl

/-- Any other read takes its snapshot and returns the latched or the present value. -/
theorem readAny_other {off : Nat} (h : 2 ≤ s.m.state) (h1 : famIdx (Reg.CAPk_SH 0) 0x20 8 off = none) (h2 : famIdx (Reg.IRQ_VECv_CLAIM 0) 4 32 off = none)
    (h3 : famIdx (Reg.IRQ_CLAIMEDw 0) 4 16 off = none) :
    readAny off s = s.becomes ((s.m.snapshot s.env off).emit "READ" off (s.m.hostRead s.env off).toNat) := by
  rw [readAny, if_neg (Nat.not_lt.mpr h), h1, h2, h3]
  rfl

end

/-! ### The latch (R34) -/

theorem lookup_setAssoc_same {β : Type} (k : Nat) (v : β) (l : List (Nat × β)) : (setAssoc k v l).lookup k = some v := by
  induction l with
  | nil => simp [setAssoc]
  | cons p l ih =>
    obtain ⟨a, w⟩ := p
    simp only [setAssoc]
    split
    · simp
    · split
      · simp
      · next hk => simpa [List.lookup_cons, beq_eq_false_iff_ne.mpr hk] using ih

theorem lookup_setAssoc_other {β : Type} {k o : Nat} (h : o ≠ k) (v : β) (l : List (Nat × β)) : (setAssoc k v l).lookup o = l.lookup o := by
  have hne : (o == k) = false := beq_eq_false_iff_ne.mpr h
  induction l with
  | nil => simp [setAssoc, List.lookup_cons, hne]
  | cons p l ih =>
    obtain ⟨a, w⟩ := p
    simp only [setAssoc]
    split
    · simp [List.lookup_cons, hne]
    · split
      · next hk =>
        subst hk
        simp [List.lookup_cons, hne]
      · simp [List.lookup_cons, ih]

/-- Setting each key of a list to its value: a key of the list reads its value, another one what it read. -/
theorem lookup_foldl_setAssoc {β : Type} (f : Nat → β) (o : Nat) (ks : List Nat) (l : List (Nat × β)) :
    (ks.foldl (fun l k => setAssoc k (f k) l) l).lookup o = if o ∈ ks then some (f o) else l.lookup o := by
  induction ks generalizing l with
  | nil => simp
  | cons k ks ih =>
    rw [List.foldl_cons, ih]
    by_cases ho : o = k
    · subst ho
      simp [lookup_setAssoc_same]
    · simp [lookup_setAssoc_other ho, ho]

/-- What a snapshot leaves in the latch. -/
theorem Mach.lookup_snapshot (m : Mach) (e : Env) (off o : Nat) :
    (m.snapshot e off).latch.lookup o = if o ∈ snapOf off then some (m.live e o) else m.latch.lookup o :=
  lookup_foldl_setAssoc (fun k => m.live e k) o (snapOf off) m.latch

/-! ### The pin multiplexer (R695) -/

theorem execPinmuxWrite_eq (s : State) (v : Word) : exec (.pinmuxWrite v) s = s.becomes (s.m.pinmuxWrite s.env.locked v) := rfl

theorem Mach.rd_pinmuxWrite (m : Mach) (locked : Bool) (v : Word) :
    (m.pinmuxWrite locked v).rd Reg.GEN_PINMUX
      = m.rd Reg.GEN_PINMUX ^^^ (((m.rd Reg.GEN_PINMUX ^^^ v) &&& 0xFF) &&& BitVec.ofNat 32 (m.pinMask locked)) := Mach.rd_wr_same _ _ _

/-- A write that changes no bit of the multiplexer is no change and no record. -/
theorem Mach.rd_pinmuxWrite_same (m : Mach) (locked : Bool) {v : Word} (h : ((m.rd Reg.GEN_PINMUX ^^^ v) &&& 0xFF) = 0) (off : Nat) :
    (m.pinmuxWrite locked v).rd off = m.rd off := by
  simp only [Mach.pinmuxWrite, h]
  by_cases ho : off = Reg.GEN_PINMUX
  · subst ho
    simp
  · rw [Mach.rd_wr_other ho]
    simp

/-! ### Requests of the maintenance port (R569) -/

section
variable {p src : Nat} {s : State} (hp : p < 2)
include hp

/-- A request that the port takes runs its command. -/
theorem execMaintRequest_taken (hu : s.m.netUp p = true) (hs : s.m.netServes p .maint = true) (hn : s.m.maintTaken s.env p < 100)
    (hb : s.m.hif.maintBusy.contains (p, src) = false) (op : Nat) (c : Cmd) :
    execMaintRequest p src op c s = runOp op { c with path := .maint p src } { s with m := s.m.maintTake s.env p src } := by
  simp only [execMaintRequest, Nat.not_le.mpr hp, hu, hs, Nat.not_le.mpr hn, hb, decide_false, Bool.not_true, Bool.or_false, Bool.false_eq_true, if_false]

/-- A request to a port that is down, does not serve maintenance or has taken its hundred is dropped. -/
theorem execMaintRequest_dropped (h : s.m.netUp p = false ∨ s.m.netServes p .maint = false ∨ 100 ≤ s.m.maintTaken s.env p) (op : Nat) (c : Cmd) :
    execMaintRequest p src op c s = .next s := by
  rcases h with h | h | h
  all_goals simp [execMaintRequest, Nat.not_le.mpr hp, h]

end

/-- Settles O16: each access is the row that its offset names, and its effect is that row's. -/
theorem registerAccesses : Obligations.RegisterAccesses := by
  intro s
  refine ⟨fun off v => ?_, fun off v h => registerWrite_plain s v (by omega), fun off v d h hd => hostPut_leaves s v hd (registerWrite_plain s v (by omega)),
    ?_, fun off v => writeAny_other s v, registerWrite_rows s, fun k v => registerWrite_families s v k, fun off => readAny_off s,
    fun k hk h => (snapshotRead_families s k h).1 hk, fun k hk h => (snapshotRead_families s k h).2.1 hk,
    fun k hk h => (snapshotRead_families s k h).2.2 hk, ?_, ?_, ?_, ?_, ?_, ?_, ?_⟩
  · have hw := writeAny_ends off v s
    rw [exec_registerWrite]
    generalize writeAny off v s = o at hw ⊢
    cases hw with
    | @next t ht => exact ⟨t, rfl, ht.pending, ht.vault_eq rfl⟩
    | absent h => cases h
  · rintro off v d hd (h | h | ⟨hlo, hhi, ht, hset, hclr⟩)
    · exact hostPut_leaves s v hd (registerWrite_plain s v (.inl h))
    · exact hostPut_leaves s v hd (registerWrite_plain s v (.inr (.inl h)))
    · exact hostPut_leaves s v hd (registerWrite_irq s v ⟨hlo, hhi⟩ ht hset hclr)
  · intro off h h1 h2 h3
    refine ⟨_, (exec_snapshotRead s off).trans (readAny_other s h h1 h2 h3), rfl, rfl, rfl, fun o ho => ?_⟩
    exact (s.m.lookup_snapshot s.env off o).trans (if_neg ho)
  · intro o h ho
    refine ⟨_, (exec_snapshotRead s _).trans (readAny_other s h (by decide) (by decide) (by decide)), fun _ => ?_⟩
    change ((s.m.snapshot s.env Reg.TIME_NOW_NS).latch.lookup o).getD _ = _
    rw [Mach.lookup_snapshot, if_pos ho, Option.getD_some]
  · intro v _ hv
    exact ⟨_, execPinmuxWrite_eq s v, fun off => s.m.rd_pinmuxWrite_same _ hv off⟩
  · intro v
    exact ⟨rfl, _, execPinmuxWrite_eq s v, rfl, s.m.rd_pinmuxWrite _ v⟩
  · intro p src op c hp hu hs hn hb
    exact ⟨execMaintRequest_taken hp hu hs hn hb op c, execMaintRequest_taken hp hu hs hn hb 0x01 c⟩
  · intro p src c hp hu hs hn hb _ _ _
    exact ⟨_, execMaintRequest_taken hp hu hs hn hb 0x01 c⟩
  · intro p src op c hp h
    exact execMaintRequest_dropped hp h op c

end Sys2Proof.Machine
end

section
/-!
PROOFS. The commands of the strings and of Drone that answer at once, the backup of Drone's tables, and a host's write of a set point.
-/
namespace Sys2Proof.Machine

/-! ### Lists and bytes -/

@[simp] theorem le_length (n v : Nat) : (le n v).length = n := by
  induction n generalizing v with
  | zero => rfl
  | succ n ih => simp [le, ih]

/-- Pieces of one length, laid end to end. -/
theorem length_flatMap_of_const {α β : Type} {f : α → List β} {n : Nat} (h : ∀ a, (f a).length = n) (l : List α) :
    (l.flatMap f).length = n * l.length := by
  induction l with
  | nil => rfl
  | cons a l ih => simp [h, ih, Nat.mul_add, Nat.add_comm]

/-- A block of registers takes four bytes for each. -/
@[simp] theorem Mach.regBytes_length (m : Mach) (l : List Nat) : (m.regBytes l).length = 4 * l.length :=
  length_flatMap_of_const (fun _ => le_length _ _) l

@[simp] theorem upd_length {α : Type} (l : List α) (i : Nat) (f : α → α) : (upd l i f).length = l.length := by
  induction l generalizing i with
  | nil => rfl
  | cons a l ih =>
    cases i with
    | zero => rfl
    | succ i => simp [upd, ih]

theorem nth_upd_same {α : Type} (d : α) {l : List α} {i : Nat} (h : i < l.length) (f : α → α) : nth d (upd l i f) i = f (nth d l i) := by
  induction l generalizing i with
  | nil => simp at h
  | cons a l ih =>
    cases i with
    | zero => rfl
    | succ i => exact ih (Nat.lt_of_succ_lt_succ h)

theorem nth_upd_other {α : Type} (d : α) (l : List α) {i j : Nat} (h : j ≠ i) (f : α → α) : nth d (upd l i f) j = nth d l j := by
  induction l generalizing i j with
  | nil => rfl
  | cons a l ih =>
    cases i with
    | zero =>
      cases j with
      | zero => exact absurd rfl h
      | succ j => rfl
    | succ i =>
      cases j with
      | zero => rfl
      | succ j => exact ih (fun e => h (congrArg Nat.succ e))

theorem iter_succ {α : Type} (n : Nat) (f : Nat → α → α) (x : α) : iter (n + 1) f x = f n (iter n f x) := by
  simp [iter, List.range_succ]

/-! ### The backup of the learners' tables (R393) -/

/-- A learner that is not there reads as at reset. -/
theorem Mach.dr_beyond {m : Mach} {t : Nat} (h : ¬ t < m.str.drn.length) : m.dr t = DrnSt.reset := by
  simp [Mach.dr, nth, Nat.le_of_not_lt h]

/-- The copy that a backup leaves of a learner: none without an allocation, else the table with its phase and step. -/
def Mach.drCopy (m : Mach) (t : Nat) : Option (List Word × Nat × Nat) :=
  if m.g (.STR_DRN_Ss_ALLOC_count t) = 0 then none
  else some ((m.dr t).table, m.g (.STR_DRN_Ss_PHASE_phi t), m.g (.STR_DRN_Ss_STEP_step t))

/-- The backup of one learner. -/
def Mach.drBackup (t : Nat) (m : Mach) : Mach :=
  if m.g (.STR_DRN_Ss_ALLOC_count t) = 0 then m.setDr t fun x => { x with copy := none }
  else m.setDr t fun x => { x with copy := some (x.table, m.g (.STR_DRN_Ss_PHASE_phi t), m.g (.STR_DRN_Ss_STEP_step t)) }

theorem execDroneTableBackup_eq (s : State) : execDroneTableBackup s = s.becomes (iter 48 Mach.drBackup s.m) := rfl

theorem Mach.drBackup_regs (t : Nat) (m : Mach) : (m.drBackup t).regs = m.regs := by
  unfold Mach.drBackup
  split <;> rfl

theorem Mach.drBackup_length (t : Nat) (m : Mach) : (m.drBackup t).str.drn.length = m.str.drn.length := by
  unfold Mach.drBackup
  split <;> exact upd_length _ _ _

theorem Mach.drBackup_dr_same {t : Nat} {m : Mach} (h : t < m.str.drn.length) :
    (m.drBackup t).dr t = { m.dr t with copy := m.drCopy t } := by
  unfold Mach.drBackup Mach.drCopy
  split <;> exact nth_upd_same _ h _

theorem Mach.drBackup_dr_other {t k : Nat} (h : k ≠ t) (m : Mach) : (m.drBackup t).dr k = m.dr k := by
  unfold Mach.drBackup
  split <;> exact nth_upd_other _ _ h _

theorem Mach.drBackup_table (t k : Nat) (m : Mach) : ((m.drBackup t).dr k).table = (m.dr k).table := by
  by_cases h : k = t
  · subst h
    by_cases hl : k < m.str.drn.length
    · rw [Mach.drBackup_dr_same hl]
    · rw [Mach.dr_beyond hl, Mach.dr_beyond (Mach.drBackup_length k m ▸ hl)]
  · rw [Mach.drBackup_dr_other h]

/-- The copy depends on registers and on the learner's table alone. -/
theorem Mach.drCopy_congr {m m' : Mach} {t : Nat} (hr : m'.regs = m.regs) (ht : (m'.dr t).table = (m.dr t).table) : m'.drCopy t = m.drCopy t := by
  have hg (f : Fld) : m'.g f = m.g f := by simp only [Mach.g, Mach.rd, hr]
  unfold Mach.drCopy
  rw [hg, hg, hg, ht]

/-- The machine after the backup of the first n learners: tables are kept, and those learners have their copy. -/
structure Mach.BackedUp (m : Mach) (n : Nat) (m' : Mach) : Prop where
  regs : m'.regs = m.regs
  length : m'.str.drn.length = m.str.drn.length
  table : ∀ k, (m'.dr k).table = (m.dr k).table
  copy : ∀ k, k < n → k < m.str.drn.length → (m'.dr k).copy = m.drCopy k

theorem Mach.backedUp_iter (m : Mach) (n : Nat) : m.BackedUp n (iter n Mach.drBackup m) := by
  induction n with
  | zero => exact ⟨rfl, rfl, fun _ => rfl, nofun⟩
  | succ n ih =>
    rw [iter_succ]
    generalize iter n Mach.drBackup m = m' at ih
    obtain ⟨hr, hl, ht, hc⟩ := ih
    have hn : n < m.str.drn.length → (m'.drBackup n).dr n = { m'.dr n with copy := m.drCopy n } := fun h => by
      rw [Mach.drBackup_dr_same (hl ▸ h), Mach.drCopy_congr hr (ht n)]
    refine ⟨(Mach.drBackup_regs n m').trans hr, (Mach.drBackup_length n m').trans hl, fun k => ?_, fun k hk hkl => ?_⟩
    · rw [Mach.drBackup_table, ht]
    · rcases Nat.lt_succ_iff_lt_or_eq.mp hk with hk | rfl
      · rw [Mach.drBackup_dr_other (Nat.ne_of_lt hk), hc k hk hkl]
      · rw [hn hkl]

/-- Settles O39: each clause is the command's own part on a state that takes it, its data no longer than the buffer. -/
theorem stringsAndDronesAnswer : Obligations.StringsAndDronesAnswer := by
  intro s
  refine ⟨?_, ?_, ?_, ?_, ?_, ?_, ?_⟩
  · intro c hc hlo hhi ha
    exact State.command_wait hc (by simp [Nat.not_lt.mpr hlo, Nat.not_lt.mpr hhi, ha]) (.inr rfl)
  · intro c q hc hq hlt hn he
    subst hq
    have hff : c.u8 0 ≠ 0xFF := by omega
    change execStrStream c s = _
    unfold execStrStream
    exact State.command_done hc (by simp [queueOk, hlt, hn, he, hff, Res.ok]) (.inl rfl) (Nat.zero_le _)
  · intro c hc heven hlen
    change execStrStatusGet c s = _
    unfold execStrStatusGet
    refine State.command_done hc (by simp [heven]) (.inl rfl) ?_
    rw [List.length_append, length_flatMap_of_const (n := 12) fun _ => Mach.regBytes_length _ _]
    simpa using hlen
  · intro c hc heven hlen
    change execDrnStatusGet c s = _
    unfold execDrnStatusGet
    refine State.command_done hc (by simp [heven]) (.inl rfl) ?_
    rw [List.length_append, length_flatMap_of_const (n := 12) fun _ => Mach.regBytes_length _ _]
    simpa using hlen
  · intro page entry u hp he
    exact State.onInst_eq s (by simp [hp, he]) _
  · obtain ⟨hr, -, ht, hc⟩ := Mach.backedUp_iter s.m 48
    exact ⟨_, execDroneTableBackup_eq s, hr, rfl, fun k hk hl => ⟨ht k, hc k hk hl⟩⟩
  · intro k v hk
    have hx := State.onInst_eq s (decide_eq_true hk) fun e m =>
      if m.isActive then m.strRegQueue e (Reg.STR_Ss_SPH k) v
      else if m.rd (Reg.STR_Ss_SPH k) = v then m else m.writeIgnored (Reg.STR_Ss_SPH k) v
    refine ⟨fun ha => hx.trans ?_, fun ha hne => hx.trans ?_⟩
    · simp only [ha, if_true]
      rfl
    · simp only [ha, hne, if_false, Bool.false_eq_true]
      rfl

end Sys2Proof.Machine
end

section
/-!
PROOFS. What posting leaves alone beside registers, and what a flag or a bit reads after it is written.
-/
namespace Sys2Proof.Machine

/-! ### What posting changes (R546, R555, R597) -/

/-- What posting leaves alone of the state beside registers: only queues, the recorder and what left the module change. -/
structure Mach.Posted (m m' : Mach) : Prop where
  freeCount : m'.freeCount = m.freeCount
  time : m'.time = m.time
  clk : m'.clk = m.clk
  grid : m'.grid = m.grid
  gns : m'.gns = m.gns
  pl : m'.pl = m.pl
  stk : m'.stk = m.stk

theorem Mach.Posted.refl (m : Mach) : m.Posted m := ⟨rfl, rfl, rfl, rfl, rfl, rfl, rfl⟩

theorem Mach.Posted.trans {a b c : Mach} (h : a.Posted b) (h' : b.Posted c) : a.Posted c where
  freeCount := h'.freeCount.trans h.freeCount
  time := h'.time.trans h.time
  clk := h'.clk.trans h.clk
  grid := h'.grid.trans h.grid
  gns := h'.gns.trans h.gns
  pl := h'.pl.trans h.pl
  stk := h'.stk.trans h.stk

section
variable (m : Mach)

theorem Mach.posted_s (f : Fld) (v : Nat) : m.Posted (m.s f v) := ⟨rfl, rfl, rfl, rfl, rfl, rfl, rfl⟩
theorem Mach.posted_sb (f : Fld) (v : Bool) : m.Posted (m.sb f v) := m.posted_s f _
theorem Mach.posted_up (f : Fld) : m.Posted (m.up f) := m.posted_s f _
theorem Mach.posted_setBit (off i : Nat) (v : Bool) : m.Posted (m.setBit off i v) := m.posted_sb _ v
theorem Mach.posted_hostStore (a : Nat) (b : List Byte) : m.Posted (m.hostStore a b) := ⟨rfl, rfl, rfl, rfl, rfl, rfl, rfl⟩
theorem Mach.posted_hif (h : Hif) : m.Posted { m with hif := h } := ⟨rfl, rfl, rfl, rfl, rfl, rfl, rfl⟩
theorem Mach.posted_peat (p : Peat) : m.Posted { m with peat := p } := ⟨rfl, rfl, rfl, rfl, rfl, rfl, rfl⟩
theorem Mach.posted_setRing (t : QType) (n : Nat) (r : Ring) : m.Posted (m.setRing t n r) := (m.posted_hif _).trans (Mach.posted_s _ _ _)

theorem Mach.posted_peatDrop (sev : Nat) : m.Posted (m.peatDrop sev) :=
  (((m.posted_up _).trans (Mach.posted_sb _ _ _)).trans (Mach.posted_setBit _ _ _ _)).trans (Mach.posted_peat _ _)

theorem Mach.posted_bufSync : m.Posted m.bufSync := by
  unfold Mach.bufSync
  dsimp only
  refine .trans (.trans ?_ (Mach.posted_s _ _ _)) (Mach.posted_s _ _ _)
  split
  · exact (m.posted_sb _ _).trans (Mach.posted_setBit _ _ _ _)
  · exact .refl m

/-- A record entering the write buffer. -/
theorem Mach.posted_record (r : PeatRec) : m.Posted (m.record r) := by
  unfold Mach.record
  split
  · exact m.posted_up _
  · split
    · exact m.posted_peatDrop _
    · exact (m.posted_peat _).trans (Mach.posted_bufSync _)

theorem iter_posted {n : Nat} {f : Nat → Mach → Mach} (hf : ∀ i m, Mach.Posted m (f i m)) : m.Posted (iter n f m) := by
  induction n with
  | zero => exact .refl m
  | succ n ih => exact iter_succ n f m ▸ ih.trans (hf n _)

theorem Mach.posted_push (t : QType) (n : Nat) (r : Ring) (h : Held) : m.Posted (m.push t n r h) :=
  ((((iter_posted m fun _ _ => Mach.posted_hostStore _ _ _).trans (Mach.posted_hostStore _ _ _)).trans (Mach.posted_setRing _ t n _)).trans
    (Mach.posted_hostStore _ _ _))

theorem Mach.posted_putEvent (e : Env) (q sev code : Nat) (p : List Byte) : m.Posted (m.putEvent e q sev code p) :=
  (m.posted_push _ _ _ _).trans (Mach.posted_setBit _ _ _ _)

theorem Mach.posted_eqDrop (q : Nat) : m.Posted (m.eqDrop q) :=
  (((m.posted_setRing _ _ _).trans (Mach.posted_up _ _)).trans (Mach.posted_up _ _)).trans (Mach.posted_setBit _ _ _ _)

theorem Mach.posted_toEq (e : Env) (q sev code : Nat) (p : List Byte) : m.Posted (m.toEq e q sev code p) := by
  unfold Mach.toEq
  split
  · exact .refl m
  · split
    · exact m.posted_putEvent e q sev code p
    · exact m.posted_eqDrop q

theorem Mach.posted_route (e : Env) (sev code : Nat) (p : List Byte) : m.Posted (m.route e sev code p) := by
  unfold Mach.route
  dsimp only
  split
  · exact m.posted_toEq e _ sev code p
  · exact .refl m

theorem Mach.posted_tellDrops (e : Env) (q : Nat) : m.Posted (m.tellDrops e q) := by
  unfold Mach.tellDrops
  dsimp only
  split
  · exact ((m.posted_setRing _ _ _).trans (Mach.posted_record _ _)).trans (Mach.posted_putEvent _ _ _ _ _ _)
  · exact .refl m

/-- An event is posted. -/
theorem Mach.posted_event (e : Env) (code : Nat) (psev : Option Nat) (p : List Byte) : m.Posted (m.event e code psev p) := by
  have hrec : m.Posted (match psev with | some sev => m.record ⟨sev, blockOfEvent code, code, padWord p, none⟩ | none => m) := by
    cases psev with
    | none => exact .refl m
    | some sev => exact m.posted_record _
  exact (hrec.trans (Mach.posted_tellDrops _ _ _)).trans (Mach.posted_route _ _ _ _ _)

end

/-! ### A frame that leaves over the stack link (R496) -/

/-- What a frame that leaves over the link changes: the sequence numbers sent, and what left the module. -/
theorem Mach.linkSend_eq (m : Mach) (typ dest : Nat) (p : List Byte) :
    m.linkSend typ dest p = { m with stk := { m.stk with seqOut := (m.linkSend typ dest p).stk.seqOut }, out := (m.linkSend typ dest p).out } := by
  unfold Mach.linkSend
  dsimp only
  split
  · rfl
  · split <;> split <;> rfl

@[simp] theorem Mach.linkSend_regs (m : Mach) (typ dest : Nat) (p : List Byte) : (m.linkSend typ dest p).regs = m.regs :=
  (congrArg Mach.regs (m.linkSend_eq typ dest p) :)

@[simp] theorem Mach.linkSend_pl (m : Mach) (typ dest : Nat) (p : List Byte) : (m.linkSend typ dest p).pl = m.pl :=
  (congrArg Mach.pl (m.linkSend_eq typ dest p) :)

@[simp] theorem Mach.linkSend_sync (m : Mach) (typ dest : Nat) (p : List Byte) : (m.linkSend typ dest p).stk.sync = m.stk.sync :=
  (congrArg (fun m => m.stk.sync) (m.linkSend_eq typ dest p) :)

/-! ### Flags, bits and numbers read after they are written -/

section
variable (m : Mach)

theorem Mach.g_congr {m m' : Mach} {f : Fld} (h : m'.rd f.off = m.rd f.off) : m'.g f = m.g f := by
  simp only [Mach.g, h]

/-- Registers that agree outside the host interface and the recorder have the same fields there. -/
theorem Mach.alike.g {m m' : Mach} (h : m.alike m') {f : Fld} (hf : farReg f.off) : m'.g f = m.g f := Mach.g_congr (h f.off hf)

/-- A flag reads back as one or none. -/
theorem Mach.g_sb_same {f : Fld} (hf : f.lo = f.hi) (hh : f.hi < 32) (v : Bool) : (m.sb f v).g f = if v then 1 else 0 := by
  have hw : fldWidth f = 1 := by simp [fldWidth, hf]
  rw [Mach.sb, Mach.g_s_same m (Nat.le_of_eq hf) hh, hw]
  cases v <;> rfl

theorem Mach.b_sb_same {f : Fld} (hf : f.lo = f.hi) (hh : f.hi < 32) (v : Bool) : (m.sb f v).b f = v := by
  rw [Mach.b, Mach.g_sb_same m hf hh]
  cases v <;> rfl

theorem Mach.bit_setBit_same (off : Nat) {i : Nat} (hi : i < 32) (v : Bool) : (m.setBit off i v).bit off i = v :=
  Mach.b_sb_same m (f := ⟨off, i, i⟩) rfl hi v

/-- A field of one bit that holds a flag. -/
theorem Mach.g_eq_flag {f : Fld} (hf : f.lo = f.hi) : m.g f = if m.b f then 1 else 0 := by
  have hlt := m.g_lt f
  have hw : fldWidth f = 1 := by simp [fldWidth, hf]
  rw [hw] at hlt
  simp only [Mach.b, bne_iff_ne, ne_eq]
  split <;> omega

/-- A 64-bit number reads back from its two registers. -/
theorem Mach.rd64_wr64 {lo hi : Nat} (h : lo ≠ hi) {n : Nat} (hn : n < 2 ^ 64) : (m.wr64 lo hi n).rd64 lo hi = n := by
  simp only [Mach.rd64, Mach.wr64, Mach.rd_wr_same, Mach.rd_wr_other h, BitVec.toNat_ofNat]
  omega

end

/-! ### A field of another register, or beside the one written -/

section
variable {f g : Fld} (m : Mach)

theorem Mach.g_up_other (h : g.off ≠ f.off) : (m.up f).g g = m.g g := Mach.g_s_other h m _
theorem Mach.g_setBit_other {off : Nat} (h : g.off ≠ off) (i : Nat) (v : Bool) : (m.setBit off i v).g g = m.g g := Mach.g_s_other h m _

theorem Mach.g_sb_beside (hf : f.lo ≤ f.hi) (hh : f.hi < 32) (hg : g.lo ≤ g.hi) (hfg : f.hi < g.lo ∨ g.hi < f.lo) (v : Bool) :
    (m.sb f v).g g = m.g g := Mach.g_s_beside m hf hh hg hfg _

end

/-- The same register file reads the same. -/
theorem Mach.rd_regs {m m' : Mach} (h : m'.regs = m.regs) (off : Nat) : m'.rd off = m.rd off := by
  simp only [Mach.rd, h]

theorem Mach.g_regs {m m' : Mach} (h : m'.regs = m.regs) (f : Fld) : m'.g f = m.g f := Mach.g_congr (Mach.rd_regs h _)

end Sys2Proof.Machine
end

section
/-!
PROOFS. Frames of the stack link that arrive whole, and a shadow record of a module whose strings are not held here.
-/
namespace Sys2Proof.Machine

/-- A frame that is heard is delivered on the machine that has counted and forwarded it. -/
theorem Mach.linkIn_hears {m m0 : Mach} {h : LinkHdr} {typ : Nat} (hh : m.hears h typ m0) (e : Env) (body : Mach → Mach) :
    m.linkIn e h typ body = body m0 := by
  obtain ⟨hport, hup, hcrc, hsrc, hdest, hnew, rfl⟩ := hh
  simp [Mach.linkIn, Nat.not_le.mpr hport, hup, hcrc, hsrc, hdest, hnew]

/-- A shadow record from a position whose strings a controller does not hold moves no string here (R282, R371). -/
theorem execShadow_elsewhere {s : State} {h : LinkHdr} {b : List Byte} {m0 : Mach} (hh : s.m.hears h 7 m0) (hpos : m0.pos < 2)
    (hfar : m0.strLocal h.src = false) (hb : rb b 0 ≠ 1) : exec (.shadow h b) s = s.becomes m0 := by
  have hbody : exec (.shadow h b) s = s.becomes _ := congrArg s.becomes (Mach.linkIn_hears hh s.env _)
  simpa [hpos, hfar, hb] using hbody

/-- Without the computation a record is tagged with, its string's values stand. -/
theorem Mach.shadowApply_untagged {m : Mach} {b : List Byte} (h : (m.sg (rb b 1)).hist = []) (e : Env) : m.shadowApply e b = m := by
  simp [Mach.shadowApply, h]

/-- The learner of a copy takes the phase that the record carries. -/
theorem Mach.g_shadowLearn_phase {m : Mach} {b : List Byte} (hlen : 30 ≤ b.length) (hen : m.b (.STR_Ss_CFG_drone_en (rb b 1)) = true) :
    (m.shadowLearn b).g (.STR_DRN_Ss_PHASE_phi (rb b 1)) = (rw b 22).toNat := by
  have hregs : (m.shadowLearn b).regs
      = ((m.s (.STR_DRN_Ss_PHASE_phi (rb b 1)) (rw b 22).toNat).s (.STR_DRN_Ss_STEP_step (rb b 1)) (rw b 26).toNat).regs := by
    simp only [Mach.shadowLearn, Nat.not_lt.mpr hlen, hen, decide_false, Bool.not_true, Bool.or_self, Bool.false_eq_true, if_false]
    refine iter_regs (fun _ _ => ?_) _
    rfl
  calc (m.shadowLearn b).g (.STR_DRN_Ss_PHASE_phi (rb b 1))
      = ((m.s (.STR_DRN_Ss_PHASE_phi (rb b 1)) (rw b 22).toNat).s (.STR_DRN_Ss_STEP_step (rb b 1)) (rw b 26).toNat).g
          (.STR_DRN_Ss_PHASE_phi (rb b 1)) := by simp only [Mach.g, Mach.rd, hregs]
    _ = (m.s (.STR_DRN_Ss_PHASE_phi (rb b 1)) (rw b 22).toNat).g (.STR_DRN_Ss_PHASE_phi (rb b 1)) :=
        Mach.g_s_other (by simp [Fld.STR_DRN_Ss_PHASE_phi, Fld.STR_DRN_Ss_STEP_step]) _ _
    _ = (rw b 22).toNat := (Mach.g_s_same m (Nat.zero_le _) (Nat.lt_succ_self 31) _).trans (Nat.mod_eq_of_lt (rw b 22).isLt)

/-- A standby at position 0 with port 0 up and a learner on string 0. -/
def State.learningStandby : State :=
  { State.reset with m := ((Mach.reset.s .STK_STS_role 1).sb (lkUp 0) true).sb (.STR_Ss_CFG_drone_en 0) true }

/-- The header of a frame that the expansion at position 2 sends to every position. -/
def expansionHdr : LinkHdr := ⟨0, 2, 63, 0, 5, 0, true⟩

/-- A record of a CLOSED string 0, at tick 0, with a phase of 1 for its learner. -/
def phaseRecord : List Byte := List.replicate 22 0 ++ [1] ++ List.replicate 7 0

/-- The standby that has counted the expansion's frame. -/
def Mach.heardExpansion : Mach :=
  (State.learningStandby.m.linkForward expansionHdr 7).setStk fun x => { x with seqIn := setAssoc (linkKey expansionHdr 7) 5 x.seqIn }

theorem learningStandby_hears : State.learningStandby.m.hears expansionHdr 7 Mach.heardExpansion :=
  ⟨by decide, by decide, rfl, by decide, by decide, by decide, rfl⟩

/-- Refutes O48: a standby at position 0 drops a shadow record of the expansion at position 2, whose strings it does not hold, where the clause on SHADOW lets
its learner of string 0 take the record's phase. -/
theorem not_linkFrames : ¬ Obligations.LinkFrames := by
  intro h
  obtain ⟨-, -, -, -, -, -, -, -, -, -, -, -, -, -, -, -, -, -, -, -, hshadow, -⟩ := h State.learningStandby
  have hclause := (hshadow expansionHdr phaseRecord _ learningStandby_hears (by decide) (by decide) (by decide)).1
  have hdropped := execShadow_elsewhere (b := phaseRecord) learningStandby_hears (by decide) (by decide) (by decide)
  have heq : Mach.heardExpansion = (Mach.heardExpansion.shadowApply State.learningStandby.env phaseRecord).shadowLearn phaseRecord := by
    simpa [State.becomes] using hdropped.symm.trans hclause
  rw [Mach.shadowApply_untagged (by decide)] at heq
  have hphase := Mach.g_shadowLearn_phase (m := Mach.heardExpansion) (b := phaseRecord) (by decide) (by decide)
  rw [← heq] at hphase
  exact absurd hphase (by decide)

end Sys2Proof.Machine
end

section
/-!
PROOFS. The grids of the module: boundaries, base ticks and output instants, the end of a self-check, the items of a resynchronisation, and the windows of the
clock monitors.
-/
namespace Sys2Proof.Machine

/-! ### Compares of a grid (R60, R62) -/

theorem gridFires_of {newest : Option Nat} {t : Nat} (h : ∀ f, newest = some f → f < t) : gridFires newest t = true := by
  cases newest with
  | none => rfl
  | some f => exact decide_eq_true (h f rfl)

theorem gridFires_past {newest : Option Nat} {f t : Nat} (hf : newest = some f) (h : t ≤ f) : gridFires newest t = false := by
  subst hf
  exact decide_eq_false (Nat.not_lt.mpr h)

/-! ### The cycle boundary (R15 to R19) -/

theorem Mach.cycNum_cycleTurn (m : Mach) (b : Nat) {n : Nat} (hn : n < 2 ^ 64) : (m.cycleTurn b n false false).cycNum = n :=
  Mach.rd64_wr64 m (by decide) hn

/-- Before its instant, or while no grid runs, a boundary is none. -/
theorem cycleBoundary_waits {e : Env} {m : Mach} (h : m.grid.running = false ∨ e.ns < m.grid.next) : cycleBoundary e m = (e.time, m) := by
  unfold cycleBoundary
  rcases h with h | h <;> simp [h]

/-- A boundary at which no step waits and that is not the first is the next cycle. -/
theorem cycleBoundary_next {e : Env} {m : Mach} (hr : m.grid.running = true) (hf : m.grid.first = false) (hs : m.time.step = none) (hb : m.grid.next ≤ e.ns) :
    cycleBoundary e m
      = (e.time, ((((m.cycleTurn m.grid.next ((m.cycNum + 1) % 2 ^ 64) false false).plTiming).syncBoundary e ((m.cycNum + 1) % 2 ^ 64)).syncedService e).cycleLaw
          e m.grid.next false) := by
  have hstep : boundaryStep e m = (e.time, m) := by simp only [boundaryStep, hs]
  have hn : m.nextCycle = (m.cycNum + 1) % 2 ^ 64 := by simp [Mach.nextCycle, hf]
  simp [cycleBoundary, hr, Nat.not_lt.mpr hb, hstep, hn, hf, hs]

/-! ### Unshadowed cycles (R42) -/

theorem Mach.plUnshadow_marks (m : Mach) : m.plUnshadow.pl.cyc.flags.testBit 1 = true := by
  change (if m.pl.cyc.flags.testBit 1 = true then m.pl.cyc.flags else m.pl.cyc.flags + 2).testBit 1 = true
  split
  · assumption
  · next h =>
    simp only [Nat.testBit_succ, Nat.testBit_zero, decide_eq_true_eq] at h ⊢
    omega

/-- An open record takes two open values and changes the recorder only. -/
theorem Mach.openRecord_posted (m : Mach) (sev src : Nat) : ({ m with freeCount := m.freeCount + 2 } : Mach).Posted (m.openRecord sev src) :=
  Mach.posted_record _ _

/-! ### The windows of the clock monitors (R35 to R37) -/

section
variable {e : Env} {d : Nat} {m : Mach}

/-- Whether the baseband runs depends on its domain, on TIME's reference and on its image. -/
theorem Mach.gnsRuns_of {m' : Mach} (hc : m'.clkFailed 5 = m.clkFailed 5) (ht : m'.time.onPll = m.time.onPll) (hg : m'.gns.stopped = m.gns.stopped) :
    m'.gnsRuns = m.gnsRuns := by
  simp only [Mach.gnsRuns, hc, ht, hg]

/-- The baseband follows neither its domain nor its reference while both stand. -/
theorem Mach.gnsFollow_same {m' : Mach} (h : m'.gnsRuns = m.gnsRuns) (e : Env) : m'.gnsFollow e m.gnsRuns = m' := by
  simp [Mach.gnsFollow, h]

theorem ClkMon.window_in (k : ClkMon) (now : Nat) : k.window now true true = ⟨0, 0, min 3 (k.seen + 1), some now⟩ := by
  simp [ClkMon.window]

theorem ClkMon.window_out (k : ClkMon) (now : Nat) : k.window now false false = ⟨min 3 (k.both + 1), 0, min 3 (k.seen + 1), some now⟩ := by
  simp [ClkMon.window]

/-- A window within tolerance of both monitors clears the counters of its domain. -/
theorem Mach.clkWindow_in {a b : Nat} (ha : clkIn d a = true) (hb : clkIn d b = true) :
    m.clkWindow e d a b
      = { m with clk := upd m.clk d fun _ => ⟨0, 0, min 3 ((nth ClkMon.reset m.clk d).seen + 1), some e.powered⟩ }.setBit Reg.GEN_CLK_OK d
          (decide (2 ≤ (nth ClkMon.reset m.clk d).seen)) := by
  have hseen : (min 3 ((nth ClkMon.reset m.clk d).seen + 1) == 3) = decide (2 ≤ (nth ClkMon.reset m.clk d).seen) := by
    rw [Bool.eq_iff_iff, beq_iff_eq, decide_eq_true_eq]
    omega
  simp [Mach.clkWindow, ha, hb, ClkMon.window_in, hseen]

/-- A third window of AON out of tolerance of both monitors fails the domain, and the seconds it keeps. -/
theorem Mach.clkWindow_aonFails {a b : Nat} (ha : clkIn 11 a = false) (hb : clkIn 11 b = false) (hboth : (nth ClkMon.reset m.clk 11).both = 2) :
    ∃ m1 : Mach, m1 = { m with clk := upd m.clk 11 fun _ => ⟨3, 0, min 3 ((nth ClkMon.reset m.clk 11).seen + 1), some e.powered⟩ }
      ∧ m.clkWindow e 11 a b = { (m1.setBit Reg.GEN_CLK_OK 11 false).setBit Reg.GEN_CLK_FAIL 11 true with time := { m.time with aonValid := false } } := by
  refine ⟨_, rfl, ?_⟩
  simp [Mach.clkWindow, ha, hb, ClkMon.window_out, hboth, Mach.clkFails]

end

section
variable {s : State} {d : Nat} (a b : Nat) (o r : Bool)

/-- A window that ends sooner than its domain's is none. -/
theorem execClockMonitorWindow_early (hd : d < 12) (h : s.m.clkDue s.env d = false) : exec (.clockMonitorWindow d a b o r) s = .next s :=
  (State.onInst_eq s (decide_eq_true hd) _).trans (by simp [h])

/-- A window of a domain other than TIME's. -/
theorem execClockMonitorWindow_eq (hd : d < 12) (h4 : d ≠ 4) (h : s.m.clkDue s.env d = true) :
    exec (.clockMonitorWindow d a b o r) s = s.becomes ((s.m.clkWindow s.env d a b).gnsFollow s.env s.m.gnsRuns) :=
  (State.onInst_eq s (decide_eq_true hd) _).trans (by simp [h, h4, State.becomes])

/-- A window of TIME's domain brings the validity of its references. -/
theorem execClockMonitorWindow_time (h : s.m.clkDue s.env 4 = true) :
    exec (.clockMonitorWindow 4 a b o r) s
      = s.becomes ((((s.m.sb .GEN_CLK_REF_ocxo_ok o).sb .GEN_CLK_REF_ref_in_ok r).clkWindow s.env 4 a b).gnsFollow s.env s.m.gnsRuns) := by
  change execClockMonitorWindow 4 a b o r s = _
  simp [execClockMonitorWindow, State.onInst, State.act, State.becomes, h]

/-- A window within tolerance leaves the baseband as it runs. -/
theorem Mach.gnsRuns_clkWindow_in {e : Env} {m : Mach} (hlen : m.clk.length = 12) (hd : d < 12) (h5 : d = 5 → (nth ClkMon.reset m.clk d).both < 3)
    (ha : clkIn d a = true) (hb : clkIn d b = true) : (m.clkWindow e d a b).gnsRuns = m.gnsRuns := by
  rw [Mach.clkWindow_in ha hb]
  refine Mach.gnsRuns_of (decide_eq_decide.mpr ?_) rfl rfl
  rw [Mach.setBit_clk]
  by_cases h : 5 = d
  · subst h
    rw [nth_upd_same _ (hlen ▸ hd)]
    simp [Nat.not_le.mpr (h5 rfl)]
  · rw [nth_upd_other _ _ h]

/-- A window within tolerance: the counters are cleared, and from the third on the domain is in order. -/
theorem execClockMonitorWindow_in (hd : d < 12) (hlen : s.m.clk.length = 12) (h : s.m.clkDue s.env d = true)
    (h5 : d = 5 → (nth ClkMon.reset s.m.clk d).both < 3) (ha : clkIn d a = true) (hb : clkIn d b = true) :
    ∃ t : State, exec (.clockMonitorWindow d a b o r) s = .next t ∧ t.env = s.env
      ∧ nth ClkMon.reset t.m.clk d = ⟨0, 0, min 3 ((nth ClkMon.reset s.m.clk d).seen + 1), some s.env.powered⟩
      ∧ t.m.bit Reg.GEN_CLK_OK d = decide (2 ≤ (nth ClkMon.reset s.m.clk d).seen) := by
  have hclk (m : Mach) (hm : m.clk = s.m.clk) (hr : m.gnsRuns = s.m.gnsRuns) :
      (m.clkWindow s.env d a b).gnsFollow s.env s.m.gnsRuns = m.clkWindow s.env d a b :=
    Mach.gnsFollow_same ((Mach.gnsRuns_clkWindow_in a b (hm ▸ hlen) hd (hm ▸ h5) ha hb).trans hr) _
  have hwin (m : Mach) (hm : m.clk = s.m.clk) :
      nth ClkMon.reset (m.clkWindow s.env d a b).clk d = ⟨0, 0, min 3 ((nth ClkMon.reset s.m.clk d).seen + 1), some s.env.powered⟩
        ∧ (m.clkWindow s.env d a b).bit Reg.GEN_CLK_OK d = decide (2 ≤ (nth ClkMon.reset s.m.clk d).seen) := by
    rw [Mach.clkWindow_in ha hb, hm]
    exact ⟨nth_upd_same _ (hlen ▸ hd) _, Mach.bit_setBit_same _ _ (by omega) _⟩
  by_cases h4 : d = 4
  · subst h4
    refine ⟨_, execClockMonitorWindow_time a b o r h, rfl, ?_⟩
    rw [hclk ((s.m.sb .GEN_CLK_REF_ocxo_ok o).sb .GEN_CLK_REF_ref_in_ok r) rfl rfl]
    exact hwin _ rfl
  · refine ⟨_, execClockMonitorWindow_eq a b o r hd h4 h, rfl, ?_⟩
    rw [hclk s.m rfl rfl]
    exact hwin _ rfl

/-- The third window of AON out of tolerance: its seconds are no longer valid, and the domain has failed. -/
theorem execClockMonitorWindow_aonFails (hlen : s.m.clk.length = 12) (h : s.m.clkDue s.env 11 = true) (hboth : (nth ClkMon.reset s.m.clk 11).both = 2)
    (ha : clkIn 11 a = false) (hb : clkIn 11 b = false) :
    ∃ t : State, exec (.clockMonitorWindow 11 a b o r) s = .next t ∧ t.env = s.env ∧ t.m.time.aonValid = false ∧ t.m.clkFailed 11 = true
      ∧ t.m.bit Reg.GEN_CLK_FAIL 11 = true ∧ t.m.bit Reg.GEN_CLK_OK 11 = false := by
  obtain ⟨m1, rfl, hwin⟩ := Mach.clkWindow_aonFails (e := s.env) ha hb hboth
  have hruns : (s.m.clkWindow s.env 11 a b).gnsRuns = s.m.gnsRuns := by
    rw [hwin]
    refine Mach.gnsRuns_of (decide_eq_decide.mpr ?_) rfl rfl
    simp only [Mach.setBit_clk, nth_upd_other _ _ (show 5 ≠ 11 by decide)]
  refine ⟨_, execClockMonitorWindow_eq a b o r (by decide) (by decide) h, rfl, ?_⟩
  rw [Mach.gnsFollow_same hruns, hwin]
  refine ⟨rfl, ?_, Mach.bit_setBit_same _ _ (by decide) _, ?_⟩
  · simp only [Mach.clkFailed, Mach.setBit_clk, nth_upd_same _ (show 11 < s.m.clk.length by omega)]
    decide
  · exact (congrArg (· != 0) (Mach.g_s_other (by decide) _ _)).trans (Mach.bit_setBit_same _ _ (by decide) _)

end

/-! ### The self-check and the items of a resynchronisation (R332, R524, R618) -/

section
variable {s : State} {x : StartIn} (parts : Nat)

theorem execSelfCheckEnd_ordered (ht : s.m.selfTesting = true) (hc : s.m.boot.checking = false) :
    exec (.selfCheckEnd parts x) s = s.becomes (s.m.selfTestEnd s.env parts) := by
  simp [exec, execSelfCheckEnd, ht, hc, State.becomes]

/-- The check of a start that passes. -/
theorem execSelfCheckEnd_passes (ht : s.m.selfTesting = true) (hc : s.m.boot.checking = true) {m1 : Mach} (h1 : m1 = s.m.selfTestEnd s.env 0) :
    exec (.selfCheckEnd 0 x) s = s.becomes ({ m1 with boot := { m1.boot with checkOk := true, checking := false } }.syncedService s.env) := by
  subst h1
  simp [exec, execSelfCheckEnd, ht, hc, State.becomes]

/-- The third check of a start that fails starts the module again. -/
theorem execSelfCheckEnd_third (ht : s.m.selfTesting = true) (hc : s.m.boot.checking = true) (hp : parts % 8 ≠ 0) {m1 : Mach}
    (h1 : m1 = s.m.selfTestEnd s.env parts) (hf : 2 ≤ m1.boot.fails) :
    exec (.selfCheckEnd parts x) s = .next (startRun false 7 x { s with m := { m1 with boot := { m1.boot with fails := m1.boot.fails + 1 } } }) := by
  subst h1
  simp [exec, execSelfCheckEnd, ht, hc, hp, hf]

variable {h : LinkHdr} {m0 : Mach} (hh : s.m.hears h 0xA m0) (hseq : m0.stk.seqIn ≠ s.m.stk.seqIn)
include hh hseq

/-- An item other than the configuration is taken as it arrives. -/
theorem execSyncBulk_item {item : SyncItem} (hi : ∀ i g, item ≠ .config i g) : exec (.syncBulk h item x) s = s.becomes (m0.syncTake s.env item) := by
  change execSyncBulk h item x s = _
  simp only [execSyncBulk, Mach.linkIn_hears hh, hseq, if_false]
  cases item with
  | config i g => exact absurd rfl (hi i g)
  | _ => rfl

/-- The configuration of the active in phase 2 starts the module again. -/
theorem execSyncBulk_config (image : List Byte) (gen : Nat) (hr : m0.role = 2) (hp : m0.g .STK_SYNC_STS_phase = 2) :
    exec (.syncBulk h (.config image gen) x) s = .next (syncConfig image gen x { s with m := m0 }) := by
  change execSyncBulk h (.config image gen) x s = _
  simp [execSyncBulk, Mach.linkIn_hears hh, hseq, hr, hp]

end

/-- Settles O15: each grid's compare fires at an instant after its newest, the boundary turns the cycle, and a window of a clock monitor moves the counters
of its domain. -/
theorem cyclesAndTicks : Obligations.CyclesAndTicks := by
  intro s
  refine ⟨?_, ?_, ?_, ?_, ?_, ?_, ?_, ?_, ?_, ?_, fun parts x ht hc => execSelfCheckEnd_ordered parts ht hc, fun x m1 ht hc h1 => execSelfCheckEnd_passes ht hc h1,
    fun parts x m1 ht hc hp h1 hf => execSelfCheckEnd_third parts ht hc hp h1 hf, fun h item x m0 hh hseq hi => execSyncBulk_item hh hseq hi,
    fun h image gen x m0 hh hseq hr hp => execSyncBulk_config hh hseq image gen hr hp, fun d a b o r hd h => execClockMonitorWindow_early a b o r hd h,
    fun d a b o r hd h4 h => execClockMonitorWindow_eq a b o r hd h4 h, fun a b o r h => execClockMonitorWindow_time a b o r h, ?_, ?_⟩
  · intro t0 m0 m1 ht0 hnew h0 h1
    have hx : exec .fiddleheadBoundary s = s.becomes (if m1.serviceDue s.env then m1.enterService s.env else m1) := by
      subst ht0 h1 h0
      exact congrArg s.becomes (if_pos (gridFires_of hnew))
    exact ⟨hx, _, hx, rfl, rfl⟩
  · intro f hf hle
    exact congrArg s.becomes (if_neg (by simp [gridFires_past hf hle]))
  · intro h
    have hx : exec .cycleBoundary s = _ := State.actTime_eq s cycleBoundary
    rw [hx, cycleBoundary_waits h]
  · intro n b m1 m2 hr hf hs hn hb hle h1 h2
    subst hn hb h1 h2
    have hx : exec .cycleBoundary s = _ := State.actTime_eq s cycleBoundary
    rw [cycleBoundary_next hr hf hs hle] at hx
    exact ⟨hx, s.m.cycNum_cycleTurn _ (Nat.mod_lt _ (by decide)), rfl, _, hx, rfl, rfl⟩
  · intro hsh
    have hx : exec .unshadowed s = s.becomes (s.m.plUnshadow.openRecord 2 0x13) := congrArg s.becomes (if_pos hsh)
    have hp := s.m.plUnshadow.openRecord_posted 2 0x13
    refine ⟨hx, _, hx, ?_, hp.freeCount, rfl⟩
    change (s.m.plUnshadow.openRecord 2 0x13).pl.cyc.flags.testBit 1 = true
    rw [hp.pl]
    exact s.m.plUnshadow_marks
  · intro hsh
    exact congrArg s.becomes (if_neg (by simp [hsh]))
  · intro tk htk hnew
    have hx : exec .baseTick s = s.becomes (s.m.baseTick s.env tk) := by
      subst htk
      exact congrArg s.becomes (if_pos (gridFires_of hnew))
    exact ⟨hx, _, hx, rfl, rfl⟩
  · intro f hf hle
    exact congrArg s.becomes (if_neg (by simp [gridFires_past hf hle]))
  · intro h
    change execOutputInstant s = _
    rcases h with h | ⟨t, h, hlt⟩
    · simp [execOutputInstant, State.act, h]
    · simp [execOutputInstant, State.act, h, hlt]
  · intro t0 h hle
    have hx : exec .outputInstant s
        = s.becomes (({ s.m with str := { s.m.str with out := none } }.strOutput s.env).takeoverLive s.env) := by
      change execOutputInstant s = _
      simp [execOutputInstant, State.act, State.becomes, h, Nat.not_lt.mpr hle]
    exact ⟨hx, _, hx, rfl, rfl⟩
  · intro d a b o r old hd hlen h hold ha hb h5
    subst hold
    exact execClockMonitorWindow_in a b o r hd hlen h h5 ha hb
  · intro a b o r old hlen h hold hboth ha hb
    subst hold
    exact execClockMonitorWindow_aonFails a b o r hlen h hboth ha hb

end Sys2Proof.Machine
end

section
/-!
PROOFS. Discipline and holdover of the timebase, the pulse each second, the seconds AON keeps, and the switch of the 10 MHz reference.
-/
namespace Sys2Proof.Machine

/-! ### The effective source (R79) -/

theorem Mach.effSource_following (m : Mach) (e : Env) : (m.effSource e).time.following = m.follows e := by
  unfold Mach.effSource
  extract_lets f v
  split <;> rfl

theorem Mach.g_effSource_src (m : Mach) (e : Env) : (m.effSource e).g .TIME_STS_src_eff = if m.follows e then 4 else m.g .TIME_DISC_src := by
  have hlt : (if m.follows e then 4 else m.g .TIME_DISC_src) < 2 ^ fldWidth .TIME_STS_src_eff := by
    split
    · decide
    · exact m.g_lt .TIME_DISC_src
  unfold Mach.effSource
  extract_lets f v
  split
  · next h => exact h
  · exact (Mach.g_s_same _ (by decide) (by decide) _).trans (Nat.mod_eq_of_lt hlt)

/-! ### A measurement of the effective source (R80, R81) -/

theorem Mach.posted_qerrAll (m : Mach) (t : Timebase) : m.Posted (m.qerrAll t) := by
  unfold Mach.qerrAll
  refine iter_posted m fun k m' => ?_
  cases (m'.tpo k).next with
  | none => exact .refl m'
  | some n => exact m'.posted_s _ _

theorem Mach.qerrAll_time (m : Mach) (t : Timebase) : (m.qerrAll t).time = m.time := (m.posted_qerrAll t).time

/-- An increment put in force enters the history of increments; nothing else of the timebase's unit moves. -/
theorem setInc_time (i : Nat) (e : Env) (m : Mach) :
    (setInc i e m).2.time = { m.time with incHist := (e.ns, i) :: m.time.incHist, incDue := none } := by
  unfold setInc
  dsimp only
  rw [Mach.qerrAll_time]

theorem Mach.posted_setSlewing (m : Mach) (v : Bool) : m.Posted (m.setSlewing v) := by
  unfold Mach.setSlewing
  dsimp only
  refine .trans ?_ (Mach.posted_sb _ _ _)
  split
  · exact m.posted_setBit _ _ _
  · exact .refl m

theorem Mach.g_setSlewing (m : Mach) (v : Bool) : (m.setSlewing v).g .TIME_STS_slewing = if v then 1 else 0 :=
  Mach.g_sb_same _ (by decide) (by decide) v

/-- A measurement of a source that disciplines a valid timebase without a step: the increment asked for, within the slew rate. -/
theorem measurement_slews {off : Int} {unc freq want i : Nat} {e : Env} {m : Mach} (hsrc : m.srcFree = false) (hold : m.b .TIME_STS_hold = false)
    (hstep : m.time.step = none) (hvalid : m.b .TIME_STS_valid = true) (hallow : m.b .TIME_DISC_allow_step = false) (hwin : m.servoWindow e = true)
    (hi : i = (clampInt ((freq : Int) - slewLimit (m.g .TIME_SLEW_rate) freq) (freq + slewLimit (m.g .TIME_SLEW_rate) freq) want).toNat)
    (hok : incOk i = true) :
    measurement off unc freq want e m
      = ((setInc i e (m.measured e off unc)).1, (setInc i e (m.measured e off unc)).2.setSlewing (decide (4 < off.natAbs))) := by
  have hwin' : (m.measured e off unc).servoWindow e = true := hwin
  simp [measurement, hsrc, hold, hstep, hvalid, hallow, ← hi, hok, servoInc, hwin']

/-- A measurement of GNSS counts while the time solution is valid and no false signal is over. -/
theorem disciplineMeasurement_gnss {src sys : Int} {unc freq want : Nat} {e : Env} {m : Mach} (hsrc : m.g .TIME_STS_src_eff = 1) :
    disciplineMeasurement src sys unc freq want e m
      = if m.gnssValid then measurement ((e.ns : Int) - (src + sys + gpsToPtp)) unc freq want e m else (e.time, m) := by
  simp only [disciplineMeasurement, hsrc]

/-! ### Holdover (R82 to R85) -/

/-- Two timebases that differ in the increment only. -/
def Timebase.Steered (t t' : Timebase) : Prop := t' = { t with inc := t'.inc }

theorem servoInc_steers (i : Nat) (e : Env) (m : Mach) : e.time.Steered (servoInc i e m).1 := by
  unfold servoInc
  split <;> rfl

theorem servoInc_ok_steers (i : Nat) (e : Env) (m : Mach) : e.time.Steered (if incOk i then servoInc i e m else (e.time, m)).1 := by
  split
  · exact servoInc_steers i e m
  · rfl

/-- Entry to holdover: the timebase changes in its increment only, and holdover shows at time 0. -/
theorem holdEnter_due {e : Env} {m : Mach} (h : m.holdDue e = true) :
    ∃ (t : Timebase) (m1 : Mach) (e0 : Nat) (p : List Byte), e.time.Steered t
      ∧ holdEnter e m = (t, (((((m1.sb .TIME_STS_hold true).s .TIME_HOLD_TIME_t 0).s .TIME_HOLD_BOUND_bound e0).setBit Reg.TIME_IRQ_STS 16 true).event e
          0x1003 (some 3) p).anchor e 0) := by
  unfold holdEnter
  simp only [h, Bool.not_true, Bool.false_eq_true, if_false]
  exact ⟨_, _, _, _, servoInc_ok_steers _ _ _, rfl⟩

theorem holdEnter_early {e : Env} {m : Mach} (h : m.holdDue e = false) : holdEnter e m = (e.time, m) := by
  simp [holdEnter, h]

/-- The bound of a second in holdover whose limit has been told. -/
theorem Mach.holdBound_told {m : Mach} (hh : m.b .TIME_STS_hold = true) (ho : m.b .TIME_STS_bound_over = true) (hr : m.b .GEN_CLK_REF_ref_lost = false)
    (e : Env) :
    m.holdBound e = (m.s .TIME_HOLD_TIME_t (m.g .TIME_HOLD_TIME_t + 1)).s .TIME_HOLD_BOUND_bound
      (min (m.time.e0.getD 0 + m.g .TIME_HOLD_CFG_rate_ref * (m.g .TIME_HOLD_TIME_t + 1)) 0xFFFFFFFF) := by
  simp [Mach.holdBound, hh, ho, hr]

theorem Mach.holdExit_due {m : Mach} {e : Env} {r : Nat} (hh : m.b .TIME_STS_hold = true) (hr : m.time.runSince = some r) (hrun : r + 2000000000 ≤ e.ns)
    (hun : m.unbroken e = true) :
    m.holdExit e = ((((m.sb .TIME_STS_hold false).sb .TIME_STS_bound_over false).setBit Reg.TIME_IRQ_STS 16 true).event e 0x1004 (some 2)
      (le 4 (m.g .TIME_HOLD_TIME_t) ++ le 4 (ofInt 32 m.time.lastOff))).anchor e 0 := by
  simp [Mach.holdExit, hh, hr, hrun, hun]

/-! ### The pulse each second (R114) and the reference of TIME (R39) -/

theorem Mach.timePulse_reports (m : Mach) (e : Env) (n : Nat) (off : Option Int) (flags : Nat) :
    (m.timePulse e n off flags).time.ppsReported = some n ∧ (m.timePulse e n off flags).bit Reg.GNS_IRQ_STS 9 = true :=
  ⟨congrArg TimeSt.ppsReported (Mach.posted_event _ _ _ _ _).time, Mach.bit_setBit_same _ _ (by decide) _⟩

/-- The machine that has seen the validity of the internal reference and of REF_IN. -/
def Mach.refsSeen (m : Mach) (ocxo refIn : Bool) : Mach := (m.sb .GEN_CLK_REF_ocxo_ok ocxo).sb .GEN_CLK_REF_ref_in_ok refIn

/-- REF_SWITCH moves TIME at a second boundary only, and the baseband follows. -/
theorem execRefSwitch_eq (s : State) (ocxo refIn : Bool) :
    exec (.refSwitch ocxo refIn) s
      = s.becomes ((if s.env.time.secondStarts then (s.m.refsSeen ocxo refIn).refMoveTo else s.m.refsSeen ocxo refIn).gnsFollow s.env s.m.gnsRuns) := rfl

section
variable (m : Mach) (ocxo refIn : Bool)

theorem Mach.g_refsSeen :
    (m.refsSeen ocxo refIn).g .GEN_CLK_REF_ocxo_ok = (if ocxo then 1 else 0)
      ∧ (m.refsSeen ocxo refIn).g .GEN_CLK_REF_ref_in_ok = (if refIn then 1 else 0) :=
  ⟨(Mach.g_sb_beside _ (by decide) (by decide) (by decide) (by decide) _).trans (Mach.g_sb_same _ (by decide) (by decide) _),
    Mach.g_sb_same _ (by decide) (by decide) _⟩

/-- A field beside the validities of the references. -/
theorem Mach.g_refsSeen_beside {f : Fld} (hf : f.lo ≤ f.hi) (hi : 10 < f.lo ∨ f.hi < 10) (ho : 9 < f.lo ∨ f.hi < 9) :
    (m.refsSeen ocxo refIn).g f = m.g f :=
  (Mach.g_sb_beside _ (by decide) (by decide) hf hi _).trans (Mach.g_sb_beside _ (by decide) (by decide) hf ho _)

theorem Mach.b_refsSeen_sel : (m.refsSeen ocxo refIn).b .GEN_CLK_REF_ref_sel = m.b .GEN_CLK_REF_ref_sel :=
  congrArg (· != 0) (m.g_refsSeen_beside ocxo refIn (by decide) (by decide) (by decide))

theorem Mach.rd_refsSeen_other {off : Nat} (h : off ≠ Reg.GEN_CLK_REF) : (m.refsSeen ocxo refIn).rd off = m.rd off :=
  (Mach.rd_wr_other h _ _).trans (Mach.rd_wr_other h _ _)

/-- The validity of the preferred reference. -/
theorem Mach.refsSeen_valid :
    (m.refsSeen ocxo refIn).b (if (m.refsSeen ocxo refIn).b .GEN_CLK_REF_ref_sel then .GEN_CLK_REF_ref_in_ok else .GEN_CLK_REF_ocxo_ok)
      = if m.b .GEN_CLK_REF_ref_sel then refIn else ocxo := by
  obtain ⟨ho, hi⟩ := m.g_refsSeen ocxo refIn
  rw [m.b_refsSeen_sel]
  split
  · cases refIn <;> simp [Mach.b, hi]
  · cases ocxo <;> simp [Mach.b, ho]

/-- The baseband runs on a 10 MHz reference only. -/
theorem Mach.onPll_of_gnsRuns {m : Mach} (h : m.gnsRuns = true) : m.time.onPll = false := by
  simp only [Mach.gnsRuns, Bool.and_eq_true, Bool.not_eq_true'] at h
  exact h.1.2

end

/-- TIME moves to the preferred reference where that is valid. -/
theorem Mach.refMoveTo_preferred {m : Mach} (h : m.b (if m.b .GEN_CLK_REF_ref_sel then .GEN_CLK_REF_ref_in_ok else .GEN_CLK_REF_ocxo_ok) = true) :
    m.refMoveTo.regs = (m.sb .GEN_CLK_REF_ref_active (m.b .GEN_CLK_REF_ref_sel)).regs ∧ m.refMoveTo.time = { m.time with onPll := false }
      ∧ m.refMoveTo.clk = m.clk ∧ m.refMoveTo.gns = m.gns := by
  have hnext : m.refNext = some (m.b .GEN_CLK_REF_ref_sel) := by simp only [Mach.refNext, h, if_true]
  simp only [Mach.refMoveTo, hnext, Mach.sb_clk, Mach.sb_gns, and_self]

/-- Settles O23: the source, the increment and holdover move by their own conditions, and what they post leaves the timebase's unit alone. -/
theorem disciplineAndHoldover : Obligations.DisciplineAndHoldover := by
  intro s
  refine ⟨?_, ?_, ?_, ?_, ?_, ?_, ?_, ?_, ?_, ?_, ?_⟩
  · have hx : exec .effectiveSourceChange s = s.becomes (s.m.effSource s.env) := rfl
    refine ⟨_, hx, rfl, s.m.effSource_following s.env, fun hf => ?_, fun hf => ?_⟩
    · exact (s.m.g_effSource_src s.env).trans (if_pos hf)
    · exact (s.m.g_effSource_src s.env).trans (if_neg (by simp [hf]))
  · intro src sys off unc freq want hsrc hgnss hold hvalid hallow hstep hwin hoff i hi hok
    have hfree : s.m.srcFree = false := by simp [Mach.srcFree, hsrc]
    rw [← show gpsToPtp = 315964819000000000 from rfl] at hoff
    have hm : disciplineMeasurement src sys unc freq want s.env s.m = _ :=
      (disciplineMeasurement_gnss hsrc).trans ((if_pos hgnss).trans (measurement_slews hfree hold hstep hvalid hallow hwin hi hok))
    have hx : exec (.disciplineMeasurement src sys unc freq want) s = _ := State.actTime_eq s _
    rw [hm, ← hoff] at hx
    have htime := (Mach.posted_setSlewing (setInc i s.env (s.m.measured s.env off unc)).2 (decide (4 < off.natAbs))).time.trans (setInc_time i s.env _)
    refine ⟨_, hx, rfl, ?_, ?_, ?_⟩
    · exact (Mach.g_setSlewing _ _).trans (by simp only [decide_eq_true_eq])
    · exact congrArg TimeSt.lastMeas htime
    · exact congrArg TimeSt.lastOff htime
  · intro src sys unc freq want hsrc hbad
    have hgnss : s.m.gnssValid = false := by
      rcases hbad with h | h
      all_goals simp [Mach.gnssValid, h]
    have hx : exec (.disciplineMeasurement src sys unc freq want) s = _ := State.actTime_eq s _
    rw [hx, disciplineMeasurement_gnss hsrc, hgnss]
    rfl
  · intro hdue
    obtain ⟨t, m1, e0, p, ht, hm⟩ := holdEnter_due hdue
    have hx : exec .holdoverEntry s = _ := State.actTime_eq s holdEnter
    rw [hm] at hx
    refine ⟨_, hx, ?_, ?_, ht, rfl⟩
    · simp (disch := decide) only [Mach.g_anchor, Mach.g_event, Mach.g_setBit_other, Mach.g_s_other]
      exact Mach.g_sb_same _ (by decide) (by decide) true
    · simp (disch := decide) only [Mach.g_anchor, Mach.g_event, Mach.g_setBit_other, Mach.g_s_other]
      exact Mach.g_s_same _ (by decide) (by decide) 0
  · intro hdue
    have hx : exec .holdoverEntry s = _ := State.actTime_eq s holdEnter
    rw [hx, holdEnter_early hdue]
  · intro hh ho hr
    have hx : exec .holdBoundUpdate s = s.becomes (s.m.holdBound s.env) := rfl
    rw [Mach.holdBound_told hh ho hr] at hx
    refine ⟨_, hx, rfl, fun hlt => ?_, ?_⟩
    · rw [Mach.g_s_other (by decide), Mach.g_s_same _ (by decide) (by decide)]
      exact Nat.mod_eq_of_lt hlt
    · rw [Mach.g_s_same _ (by decide) (by decide)]
      exact Nat.mod_eq_of_lt (Nat.lt_of_le_of_lt (Nat.min_le_right _ _) (by decide))
  · intro r hh hr hrun hun
    have hx : exec .holdoverExit s = s.becomes (s.m.holdExit s.env) := rfl
    rw [Mach.holdExit_due hh hr hrun (decide_eq_true hun)] at hx
    refine ⟨_, hx, ?_, ?_, rfl⟩
    · simp (disch := decide) only [Mach.g_anchor, Mach.g_event, Mach.g_setBit_other, Mach.g_sb_beside]
      exact Mach.g_sb_same _ (by decide) (by decide) false
    · simp (disch := decide) only [Mach.g_anchor, Mach.g_event, Mach.g_setBit_other]
      exact Mach.g_sb_same _ (by decide) (by decide) false
  · intro off n hn hrole hrep hlo hhi
    have hx : exec (.timePulse off) s = s.becomes (s.m.timePulse s.env n off 0) := by
      change execTimePulse off s = _
      simp [execTimePulse, State.act, State.becomes, hn, hrole, hrep, hlo, hhi]
    obtain ⟨hp, hb⟩ := s.m.timePulse_reports s.env n off 0
    exact ⟨_, hx, hp, hb, rfl⟩
  · intro hvalid haon
    have hx : exec .aonCopy s = s.becomes { s.m with time := { s.m.time with aon := s.env.time.sec, aonValid := true } } :=
      congrArg s.becomes (if_pos (by simp [hvalid, haon]))
    exact ⟨_, hx, rfl, rfl, rfl, rfl⟩
  · intro a b hsec hok hruns
    obtain ⟨hregs, htime, hclk, hgns⟩ := Mach.refMoveTo_preferred ((s.m.refsSeen_valid a b).trans hok)
    have hpll : (s.m.refsSeen a b).refMoveTo.time.onPll = false := congrArg TimeSt.onPll htime
    have hkeep : (s.m.refsSeen a b).refMoveTo.gnsRuns = s.m.gnsRuns :=
      Mach.gnsRuns_of (by simp only [Mach.clkFailed, hclk]; rfl) (hpll.trans (Mach.onPll_of_gnsRuns hruns).symm) (congrArg Gns.stopped hgns)
    have hx := execRefSwitch_eq s a b
    rw [if_pos hsec, Mach.gnsFollow_same hkeep] at hx
    refine ⟨_, hx, ?_, hpll, ?_, ?_, fun off ho => ?_⟩
    · rw [s.m.g_eq_flag (by decide), ← s.m.b_refsSeen_sel a b]
      exact (Mach.g_regs hregs _).trans (Mach.g_sb_same _ (by decide) (by decide) _)
    · rw [← (s.m.g_refsSeen a b).1]
      exact (Mach.g_regs hregs _).trans (Mach.g_sb_beside _ (by decide) (by decide) (by decide) (by decide) _)
    · rw [← (s.m.g_refsSeen a b).2]
      exact (Mach.g_regs hregs _).trans (Mach.g_sb_beside _ (by decide) (by decide) (by decide) (by decide) _)
    · rw [← s.m.rd_refsSeen_other a b ho]
      exact (Mach.rd_regs hregs _).trans (Mach.rd_wr_other ho _ _)
  · intro a b hsec hruns
    have hkeep : (s.m.refsSeen a b).gnsRuns = s.m.gnsRuns := rfl
    have hx := execRefSwitch_eq s a b
    rw [if_neg (by simp [hsec]), Mach.gnsFollow_same hkeep] at hx
    exact ⟨_, hx, s.m.g_refsSeen_beside a b (by decide) (by decide) (by decide), rfl⟩

end Sys2Proof.Machine
end

section
/-!
PROOFS. What happens in a cycle of the law: assembly, dispatch, the release instant, a skip, the manual feed, and the end of a solve.
-/
namespace Sys2Proof.Machine

/-! ### What leaves the cycle of the law alone -/

/-- A machine whose release instant is that of another: the stage, the planned instant and the cycle overtaken of the law, and what tells whether the module
shadows. -/
structure Mach.KeepsCycle (m m' : Mach) : Prop where
  sts : m'.rd Reg.STK_STS = m.rd Reg.STK_STS
  sync : m'.stk.sync = m.stk.sync
  stage : m'.pl.stage = m.pl.stage
  planned : m'.pl.planned = m.pl.planned
  ahead : m'.pl.ahead = m.pl.ahead

theorem Mach.KeepsCycle.refl (m : Mach) : m.KeepsCycle m := ⟨rfl, rfl, rfl, rfl, rfl⟩

theorem Mach.KeepsCycle.trans {a b c : Mach} (h : a.KeepsCycle b) (h' : b.KeepsCycle c) : a.KeepsCycle c where
  sts := h'.sts.trans h.sts
  sync := h'.sync.trans h.sync
  stage := h'.stage.trans h.stage
  planned := h'.planned.trans h.planned
  ahead := h'.ahead.trans h.ahead

theorem Mach.KeepsCycle.shadows {m m' : Mach} (h : m.KeepsCycle m') : m'.shadows = m.shadows := by
  have hrole : m'.g .STK_STS_role = m.g .STK_STS_role := Mach.g_congr h.sts
  simp only [Mach.shadows, hrole, h.sync]

/-- What posts and leaves the registers outside the host interface and the recorder alone. -/
theorem Mach.Posted.keepsCycle {m m' : Mach} (h : m.Posted m') (hr : m.alike m') : m.KeepsCycle m' where
  sts := hr _ (by decide)
  sync := congrArg Stk.sync h.stk
  stage := congrArg Pl.stage h.pl
  planned := congrArg Pl.planned h.pl
  ahead := congrArg Pl.ahead h.pl

section
variable (m : Mach)

theorem Mach.keepsCycle_wr {off : Nat} (h : Reg.STK_STS ≠ off) (v : Word) : m.KeepsCycle (m.wr off v) := ⟨Mach.rd_wr_other h m v, rfl, rfl, rfl, rfl⟩
theorem Mach.keepsCycle_s {f : Fld} (h : Reg.STK_STS ≠ f.off) (v : Nat) : m.KeepsCycle (m.s f v) := m.keepsCycle_wr h _
theorem Mach.keepsCycle_sb {f : Fld} (h : Reg.STK_STS ≠ f.off) (v : Bool) : m.KeepsCycle (m.sb f v) := m.keepsCycle_wr h _
theorem Mach.keepsCycle_up {f : Fld} (h : Reg.STK_STS ≠ f.off) : m.KeepsCycle (m.up f) := m.keepsCycle_wr h _
theorem Mach.keepsCycle_plIrq (i : Nat) : m.KeepsCycle (m.plIrq i) :=
  m.keepsCycle_wr (show Reg.STK_STS ≠ Reg.STR_PL_IRQ_STS by decide) _

theorem Mach.keepsCycle_event (e : Env) (code : Nat) (psev : Option Nat) (p : List Byte) : m.KeepsCycle (m.event e code psev p) :=
  (m.posted_event e code psev p).keepsCycle (Mach.alike_event (Mach.alike_refl m) e code psev p)

theorem Mach.keepsCycle_record (r : PeatRec) : m.KeepsCycle (m.record r) := (m.posted_record r).keepsCycle (Mach.alike_record (Mach.alike_refl m) r)

theorem Mach.keepsCycle_linkSend (typ dest : Nat) (p : List Byte) : m.KeepsCycle (m.linkSend typ dest p) where
  sts := Mach.rd_regs (m.linkSend_regs typ dest p) _
  sync := m.linkSend_sync typ dest p
  stage := congrArg Pl.stage (m.linkSend_pl typ dest p)
  planned := congrArg Pl.planned (m.linkSend_pl typ dest p)
  ahead := congrArg Pl.ahead (m.linkSend_pl typ dest p)

theorem foldl_keepsCycle {α : Type} {f : Mach → α → Mach} (hf : ∀ m a, Mach.KeepsCycle m (f m a)) (l : List α) : m.KeepsCycle (l.foldl f m) := by
  induction l generalizing m with
  | nil => exact .refl m
  | cons a l ih => exact (hf m a).trans (ih _)

theorem Mach.keepsCycle_strLawSet (t : Nat) (ht : t < 64) (v : Word) : m.KeepsCycle (m.strLawSet t v) := by
  unfold Mach.strLawSet
  split
  · exact ⟨rfl, rfl, rfl, rfl, rfl⟩
  · exact m.keepsCycle_up (by simp only [Fld.STR_Ss_CNT1_sp_late, Reg.STK_STS]; omega)

theorem Mach.keepsCycle_canPut {c o : Nat} (h : Reg.STK_STS ≠ Reg.CAN_c_OBJo_CFG c o) (off : Nat) (b : List Byte) : m.KeepsCycle (m.canPut c o off b) := by
  unfold Mach.canPut
  split
  · exact .refl m
  · dsimp only
    generalize hobj : m.setObj c o _ = m1
    have h1 : m.KeepsCycle m1 := hobj ▸ ⟨rfl, rfl, rfl, rfl, rfl⟩
    have h2 := h1.trans (m1.keepsCycle_sb (f := .CAN_c_OBJo_CFG_pending c o) h true)
    split
    · split
      · exact h2.trans ⟨rfl, rfl, rfl, rfl, rfl⟩
      · exact h2
    · exact h2

theorem Mach.keepsCycle_plRemote (at_ : Nat) (sets : List (Nat × ThrSet)) : m.KeepsCycle (m.plRemote at_ sets) := by
  unfold Mach.plRemote
  split
  · exact .refl m
  · refine foldl_keepsCycle m (fun m x => ?_) _
    split
    · split
      · exact m.keepsCycle_linkSend _ _ _
      · exact .refl m
    · exact .refl m

theorem Mach.keepsCycle_plDrive (sets : List (Nat × ThrSet)) : m.KeepsCycle (m.plDrive sets) := by
  unfold Mach.plDrive
  refine foldl_keepsCycle m (fun m x => ?_) _
  split
  · dsimp only
    split
    · split
      · exact m.keepsCycle_strLawSet _ (Nat.mod_lt _ (by decide)) _
      · exact .refl m
    · split
      · exact m.keepsCycle_canPut (by simp only [Reg.CAN_c_OBJo_CFG, Reg.STK_STS]; omega) _ _
      · exact .refl m
  · exact .refl m

/-- The registers of released set-points lie off the status of the stack, whatever thruster they name. -/
theorem Mach.keepsCycle_plShow (sets : List (Nat × ThrSet)) : m.KeepsCycle (m.plShow sets) := by
  unfold Mach.plShow
  dsimp only
  generalize hfold : sets.foldl _ m = m1
  have h1 : m.KeepsCycle m1 := by
    rw [← hfold]
    refine foldl_keepsCycle m (fun m p => ?_) _
    have hcmd : m.KeepsCycle ({ m with pl := { m.pl with rel := upd m.pl.rel p.1 fun _ => p.2 } }.wr (Reg.STR_PL_THRi_CMD p.1) p.2.thrust) := by
      refine .trans ?_ (Mach.keepsCycle_wr _ (off := Reg.STR_PL_THRi_CMD p.1) (by simp only [Reg.STR_PL_THRi_CMD, Reg.STK_STS]; omega) _)
      exact ⟨rfl, rfl, rfl, rfl, rfl⟩
    split
    · exact hcmd.trans (Mach.keepsCycle_wr _ (by simp only [Reg.STR_PL_THRi_AZ, Reg.STK_STS]; omega) _)
    · exact hcmd
  exact ((h1.trans (Mach.keepsCycle_wr _ (by decide) _)).trans (Mach.keepsCycle_wr _ (by decide) _)).trans (Mach.keepsCycle_wr _ (by decide) _)

theorem Mach.keepsCycle_plOut (r : Nat) (gens : List Nat) (ahead base : List (Nat × ThrSet)) : m.KeepsCycle (m.plOut r gens ahead base) := by
  unfold Mach.plOut
  dsimp only
  have h := ((m.keepsCycle_plRemote r ((m.plTripped gens base).filter fun p => !ahead.contains p)).trans (Mach.keepsCycle_plDrive _ (m.plTripped gens base))).trans
    (Mach.keepsCycle_plShow _ (m.plTripped gens base))
  split
  · exact h.trans (Mach.keepsCycle_sb _ (by decide) _)
  · exact h

theorem Mach.keepsCycle_plLag (lam : Nat) : m.KeepsCycle (m.plLag lam) := by
  unfold Mach.plLag
  extract_lets q _ m1
  have h1 : m.KeepsCycle m1 := ⟨rfl, rfl, rfl, rfl, rfl⟩
  exact (h1.trans (m1.keepsCycle_s (f := .STR_PL_LAG_lag) (by decide) _)).trans (Mach.keepsCycle_s _ (f := .STR_PL_LAG_releases) (by decide) _)

theorem Mach.keepsCycle_taken (n : Nat) : m.KeepsCycle { m with pl := { m.pl with taken := n } } := ⟨rfl, rfl, rfl, rfl, rfl⟩

theorem Mach.keepsCycle_plCatch (e : Env) (r t0 plan late num : Nat) : m.KeepsCycle (m.plCatch e r t0 plan late num) := by
  unfold Mach.plCatch
  extract_lets lam m1
  have h1 : m.KeepsCycle m1 := m.keepsCycle_plLag lam
  have h2 : m.KeepsCycle { m1 with pl := { m1.pl with taken := m.pl.taken + 1 } } := h1.trans (m1.keepsCycle_taken _)
  split
  · have h3 := h1.trans (m1.keepsCycle_taken (if m.b .STR_PL_STS_catchup then m.pl.taken + 1 else 1))
    exact (((h3.trans (Mach.keepsCycle_sb _ (f := .STR_PL_STS_catchup) (by decide) true)).trans
      (Mach.keepsCycle_up _ (f := .STR_PL_CNT_overruns) (by decide))).trans (Mach.keepsCycle_event _ _ _ _ _)).trans (Mach.keepsCycle_plIrq _ _)
  · split
    · split
      · exact ((h2.trans (Mach.keepsCycle_sb _ (f := .STR_PL_STS_catchup) (by decide) false)).trans (Mach.keepsCycle_event _ _ _ _ _)).trans
          (Mach.keepsCycle_plIrq _ _)
      · exact h2
    · exact h1

theorem Mach.keepsCycle_tailPut (c : CycleRec) : m.KeepsCycle (m.tailPut c) := by
  unfold Mach.tailPut
  dsimp only
  split
  · exact (m.keepsCycle_record _).trans ⟨rfl, rfl, rfl, rfl, rfl⟩
  · exact ⟨rfl, rfl, rfl, rfl, rfl⟩

theorem Mach.keepsCycle_digestSend (c : CycleRec) : m.KeepsCycle (m.digestSend c) := by
  unfold Mach.digestSend
  split
  · exact m.keepsCycle_linkSend _ _ _
  · exact .refl m

end

/-! ### Assembly and dispatch (R22, R289, R290) -/

/-- Outside FALLBACK the problem of a cycle is submitted with its deadline as assembly ends. -/
theorem Mach.plAssemble_submits {m m1 : Mach} {e : Env} {phase : Nat} {q : Qp} (hs : m.pl.stage = 1) (hr : m.onReduced = false) (ht : m.plT ≠ 0)
    (h1 : m1 = { m with pl := { m.pl with
      stage := 2, late := if m.pl.late.isNone && decide (m.pl.t0 + 3000000 + m.pl.plan < e.ns) then some 1 else m.pl.late } })
    (hf : m1.b .STR_PL_STS_fallback = false) (hq : m1.plProblem = some q) :
    m.plAssemble e phase
      = m1.slvSubmit e ⟨0, true, q, some ((e.ns + m.g .STR_PL_TIMING_budget * 50000 * m.pl.h0 / m.plT) / 8 % 2 ^ 32), none, 0⟩ phase := by
  unfold Mach.plAssemble
  rw [if_neg (by simp [hs, hr, ht])]
  dsimp only
  rw [← h1, hf, if_neg Bool.false_ne_true, hq]

theorem execDispatchComplete_staged {s : State} {m1 : Mach} (hs : s.m.pl.stage = 3) (hr : s.m.onReduced = false) (h1 : m1 = s.m.plStage4 s.env) :
    exec .dispatchComplete s
      = s.becomes (let m2 := m1.plAnnounce (if m1.pl.due then m1.nextTick s.env else m1.pl.planned)
        if m2.pl.waits then (m2.plYield s.env).plStart s.env (m2.grid.next - m2.plT) else m2) := by
  subst h1
  exact congrArg s.becomes (if_neg (by simp [hs, hr]))

theorem Mach.plAnnounce_pl (m : Mach) (at_ : Nat) : (m.plAnnounce at_).pl = m.pl := by
  unfold Mach.plAnnounce
  split
  · exact m.linkSend_pl _ _ _
  · rfl

/-! ### The release instant (R23, R24, R290) -/

theorem Mach.plOverInstant_none {m : Mach} (h : m.pl.ahead = none) (e : Env) : m.plOverInstant e = m := by
  simp only [Mach.plOverInstant, h]

/-- On a module that does not shadow the release instant is the planned one. -/
theorem Mach.plAt_planned {m : Mach} (h : m.shadows = false) : m.plAt = some m.pl.planned := by
  simp [Mach.plAt, h]

theorem Mach.plAt_unannounced {m : Mach} (h : m.shadows = true) (ha : m.pl.announced = none) : m.plAt = none := by
  simp [Mach.plAt, h, ha]

section
variable {m : Mach} {e : Env} (hlo : 1 ≤ m.pl.stage) (hhi : m.pl.stage ≤ 4)
include hlo hhi

/-- Before its instant, or without one, a cycle is not released. -/
theorem Mach.plInstant_early (h : ∀ r, m.plAt = some r → e.ns < r) : m.plInstant e = m := by
  unfold Mach.plInstant
  rw [if_neg (by omega)]
  split
  · rfl
  · split
    · next r hr => exact if_pos (h r hr)
    · rfl

/-- At its instant a staged cycle is released, and one that is not ready is missed. -/
theorem Mach.plInstant_due {r : Nat} (hd : m.pl.due = false) (hr : m.plAt = some r) (hle : r ≤ e.ns) :
    m.plInstant e = if m.pl.stage = 4 then m.plRelease e r else m.plMiss := by
  unfold Mach.plInstant
  rw [if_neg (by omega), if_neg (by simp [hd]; omega), hr]
  exact if_neg (Nat.not_lt.mpr hle)

end

theorem execReleaseInstant_eq {s : State} (hr : s.m.onReduced = false) : exec .releaseInstant s = s.becomes ((s.m.plOverInstant s.env).plInstant s.env) :=
  congrArg s.becomes (if_neg (by simp [hr]))

theorem Mach.digestSend_pl (m : Mach) (c : CycleRec) : (m.digestSend c).pl = m.pl := by
  unfold Mach.digestSend
  split
  · exact m.linkSend_pl _ _ _
  · rfl

theorem Mach.digestSend_regs (m : Mach) (c : CycleRec) : (m.digestSend c).regs = m.regs := by
  unfold Mach.digestSend
  split
  · exact m.linkSend_regs _ _ _
  · rfl

/-- A release leaves its cycle in the last stage, with nothing due. -/
theorem Mach.plRelease_ends (m : Mach) (e : Env) (r : Nat) : (m.plRelease e r).pl.stage = 5 ∧ (m.plRelease e r).pl.due = false := by
  unfold Mach.plRelease
  extract_lets m2 m3 _ m4
  have h4 : m4.pl.stage = 5 ∧ m4.pl.due = false := ⟨rfl, rfl⟩
  split
  · exact h4
  · unfold Mach.plDigest
    rw [Mach.digestSend_pl]
    exact h4

/-- A cycle that is missed is due at a base tick, in the stage it had reached. -/
theorem Mach.plMiss_due {m : Mach} (h : m.shadows = false) :
    m.plMiss.pl.due = true ∧ m.plMiss.pl.late.isSome = true ∧ m.plMiss.pl.stage = m.pl.stage ∧ m.plMiss.regs = m.regs := by
  simp [Mach.plMiss, h]

/-! ### The release of a cycle that its successor has overtaken (R289, R290) -/

/-- The machine as a cycle overtaken is released, before its record waits for its comparison. -/
def Mach.overShown (m : Mach) (e : Env) (o : PlOver) (r : Nat) : Mach :=
  (({ m with pl := { m.pl with ahead := none } }.plOut r (o.tripped ++ m.pl.tripped) o.sets o.sets).plCatch e r o.t0 o.plan o.late o.cyc.num).plIrq 13

theorem Mach.plReleaseOver_eq (m : Mach) (e : Env) (o : PlOver) (r : Nat) :
    m.plReleaseOver e o r = ((m.overShown e o r).tailPut ((m.overShown e o r).plFormed o.cyc r)).digestSend ((m.overShown e o r).plFormed o.cyc r) := rfl

/-- The release of a cycle overtaken leaves the cycle in work alone. -/
theorem Mach.keepsCycle_plReleaseOver (m : Mach) (e : Env) (o : PlOver) (r : Nat) :
    ({ m with pl := { m.pl with ahead := none } } : Mach).KeepsCycle (m.plReleaseOver e o r) := by
  rw [Mach.plReleaseOver_eq]
  have hshown : ({ m with pl := { m.pl with ahead := none } } : Mach).KeepsCycle (m.overShown e o r) :=
    ((Mach.keepsCycle_plOut _ _ _ _ _).trans (Mach.keepsCycle_plCatch _ _ _ _ _ _ _)).trans (Mach.keepsCycle_plIrq _ _)
  exact (hshown.trans (Mach.keepsCycle_tailPut _ _)).trans (Mach.keepsCycle_digestSend _ _)

theorem Mach.alike_tailPut (m : Mach) (c : CycleRec) : m.alike (m.tailPut c) := by
  unfold Mach.tailPut
  dsimp only
  split
  · exact Mach.alike_trans (Mach.alike_record (Mach.alike_refl m) _) (Mach.alike_regs rfl)
  · exact Mach.alike_regs rfl

/-- The release of a cycle overtaken is told. -/
theorem Mach.bit_plReleaseOver (m : Mach) (e : Env) (o : PlOver) (r : Nat) : (m.plReleaseOver e o r).bit Reg.STR_PL_IRQ_STS 13 = true := by
  rw [Mach.plReleaseOver_eq]
  have hfar : ((((m.overShown e o r).tailPut ((m.overShown e o r).plFormed o.cyc r)).digestSend ((m.overShown e o r).plFormed o.cyc r)).g
      ⟨Reg.STR_PL_IRQ_STS, 13, 13⟩) = (m.overShown e o r).g ⟨Reg.STR_PL_IRQ_STS, 13, 13⟩ :=
    (Mach.g_regs (Mach.digestSend_regs _ _) _).trans ((Mach.alike_tailPut _ _).g (by decide))
  unfold Mach.bit
  rw [hfar]
  exact Mach.bit_setBit_same _ Reg.STR_PL_IRQ_STS (by decide) true

theorem Mach.plOverInstant_due {m : Mach} {e : Env} {o : PlOver} (h : m.pl.ahead = some o) (hd : o.due = false) (hs : m.shadows = false)
    (hle : o.at_ ≤ e.ns) : m.plOverInstant e = m.plReleaseOver e o o.at_ := by
  simp [Mach.plOverInstant, h, hd, hs, hle]

/-! ### Skips, the manual feed and the end of a solve (R289, R291, R321) -/

/-- Without commands that wait a boundary changes none of the law. -/
theorem Mach.plApplyAll_nil {m : Mach} (h : m.pl.pend = []) (e : Env) : m.plApplyAll e = m := by
  have hpend : { m.pl with pend := [] } = m.pl := by rw [← h]
  simp [Mach.plApplyAll, h, hpend]

/-- A skip as it is told. -/
def Mach.skipTold (m : Mach) (e : Env) : Mach :=
  (((m.sb .STR_PL_STS_skip true).up .STR_PL_CNT_skips).event e 0x5004 (some 4) (le 8 m.cycNum)).plIrq 3

theorem Mach.skipTold_shows (m : Mach) (e : Env) :
    (m.skipTold e).pl = m.pl ∧ (m.skipTold e).g .STR_PL_STS_skip = 1 ∧ (m.skipTold e).bit Reg.STR_PL_IRQ_STS 3 = true := by
  have hpost : m.Posted (m.skipTold e) :=
    (((m.posted_sb _ _).trans (Mach.posted_up _ _)).trans (Mach.posted_event _ _ _ _ _)).trans (Mach.posted_setBit _ _ _ _)
  refine ⟨hpost.pl, ?_, Mach.bit_setBit_same _ _ (by decide) true⟩
  calc (m.skipTold e).g .STR_PL_STS_skip = (((m.sb .STR_PL_STS_skip true).up .STR_PL_CNT_skips).event e 0x5004 (some 4) (le 8 m.cycNum)).g .STR_PL_STS_skip :=
        Mach.g_setBit_other _ (by decide) _ _
    _ = ((m.sb .STR_PL_STS_skip true).up .STR_PL_CNT_skips).g .STR_PL_STS_skip := Mach.g_event _ _ _ _ _ (by decide)
    _ = (m.sb .STR_PL_STS_skip true).g .STR_PL_STS_skip := Mach.g_up_other _ (by decide)
    _ = 1 := Mach.g_sb_same _ (by decide) (by decide) true

/-- The machine whose boundary waits for no dispatch. -/
def Mach.waitless (m : Mach) : Mach := { m with pl := { m.pl with waits := false } }

theorem Mach.waitless_waits (m : Mach) : m.waitless.pl.waits = false := rfl
theorem Mach.waitless_pend (m : Mach) : m.waitless.pl.pend = m.pl.pend := rfl
theorem Mach.g_waitless (m : Mach) (f : Fld) : m.waitless.g f = m.g f := rfl

/-- A skip that no command waits for is told and recorded, and waits no longer. -/
theorem execCycleSkip_due {s : State} (hw : s.m.pl.waits = true) (hle : s.m.grid.next - s.m.plT + s.m.plT / 4 ≤ s.env.ns) (hp : s.m.pl.pend = []) :
    ∃ r : PeatRec, exec .cycleSkip s = s.becomes ((s.m.skipTold s.env).waitless.record r) := by
  have hx : ∃ r : PeatRec, execCycleSkip s = s.becomes (((s.m.skipTold s.env).waitless.record r).plApplyAll s.env) := by
    unfold execCycleSkip State.act Mach.waitless Mach.skipTold
    dsimp only
    rw [if_neg (by simp [hw, Nat.not_lt.mpr hle])]
    exact ⟨_, rfl⟩
  obtain ⟨r, hx⟩ := hx
  have hpend : ((s.m.skipTold s.env).waitless.record r).pl.pend = [] := calc
    ((s.m.skipTold s.env).waitless.record r).pl.pend = (s.m.skipTold s.env).waitless.pl.pend := congrArg Pl.pend (Mach.posted_record _ r).pl
    _ = (s.m.skipTold s.env).pl.pend := Mach.waitless_pend _
    _ = s.m.pl.pend := congrArg Pl.pend (s.m.skipTold_shows s.env).1
    _ = [] := hp
  exact ⟨r, hx.trans (congrArg s.becomes (Mach.plApplyAll_nil hpend s.env))⟩

/-- Settles O35: each happening of a cycle does its part at its instant, and before it nothing. -/
theorem lawHappenings : Obligations.LawHappenings := by
  intro s
  refine ⟨?_, ?_, ?_, ?_, ?_, ?_, ?_, ?_, ?_, ?_, ?_⟩
  · intro phase late q m1 hs hr ht hlate h1 hf hq
    subst hlate
    exact congrArg s.becomes (Mach.plAssemble_submits hs hr ht h1 hf hq)
  · intro hs
    exact congrArg s.becomes (if_pos (by simp [hs]))
  · intro m1 hs hr h1 hw
    rw [execDispatchComplete_staged hs hr h1]
    exact congrArg s.becomes (if_neg (by simp [Mach.plAnnounce_pl, hw]))
  · intro m1 m2 hs hr h1 h2 hw
    subst h2
    rw [execDispatchComplete_staged hs hr h1]
    exact congrArg s.becomes (if_pos hw)
  · intro hs hr hd hsh ha
    have hx := execReleaseInstant_eq hr
    rw [Mach.plOverInstant_none ha] at hx
    refine ⟨fun hle => ?_, fun hlt => ?_⟩
    · rw [Mach.plInstant_due (by omega) (by omega) hd (Mach.plAt_planned hsh) hle, if_pos hs] at hx
      exact ⟨hx, _, hx, s.m.plRelease_ends s.env _⟩
    · rw [Mach.plInstant_early (by omega) (by omega) (by simp [Mach.plAt_planned hsh, hlt])] at hx
      exact hx
  · intro hr hlo hhi hd hsh ha hle
    have hx := execReleaseInstant_eq hr
    rw [Mach.plOverInstant_none ha, Mach.plInstant_due hlo (by omega) hd (Mach.plAt_planned hsh) hle, if_neg (by omega)] at hx
    exact ⟨_, hx, Mach.plMiss_due hsh⟩
  · intro o hr hsh ha hd hle hlo hhi hlt
    have hk := s.m.keepsCycle_plReleaseOver s.env o o.at_
    have hstage : (s.m.plReleaseOver s.env o o.at_).pl.stage = s.m.pl.stage := hk.stage
    have hat : (s.m.plReleaseOver s.env o o.at_).plAt = some s.m.pl.planned :=
      (Mach.plAt_planned (hk.shadows.trans hsh)).trans (congrArg some hk.planned)
    have hx := execReleaseInstant_eq hr
    rw [Mach.plOverInstant_due ha hd hsh hle, Mach.plInstant_early (by omega) (by omega) (by simp [hat, hlt])] at hx
    exact ⟨hx, _, hx, hk.ahead, hstage, s.m.bit_plReleaseOver s.env o _⟩
  · intro hr hsh ha han hlo hhi
    have hx := execReleaseInstant_eq hr
    rw [Mach.plOverInstant_none ha, Mach.plInstant_early hlo hhi (by simp [Mach.plAt_unannounced hsh han])] at hx
    exact hx
  · intro hw
    refine ⟨fun hle hp => ?_, fun hlt => ?_⟩
    · obtain ⟨r, hx⟩ := execCycleSkip_due hw hle hp
      obtain ⟨-, hskip, hirq⟩ := s.m.skipTold_shows s.env
      have hr := Mach.alike_record (Mach.alike_refl (s.m.skipTold s.env).waitless) r
      refine ⟨_, hx, (congrArg Pl.waits (Mach.posted_record _ r).pl).trans (Mach.waitless_waits _), ?_, ?_⟩
      · rw [hr.g (by decide), Mach.g_waitless, hskip]
      · rwa [Mach.bit, hr.g (by decide), Mach.g_waitless]
    · exact congrArg s.becomes (if_pos (by simp [hlt]))
  · intro hm hs hle
    have hx : exec .plManualTmo s = s.becomes (((s.m.sb .STR_PL_STS_manual_stale true).event s.env 0x500B (some 3) [1]).plIrq 10) :=
      congrArg s.becomes (if_neg (by simp [hm, hs, hle]))
    refine ⟨hx, _, hx, ?_, Mach.bit_setBit_same _ _ (by decide) true⟩
    exact (Mach.g_setBit_other _ (by decide) _ _).trans ((Mach.g_event _ _ _ _ _ (by decide)).trans (Mach.g_sb_same _ (by decide) (by decide) true))
  · intro r st x hrun hend hx
    subst hx
    change execBrackenSolveEnd s = _
    simp only [execBrackenSolveEnd, State.act, hrun, hend]
    rfl

end Sys2Proof.Machine
end

section
/-!
PROOFS. One TIME cycle, and what moves the timebase besides: an increment, a step, and the commands that ask for them.
-/
namespace Sys2Proof.Machine

/-- Settles O7: what every command keeps of the state names both. -/
theorem onlyNamedCommandsMoveTimeOrVault : Obligations.OnlyNamedCommandsMoveTimeOrVault := by
  intro c s t h
  have hc := exec_ends c s
  rw [h, Ends.next_iff] at hc
  exact ⟨hc.time_eq, hc.vault_eq⟩

/-! ### One TIME cycle (R50) -/

/-- Without a carry the increment is added to nanoseconds and fraction taken together. -/
theorem Timebase.tick_within {t : Timebase} {total : Nat} (ht : total = t.ns * 2 ^ 32 + t.frac + t.inc) (h : total < 1000000000 * 2 ^ 32) :
    t.tick = ⟨t.sec, total / 2 ^ 32, total % 2 ^ 32, t.inc⟩ := by
  subst ht
  exact if_neg (by omega)

/-- With a carry the seconds count, and a second less is left of nanoseconds and fraction. -/
theorem Timebase.tick_carries {t : Timebase} {total : Nat} (ht : total = t.ns * 2 ^ 32 + t.frac + t.inc) (h : 1000000000 * 2 ^ 32 ≤ total) :
    t.tick = ⟨(t.sec + 1) % 2 ^ 48, total / 2 ^ 32 - 1000000000, total % 2 ^ 32, t.inc⟩ := by
  subst ht
  exact if_pos (by omega)

/-- What one TIME cycle makes of a timebase in range. -/
structure Timebase.Ticked (t u : Timebase) : Prop where
  ok : u.ok
  inc : u.inc = t.inc
  within : t.ns * 2 ^ 32 + t.frac + t.inc < 1000000000 * 2 ^ 32 → u.ns * 2 ^ 32 + u.frac = t.ns * 2 ^ 32 + t.frac + t.inc ∧ u.sec = t.sec
  carries : 1000000000 * 2 ^ 32 ≤ t.ns * 2 ^ 32 + t.frac + t.inc →
    (u.ns + 1000000000) * 2 ^ 32 + u.frac = t.ns * 2 ^ 32 + t.frac + t.inc ∧ u.sec = (t.sec + 1) % 2 ^ 48

theorem Timebase.ticked {t : Timebase} (h : t.ok) : t.Ticked t.tick := by
  have hok := Timebase.tick_ok h
  rcases Nat.lt_or_ge (t.ns * 2 ^ 32 + t.frac + t.inc) (1000000000 * 2 ^ 32) with hlt | hge
  · rw [Timebase.tick_within rfl hlt] at hok ⊢
    exact ⟨hok, rfl, fun _ => ⟨by dsimp only; omega, rfl⟩, fun hge => absurd hlt (Nat.not_lt.mpr hge)⟩
  · rw [Timebase.tick_carries rfl hge] at hok ⊢
    exact ⟨hok, rfl, fun hlt => absurd hlt (Nat.not_lt.mpr hge), fun _ => ⟨by dsimp only; omega, rfl⟩⟩

theorem State.idle_runs {s : State} (h : 2 ≤ s.m.state) :
    s.idle = { s with env := { s.env with time := s.env.time.tick, powered := s.env.powered + 1 } } := if_neg (Nat.not_lt.mpr h)

/-- On a module that is not in OFF or SLEEP an idle step is one TIME cycle. -/
theorem step_idle {s : State} (hp : s.pending = []) (hm : 2 ≤ s.m.state) (hs : s.Inv) :
    ∃ u : Timebase, s.env.time.Ticked u ∧ step s = .next { s with env := { s.env with time := u, powered := s.env.powered + 1 } } := by
  refine ⟨_, Timebase.ticked hs, ?_⟩
  rw [← State.idle_runs hm, step, hp]

/-- Settles O2: an idle step is the tick of the timebase, which keeps it in range. -/
theorem idleStepIsOneTimeCycle : Obligations.IdleStepIsOneTimeCycle := by
  intro s total hp hm hinv htotal
  subst htotal
  obtain ⟨u, ⟨⟨hsec, hns, hfrac, -⟩, hinc, hwithin, hcarries⟩, hstep⟩ := step_idle hp hm hinv
  exact ⟨_, hstep, rfl, rfl, hp, hinc, hns, hsec, hfrac, hwithin, hcarries⟩

/-! ### Registers beside the one written -/

section
variable {off : Nat} (m : Mach)

theorem Mach.rd_s_other {f : Fld} (h : off ≠ f.off) (v : Nat) : (m.s f v).rd off = m.rd off := Mach.rd_wr_other h m _

theorem Mach.rd_sb_other {f : Fld} (h : off ≠ f.off) (v : Bool) : (m.sb f v).rd off = m.rd off := m.rd_s_other h _

theorem Mach.rd_setBit_other {o : Nat} (h : off ≠ o) (i : Nat) (v : Bool) : (m.setBit o i v).rd off = m.rd off :=
  m.rd_sb_other (f := ⟨o, i, i⟩) h v

end

/-! ### A flag of TIME_STS and its source (R55 to R59) -/

/-- A flag of TIME_STS is set and a source raised: the flag reads 1, and no other register moves. -/
theorem Mach.flagRaised (m : Mach) {f : Fld} (hoff : f.off = Reg.TIME_STS) (hf : f.lo = f.hi) (hh : f.hi < 32) (i : Nat) :
    ((m.sb f true).setBit Reg.TIME_IRQ_STS i true).g f = 1
      ∧ ∀ off : Nat, off ≠ Reg.TIME_STS → off ≠ Reg.TIME_IRQ_STS → ((m.sb f true).setBit Reg.TIME_IRQ_STS i true).rd off = m.rd off := by
  refine ⟨?_, fun off h1 h2 => ?_⟩
  · rw [Mach.g_setBit_other _ (by rw [hoff]; decide), Mach.g_sb_same _ hf hh, if_pos rfl]
  · rw [Mach.rd_setBit_other _ h2, Mach.rd_sb_other _ (hoff ▸ h1)]

/-! ### The increment (R54, R55, R59) -/

theorem incOk_iff (i : Nat) : incOk i = true ↔ 0x3FEF9DB23 ≤ i ∧ i ≤ 0x4010624DD := by
  simp [incOk]

theorem exec_timeIncCommit (v : Word) (s : State) : exec (.timeIncCommit v) s = s.actTime (incCommit v) := rfl

section
variable {v : Word} {e : Env} {m : Mach}

/-- An admissible increment comes into force. -/
theorem incCommit_loads (hf : m.srcFree = true) (hi : incOk (v.toNat % 256 * 2 ^ 32 + m.time.incLo) = true) :
    (incCommit v e m).1 = { e.time with inc := v.toNat % 256 * 2 ^ 32 + m.time.incLo } := by
  simp only [incCommit, hf, hi, Bool.not_true, Bool.false_eq_true, if_false, if_true]
  rfl

/-- An increment out of range only sets inc_range. -/
theorem incCommit_outside (hf : m.srcFree = true) (hi : incOk (v.toNat % 256 * 2 ^ 32 + m.time.incLo) = false) :
    incCommit v e m = (e.time, (m.sb .TIME_STS_inc_range true).setBit Reg.TIME_IRQ_STS 20 true) := by
  simp only [incCommit, hf, hi, Bool.not_true, Bool.false_eq_true, if_false]

/-- While the source is not FREE the write is ignored. -/
theorem incCommit_ignored (hf : m.srcFree = false) : incCommit v e m = (e.time, m.hostIgnored) := by
  simp [incCommit, hf]

end

/-- Settles O19: a commit loads the increment, sets inc_range or is ignored. -/
theorem incrementCommits : Obligations.IncrementCommits := by
  refine ⟨incOk_iff, fun s v => ⟨fun hf hi => ?_, fun hf hi => ?_, fun hf => ?_⟩⟩
  · exact ⟨_, (exec_timeIncCommit v s).trans (s.actTime_eq _), incCommit_loads hf hi⟩
  · obtain ⟨hflag, hrd⟩ := s.m.flagRaised (f := .TIME_STS_inc_range) rfl rfl (by decide) 20
    have hx := (exec_timeIncCommit v s).trans (s.actTime_eq _)
    rw [incCommit_outside hf hi] at hx
    exact ⟨_, hx, rfl, hflag, hrd _ (by decide) (by decide), hrd _ (by decide) (by decide)⟩
  · have hx := (exec_timeIncCommit v s).trans (s.actTime_eq _)
    rw [incCommit_ignored hf] at hx
    exact ⟨_, hx, rfl, s.m.flagRaised (f := .TIME_STS_host_ignored) rfl rfl (by decide) 19⟩

/-! ### Steps (R56 to R58) -/

theorem exec_timeStepRequest (v : Word) (s : State) : exec (.timeStepRequest v) s = s.actTime (stepWrite v) := rfl

section
variable {d : Int} {e : Env} {m : Mach}

/-- While the grid runs an accepted step waits for the boundary, added to one that waits. -/
theorem requestStep_waits (h : m.grid.running = true) :
    requestStep d e m = (e.time, { m with time := { m.time with step := some (m.time.step.getD 0 + d) } }) := by
  simp [requestStep, h]

/-- With no grid and no step that waits, an accepted step is applied at once. -/
theorem requestStep_applies (h : m.grid.running = false) (hs : m.time.step = none) : requestStep d e m = applyStep d e m := by
  simp [requestStep, h, hs]

/-- An applied step shifts the timebase, and none waits after it. -/
theorem applyStep_shifts (d : Int) (e : Env) (m : Mach) : (applyStep d e m).1 = e.time.shift d ∧ (applyStep d e m).2.time.step = none := ⟨rfl, rfl⟩

end

section
variable {v : Word} {e : Env} {m : Mach} (hv : v.toNat % 2 = 1) (hf : m.srcFree = true)
include hv hf

/-- A step permitted and within range is requested. -/
theorem stepWrite_accepted (hn : stepNsOk (m.gi .TIME_STEP_NS_step_ns) = true) (ha : m.stepAllowed = true) :
    stepWrite v e m = requestStep (m.gi .TIME_STEP_S_step_s * 1000000000 + m.gi .TIME_STEP_NS_step_ns) e m := by
  simp [stepWrite, hv, hf, hn, ha]

theorem stepWrite_refused (h : stepNsOk (m.gi .TIME_STEP_NS_step_ns) = false ∨ m.stepAllowed = false) : stepWrite v e m = (e.time, m.refuseStep) := by
  rcases h with h | h
  all_goals simp [stepWrite, hv, hf, h]

end

/-- Settles O20: an accepted step waits or is applied, and a refused one is flagged. -/
theorem stepIsTakenOrRefused : Obligations.StepIsTakenOrRefused := by
  intro s v d hv hf hd
  subst hd
  have hx := (exec_timeStepRequest v s).trans (s.actTime_eq _)
  refine ⟨fun hn ha hr => ?_, fun hn ha hr hs => ?_, fun h => ?_⟩
  · rw [stepWrite_accepted hv hf hn ha, requestStep_waits hr] at hx
    exact hx
  · rw [stepWrite_accepted hv hf hn ha, requestStep_applies hr hs] at hx
    obtain ⟨htime, hstep⟩ := applyStep_shifts (s.m.gi .TIME_STEP_S_step_s * 1000000000 + s.m.gi .TIME_STEP_NS_step_ns) s.env s.m
    exact ⟨_, hx, htime, rfl, hstep⟩
  · rw [stepWrite_refused hv hf h] at hx
    exact ⟨_, hx, rfl, s.m.flagRaised (f := .TIME_STS_step_refused) rfl rfl (by decide) 19⟩

/-! ### TIME_SET and TIME_ADJUST (R87) -/

theorem un_lt (c : Cmd) (i n : Nat) : c.un i n < 2 ^ (8 * n) := Nat.mod_lt _ (Nat.two_pow_pos _)

/-- A shift by what is missing to a long stamp reaches it, the fraction kept. -/
theorem Timebase.shift_to (t : Timebase) {sec ns : Nat} (hs : sec < 2 ^ 48) (hn : ns < 1000000000) :
    t.shift (((sec * 1000000000 + ns : Nat) : Int) - t.nowNs) = { t with sec := sec, ns := ns } := by
  have htotal : (((t.nowNs : Int) + (((sec * 1000000000 + ns : Nat) : Int) - t.nowNs)) % (2 ^ 48 * 1000000000)).toNat = sec * 1000000000 + ns := by
    have hsum : (t.nowNs : Int) + (((sec * 1000000000 + ns : Nat) : Int) - t.nowNs) = ((sec * 1000000000 + ns : Nat) : Int) := by omega
    rw [hsum, Int.emod_eq_of_lt (Int.natCast_nonneg _) (by omega), Int.toNat_natCast]
  simp only [Timebase.shift, htotal, Timebase.mk.injEq, and_true]
  omega

section
variable {s : State} {c : Cmd} (hc : s.takes c) (hf : s.m.srcFree = true)
include hc hf

/-- TIME_SET with no grid running applies the step to the time asked for. -/
theorem timeSet_sets (ha : s.m.stepAllowed = true) (hs : s.m.time.step = none) (hr : s.m.grid.running = false) (hn : c.u32 6 < 1000000000) :
    (timeSet c s.env s.m).1 = { s.env.time with sec := c.un 0 6, ns := c.u32 6 } := by
  have hstep : timeSet c s.env s.m = commandStep 0x11 c (((c.un 0 6 * 1000000000 + c.u32 6 : Nat) : Int) - s.env.time.nowNs) s.env s.m := by
    simp only [timeSet, (Mach.admit_takes hc 0x11 false).2, hf, Nat.not_le.mpr hn, ha, hs, Bool.not_true, Bool.false_eq_true, if_false,
      Option.getD_none, Int.add_zero, Env.ns]
  rw [← s.env.time.shift_to (un_lt c 0 6) hn, hstep]
  unfold commandStep
  rw [requestStep_applies]
  · rfl
  · exact hr
  · exact hs

/-- TIME_ADJUST that asks for an increment alone loads it. -/
theorem timeAdjust_loads (h1 : c.u8 0 = 1) (hi : incOk (c.un 8 5) = true) : (timeAdjust c s.env s.m).1 = { s.env.time with inc := c.un 8 5 } := by
  have hload : (1 % 2 == 1) = true := rfl
  have hstep : (1 / 2 % 2 == 1) = false := rfl
  simp only [timeAdjust, (Mach.admit_takes hc 0x12 false).2, hf, h1, hi, hload, hstep, Bool.not_true, Bool.and_false, Bool.false_and, Bool.false_eq_true,
    if_false, if_true]
  rfl

end

/-- Settles O18: both answer by what they leave of the timebase; vault and queue are left alone. -/
theorem timeSetSetsTheTime : Obligations.TimeSetSetsTheTime := by
  intro s c hc hf
  refine ⟨fun ha hs hr hn => ?_, fun h1 hi => ?_⟩
  · have hx : exec (.timeSet c) s = _ := s.actTime_eq (timeSet c)
    exact ⟨_, hx, timeSet_sets hc hf ha hs hr hn, rfl, rfl⟩
  · have hx : exec (.timeAdjust c) s = _ := s.actTime_eq (timeAdjust c)
    exact ⟨_, hx, timeAdjust_loads hc hf h1 hi, rfl, rfl⟩

end Sys2Proof.Machine
end

section
/-!
PROOFS. What posting and a host write leave of what left the module before.
-/
namespace Sys2Proof.Machine

/-! ### What left the module stays listed -/

/-- What left the module before is still listed, oldest last. -/
def Mach.Adds (m m' : Mach) : Prop := m.out <:+ m'.out

theorem Mach.Adds.of_eq {m m' : Mach} (h : m'.out = m.out) : m.Adds m' := ⟨[], h.symm⟩

theorem Mach.Adds.refl (m : Mach) : m.Adds m := .of_eq rfl

theorem Mach.Adds.trans {a b c : Mach} (h : a.Adds b) (h' : b.Adds c) : a.Adds c := List.IsSuffix.trans h h'

/-- What is listed stays listed. -/
theorem Mach.Adds.mem {m m' : Mach} (h : m.Adds m') {x : Out} (hx : x ∈ m.out) : x ∈ m'.out := List.IsSuffix.mem hx h

section
variable (m : Mach)

theorem Mach.bufSync_out : m.bufSync.out = m.out := by
  unfold Mach.bufSync
  extract_lets fill high m1 mib
  rw [Mach.s_out, Mach.s_out]
  unfold m1
  split
  · rw [Mach.setBit_out, Mach.sb_out]
  · rfl

theorem Mach.peat_out (p : Peat) : ({ m with peat := p } : Mach).out = m.out := rfl

theorem Mach.hif_out (h : Hif) : ({ m with hif := h } : Mach).out = m.out := rfl

theorem Mach.setRing_out (t : QType) (n : Nat) (r : Ring) : (m.setRing t n r).out = m.out := (Mach.s_out _ _ _).trans (m.hif_out _)

theorem Mach.peatDrop_out (sev : Nat) : (m.peatDrop sev).out = m.out :=
  (Mach.peat_out _ _).trans ((Mach.setBit_out _ _ _ _).trans ((Mach.sb_out _ _ _).trans (m.up_out _)))

/-- A record leaves by no pin, link or port. -/
theorem Mach.record_out (r : PeatRec) : (m.record r).out = m.out := by
  unfold Mach.record
  split
  · exact m.up_out _
  · split
    · exact m.peatDrop_out _
    · exact (Mach.bufSync_out _).trans (m.peat_out _)

theorem Mach.adds_hostStore (a : Nat) (b : List Byte) : m.Adds (m.hostStore a b) := List.suffix_cons _ _

theorem Mach.adds_setRing (t : QType) (n : Nat) (r : Ring) : m.Adds (m.setRing t n r) := .of_eq (m.setRing_out t n r)

theorem iter_adds {n : Nat} {f : Nat → Mach → Mach} (hf : ∀ i m, Mach.Adds m (f i m)) : m.Adds (iter n f m) := by
  induction n with
  | zero => exact .refl m
  | succ n ih => exact iter_succ n f m ▸ ih.trans (hf n _)

theorem Mach.adds_push (t : QType) (n : Nat) (r : Ring) (h : Held) : m.Adds (m.push t n r h) :=
  (((iter_adds m fun _ _ => Mach.adds_hostStore _ _ _).trans (Mach.adds_hostStore _ _ _)).trans (Mach.adds_setRing _ t n _)).trans
    (Mach.adds_hostStore _ _ _)

theorem Mach.adds_putEvent (e : Env) (q sev code : Nat) (p : List Byte) : m.Adds (m.putEvent e q sev code p) :=
  (m.adds_push _ _ _ _).trans (.of_eq (Mach.setBit_out _ _ _ _))

theorem Mach.adds_eqDrop (q : Nat) : m.Adds (m.eqDrop q) :=
  .of_eq ((Mach.setBit_out _ _ _ _).trans ((Mach.up_out _ _).trans ((Mach.up_out _ _).trans (m.setRing_out _ _ _))))

theorem Mach.adds_toEq (e : Env) (q sev code : Nat) (p : List Byte) : m.Adds (m.toEq e q sev code p) := by
  unfold Mach.toEq
  split
  · exact .refl m
  · split
    · exact m.adds_putEvent e q sev code p
    · exact m.adds_eqDrop q

theorem Mach.adds_route (e : Env) (sev code : Nat) (p : List Byte) : m.Adds (m.route e sev code p) := by
  unfold Mach.route
  dsimp only
  split
  · exact m.adds_toEq e _ sev code p
  · exact .refl m

theorem Mach.adds_tellDrops (e : Env) (q : Nat) : m.Adds (m.tellDrops e q) := by
  unfold Mach.tellDrops
  dsimp only
  split
  · exact ((m.adds_setRing _ _ _).trans (.of_eq (Mach.record_out _ _))).trans (Mach.adds_putEvent _ _ _ _ _ _)
  · exact .refl m

/-- An event posted only adds to what left the module. -/
theorem Mach.adds_event (e : Env) (code : Nat) (psev : Option Nat) (p : List Byte) : m.Adds (m.event e code psev p) := by
  have hrec : m.Adds (match psev with | some sev => m.record ⟨sev, blockOfEvent code, code, padWord p, none⟩ | none => m) := by
    cases psev with
    | none => exact .refl m
    | some sev => exact .of_eq (m.record_out _)
  exact (hrec.trans (Mach.adds_tellDrops _ _ _)).trans (Mach.adds_route _ _ _ _ _)

/-! ### A host write beside the register it stores -/

/-- A host write stores one register, and may record that it was ignored. -/
theorem Mach.hostPut_time_out (locked quiet : Bool) (off : Nat) (v : Word) :
    (m.hostPut locked quiet off v).time = m.time ∧ (m.hostPut locked quiet off v).out = m.out := by
  unfold Mach.hostPut Mach.hostPutBar
  split
  · dsimp only
    rw [Mach.wr_time, Mach.wr_out]
    split
    · exact ⟨(m.posted_record _).time, m.record_out _⟩
    · exact ⟨rfl, rfl⟩
  · exact ⟨rfl, rfl⟩

end

end Sys2Proof.Machine
end

section
/-!
PROOFS. The timed pulse outputs and the captures they feed: their ranges, their edges, a commit of settings, and the commands of the TIME block that
complete at once.
-/
namespace Sys2Proof.Machine

/-- A register that is kept keeps its bits. -/
theorem Mach.bit_congr {m m' : Mach} {off : Nat} (h : m'.rd off = m.rd off) (i : Nat) : m'.bit off i = m.bit off i := by
  rw [Mach.bit, Mach.bit, Mach.g_congr h]

/-! ### A timed pulse output stored (R70, R91) -/

section
variable (m : Mach) (t : Timebase) (k : Nat) (o : Tpo)

/-- The machine with an output, before its status shows it. -/
def Mach.tpoStored : Mach :=
  match o.next with
  | some n => { m with time := { m.time with tpo := upd m.time.tpo k fun _ => o } }.s (.TPOk_QERR_qerr k) (quantErr t n)
  | none => { m with time := { m.time with tpo := upd m.time.tpo k fun _ => o } }

theorem Mach.setTpo_eq : m.setTpo t k o = ((m.tpoStored t k o).sb (.TPOk_STS_armed k) (o.cur.mode != 0)).sb (.TPOk_STS_active k) o.trail.isSome := rfl

theorem Mach.setTpo_time : (m.setTpo t k o).time = { m.time with tpo := upd m.time.tpo k fun _ => o } := by
  rw [Mach.setTpo_eq, Mach.sb_time, Mach.sb_time, Mach.tpoStored]
  split
  · rw [Mach.s_time]
  · rfl

theorem Mach.setTpo_out : (m.setTpo t k o).out = m.out := by
  rw [Mach.setTpo_eq, Mach.sb_out, Mach.sb_out, Mach.tpoStored]
  split
  · rw [Mach.s_out]
  · rfl

/-- Storing an output writes its quantisation error and its status. -/
theorem Mach.rd_setTpo_other {off : Nat} (hq : off ≠ Reg.TPOk_QERR k) (hs : off ≠ Reg.TPOk_STS k) : (m.setTpo t k o).rd off = m.rd off := by
  rw [Mach.setTpo_eq, Mach.rd_sb_other _ hs, Mach.rd_sb_other _ hs, Mach.tpoStored]
  split
  · exact Mach.rd_s_other _ hq _
  · rfl

theorem Mach.g_setTpo_active : (m.setTpo t k o).g (.TPOk_STS_active k) = if o.trail.isSome then 1 else 0 :=
  Mach.g_sb_same _ rfl (Nat.zero_lt_succ _) _

variable {k} in
theorem Mach.tpo_setTpo_same (h : k < m.time.tpo.length) : (m.setTpo t k o).tpo k = o := by
  rw [Mach.tpo, Mach.setTpo_time]
  exact nth_upd_same _ h _

end

/-! ### A capture FIFO stored (R74, R89, R91) -/

section
variable (m : Mach) (k : Nat) (l : List CapEdge)

/-- The machine with a FIFO and its level and source, before the head entry shows. -/
def Mach.capStored : Mach :=
  ({ m with time := { m.time with cap := upd m.time.cap k fun _ => l } }.s (.CAPk_STS_level k) l.length).setBit Reg.TIME_IRQ_STS (8 + k) (!l.isEmpty)

theorem Mach.capStored_time : (m.capStored k l).time = { m.time with cap := upd m.time.cap k fun _ => l } := by
  rw [Mach.capStored, Mach.setBit_time, Mach.s_time]

theorem Mach.capStored_out : (m.capStored k l).out = m.out := by
  rw [Mach.capStored, Mach.setBit_out, Mach.s_out]

theorem Mach.setCap_time : (m.setCap k l).time = { m.time with cap := upd m.time.cap k fun _ => l } := by
  rw [← m.capStored_time]
  cases l with
  | nil => exact (Mach.wr_time _ _ _).trans ((Mach.wr_time _ _ _).trans (Mach.wr_time _ _ _))
  | cons x l => exact (Mach.s_time _ _ _).trans ((Mach.s_time _ _ _).trans ((Mach.s_time _ _ _).trans ((Mach.sb_time _ _ _).trans (Mach.sb_time _ _ _))))

theorem Mach.setCap_out : (m.setCap k l).out = m.out := by
  rw [← m.capStored_out k l]
  cases l with
  | nil => exact (Mach.wr_out _ _ _).trans ((Mach.wr_out _ _ _).trans (Mach.wr_out _ _ _))
  | cons x l => exact (Mach.s_out _ _ _).trans ((Mach.s_out _ _ _).trans ((Mach.s_out _ _ _).trans ((Mach.sb_out _ _ _).trans (Mach.sb_out _ _ _))))

/-- The registers of the head entry are the last that storing a FIFO writes. -/
theorem Mach.rd_setCap_beside {off : Nat} (h : off < Reg.CAPk_NS k ∨ Reg.CAPk_SH k < off) : (m.setCap k l).rd off = (m.capStored k l).rd off := by
  simp only [Reg.CAPk_NS, Reg.CAPk_SH] at h
  have hns : off ≠ Reg.CAPk_NS k := by simp only [Reg.CAPk_NS]; omega
  have hsl : off ≠ Reg.CAPk_SL k := by simp only [Reg.CAPk_SL]; omega
  have hsh : off ≠ Reg.CAPk_SH k := by simp only [Reg.CAPk_SH]; omega
  cases l with
  | nil => exact (Mach.rd_wr_other hsh _ _).trans ((Mach.rd_wr_other hsl _ _).trans (Mach.rd_wr_other hns _ _))
  | cons x l =>
    exact (Mach.rd_s_other _ hsh _).trans ((Mach.rd_s_other _ hsl _).trans ((Mach.rd_s_other _ hns _).trans
      ((Mach.rd_sb_other _ hns _).trans (Mach.rd_sb_other _ hns _))))

variable {k l}

theorem Mach.cap_setCap_same (h : k < m.time.cap.length) : (m.setCap k l).cap k = l := by
  rw [Mach.cap, Mach.setCap_time]
  exact nth_upd_same _ h _

/-- The level of a FIFO of up to 31 entries. -/
theorem Mach.g_setCap_level (hl : l.length < 32) : (m.setCap k l).g (.CAPk_STS_level k) = l.length := by
  have hhead : Reg.CAPk_SH k < (Fld.CAPk_STS_level k).off := by simp only [Reg.CAPk_SH, Fld.CAPk_STS_level]; omega
  have hirq : (Fld.CAPk_STS_level k).off ≠ Reg.TIME_IRQ_STS := by simp only [Fld.CAPk_STS_level, Reg.TIME_IRQ_STS]; omega
  rw [Mach.g_congr (m.rd_setCap_beside k l (.inr hhead)), Mach.capStored, Mach.g_setBit_other _ hirq,
    Mach.g_s_same _ (by decide : 16 ≤ 20) (by decide : 20 < 32)]
  exact Nat.mod_eq_of_lt hl

theorem Mach.bit_setCap (hk : k < 8) : (m.setCap k l).bit Reg.TIME_IRQ_STS (8 + k) = !l.isEmpty := by
  rw [Mach.bit_congr (m.rd_setCap_beside k l (.inl (by simp only [Reg.CAPk_NS, Reg.TIME_IRQ_STS]; omega)))]
  exact Mach.bit_setBit_same _ _ (by omega) _

end

/-! ### Edges that an input captures (R72 to R75) -/

/-- The timed pulse outputs are kept, and what left the module before is still listed. -/
structure Mach.KeepsTpo (m m' : Mach) : Prop where
  tpo : m'.time.tpo = m.time.tpo
  out : m.Adds m'

/-- An edge that input k takes enters its FIFO, or counts where that is full. -/
theorem Mach.capture_eq (m : Mach) (e : Env) (k : Nat) (x : CapEdge) :
    m.capture e k x = if (m.g (.CAPk_CTRL_edge k)).testBit (if x.rising then 0 else 1) = true then
      if 16 ≤ (m.cap k).length then m.up (.CAPk_STS_ovf k)
      else (m.setCap k (m.cap k ++ [x])).note e 0x1001 (le 1 k ++ le 1 (if x.rising then 1 else 2) ++ x.at_.bytes)
    else m := by
  unfold Mach.capture
  dsimp only
  rw [← apply_ite (m.g (.CAPk_CTRL_edge k)).testBit]
  cases (m.g (.CAPk_CTRL_edge k)).testBit (if x.rising = true then 0 else 1) with
  | false => rfl
  | true => rfl

section
variable {m : Mach} {k : Nat} {x : CapEdge}

theorem Mach.capture_ignores (hx : (m.g (.CAPk_CTRL_edge k)).testBit (if x.rising then 0 else 1) = false) (e : Env) : m.capture e k x = m := by
  rw [Mach.capture_eq, if_neg (by simp [hx])]

theorem Mach.capture_enters (hx : (m.g (.CAPk_CTRL_edge k)).testBit (if x.rising then 0 else 1) = true) (hl : (m.cap k).length < 16) (e : Env) :
    m.capture e k x = (m.setCap k (m.cap k ++ [x])).note e 0x1001 (le 1 k ++ le 1 (if x.rising then 1 else 2) ++ x.at_.bytes) := by
  rw [Mach.capture_eq, if_pos hx, if_neg (Nat.not_le.mpr hl)]

theorem Mach.capture_overflows (hx : (m.g (.CAPk_CTRL_edge k)).testBit (if x.rising then 0 else 1) = true) (hl : 16 ≤ (m.cap k).length) (e : Env) :
    m.capture e k x = m.up (.CAPk_STS_ovf k) := by
  rw [Mach.capture_eq, if_pos hx, if_pos hl]

end

section
variable (m : Mach) (e : Env) (k : Nat)

theorem Mach.capture_keepsTpo (x : CapEdge) : m.KeepsTpo (m.capture e k x) := by
  cases hx : (m.g (.CAPk_CTRL_edge k)).testBit (if x.rising then 0 else 1) with
  | false =>
    rw [Mach.capture_ignores hx]
    exact ⟨rfl, .refl m⟩
  | true =>
    rcases Nat.lt_or_ge (m.cap k).length 16 with hl | hl
    · rw [Mach.capture_enters hx hl]
      have htime := (Mach.posted_event (m.setCap k (m.cap k ++ [x])) e 0x1001 none (le 1 k ++ le 1 (if x.rising then 1 else 2) ++ x.at_.bytes)).time
      rw [Mach.setCap_time] at htime
      exact ⟨(congrArg TimeSt.tpo htime :), (Mach.Adds.of_eq (m.setCap_out k _)).trans (Mach.adds_event _ _ _ _ _)⟩
    · rw [Mach.capture_overflows hx hl]
      exact ⟨congrArg TimeSt.tpo (m.up_time _), .of_eq (m.up_out _)⟩

theorem Mach.captureTpo_keepsTpo (level : Int) (lasts : Option Nat) : m.KeepsTpo (m.captureTpo e k level lasts) := by
  unfold Mach.captureTpo
  extract_lets long
  split
  · exact m.capture_keepsTpo e k _
  · exact ⟨rfl, .refl m⟩

/-- The pin of output k takes a level, which input k may capture. -/
def Mach.tpoPin (level : Int) (lasts : Option Nat) : Mach := (m.emit "TPO" k level).captureTpo e k level lasts

theorem Mach.tpoPin_shows (level : Int) (lasts : Option Nat) :
    (m.tpoPin e k level lasts).time.tpo = m.time.tpo ∧ ⟨"TPO", k, level, []⟩ ∈ (m.tpoPin e k level lasts).out := by
  obtain ⟨htpo, hout⟩ := (m.emit "TPO" k level).captureTpo_keepsTpo e k level lasts
  rw [Mach.emit_time] at htpo
  exact ⟨htpo, hout.mem List.mem_cons_self⟩

end

/-! ### Edges of the timed pulse outputs (R60, R65, R67) -/

section
variable {m : Mach} {e : Env} {k n : Nat}

/-- The output after its leading edge at n: the pulse ends a width later, and a PERIODIC output goes on a period later. -/
def Tpo.led (o : Tpo) (n : Nat) : Tpo :=
  { o with trail := some (n + o.cur.width), last := some n, next := if o.cur.mode = 2 then some (n + o.cur.period) else none }

theorem Mach.tpoLead_eq (m : Mach) (e : Env) (k n : Nat) :
    m.tpoLead e k n = ((m.tpoPin e k (tpoLevel (m.tpo k).cur true) (some (m.tpo k).cur.width)).setBit Reg.TIME_IRQ_STS k true).setTpo e.time k ((m.tpo k).led n) :=
  rfl

/-- What a leading edge does: the output goes on, its source is raised, it shows active, and its pin switches. -/
theorem Mach.tpoLead_leads (hk : k < 8) (hlen : m.time.tpo.length = 8) (e : Env) (n : Nat) :
    (m.tpoLead e k n).tpo k = (m.tpo k).led n ∧ (m.tpoLead e k n).bit Reg.TIME_IRQ_STS k = true ∧ (m.tpoLead e k n).g (.TPOk_STS_active k) = 1
      ∧ ⟨"TPO", k, tpoLevel (m.tpo k).cur true, []⟩ ∈ (m.tpoLead e k n).out := by
  obtain ⟨htpo, hout⟩ := m.tpoPin_shows e k (tpoLevel (m.tpo k).cur true) (some (m.tpo k).cur.width)
  rw [Mach.tpoLead_eq]
  generalize m.tpoPin e k (tpoLevel (m.tpo k).cur true) (some (m.tpo k).cur.width) = m1 at htpo hout
  refine ⟨Mach.tpo_setTpo_same _ _ _ ?_, ?_, Mach.g_setTpo_active _ _ _ _, ?_⟩
  · rw [Mach.setBit_time, htpo, hlen]
    exact hk
  · have hrd := Mach.rd_setTpo_other (m1.setBit Reg.TIME_IRQ_STS k true) e.time k ((m.tpo k).led n) (off := Reg.TIME_IRQ_STS)
      (by simp only [Reg.TIME_IRQ_STS, Reg.TPOk_QERR]; omega) (by simp only [Reg.TIME_IRQ_STS, Reg.TPOk_STS]; omega)
    rw [Mach.bit_congr hrd]
    exact m1.bit_setBit_same _ (by omega) _
  · rwa [Mach.setTpo_out, Mach.setBit_out]

/-- What the end of a pulse does where no settings wait and no disarm does. -/
theorem Mach.tpoTrail_ends (hk : k < 8) (hlen : m.time.tpo.length = 8) (hd : (m.tpo k).disarm = false) (hp : (m.tpo k).pend = none) (e : Env) :
    (m.tpoTrail e k).tpo k = { m.tpo k with trail := none } ∧ (m.tpoTrail e k).g (.TPOk_STS_active k) = 0
      ∧ ⟨"TPO", k, tpoLevel (m.tpo k).cur false, []⟩ ∈ (m.tpoTrail e k).out := by
  obtain ⟨htpo, hout⟩ := m.tpoPin_shows e k (tpoLevel (m.tpo k).cur false) ((m.tpo k).next.map fun n => n - e.ns)
  have hx : m.tpoTrail e k
      = (m.tpoPin e k (tpoLevel (m.tpo k).cur false) ((m.tpo k).next.map fun n => n - e.ns)).setTpo e.time k { m.tpo k with trail := none } := by
    simp only [Mach.tpoTrail, Mach.tpoPin, hd, hp, Bool.false_eq_true, if_false]
  rw [hx]
  generalize m.tpoPin e k (tpoLevel (m.tpo k).cur false) _ = m1 at htpo hout
  refine ⟨Mach.tpo_setTpo_same _ _ _ ?_, Mach.g_setTpo_active _ _ _ _, ?_⟩
  · rw [htpo, hlen]
    exact hk
  · rwa [Mach.setTpo_out]

end

/-! ### An increment that waits for the PPS edge (R115) -/

/-- What is kept of an iteration is kept by each of its parts. -/
theorem iter_keeps {α β : Type} (g : α → β) {n : Nat} {f : Nat → α → α} (hf : ∀ i a, g (f i a) = g a) (a : α) : g (iter n f a) = g a := by
  induction n with
  | zero => rfl
  | succ n ih => rw [iter_succ, hf, ih]

theorem Mach.qerrAll_out (m : Mach) (t : Timebase) : (m.qerrAll t).out = m.out := by
  refine iter_keeps Mach.out (fun k m' => ?_) m
  split
  · exact m'.s_out _ _
  · rfl

theorem Mach.rd_qerrAll_other (m : Mach) (t : Timebase) {off : Nat} (h : ∀ k, off ≠ Reg.TPOk_QERR k) : (m.qerrAll t).rd off = m.rd off := by
  refine iter_keeps (Mach.rd · off) (fun k m' => ?_) m
  split
  · exact m'.rd_s_other (h k) _
  · rfl

/-- A pair of timebase and machine that differs from another in its increment and what shows it. -/
structure IncMoves (t : Timebase) (m : Mach) (r : Timebase × Mach) : Prop where
  steered : t.Steered r.1
  tpo : r.2.time.tpo = m.time.tpo
  out : r.2.out = m.out
  rd : ∀ off : Nat, off ≠ Reg.TIME_INC_LO → off ≠ Reg.TIME_INC_HI → (∀ k, off ≠ Reg.TPOk_QERR k) → r.2.rd off = m.rd off

theorem IncMoves.refl (t : Timebase) (m : Mach) : IncMoves t m (t, m) := ⟨rfl, rfl, rfl, fun _ _ _ _ => rfl⟩

theorem Mach.withTime_out (m : Mach) (x : TimeSt) : ({ m with time := x } : Mach).out = m.out := rfl

theorem Mach.rd_withTime (m : Mach) (x : TimeSt) (off : Nat) : ({ m with time := x } : Mach).rd off = m.rd off := rfl

/-- The machine whose TIME_INC reads an increment. -/
def Mach.incShown (m : Mach) (i : Nat) : Mach := (m.s .TIME_INC_LO_inc_frac (i % 2 ^ 32)).s .TIME_INC_HI_inc_int (i / 2 ^ 32)

theorem setInc_eq (i : Nat) (e : Env) (m : Mach) :
    setInc i e m = ({ e.time with inc := i },
      ({ m.incShown i with time := { m.time with incHist := (e.ns, i) :: m.time.incHist, incDue := none } } : Mach).qerrAll { e.time with inc := i }) := rfl

theorem Mach.incShown_out (m : Mach) (i : Nat) : (m.incShown i).out = m.out := by
  rw [Mach.incShown, Mach.s_out, Mach.s_out]

theorem Mach.rd_incShown_other (m : Mach) (i : Nat) {off : Nat} (hlo : off ≠ Reg.TIME_INC_LO) (hhi : off ≠ Reg.TIME_INC_HI) :
    (m.incShown i).rd off = m.rd off := (Mach.rd_s_other _ hhi _).trans (m.rd_s_other hlo _)

theorem setInc_incMoves (i : Nat) (e : Env) (m : Mach) : IncMoves e.time m (setInc i e m) := by
  refine ⟨rfl, ?_, ?_, fun off hlo hhi hq => ?_⟩
  · rw [setInc_time]
  · rw [setInc_eq, Mach.qerrAll_out, Mach.withTime_out, Mach.incShown_out]
  · rw [setInc_eq, Mach.rd_qerrAll_other _ _ hq, Mach.rd_withTime, Mach.rd_incShown_other _ _ hlo hhi]

theorem commitDue_incMoves (e : Env) (m : Mach) : IncMoves e.time m (commitDue e m) := by
  unfold commitDue
  split
  · split
    · exact setInc_incMoves _ e m
    · exact .refl _ m
  · exact .refl _ m

/-- A steered timebase reads the same instant. -/
theorem Timebase.Steered.nowNs {t u : Timebase} (h : t.Steered u) : u.nowNs = t.nowNs := by
  rw [Timebase.Steered] at h
  rw [h]
  rfl

/-! ### The compare of an output's next edge (R60) -/

theorem execTpoEdge_eq {s : State} {k : Nat} (hk : k < 8) : exec (.tpoEdge k) s = s.actTime (tpoEdge k) := if_pos hk

section
variable {m : Mach} {e : Env} {k n : Nat}

/-- The leading edge at or beyond its target; that of output 0 may bring an increment into force. -/
theorem tpoEdge_leads (ht : (m.tpo k).trail = none) (hn : (m.tpo k).next = some n) (hle : n ≤ e.ns) :
    IncMoves e.time (m.tpoLead e k n) (tpoEdge k e m) := by
  simp only [tpoEdge, ht, hn, Nat.not_lt.mpr hle, if_false]
  split
  · exact commitDue_incMoves e _
  · exact .refl _ _

theorem tpoEdge_ends (ht : (m.tpo k).trail = some n) (hle : n ≤ e.ns) : tpoEdge k e m = (e.time, m.tpoTrail e k) := by
  simp only [tpoEdge, ht, Nat.not_lt.mpr hle, if_false]

/-- Before its target no edge fires. -/
theorem tpoEdge_early (h : (m.tpo k).trail = some n ∨ ((m.tpo k).trail = none ∧ (m.tpo k).next = some n)) (hlt : e.ns < n) :
    tpoEdge k e m = (e.time, m) := by
  rcases h with ht | ⟨ht, hn⟩
  · simp only [tpoEdge, ht, hlt, if_true]
  · simp only [tpoEdge, ht, hn, hlt, if_true]

end

/-! ### Settings of a timed pulse (R66 to R68) -/

theorem tpoOk_periodic {z : TpoSet} (h : z.mode = 2) :
    tpoOk z = true ↔ 16 ≤ z.period ∧ z.period ≤ 4294967295 ∧ 8 ≤ z.width ∧ z.width + 8 ≤ z.period := by
  simp [tpoOk, h, and_assoc]

theorem tpoOk_oneshot {z : TpoSet} (h : z.mode = 1) : tpoOk z = true ↔ 8 ≤ z.width ∧ z.width ≤ 4294967295 := by
  simp [tpoOk, h]

theorem tpoOk_off {z : TpoSet} (h : z.mode = 0) : tpoOk z = true := by
  simp [tpoOk, h]

section
variable {m m1 : Mach} {e : Env} {k : Nat} {v : Word} (hv : v.toNat / 8 % 2 = 1) (h1 : m1 = m.hostPut e.locked true (Reg.TPOk_CTRL k) v)
include hv h1

/-- A commit of settings within their ranges, of a ONESHOT far enough ahead, puts them in force. -/
theorem Mach.tpoCtrl_commits (hz : tpoOk (m1.tpoStaged k) = true)
    (hs : (m1.tpoStaged k).mode = 1 → e.time.twoAhead ≤ (m1.tpoStaged k).start) : m.tpoCtrl e k v = m1.tpoSet e k (m1.tpoStaged k) := by
  have hearly : ¬ ((m1.tpoStaged k).mode = 1 && (m1.tpoStaged k).start < e.time.twoAhead) = true := by
    simpa using hs
  subst h1
  unfold Mach.tpoCtrl
  dsimp only
  rw [if_neg (by omega), if_neg (by simp [hz]), if_neg hearly]

/-- A commit of settings outside their ranges only sets late. -/
theorem Mach.tpoCtrl_refuses (hz : tpoOk (m1.tpoStaged k) = false) :
    m.tpoCtrl e k v = (m1.sb (.TPOk_STS_late k) true).setBit Reg.TIME_IRQ_STS 21 true := by
  subst h1
  unfold Mach.tpoCtrl
  dsimp only
  rw [if_neg (by omega), if_pos (by simp [hz])]

end

theorem execTpoCommit_eq {s : State} {k : Nat} (hk : k < 8) (v : Word) : exec (.tpoCommit k v) s = s.becomes (s.m.tpoCtrl s.env k v) :=
  s.onInst_eq (decide_eq_true hk) _

/-- Settles O21: an edge fires at its target, and a commit within R66 takes effect. -/
theorem timedPulses : Obligations.TimedPulses := by
  intro s k hk hlen
  refine ⟨fun n ht hn hle => ?_, fun n ht hd hp hle => ?_, fun n h hlt => ?_, fun v hv hz hs => ?_⟩
  · have hm := tpoEdge_leads ht hn hle
    obtain ⟨htpo, hirq, hact, hout⟩ := Mach.tpoLead_leads hk hlen s.env n
    refine ⟨_, (execTpoEdge_eq hk).trans (s.actTime_eq _), rfl, rfl, hm.steered.nowNs, ?_, ?_, ?_, ?_⟩
    · exact (congrArg (nth (Tpo.reset 1) · k) hm.tpo).trans htpo
    · rw [← hirq]
      refine Mach.bit_congr (hm.rd _ (by decide) (by decide) fun j => ?_) k
      simp only [Reg.TIME_IRQ_STS, Reg.TPOk_QERR]
      omega
    · rw [← hact]
      refine Mach.g_congr (hm.rd _ ?_ ?_ fun j => ?_)
      all_goals
        simp only [Fld.TPOk_STS_active, Reg.TIME_INC_LO, Reg.TIME_INC_HI, Reg.TPOk_QERR]
        omega
    · exact hm.out ▸ hout
  · have hx := (execTpoEdge_eq hk).trans (s.actTime_eq _)
    rw [tpoEdge_ends ht hle] at hx
    exact ⟨_, hx, rfl, Mach.tpoTrail_ends hk hlen hd hp s.env⟩
  · have hx := (execTpoEdge_eq hk).trans (s.actTime_eq _)
    rw [tpoEdge_early h hlt] at hx
    exact hx
  · rw [execTpoCommit_eq hk, Mach.tpoCtrl_commits hv rfl hz hs]

/-- Settles O30: the ranges by mode; outside them TPO_ARM answers RANGE, and a commit sets late and keeps the output. -/
theorem pulseSettingsOutsideTheirRanges : Obligations.PulseSettingsOutsideTheirRanges := by
  refine ⟨fun z => ⟨tpoOk_periodic, tpoOk_oneshot, tpoOk_off⟩, fun s c hc hz => ?_, fun s k v m1 hk hv h1 hz => ?_⟩
  · change execTpoArm c s = _
    exact State.command_done hc (if_pos (by simp [hz])) (.inl rfl) (Nat.zero_le _)
  · obtain ⟨htime, hout⟩ := s.m.hostPut_time_out s.env.locked true (Reg.TPOk_CTRL k) v
    rw [← h1] at htime hout
    refine ⟨_, execTpoCommit_eq hk v, ?_⟩
    dsimp only
    rw [Mach.tpoCtrl_refuses hv h1 hz]
    refine ⟨?_, ?_, ?_⟩
    · rw [Mach.g_setBit_other _ (by simp only [Fld.TPOk_STS_late, Reg.TIME_IRQ_STS]; omega)]
      exact Mach.g_sb_same _ rfl (by decide : 2 < 32) true
    · rw [Mach.tpo, Mach.setBit_time, Mach.sb_time, htime]
      rfl
    · rw [Mach.setBit_out, Mach.sb_out, hout]

/-! ### Commands that complete at once (R86) -/

/-- Settles O17: each command's own part is done on a state that takes it. -/
theorem timeCommandsAnswer : Obligations.TimeCommandsAnswer := by
  intro s c hc
  refine ⟨?_, fun hsrc hallow hlo hhi => ?_, fun z hz hk hpol hns hok hahead => ?_, fun hk ht => ?_, fun hk hedge hsrc => ?_, fun hp => ?_⟩
  · change execTimeGet c s = _
    exact State.command_done hc rfl (.inl rfl) (Nat.zero_le _)
  · change execTimeDiscSet c s = _
    refine State.command_done hc (if_neg ?_) (.inr rfl) (Nat.zero_le _)
    simp only [Bool.or_eq_true, decide_eq_true_eq]
    omega
  · subst hz
    change execTpoArm c s = _
    have hearly : ¬ (decide (c.u8 1 = 1) && decide (c.un 4 6 * 1000000000 + c.u32 10 < s.env.time.twoAhead)) = true := by
      simpa using hahead
    refine State.command_done hc ((if_neg ?_).trans (if_neg hearly)) (.inl rfl) (Nat.zero_le _)
    simp only [hok, Bool.not_true, Bool.or_false, Bool.or_eq_true, decide_eq_true_eq]
    dsimp only at hpol
    omega
  · change execTpoDisarm c s = _
    refine State.command_done hc ((if_neg ?_).trans (if_neg ?_)) (.inl rfl) (Nat.zero_le _)
    · simpa using hk
    · simp [ht]
  · change execCapSet c s = _
    refine State.command_done hc (if_neg ?_) (.inl rfl) (Nat.zero_le _)
    simp only [Bool.or_eq_true, decide_eq_true_eq]
    omega
  · change execPtpLatSet c s = _
    exact State.command_done hc (if_neg (by omega)) (.inr rfl) (Nat.zero_le _)

end Sys2Proof.Machine
end

section
/-!
PROOFS. The captures and the PTP stamps: what enters a FIFO, what leaves it, and what clears its overflow count.
-/
namespace Sys2Proof.Machine

/-! ### Captures (R72 to R75) -/

section
variable {s : State} {k : Nat} (hk : k < 8)
include hk

/-- A level that lasted for the filter, while the pin is not ignored, is an edge. -/
theorem execCaptureEdge_edge {rising : Bool} {n : Nat} (hsrc : s.m.b (.CAPk_CTRL_src k) = false) (hn : s.m.g (.CAPk_CTRL_filt k) ≤ n) :
    exec (.captureEdge k rising n) s = s.becomes (s.m.capture s.env k ⟨s.env.time.before (n + 2), rising⟩) :=
  (s.onInst_eq (decide_eq_true hk) _).trans (congrArg s.becomes (if_neg (by simp [hsrc, hn])))

/-- A level that is too short, and any while the output is taken, is none. -/
theorem execCaptureEdge_none {rising : Bool} {n : Nat} (h : s.m.b (.CAPk_CTRL_src k) = true ∨ n < s.m.g (.CAPk_CTRL_filt k)) :
    exec (.captureEdge k rising n) s = .next s :=
  (s.onInst_eq (decide_eq_true hk) _).trans (congrArg s.becomes (if_pos (by simpa using h)))

/-- The read of CAPk_SH returns its word and removes the head entry. -/
theorem execCapFifoPop_eq :
    exec (.capFifoPop k) s
      = s.becomes ((s.m.emit "READ" (Reg.CAPk_SH k) ((s.m.latch.lookup (Reg.CAPk_SH k)).getD (s.m.rd (Reg.CAPk_SH k))).toNat).setCap k ((s.m.cap k).drop 1)) :=
  s.onInst_eq (decide_eq_true hk) _

theorem execCapOvfClear_clears {v : Word} (hv : v.toNat / 2 ^ 31 % 2 = 1) :
    exec (.capOvfClear k v) s = s.becomes (s.m.s (.CAPk_STS_ovf k) 0) :=
  (s.onInst_eq (decide_eq_true hk) _).trans (congrArg s.becomes (if_pos hv))

/-- What an edge that enters a FIFO with room leaves. -/
theorem Mach.capture_shows {m : Mach} {x : CapEdge} (hx : (m.g (.CAPk_CTRL_edge k)).testBit (if x.rising then 0 else 1) = true)
    (hl : (m.cap k).length < 16) (hlen : m.time.cap.length = 8) (e : Env) :
    (m.capture e k x).cap k = m.cap k ++ [x] ∧ (m.capture e k x).g (.CAPk_STS_level k) = (m.cap k).length + 1
      ∧ (m.capture e k x).bit Reg.TIME_IRQ_STS (8 + k) = true := by
  rw [Mach.capture_enters hx hl, Mach.note]
  refine ⟨?_, ?_, ?_⟩
  · exact (congrArg (fun t : TimeSt => nth [] t.cap k) (Mach.posted_event _ _ _ _ _).time).trans (m.cap_setCap_same (hlen ▸ hk))
  · rw [Mach.g_event _ _ _ _ _ (by simp only [farReg, Fld.CAPk_STS_level]; omega), Mach.g_setCap_level _ (by rw [List.length_append, List.length_singleton]; omega),
      List.length_append, List.length_singleton]
  · rw [Mach.bit_congr (Mach.rd_event _ _ _ _ _ (by decide)), m.bit_setCap hk]
    simp

end

/-! ### Overflow counts and levels (R74, R78) -/

/-- A field of a register is cleared beside another. -/
theorem Mach.s_clears (m : Mach) {f g : Fld} (hf : f.lo ≤ f.hi) (hfg : f.hi < g.lo) (hg : g.lo ≤ g.hi) (hh : g.hi < 32) :
    (m.s f 0).g f = 0 ∧ (m.s f 0).g g = m.g g ∧ ∀ off : Nat, off ≠ f.off → (m.s f 0).rd off = m.rd off :=
  ⟨(m.g_s_same hf (by omega) 0).trans (Nat.zero_mod _), m.g_s_beside hf (by omega) hg (.inl hfg) 0, fun _ ho => m.rd_s_other ho 0⟩

/-! ### PTP stamps (R76 to R78) -/

theorem Mach.ptpTake_taken {m : Mach} {p : Nat} (h : p < m.time.ptp.length) : nth [] (m.ptpTake p).time.ptp p = [] ∧ (m.ptpTake p).out = m.out := by
  unfold Mach.ptpTake
  split
  · next he => exact ⟨List.isEmpty_iff.mp he, rfl⟩
  · rw [Mach.s_time, Mach.s_out, Mach.withTime_out]
    exact ⟨nth_upd_same _ h _, rfl⟩

theorem execPtpEventStamp_eq {s : State} {p : Nat} (hp : p < 2) (egress : Bool) (f : List Byte) :
    exec (.ptpEventStamp p egress f) s = s.becomes (s.m.ptpStamp s.env p egress f) := s.onInst_eq (decide_eq_true hp) _

theorem execPtpOvfClear_clears {s : State} {p : Nat} (hp : p < 2) {v : Word} (hv : v.toNat / 2 ^ 31 % 2 = 1) :
    exec (.ptpOvfClear p v) s = s.becomes (s.m.s (.PTPp_STS_ovf p) 0) :=
  (s.onInst_eq (decide_eq_true hp) _).trans (congrArg s.becomes (if_pos hv))

section
variable {m : Mach} {e : Env} {p o : Nat} {udp : Bool} {f : List Byte} (hat : ptpAt f = some (o, udp)) (hev : ptpEvent f o = true)
  (hen : m.b (.PTPp_CTRL_en p) = true) (hon : (if udp then m.b (.PTPp_CTRL_udp4 p) else m.b (.PTPp_CTRL_l2 p)) = true)
include hat hev hen hon

/-- An ingress stamp leaves, and the egress stamps before it have been taken. -/
theorem Mach.ptpStamp_ingress :
    m.ptpStamp e p false f = (m.ptpTake p).emit "PTP_INGRESS" p (netAt f (o + 30) 2)
      (le 1 (netAt f o 1 % 16) ++ (e.now.move (-(m.gi (.PTPp_RX_LAT_rx_lat p)))).bytes) := by
  simp [Mach.ptpStamp, hat, hev, hen, hon]

/-- A one-step Sync carries its stamp away. -/
theorem Mach.ptpStamp_oneStep (h1 : m.b (.PTPp_CTRL_one_step p) = true) (ht : netAt f o 1 % 16 = 0) :
    m.ptpStamp e p true f = m.emit "PTP_ONE_STEP" p (netAt f (o + 30) 2) (ptpOneStep f o udp (e.now.move (m.gi (.PTPp_TX_LAT_tx_lat p)))) := by
  simp [Mach.ptpStamp, hat, hev, hen, hon, h1, ht]

/-- Any other egress stamp enters its FIFO while it has room. -/
theorem Mach.ptpStamp_enters (h1 : m.b (.PTPp_CTRL_one_step p) = false ∨ netAt f o 1 % 16 ≠ 0) (hl : (nth [] m.time.ptp p).length < 16) :
    m.ptpStamp e p true f = { m with time := { m.time with ptp := upd m.time.ptp p fun _ => nth [] m.time.ptp p
      ++ [EgressStamp.mk (netAt f o 1 % 16) (netAt f (o + 30) 2) (e.now.move (m.gi (.PTPp_TX_LAT_tx_lat p)))] } }.s
        (.PTPp_STS_level p) ((nth [] m.time.ptp p).length + 1) := by
  have hstep : ¬ (m.b (.PTPp_CTRL_one_step p) && netAt f o 1 % 16 == 0) = true := by
    rcases h1 with h1 | h1
    all_goals simp [h1]
  unfold Mach.ptpStamp
  rw [hat]
  dsimp only
  rw [if_neg (by simp [hen, hon, hev]), if_neg (by simp), if_neg hstep, if_neg (Nat.not_le.mpr hl)]

end

/-- Settles O22: an edge or a stamp enters, overflows, is taken or carried away, and the counts clear. -/
theorem capturesAndPtpStamps : Obligations.CapturesAndPtpStamps := by
  intro s k
  refine ⟨fun rising n x hk hsrc hn hx hedge => ?_, fun rising n hk h => execCaptureEdge_none hk h, fun x l hk hlen hcap hl => ?_, fun v hk hv => ?_,
    fun v hk hv => ?_, fun udp f o hk hlen hat hev hen hon => ⟨fun h1 hl => ?_, fun h1 ht => ?_, ?_⟩⟩
  · have hexec := execCaptureEdge_edge (rising := rising) hk hsrc hn
    rw [← hx] at hexec
    have hedge' : (s.m.g (.CAPk_CTRL_edge k)).testBit (if x.rising then 0 else 1) = true := by rw [hx]; exact hedge
    refine ⟨fun hl hlen => ?_, fun hl => ?_⟩
    · obtain ⟨hcap, hlevel, hirq⟩ := Mach.capture_shows hk hedge' hl hlen s.env
      exact ⟨_, hexec, hcap, rfl, hlevel, hirq⟩
    · rw [hexec, Mach.capture_overflows hedge' hl]
  · have hx := execCapFifoPop_eq (s := s) hk
    rw [hcap, List.drop_one, List.tail_cons] at hx
    exact ⟨_, hx, Mach.cap_setCap_same _ (hlen ▸ hk), Mach.g_setCap_level _ (by omega), rfl, Mach.bit_setCap _ hk, Mach.setCap_out _ _ _⟩
  · exact ⟨_, execCapOvfClear_clears hk hv, s.m.s_clears (f := .CAPk_STS_ovf k) (g := .CAPk_STS_level k) (by decide : 0 ≤ 15) (by decide : 15 < 16)
      (by decide : 16 ≤ 20) (by decide : 20 < 32)⟩
  · exact ⟨_, execPtpOvfClear_clears hk hv, s.m.s_clears (f := .PTPp_STS_ovf k) (g := .PTPp_STS_level k) (by decide : 0 ≤ 15) (by decide : 15 < 16)
      (by decide : 16 ≤ 20) (by decide : 20 < 32)⟩
  · have hx := execPtpEventStamp_eq (s := s) hk true f
    rw [Mach.ptpStamp_enters hat hev hen hon h1 hl] at hx
    refine ⟨_, hx, rfl, nth_upd_same _ (hlen ▸ hk) _, ?_⟩
    exact (Mach.g_s_same _ (by decide : 16 ≤ 20) (by decide : 20 < 32) _).trans (Nat.mod_eq_of_lt (show _ < 32 by omega))
  · have hx := execPtpEventStamp_eq (s := s) hk true f
    rw [Mach.ptpStamp_oneStep hat hev hen hon h1 ht] at hx
    exact ⟨_, hx, rfl, rfl, rfl⟩
  · obtain ⟨htaken, hout⟩ := Mach.ptpTake_taken (m := s.m) (p := k) (hlen ▸ hk)
    have hx := execPtpEventStamp_eq (s := s) hk false f
    rw [Mach.ptpStamp_ingress hat hev hen hon] at hx
    exact ⟨_, hx, htaken, congrArg _ hout⟩

end Sys2Proof.Machine
end

section
/-!
PROOFS. The commands of the GNSS block.
-/
namespace Sys2Proof.Machine

/-- Settles O24: each clause is the command's own part on a state that takes it; corrections are dated as they arrive (log 56). -/
theorem gnssCommandsAnswer : Obligations.GnssCommandsAnswer := by
  intro s c hc
  refine ⟨fun hlo hhi => ?_, fun lat lon hlat hlon ha ho => ?_, fun r m1 h1 hmin hmax hdata hr hdrop hpart hcorr => ?_, fun w hw hrate hbase hage => ?_,
    fun hk hcode => ?_, fun hk hcode => ?_, fun x hx hsys hlo hhi hop => ?_, fun hq he => ?_, ?_⟩
  · change execGnsRestart c s = _
    unfold execGnsRestart
    exact State.command_done hc (by simp [Nat.ne_of_gt hlo, Nat.not_lt.mpr hhi, Res.ok]) (.inr rfl) (Nat.zero_le _)
  · change execGnsAid c s = _
    unfold execGnsAid
    subst hlat hlon
    exact State.command_done hc (by simp [Nat.not_lt.mpr ha, Nat.not_lt.mpr ho, Res.ok]) (.inl rfl) (Nat.zero_le _)
  · change execGnsRtcm c s = _
    unfold execGnsRtcm
    refine State.command_done hc ((if_neg (by simp [hmin, hmax, hdata])).trans ?_) (.inl rfl) (Nat.zero_le _)
    dsimp only
    rw [← hr, ← h1]
    simp [hdrop, hpart, hcorr]
  · change execGnsCfgSet c s = _
    unfold execGnsCfgSet
    subst hw
    exact State.command_done hc (by simp [Nat.not_le.mpr hrate, hbase, hage, Res.ok]) (.inr rfl) (Nat.zero_le _)
  · have hff : c.u8 0 ≠ 0xFF := by omega
    have hin : ¬ (decide (16 ≤ c.u8 1) || (decide (96 ≤ c.u8 0) && c.u8 0 != 0xFF)) = true := by
      rw [decide_eq_false (Nat.not_le.mpr hcode), decide_eq_false (Nat.not_le.mpr hk)]
      exact Bool.false_ne_true
    change execGnsSpacingSet c s = _
    unfold execGnsSpacingSet
    exact State.command_done hc ((if_neg hin).trans (if_neg hff)) (.inl rfl) (Nat.zero_le _)
  · change execGnsSpacingSet c s = _
    unfold execGnsSpacingSet
    exact State.command_done hc ((if_neg (by simp [hcode, hk])).trans (if_pos hk)) (.inl rfl) (Nat.zero_le _)
  · have hlist : (if c.u8 2 = 1 then x :: s.m.gns.excluded.filter (· != x) else s.m.gns.excluded.filter (· != x))
        = (if c.u8 2 = 1 then [x] else []) ++ s.m.gns.excluded.filter (· != x) := by split <;> rfl
    change execGnsSvExclude c s = _
    unfold execGnsSvExclude
    rw [← hlist]
    subst hx
    exact State.command_done hc (if_neg (by simp [hsys, Nat.ne_of_gt hlo, hhi, hop])) (.inr rfl) (Nat.zero_le _)
  · have hff : c.u8 0 ≠ 0xFF := by omega
    change execGnsObsStream c s = _
    unfold execGnsObsStream
    exact State.command_done hc (by simp [queueOk, hq, he, hff, Res.ok]) (.inl rfl) (Nat.zero_le _)
  · change execGnsStatusGet c s = _
    unfold execGnsStatusGet
    exact State.command_done hc rfl (.inl rfl) (Nat.zero_le _)

end Sys2Proof.Machine
end

section
/-!
PROOFS. What happens to the GNSS receiver: antennas, channels, spacings, releases, loss and return of signals, notches, indicators, restarts and solution epochs.
-/
namespace Sys2Proof.Machine

/-! ### Lichen and the streams leave the receiver alone (R207, R560) -/

section
variable (m : Mach)

theorem Mach.linkSend_gns (typ dest : Nat) (p : List Byte) : (m.linkSend typ dest p).gns = m.gns :=
  (congrArg Mach.gns (m.linkSend_eq typ dest p) :)

theorem Mach.heaveStep_gns (t : Nat) (heave : F64) : (m.heaveStep t heave).gns = m.gns := by
  unfold Mach.heaveStep
  dsimp only
  split
  · rfl
  · split
    · refine (Mach.sb_gns _ _ _).trans ?_
      split
      · split <;> rfl
      · refine (Mach.setBit_gns _ _ _ _).trans ?_
        split <;> rfl
    · rfl

theorem Mach.lchMotion_gns (t : Nat) : (m.lchMotion t).gns = m.gns := by
  unfold Mach.lchMotion
  extract_lets vs v f m1
  split
  · rfl
  · exact Mach.heaveStep_gns _ _ _

theorem Mach.lchAccept_gns (s : Nat) (x : LchSample) : (m.lchAccept s x).gns = m.gns := by
  unfold Mach.lchAccept
  extract_lets l stamps n per late q m1 m2
  have h1 : m1.gns = m.gns := by
    unfold m1
    rw [Mach.s_gns, Mach.sb_gns, Mach.s_gns]
    rfl
  have h2 : m2.gns = m.gns := by
    unfold m2
    split
    · exact (Mach.up_gns _ _).trans h1
    · exact h1
  clear_value m2
  split
  · rfl
  · split
    · exact (m2.lchMotion_gns _).trans h2
    · exact h2

theorem Mach.lchOwn_gns (s stamp : Nat) (x : LchSample) : (m.lchOwn s stamp x).gns = m.gns := by
  unfold Mach.lchOwn Mach.lchTake
  rw [Mach.linkSend_gns]
  split
  · exact m.lchAccept_gns s _
  · rfl

/-- A sample that reaches its slots leaves the receiver as it is. -/
theorem Mach.lchValue_gns (typ index stamp : Nat) (x : Nat → Option LchSample) : (m.lchValue typ index stamp x).gns = m.gns := by
  refine iter_keeps Mach.gns (fun s m' => ?_) m
  split
  · split
    · exact m'.lchOwn_gns s stamp _
    · rfl
  · rfl

theorem Mach.posted_tellGap (e : Env) (j : Nat) : m.Posted (m.tellGap e j) := by
  unfold Mach.tellGap
  dsimp only
  split
  · exact m.posted_push _ _ _ _
  · exact .refl m

/-- A stream record is posted. -/
theorem Mach.posted_stream (e : Env) (j kind source flags : Nat) (body : List Byte) : m.Posted (m.stream e j kind source flags body) := by
  unfold Mach.stream
  extract_lets m1 r n
  have h1 : m.Posted m1 := m.posted_tellGap e j
  split
  · split
    · exact m.posted_up _
    · exact .refl m
  · refine h1.trans ?_
    split
    · exact m1.posted_push _ _ _ _
    · exact (((m1.posted_setRing _ _ _).trans (Mach.posted_up _ _)).trans (Mach.posted_up _ _)).trans (Mach.posted_setBit _ _ _ _)

end

theorem Mach.b_congr {m m' : Mach} {f : Fld} (h : m'.rd f.off = m.rd f.off) : m'.b f = m.b f := by
  simp only [Mach.b, Mach.g_congr h]

/-! ### What moves with channels (R95 to R99) -/

/-- Only channels move: the registers below theirs, the timebase's part, the navigation data, the aid and the newest epoch stay. -/
structure Mach.ChannelsMove (m m' : Mach) : Prop where
  rd : ∀ off, off < Reg.GNS_CHc_STS 0 → m'.rd off = m.rd off
  time : m'.time = m.time
  nav : m'.gns.nav = m.gns.nav
  aid : m'.gns.aid = m.gns.aid
  epochAt : m'.gns.epochAt = m.gns.epochAt

theorem Mach.ChannelsMove.refl (m : Mach) : m.ChannelsMove m := ⟨fun _ _ => rfl, rfl, rfl, rfl, rfl⟩

theorem Mach.ChannelsMove.trans {a b c : Mach} (h : a.ChannelsMove b) (h' : b.ChannelsMove c) : a.ChannelsMove c where
  rd off ho := (h'.rd off ho).trans (h.rd off ho)
  time := h'.time.trans h.time
  nav := h'.nav.trans h.nav
  aid := h'.aid.trans h.aid
  epochAt := h'.epochAt.trans h.epochAt

theorem Mach.ChannelsMove.g {m m' : Mach} (h : m.ChannelsMove m') {f : Fld} (hf : f.off < Reg.GNS_CHc_STS 0) : m'.g f = m.g f :=
  Mach.g_congr (h.rd _ hf)

theorem Mach.ChannelsMove.b {m m' : Mach} (h : m.ChannelsMove m') {f : Fld} (hf : f.off < Reg.GNS_CHc_STS 0) : m'.b f = m.b f :=
  Mach.b_congr (h.rd _ hf)

/-- The best way to start does not depend on the channels (R100). -/
theorem Mach.ChannelsMove.bestStart {m m' : Mach} (h : m.ChannelsMove m') (e : Env) : m'.bestStart e = m.bestStart e := by
  have hv : m'.b .TIME_STS_valid = m.b .TIME_STS_valid := h.b (by decide)
  simp only [Mach.bestStart, h.nav, h.aid, h.time, hv]

section
variable (m : Mach) (e : Env)

theorem Mach.channelsMove_wr {off : Nat} (h : Reg.GNS_CHc_STS 0 ≤ off) (v : Word) : m.ChannelsMove (m.wr off v) :=
  ⟨fun _ ho => Mach.rd_wr_other (Nat.ne_of_lt (Nat.lt_of_lt_of_le ho h)) m v, rfl, rfl, rfl, rfl⟩

theorem Mach.channelsMove_s {f : Fld} (h : Reg.GNS_CHc_STS 0 ≤ f.off) (v : Nat) : m.ChannelsMove (m.s f v) := m.channelsMove_wr h _

/-- A machine that differs in what is stored by channel. -/
theorem Mach.channelsMove_stored (sp low : List (Option Nat)) (at_ : Nat) :
    m.ChannelsMove { m with gns := { m.gns with spacing := sp, cn0Low := low, lastLock := at_ } } := ⟨fun _ _ => rfl, rfl, rfl, rfl, rfl⟩

theorem Mach.channelsMove_lockNow : m.ChannelsMove (m.lockNow e) := m.channelsMove_stored _ _ _

theorem Mach.channelsMove_chRelease (c : Nat) : m.ChannelsMove (m.chRelease c) :=
  (m.channelsMove_stored _ _ _).trans (Mach.channelsMove_wr _ (Nat.le_add_right _ _) _)

theorem foldl_channelsMove {α : Type} {f : Mach → α → Mach} (hf : ∀ m a, Mach.ChannelsMove m (f m a)) (l : List α) : m.ChannelsMove (l.foldl f m) :=
  List.foldlRecOn l f (.refl m) fun m' h a _ => h.trans (hf m' a)

theorem Mach.channelsMove_chReleaseIf (f : Mach → Nat → Bool) : m.ChannelsMove (m.chReleaseIf e f) := by
  refine foldl_channelsMove m (fun m' c => ?_) _
  dsimp only
  split
  · refine .trans ?_ (Mach.channelsMove_chRelease _ c)
    split
    · exact m'.channelsMove_lockNow e
    · exact .refl m'
  · exact .refl m'

theorem Mach.channelsMove_chCn0 (c cn0 : Nat) : m.ChannelsMove (m.chCn0 e c cn0) :=
  (m.channelsMove_stored _ _ _).trans (Mach.channelsMove_s _ (Nat.le_add_right _ _) _)

theorem Mach.channelsMove_chAssign (c b sys sv : Nat) : m.ChannelsMove (m.chAssign c b sys sv) :=
  (m.channelsMove_chRelease c).trans (((((Mach.channelsMove_s _ (Nat.le_add_right _ _) _).trans
    (Mach.channelsMove_s _ (Nat.le_add_right _ _) _)).trans (Mach.channelsMove_s _ (Nat.le_add_right _ _) _)).trans
    (Mach.channelsMove_s _ (Nat.le_add_right _ _) _)).trans (Mach.channelsMove_s _ (Nat.le_add_right _ _) _))

theorem Mach.channelsMove_satAssign (a : Nat) (bands : List Nat) (sys sv : Nat) : m.ChannelsMove (m.satAssign a bands sys sv) := by
  unfold Mach.satAssign
  extract_lets lacks free
  split
  · exact .refl m
  · exact foldl_channelsMove m (fun m' p => m'.channelsMove_chAssign _ _ _ _) _

theorem Mach.channelsMove_assignChannels (a : Nat) (sky : List (Nat × Nat × Nat)) : m.ChannelsMove (m.assignChannels e a sky) := by
  unfold Mach.assignChannels
  extract_lets bands room want m1
  exact (m.channelsMove_chReleaseIf e _).trans (foldl_channelsMove m1 (fun m' x => m'.channelsMove_satAssign _ _ _ _) _)

end

/-! ### Channels are released (R94, R96, R98) -/

/-- Channel c is released if the test picks it. -/
def Mach.chDrop (e : Env) (f : Mach → Nat → Bool) (c : Nat) (m : Mach) : Mach :=
  if (m.rd (Reg.GNS_CHc_STS c)) != 0 && f m c then (if m.chLocked c then m.lockNow e else m).chRelease c else m

theorem Mach.chReleaseIf_eq (m : Mach) (e : Env) (f : Mach → Nat → Bool) : m.chReleaseIf e f = iter 96 (Mach.chDrop e f) m := rfl

section
variable {e : Env} {f : Mach → Nat → Bool}

theorem Mach.rd_chRelease (m : Mach) (c off : Nat) : (m.chRelease c).rd off = if off = Reg.GNS_CHc_STS c then 0 else m.rd off := by
  unfold Mach.chRelease
  split
  · next h => rw [h, Mach.rd_wr_same]
  · next h => exact Mach.rd_wr_other h _ _

theorem Mach.rd_chDrop (m : Mach) (c off : Nat) :
    (m.chDrop e f c).rd off = if off = Reg.GNS_CHc_STS c ∧ f m c = true then 0 else m.rd off := by
  have hlock : (if m.chLocked c then m.lockNow e else m).rd off = m.rd off := by split <;> rfl
  unfold Mach.chDrop
  by_cases h : ((m.rd (Reg.GNS_CHc_STS c)) != 0 && f m c) = true
  · have hf : f m c = true := (Bool.and_eq_true_iff.mp h).2
    rw [if_pos h, Mach.rd_chRelease, hlock]
    simp [hf]
  · rw [if_neg h]
    split
    · next hp =>
      obtain ⟨rfl, hf⟩ := hp
      simpa [hf] using h
    · rfl

/-- Each channel has a register of its own. -/
theorem chSts_inj {c n : Nat} (h : Reg.GNS_CHc_STS c = Reg.GNS_CHc_STS n) : c = n := by
  simp only [Reg.GNS_CHc_STS] at h
  omega

/-- A test that looks at a channel's own register only. -/
def judgesChannel (f : Mach → Nat → Bool) : Prop :=
  ∀ (m m' : Mach) (c : Nat), m'.rd (Reg.GNS_CHc_STS c) = m.rd (Reg.GNS_CHc_STS c) → f m' c = f m c

theorem Mach.rd_iter_chDrop (hf : judgesChannel f) (m : Mach) (n c : Nat) :
    (iter n (Mach.chDrop e f) m).rd (Reg.GNS_CHc_STS c) = if c < n ∧ f m c = true then 0 else m.rd (Reg.GNS_CHc_STS c) := by
  induction n with
  | zero => simp [iter]
  | succ n ih =>
    rw [iter_succ, Mach.rd_chDrop]
    rcases Nat.lt_trichotomy c n with h | rfl | h
    · rw [if_neg fun hp => Nat.ne_of_lt h (chSts_inj hp.1), ih]
      simp only [h, Nat.lt_succ_of_lt h, true_and]
    · rw [hf m _ c (by simp [ih]), ih]
      simp
    · rw [if_neg fun hp => Nat.ne_of_gt h (chSts_inj hp.1), ih]
      simp only [Nat.not_lt.mpr (Nat.le_of_lt h), Nat.not_lt.mpr h, false_and]

/-- Each channel that the test picks is IDLE with nothing assigned, and the others stay. -/
theorem Mach.rd_chReleaseIf (hf : judgesChannel f) (m : Mach) {c : Nat} (hc : c < 96) :
    (m.chReleaseIf e f).rd (Reg.GNS_CHc_STS c) = if f m c = true then 0 else m.rd (Reg.GNS_CHc_STS c) := by
  rw [Mach.chReleaseIf_eq, Mach.rd_iter_chDrop hf]
  simp [hc]

theorem judgesChannel_chIs (a sys sv : Nat) : judgesChannel fun m c => m.chIs c a sys sv := by
  intro m m' c h
  have hg {f : Fld} (ho : f.off = Reg.GNS_CHc_STS c) : m'.g f = m.g f := Mach.g_congr (ho ▸ h)
  simp only [Mach.chIs, hg (f := .GNS_CHc_STS_state c) rfl, hg (f := .GNS_CHc_STS_sys c) rfl, hg (f := .GNS_CHc_STS_sv c) rfl]

/-- A satellite's channels on an antenna are released together (R98). -/
theorem Mach.rd_satRelease (m : Mach) (e : Env) (a sys sv : Nat) {c : Nat} (hc : c < 96) :
    (m.chReleaseIf e fun m c => m.chIs c a sys sv).rd (Reg.GNS_CHc_STS c) = if m.chIs c a sys sv then 0 else m.rd (Reg.GNS_CHc_STS c) := by
  rw [Mach.rd_chReleaseIf (f := fun m c => m.chIs c a sys sv) (judgesChannel_chIs a sys sv) m hc]

theorem judgesChannel_place (p : Nat → Bool) : judgesChannel fun _ c => p c := fun _ _ _ _ => rfl

end

/-! ### Antennas (R93, R94) -/

/-- One socket's bias switches. -/
def Mach.biasStep (was : Nat → Nat) (a : Nat) (m : Mach) : Mach := if m.antVolts a = was a then m else m.emit "ANT_BIAS" a (m.antVolts a)

section
variable (m : Mach) (was : Nat → Nat)

theorem Mach.biasFollow_eq : m.biasFollow was = (m.biasStep was 0).biasStep was 1 := rfl

theorem Mach.biasStep_regs (a : Nat) : (m.biasStep was a).regs = m.regs := by
  unfold Mach.biasStep
  split <;> rfl

theorem Mach.biasFollow_regs : (m.biasFollow was).regs = m.regs := (Mach.biasStep_regs _ was 1).trans (m.biasStep_regs was 0)

theorem Mach.biasFollow_gns : (m.biasFollow was).gns = m.gns := by
  refine iter_keeps Mach.gns (fun a m' => ?_) m
  split <;> rfl

theorem Mach.antVolts_congr {m m' : Mach} (h : m'.regs = m.regs) (a : Nat) : m'.antVolts a = m.antVolts a := by
  have hb (f : Fld) : m'.b f = m.b f := Mach.b_congr (Mach.rd_regs h _)
  simp only [Mach.antVolts, hb, Mach.g_regs h]

theorem Mach.biasStep_out {a : Nat} (h : m.antVolts a ≠ was a) : (m.biasStep was a).out = ⟨"ANT_BIAS", a, m.antVolts a, []⟩ :: m.out := by
  unfold Mach.biasStep
  rw [if_neg h]
  rfl

theorem Mach.adds_biasStep (a : Nat) : m.Adds (m.biasStep was a) := by
  unfold Mach.biasStep
  split
  · exact .refl m
  · exact List.suffix_cons _ _

/-- The bias that is another one than before leaves at its pin. -/
theorem Mach.biasFollow_mem {a : Nat} (ha : a < 2) (h : m.antVolts a ≠ was a) : ⟨"ANT_BIAS", a, m.antVolts a, []⟩ ∈ (m.biasFollow was).out := by
  rw [Mach.biasFollow_eq]
  rcases Nat.lt_succ_iff_lt_or_eq.mp ha with h0 | rfl
  · obtain rfl : a = 0 := Nat.lt_one_iff.mp h0
    refine (Mach.adds_biasStep _ was 1).mem ?_
    rw [m.biasStep_out was h]
    exact List.mem_cons_self
  · have hv := Mach.antVolts_congr (m.biasStep_regs was 0) 1
    rw [Mach.biasStep_out _ was (hv ▸ h), hv]
    exact List.mem_cons_self

end

/-- The machine that has told another state of an antenna. -/
def Mach.antTold (m : Mach) (e : Env) (a st : Nat) : Mach :=
  ((m.s (antState a) st).setBit Reg.GNS_IRQ_STS (3 + a) true).event e 0x2006 (some 3) (le 1 a ++ le 1 st)

/-- The machine on which an antenna has another state, told and with its bias switched. -/
def Mach.antMoved (m : Mach) (e : Env) (a st : Nat) : Mach := (m.antTold e a st).biasFollow m.antVolts

section
variable {m : Mach} {e : Env} {a st : Nat}

theorem Mach.antSet_same (h : m.g (antState a) = st) : m.antSet e a st = m := if_pos h

theorem Mach.antSet_eq (h : m.g (antState a) ≠ st) :
    m.antSet e a st = if (m.antMoved e a st).antOn a then m.antMoved e a st else (m.antMoved e a st).chReleaseIf e fun _ c => c / 48 == a := if_neg h

theorem Mach.rd_antMoved {off : Nat} (hf : farReg off) :
    (m.antMoved e a st).rd off = ((m.s (antState a) st).setBit Reg.GNS_IRQ_STS (3 + a) true).rd off :=
  (Mach.rd_regs (Mach.biasFollow_regs _ _) off).trans (Mach.rd_event _ _ _ _ _ hf)

theorem Mach.rd_antMoved_other {off : Nat} (hf : farReg off) (hs : off ≠ Reg.GNS_ANT_STS) (hi : off ≠ Reg.GNS_IRQ_STS) :
    (m.antMoved e a st).rd off = m.rd off :=
  (Mach.rd_antMoved hf).trans ((Mach.rd_setBit_other _ hi _ _).trans (Mach.rd_s_other _ hs _))

theorem Mach.g_antMoved_states (b : Nat) : (m.antMoved e a st).g (antState b) = (m.s (antState a) st).g (antState b) :=
  (Mach.g_congr (Mach.rd_antMoved (off := Reg.GNS_ANT_STS) (by decide))).trans (Mach.g_setBit_other _ (by decide : Reg.GNS_ANT_STS ≠ Reg.GNS_IRQ_STS) _ _)

theorem fldWidth_antState (a : Nat) : fldWidth (antState a) = 2 := by
  simp only [fldWidth, antState]
  omega

/-- The antenna shows its new state. -/
theorem Mach.g_antMoved (ha : a < 2) (hs : st < 4) : (m.antMoved e a st).g (antState a) = st := by
  rw [Mach.g_antMoved_states, Mach.g_s_same m (Nat.le_succ _) (show 8 * a + 1 < 32 by omega), fldWidth_antState]
  exact Nat.mod_eq_of_lt hs

/-- The other antenna keeps its state. -/
theorem Mach.g_antMoved_other {b : Nat} (ha : a < 2) (hb : b ≠ a) : (m.antMoved e a st).g (antState b) = m.g (antState b) := by
  rw [Mach.g_antMoved_states, Mach.g_s_beside m (Nat.le_succ _) (show 8 * a + 1 < 32 by omega) (Nat.le_succ _)
    (show 8 * a + 1 < 8 * b ∨ 8 * b + 1 < 8 * a by omega)]

theorem Mach.bit_antMoved (ha : a < 2) : (m.antMoved e a st).bit Reg.GNS_IRQ_STS (3 + a) = true :=
  (Mach.bit_congr (Mach.rd_antMoved (by decide)) _).trans (Mach.bit_setBit_same _ _ (by omega) true)

/-- The settings of an antenna stay. -/
theorem Mach.rd_antMoved_cfg : (m.antMoved e a st).rd Reg.GNS_ANT_CFG = m.rd Reg.GNS_ANT_CFG :=
  Mach.rd_antMoved_other (by decide) (by decide) (by decide)

theorem Mach.antMoved_epochAt : (m.antMoved e a st).gns.epochAt = m.gns.epochAt :=
  congrArg Gns.epochAt ((Mach.biasFollow_gns _ _).trans (Mach.posted_event _ _ _ _ _).gns)

/-- An antenna's change leaves the settings and the other antenna alone. -/
theorem Mach.antSet_beside {b : Nat} (ha : a < 2) (hb : b ≠ a) :
    (m.antSet e a st).g (antState b) = m.g (antState b) ∧ (m.antSet e a st).rd Reg.GNS_ANT_CFG = m.rd Reg.GNS_ANT_CFG := by
  by_cases h : m.g (antState a) = st
  · rw [Mach.antSet_same h]
    exact ⟨rfl, rfl⟩
  · rw [Mach.antSet_eq h]
    split
    · exact ⟨Mach.g_antMoved_other ha hb, Mach.rd_antMoved_cfg⟩
    · have hm := (m.antMoved e a st).channelsMove_chReleaseIf e fun _ c => c / 48 == a
      exact ⟨(hm.g (f := antState b) (show Reg.GNS_ANT_STS < _ by decide)).trans (Mach.g_antMoved_other ha hb), (hm.rd _ (by decide)).trans Mach.rd_antMoved_cfg⟩

theorem Mach.antSet_epochAt (m : Mach) (e : Env) (a st : Nat) : (m.antSet e a st).gns.epochAt = m.gns.epochAt := by
  by_cases h : m.g (antState a) = st
  · rw [Mach.antSet_same h]
  · rw [Mach.antSet_eq h]
    split
    · exact Mach.antMoved_epochAt
    · exact (Mach.channelsMove_chReleaseIf _ e _).epochAt.trans Mach.antMoved_epochAt

/-- A check of one antenna leaves the settings and the other antenna alone. -/
theorem Mach.antCheck_beside {b : Nat} (ha : a < 2) (hb : b ≠ a) (ua : Nat) :
    (m.antCheck e a ua).g (antState b) = m.g (antState b) ∧ (m.antCheck e a ua).rd Reg.GNS_ANT_CFG = m.rd Reg.GNS_ANT_CFG := by
  unfold Mach.antCheck
  split
  · exact Mach.antSet_beside ha hb
  · split
    · exact ⟨rfl, rfl⟩
    · exact Mach.antSet_beside ha hb

/-- An antenna that comes to SHORT shows it, raises its source, and its channels are released (R94). -/
theorem Mach.antSet_short (ha : a < 2) (h : m.g (antState a) ≠ 2) :
    (m.antSet e a 2).g (antState a) = 2 ∧ (m.antSet e a 2).bit Reg.GNS_IRQ_STS (3 + a) = true
      ∧ ∀ c : Nat, c < 96 → c / 48 = a → (m.antSet e a 2).rd (Reg.GNS_CHc_STS c) = 0 := by
  have hs : (m.antMoved e a 2).g (antState a) = 2 := Mach.g_antMoved ha (by decide)
  have hon : ¬ (m.antMoved e a 2).antOn a = true := by simp [Mach.antOn, hs]
  rw [Mach.antSet_eq h, if_neg hon]
  have hm := (m.antMoved e a 2).channelsMove_chReleaseIf e fun _ c => c / 48 == a
  refine ⟨(hm.g (f := antState a) (show Reg.GNS_ANT_STS < _ by decide)).trans hs, (Mach.bit_congr (hm.rd _ (by decide)) _).trans (Mach.bit_antMoved ha),
    fun c hc hca => ?_⟩
  rw [Mach.rd_chReleaseIf (judgesChannel_place fun c => c / 48 == a) _ hc]
  simp [hca]

/-- An antenna that returns from SHORT shows it, raises its source, and gets its bias again (R93). -/
theorem Mach.antSet_ok (ha : a < 2) (h : m.g (antState a) = 2) (hen : m.b (antEn a) = true) (hbias : m.b (antBias a) = true) :
    (m.antSet e a 0).g (antState a) = 0 ∧ (m.antSet e a 0).bit Reg.GNS_IRQ_STS (3 + a) = true
      ∧ ⟨"ANT_BIAS", a, if m.b (antBias5 a) then 50 else 33, []⟩ ∈ (m.antSet e a 0).out := by
  have hs : (m.antMoved e a 0).g (antState a) = 0 := Mach.g_antMoved ha (by decide)
  have hen' : (m.antMoved e a 0).b (antEn a) = true := (Mach.b_congr (f := antEn a) Mach.rd_antMoved_cfg).trans hen
  have hbias' : (m.antMoved e a 0).b (antBias a) = true := (Mach.b_congr (f := antBias a) Mach.rd_antMoved_cfg).trans hbias
  have h5 : (m.antMoved e a 0).b (antBias5 a) = m.b (antBias5 a) := Mach.b_congr Mach.rd_antMoved_cfg
  have hon : (m.antMoved e a 0).antOn a = true := by simp [Mach.antOn, hs, hen']
  rw [Mach.antSet_eq (by omega), if_pos hon]
  refine ⟨hs, Mach.bit_antMoved ha, ?_⟩
  have hwas : m.antVolts a = 0 := by simp [Mach.antVolts, h]
  have hvolts : (m.antMoved e a 0).antVolts a = if m.b (antBias5 a) then 50 else 33 := by simp [Mach.antVolts, hbias', hs, h5]
  have hv : (m.antTold e a 0).antVolts a = if m.b (antBias5 a) then 50 else 33 :=
    (Mach.antVolts_congr (Mach.biasFollow_regs _ m.antVolts).symm a).trans hvolts
  have hmem := Mach.biasFollow_mem _ m.antVolts ha (by rw [hv, hwas]; split <;> decide)
  rw [hv] at hmem
  by_cases hbias5 : m.b (antBias5 a) = true
  · rw [if_pos hbias5] at hmem ⊢
    exact hmem
  · rw [if_neg hbias5] at hmem ⊢
    exact hmem

end

/-! ### A channel changes state (R97 to R99) -/

/-- A channel in another state, with its C/N0 and no time in lock. -/
def Mach.chSeen (m : Mach) (e : Env) (c st cn0 : Nat) : Mach := ((m.s (.GNS_CHc_STS_state c) st).chCn0 e c cn0).s (.GNS_CHc_STS_lock c) 0

section
variable {m : Mach} {e : Env} {c st cn0 : Nat}

theorem Mach.rd_chCn0 (m : Mach) (e : Env) (c cn0 off : Nat) : (m.chCn0 e c cn0).rd off = (m.s (.GNS_CHc_STS_cn0 c) cn0).rd off := rfl

theorem Mach.g_chCn0 (m : Mach) (e : Env) (c cn0 : Nat) (f : Fld) : (m.chCn0 e c cn0).g f = (m.s (.GNS_CHc_STS_cn0 c) cn0).g f := rfl

theorem Mach.g_chSeen_state (h : st < 4) : (m.chSeen e c st cn0).g (.GNS_CHc_STS_state c) = st := by
  unfold Mach.chSeen
  rw [Mach.g_s_beside _ (show 0 ≤ 7 by decide) (show 7 < 32 by decide) (show 30 ≤ 31 by decide) (.inl (show 7 < 30 by decide)), Mach.g_chCn0,
    Mach.g_s_beside _ (show 8 ≤ 15 by decide) (show 15 < 32 by decide) (show 30 ≤ 31 by decide) (.inl (show 15 < 30 by decide)),
    Mach.g_s_same _ (show 30 ≤ 31 by decide) (show 31 < 32 by decide)]
  exact Nat.mod_eq_of_lt h

theorem Mach.g_chSeen_cn0 (h : cn0 < 256) : (m.chSeen e c st cn0).g (.GNS_CHc_STS_cn0 c) = cn0 := by
  unfold Mach.chSeen
  rw [Mach.g_s_beside _ (show 0 ≤ 7 by decide) (show 7 < 32 by decide) (show 8 ≤ 15 by decide) (.inl (show 7 < 8 by decide)), Mach.g_chCn0,
    Mach.g_s_same _ (show 8 ≤ 15 by decide) (show 15 < 32 by decide)]
  exact Nat.mod_eq_of_lt h

theorem Mach.g_chSeen_lock : (m.chSeen e c st cn0).g (.GNS_CHc_STS_lock c) = 0 :=
  (Mach.g_s_same _ (show 0 ≤ 7 by decide) (show 7 < 32 by decide) 0).trans (Nat.zero_mod _)

theorem Mach.rd_chSeen_other {off : Nat} (h : off ≠ Reg.GNS_CHc_STS c) : (m.chSeen e c st cn0).rd off = m.rd off := by
  rw [Mach.chSeen, Mach.rd_s_other _ h, Mach.rd_chCn0, Mach.rd_s_other _ h, Mach.rd_s_other _ h]

theorem Mach.channelsMove_chSeen : m.ChannelsMove (m.chSeen e c st cn0) :=
  ((m.channelsMove_s (Nat.le_add_right _ _) _).trans (Mach.channelsMove_chCn0 _ e c cn0)).trans (Mach.channelsMove_s _ (Nat.le_add_right _ _) _)

/-- The machine that keeps the instant of the last code lock. -/
def Mach.chLockKept (m : Mach) (e : Env) (c st cn0 : Nat) : Mach :=
  if m.chLocked c || st = 3 then (m.chSeen e c st cn0).lockNow e else m.chSeen e c st cn0

theorem Mach.chLockKept_regs : (m.chLockKept e c st cn0).regs = (m.chSeen e c st cn0).regs := by
  unfold Mach.chLockKept
  split <;> rfl

theorem Mach.channelsMove_chLockKept : m.ChannelsMove (m.chLockKept e c st cn0) := by
  refine (Mach.channelsMove_chSeen (e := e) (c := c) (st := st) (cn0 := cn0)).trans ?_
  unfold Mach.chLockKept
  split
  · exact Mach.channelsMove_lockNow _ e
  · exact .refl _

/-- A stored spacing takes effect (R97). -/
def Mach.spacingTaken (m : Mach) (c k : Nat) : Mach :=
  ({ m with gns := { m.gns with spacing := upd m.gns.spacing c fun _ => none } }).s (.GNS_CHc_STS_spacing c) k

theorem Mach.g_spacingTaken (m : Mach) (c k : Nat) : (m.spacingTaken c k).g (.GNS_CHc_STS_spacing c) = k % 16 :=
  Mach.g_s_same _ (show 16 ≤ 19 by decide) (show 19 < 32 by decide) k

theorem Mach.g_spacingTaken_state (m : Mach) (c k : Nat) : (m.spacingTaken c k).g (.GNS_CHc_STS_state c) = m.g (.GNS_CHc_STS_state c) :=
  Mach.g_s_beside _ (show 16 ≤ 19 by decide) (show 19 < 32 by decide) (show 30 ≤ 31 by decide) (.inl (show 19 < 30 by decide)) k

theorem Mach.rd_spacingTaken_other {off : Nat} (h : off ≠ Reg.GNS_CHc_STS c) (m : Mach) (k : Nat) : (m.spacingTaken c k).rd off = m.rd off :=
  Mach.rd_s_other _ h k

theorem Mach.channelsMove_spacingTaken (m : Mach) (c k : Nat) : m.ChannelsMove (m.spacingTaken c k) :=
  (m.channelsMove_stored _ _ _).trans (Mach.channelsMove_s _ (Nat.le_add_right _ _) _)

/-- A channel that does not come to TRACK. -/
theorem Mach.chState_searches (hm : m.g (.GNS_CHc_STS_state c) ≠ 0) (h0 : st ≠ 0) (h3 : st ≠ 3) : m.chState e c st cn0 = m.chLockKept e c st cn0 :=
  (if_neg hm).trans ((if_neg h0).trans (if_pos (bne_iff_ne.mpr h3)))

/-- A channel that comes to TRACK takes the spacing stored for it. -/
theorem Mach.chState_tracks (hm : m.g (.GNS_CHc_STS_state c) ≠ 0) :
    m.chState e c 3 cn0 = match (m.chLockKept e c 3 cn0).gns.spacing.getD c none with
      | some k => (m.chLockKept e c 3 cn0).spacingTaken c k
      | none => m.chLockKept e c 3 cn0 := if_neg hm

/-- A channel in TRACK, and only channels moved. -/
theorem Mach.chState_track_shows (hm : m.g (.GNS_CHc_STS_state c) ≠ 0) :
    (m.chState e c 3 cn0).g (.GNS_CHc_STS_state c) = 3 ∧ m.ChannelsMove (m.chState e c 3 cn0) := by
  have h3 : (m.chLockKept e c 3 cn0).g (.GNS_CHc_STS_state c) = 3 := (Mach.g_regs Mach.chLockKept_regs _).trans (Mach.g_chSeen_state (by decide))
  rw [Mach.chState_tracks hm]
  split
  · exact ⟨(Mach.g_spacingTaken_state _ _ _).trans h3, Mach.channelsMove_chLockKept.trans (Mach.channelsMove_spacingTaken _ _ _)⟩
  · exact ⟨h3, Mach.channelsMove_chLockKept⟩

/-- The signals are back: the flag is clear, its source raised, and the best start is in use. -/
theorem Mach.signalBack_shows (m : Mach) (e : Env) (secs : Nat) :
    (m.signalBack e secs).g .GNS_STS_no_signal = 0 ∧ (m.signalBack e secs).bit Reg.GNS_IRQ_STS 0 = true
      ∧ (m.signalBack e secs).gns.start = m.bestStart e
      ∧ ∀ off : Nat, farReg off → off ≠ Reg.GNS_STS → off ≠ Reg.GNS_IRQ_STS → (m.signalBack e secs).rd off = m.rd off := by
  unfold Mach.signalBack
  dsimp only
  refine ⟨?_, ?_, ?_, fun off hf hs hi => ?_⟩
  · rw [Mach.g_event _ _ _ _ _ (by decide), Mach.g_setBit_other _ (by decide), Mach.g_sb_same _ rfl (by decide)]
    rfl
  · rw [Mach.bit_congr (Mach.rd_event _ _ _ _ _ (by decide)), Mach.bit_setBit_same _ _ (by decide)]
  · rw [(Mach.posted_event _ _ _ _ _).gns]
    rfl
  · rw [Mach.rd_event _ _ _ _ _ hf, Mach.rd_setBit_other _ hi, Mach.rd_sb_other _ hs]
    exact Mach.rd_regs rfl off

end

section
variable {s : State} {c : Nat}

/-- A channel that does not come to TRACK brings no signals back. -/
theorem execChannelStateChange_plain {st : Nat} (hc : c < 96) (hst : st < 3) (cn0 : Nat) :
    exec (.channelStateChange c st cn0) s = s.becomes (s.m.chState s.env c st cn0) := by
  have h3 : (st == 3) = false := beq_false_of_ne (Nat.ne_of_lt hst)
  refine (State.onInst_eq s (by simp [hc, Nat.lt_succ_of_lt hst]) _).trans ?_
  simp only [h3, Bool.false_and, Bool.false_eq_true, if_false]
  rfl

/-- A channel that comes to TRACK without signals before brings them back (R117). -/
theorem execChannelStateChange_back (hc : c < 96) (hn : s.m.b .GNS_STS_no_signal = true) (hm : s.m.g (.GNS_CHc_STS_state c) ≠ 0) (cn0 : Nat) :
    exec (.channelStateChange c 3 cn0) s
      = s.becomes ((s.m.chState s.env c 3 cn0).signalBack s.env ((s.env.ns - s.m.gns.lastLock) / 1000000000)) := by
  refine (State.onInst_eq s (by simp [hc]) _).trans ?_
  simp only [hn, bne_iff_ne.mpr hm, beq_self_eq_true, Bool.and_self, if_true]
  rfl

theorem execSpacingApply_takes {k : Nat} (hc : c < 96) (hk : s.m.gns.spacing.getD c none = some k) (hl : s.m.chLocked c = true) :
    exec (.spacingApply c) s = s.becomes (s.m.spacingTaken c k) := by
  refine (State.onInst_eq s (decide_eq_true hc) _).trans ?_
  simp only [hk, hl, if_true]
  rfl

/-- A weak satellite's channels are released. -/
theorem execChannelCn0Release_weak {a sys sv : Nat} (ha : a < 2) (hw : s.m.satWeak s.env a sys sv = true) :
    exec (.channelCn0Release a sys sv) s = s.becomes (s.m.chReleaseIf s.env fun m c => m.chIs c a sys sv) := by
  refine (State.onInst_eq s (decide_eq_true ha) _).trans ?_
  simp only [hw, if_true]
  rfl

theorem execChannelCn0Release_strong {a sys sv : Nat} (ha : a < 2) (hw : s.m.satWeak s.env a sys sv = false) :
    exec (.channelCn0Release a sys sv) s = .next s := by
  refine (State.onInst_eq s (decide_eq_true ha) _).trans ?_
  simp only [hw, Bool.false_eq_true, if_false]

/-- The loss of all signals shows as the flag and its source, whatever is posted. -/
theorem Mach.signalLost_shows (m : Mach) (e : Env) (p : List Byte) :
    (((m.sb .GNS_STS_no_signal true).setBit Reg.GNS_IRQ_STS 0 true).event e 0x2004 (some 3) p).g .GNS_STS_no_signal = 1
      ∧ (((m.sb .GNS_STS_no_signal true).setBit Reg.GNS_IRQ_STS 0 true).event e 0x2004 (some 3) p).bit Reg.GNS_IRQ_STS 0 = true := by
  refine ⟨?_, ?_⟩
  · rw [Mach.g_event _ _ _ _ _ (by decide), Mach.g_setBit_other _ (by decide), Mach.g_sb_same _ rfl (by decide), if_pos rfl]
  · rw [Mach.bit_congr (Mach.rd_event _ _ _ _ _ (by decide)), Mach.bit_setBit_same _ _ (by decide)]

/-- Without code lock for 1 s the flag is set and its source raised (R117). -/
theorem execGnsNoSignal_due (hn : s.m.b .GNS_STS_no_signal = false) (hl : (List.range 96).any s.m.chLocked = false)
    (ht : s.m.gns.lastLock + 1000000000 ≤ s.env.ns) :
    exec .gnsNoSignal s = s.becomes (((s.m.sb .GNS_STS_no_signal true).setBit Reg.GNS_IRQ_STS 0 true).event s.env 0x2004 (some 3)
      (Stamp.ofNs s.m.gns.lastLock).bytes) := by
  refine congrArg s.becomes (if_neg ?_)
  simp only [hn, hl, Bool.false_or, decide_eq_true_eq]
  exact Nat.not_lt.mpr ht

theorem execGnsNoSignal_early (ht : s.env.ns < s.m.gns.lastLock + 1000000000) : exec .gnsNoSignal s = .next s :=
  congrArg s.becomes (if_pos (by simp [ht]))

end

/-! ### Notches (R101) -/

section
variable (m : Mach) {i : Nat}

theorem notchReg_inj {i j : Nat} : notchReg i = notchReg j ↔ i = j := by
  unfold notchReg
  omega

theorem notchReg_ne {off : Nat} (h : off < notchReg 0) : notchReg i ≠ off := by
  unfold notchReg at *
  omega

theorem Mach.rd_notchSet_same (o : Int) (p d : Nat) :
    (m.notchSet i o p d).rd (notchReg i) = BitVec.ofNat 32 (2 ^ 31 + min d 40 * 65536 + ofInt 16 o) := Mach.rd_wr_same _ _ _

theorem Mach.rd_notchSet_other {off : Nat} (h : off ≠ notchReg i) (o : Int) (p d : Nat) : (m.notchSet i o p d).rd off = m.rd off :=
  Mach.rd_wr_other h _ _

theorem Mach.rd_notchFree_same : (m.notchFree i).rd (notchReg i) = 0 := Mach.rd_wr_same _ _ _

theorem Mach.rd_notchFree_other {off : Nat} (h : off ≠ notchReg i) : (m.notchFree i).rd off = m.rd off := Mach.rd_wr_other h _ _

/-- A notch that is off stays off while notches disengage. -/
theorem Mach.bit_notchFree (j : Nat) : (m.notchFree i).bit (notchReg j) 31 = if j = i then false else m.bit (notchReg j) 31 := by
  split
  · next h =>
    subst h
    simp [Mach.bit, Mach.g, Mach.rd_notchFree_same, fldGet]
  · next h => exact Mach.bit_congr (m.rd_notchFree_other (mt notchReg_inj.mp h)) _

theorem Mach.bit_notchFrees (l : List Nat) (j : Nat) :
    (l.foldl Mach.notchFree m).bit (notchReg j) 31 = if j ∈ l then false else m.bit (notchReg j) 31 := by
  induction l generalizing m with
  | nil => rfl
  | cons i l ih =>
    rw [List.foldl_cons, ih, Mach.bit_notchFree]
    by_cases hl : j ∈ l <;> simp [hl]

/-- An engaged notch takes the nearest interferer that is left, or disengages. -/
def Mach.notchKeep (r : Mach × List (Int × Nat × Nat)) (i : Nat) : Mach × List (Int × Nat × Nat) :=
  match nearestTone (r.1.notchOff i) r.2 with
  | some x => (r.1.notchSet i x.1 x.2.1 x.2.2, r.2.erase x)
  | none => (r.1.notchFree i, r.2)

/-- The notches of a list follow the interferers: the engaged ones, then the free ones. -/
theorem Mach.notchFollow_eq (ns : List Nat) (tones : List (Int × Nat × Nat)) {used : List Nat} (hu : used = ns.filter fun i => m.bit (notchReg i) 31)
    {r : Mach × List (Int × Nat × Nat)} (hr : r = used.foldl Mach.notchKeep (m, tones)) :
    m.notchFollow ns tones = ((ns.filter fun i => !used.contains i).zip r.2).foldl (fun m p => m.notchSet p.1 p.2.1 p.2.2.1 p.2.2.2) r.1 := by
  subst hu hr
  rfl

theorem Mach.notchKeep_none (l : List Nat) : l.foldl Mach.notchKeep (m, []) = (l.foldl Mach.notchFree m, []) := by
  induction l generalizing m with
  | nil => rfl
  | cons i l ih => exact ih _

/-- Without interferers the engaged notches disengage, and no other one is taken. -/
theorem Mach.notchFollow_none (ns : List Nat) : m.notchFollow ns [] = (ns.filter fun i => m.bit (notchReg i) 31).foldl Mach.notchFree m := by
  rw [m.notchFollow_eq ns [] rfl (m.notchKeep_none _).symm, List.zip_nil_right]
  rfl

/-- With all notches off the interferers take them in turn. -/
theorem Mach.notchFollow_free {ns : List Nat} (h : ∀ i ∈ ns, m.bit (notchReg i) 31 = false) (tones : List (Int × Nat × Nat)) :
    m.notchFollow ns tones = (ns.zip tones).foldl (fun m p => m.notchSet p.1 p.2.1 p.2.2.1 p.2.2.2) m := by
  have hused : (ns.filter fun i => m.bit (notchReg i) 31) = [] := List.filter_eq_nil_iff.mpr fun i hi => by simp [h i hi]
  have hfree : (ns.filter fun i => !([] : List Nat).contains i) = ns := List.filter_eq_self.mpr fun _ _ => rfl
  rw [m.notchFollow_eq ns tones hused.symm rfl, hfree]
  rfl

/-- The interferers of 6 dB or more, strongest first. -/
def tonesOf (found : List (Int × Nat × Nat)) : List (Int × Nat × Nat) :=
  (found.filter fun x => decide (6 ≤ x.2.1)).foldl (fun l x => insertTone x l) []

/-- The notches of a band are set before its flag and source. -/
theorem Mach.rd_notchEngage (hen : m.b .GNS_CFG_notch_en = true) (e : Env) (a b i : Nat) (found : List (Int × Nat × Nat)) (hi : i < 16) :
    (m.notchEngage e a b found).rd (notchReg i) = (m.notchFollow ((List.range 4).map (notchAt a b)) ((tonesOf found).take 4)).rd (notchReg i) := by
  have hfar : farReg (notchReg i) := by
    unfold notchReg
    omega
  have hsts : notchReg i ≠ Reg.GNS_STS := notchReg_ne (by decide)
  have hirq : notchReg i ≠ Reg.GNS_IRQ_STS := notchReg_ne (by decide)
  unfold Mach.notchEngage
  rw [if_neg (by simp [hen])]
  extract_lets q was m1 g m2 m3
  have h3 : m3.rd (notchReg i) = m1.rd (notchReg i) := Mach.rd_sb_other m2 hsts _
  split
  · exact (Mach.rd_event _ _ _ _ _ hfar).trans ((Mach.rd_setBit_other m3 hirq _ _).trans h3)
  · exact h3

end

section
variable {m : Mach} {a b : Nat}

/-- One interferer at a band without engaged notches takes the first notch, and the others stay. -/
theorem Mach.notchEngage_one (ha : a < 2) (hb : b < 2) (hen : m.b .GNS_CFG_notch_en = true) (e : Env) (o : Int) {p : Nat} (d : Nat) (hp : 6 ≤ p)
    (hoff : ∀ i : Nat, i < 4 → m.bit (notchReg (notchAt a b i)) 31 = false) :
    (m.notchEngage e a b [(o, p, d)]).rd (notchReg (notchAt a b 0)) = BitVec.ofNat 32 (2 ^ 31 + min d 40 * 65536 + ofInt 16 o)
      ∧ ∀ i : Nat, 1 ≤ i → i < 4 → (m.notchEngage e a b [(o, p, d)]).rd (notchReg (notchAt a b i)) = m.rd (notchReg (notchAt a b i)) := by
  have hplace (i : Nat) (hi : i < 4) : notchAt a b i < 16 := by
    unfold notchAt
    omega
  have htones : (tonesOf [(o, p, d)]).take 4 = [(o, p, d)] := by simp [tonesOf, hp, insertTone]
  have hfree : ∀ i ∈ (List.range 4).map (notchAt a b), m.bit (notchReg i) 31 = false := by
    intro i hi
    obtain ⟨k, hk, rfl⟩ := List.mem_map.mp hi
    exact hoff k (List.mem_range.mp hk)
  have hfollow : m.notchFollow ((List.range 4).map (notchAt a b)) [(o, p, d)] = m.notchSet (notchAt a b 0) o p d := m.notchFollow_free hfree _
  refine ⟨?_, fun i h1 h4 => ?_⟩
  · rw [m.rd_notchEngage hen e a b _ _ (hplace 0 (by decide)), htones, hfollow, Mach.rd_notchSet_same]
  · have hne : notchReg (notchAt a b i) ≠ notchReg (notchAt a b 0) := by
      rw [ne_eq, notchReg_inj]
      unfold notchAt
      omega
    rw [m.rd_notchEngage hen e a b _ _ (hplace i h4), htones, hfollow, Mach.rd_notchSet_other _ hne]

/-- Without interferers every notch of the band is off. -/
theorem Mach.notchEngage_none (ha : a < 2) (hb : b < 2) (hen : m.b .GNS_CFG_notch_en = true) (e : Env) {i : Nat} (hi : i < 4) :
    (m.notchEngage e a b []).bit (notchReg (notchAt a b i)) 31 = false := by
  have hplace : notchAt a b i < 16 := by
    unfold notchAt
    omega
  have hmem : notchAt a b i ∈ (List.range 4).map (notchAt a b) := List.mem_map_of_mem (List.mem_range.mpr hi)
  rw [Mach.bit_congr (m.rd_notchEngage hen e a b _ [] hplace)]
  change (m.notchFollow _ []).bit _ _ = _
  rw [Mach.notchFollow_none, Mach.bit_notchFrees]
  split
  · rfl
  · next h => simpa [hmem] using h

end

/-! ### Jam indicators (R102) -/

theorem unle_four {a b c d : Nat} (ha : a < 256) (hb : b < 256) (hc : c < 256) (hd : d < 256) :
    unle ([a, b, c, d].map (BitVec.ofNat 8)) = a + 256 * b + 65536 * c + 16777216 * d := by
  simp only [List.map_cons, List.map_nil, unle, BitVec.toNat_ofNat]
  omega

/-- The indicators show the four quarters, and what follows moves other registers. -/
theorem Mach.rd_jamUpdate (m : Mach) (e : Env) (q : List Nat) :
    (m.jamUpdate e q).rd Reg.GNS_JI = BitVec.ofNat 32 (min 255 (q.getD 0 0) + 256 * min 255 (q.getD 1 0) + 65536 * min 255 (q.getD 2 0)
      + 16777216 * min 255 (q.getD 3 0)) := by
  have hlt (i : Nat) : min 255 (q.getD i 0) < 256 := by omega
  unfold Mach.jamUpdate
  extract_lets ji m1 thr hi lo g m2 set clear was now
  have h1 : m1.rd Reg.GNS_JI = _ := Mach.rd_wr_same m _ _
  have h2 : m2.rd Reg.GNS_JI = m1.rd Reg.GNS_JI := rfl
  rw [← unle_four (hlt 0) (hlt 1) (hlt 2) (hlt 3)]
  split
  · exact h2.trans h1
  · rw [Mach.rd_event _ _ _ _ _ (by decide), Mach.rd_setBit_other _ (by decide), Mach.rd_sb_other _ (by decide)]
    exact h2.trans h1

/-! ### A restart (R100, R120) -/

theorem Mach.gnsRestart_shows (m : Mach) (e : Env) (way : Nat) :
    (m.gnsRestart e way).gns.start = max way (m.bestStart e) ∧ ∀ c : Nat, c < 96 → (m.gnsRestart e way).rd (Reg.GNS_CHc_STS c) = 0 := by
  unfold Mach.gnsRestart
  extract_lets m1 g
  have hrd (c : Nat) (hc : c < 96) : m1.rd (Reg.GNS_CHc_STS c) = 0 :=
    (Mach.rd_chReleaseIf (judgesChannel_place fun _ => true) m hc).trans (if_pos rfl)
  unfold g
  clear_value m1
  exact ⟨rfl, hrd⟩

theorem execGnsCtrlRestart_restarts {s : State} {v : Word} (hv : v.toNat % 4 ≠ 0) (hl : s.env.locked = false) :
    exec (.gnsCtrlRestart v) s = s.becomes (s.m.gnsRestart s.env (v.toNat % 4)) :=
  congrArg s.becomes ((if_neg hv).trans (if_neg (by simp [hl])))

/-! ### A solution epoch (R105) -/

section
variable (m : Mach) (e : Env)

theorem Mach.notchFree_epochAt (i : Nat) : (m.notchFree i).gns.epochAt = m.gns.epochAt := by
  rw [Mach.notchFree, Mach.wr_gns]

theorem Mach.putImage_gns (off : Nat) (v : Word) : (m.putImage off v).gns = m.gns := Mach.wr_gns _ _ _

theorem Mach.notchesFollow_epochAt : m.notchesFollow.gns.epochAt = m.gns.epochAt := by
  unfold Mach.notchesFollow
  split
  · rfl
  · extract_lets m1 g
    have h1 : m1.gns.epochAt = m.gns.epochAt := by
      unfold m1
      rw [Mach.sb_gns]
      exact iter_keeps (fun m : Mach => m.gns.epochAt) (fun i m' => m'.notchFree_epochAt i) m
    exact h1

theorem Mach.gnsApplyCfg_epochAt : (m.gnsApplyCfg e).gns.epochAt = m.gns.epochAt := by
  unfold Mach.gnsApplyCfg
  split
  · rfl
  · next a b c d _ =>
    extract_lets g m1 m2 m3
    have h1 : m1.gns.epochAt = m.gns.epochAt := by
      unfold m1
      rw [Mach.putImage_gns, Mach.putImage_gns, Mach.putImage_gns, Mach.putImage_gns]
    have h2 : m2.gns.epochAt = m1.gns.epochAt := congrArg Gns.epochAt (m1.s_gns _ _)
    clear_value m1 m2
    have h3 : m3.gns.epochAt = m2.gns.epochAt := by
      refine (Mach.notchesFollow_epochAt _).trans (.trans ?_ (congrArg Gns.epochAt (m2.biasFollow_gns m.antVolts)))
      refine iter_keeps (fun m : Mach => m.gns.epochAt) (fun a m' => ?_) _
      split
      · exact m'.antSet_epochAt e a 3
      · rfl
    clear_value m3
    exact (Mach.channelsMove_chReleaseIf m3 e _).epochAt.trans (h3.trans (h2.trans h1))

theorem Mach.fsiUpdate_epochAt (checked disagree : Nat) : (m.fsiUpdate e checked disagree).gns.epochAt = m.gns.epochAt := by
  unfold Mach.fsiUpdate
  extract_lets ind above hi lo g m1 m2 was now
  have h2 : m2.gns = m1.gns := (Mach.s_gns _ _ _).trans (Mach.s_gns _ _ _)
  have h1 : m1.gns.epochAt = m.gns.epochAt := rfl
  split
  · exact (congrArg Gns.epochAt h2).trans h1
  · rw [(Mach.posted_event _ _ _ _ _).gns, Mach.setBit_gns, Mach.sb_gns, h2, h1]

theorem Mach.ageUpdate_epochAt (typ : Nat) : (m.ageUpdate e typ).gns.epochAt = m.gns.epochAt := by
  unfold Mach.ageUpdate
  extract_lets old m1 g m2
  have h2 : m2.gns.epochAt = m1.gns.epochAt := rfl
  have h1 : m1.gns = m.gns := Mach.s_gns _ _ _
  split
  · rw [(Mach.posted_event _ _ _ _ _).gns, Mach.setBit_gns, h2, h1]
  · rw [h2, h1]

theorem Mach.headSolve_gns (x : SolutionIn) : (m.headSolve x).2.gns = m.gns := by
  unfold Mach.headSolve
  dsimp only
  split
  · rfl
  · split
    · exact m.up_gns _
    · rfl

theorem Mach.posStream_gns (a t typ : Nat) (x : NavSolution) : (m.posStream a t typ x).gns = m.gns := by
  unfold Mach.posStream
  dsimp only
  split
  · rfl
  · split
    · exact m.lchValue_gns _ _ _ _
    · exact m.lchValue_gns _ _ _ _

theorem Mach.headUpdate_gns (t st : Nat) (x : SolutionIn) : (m.headUpdate e t st x).gns = m.gns := by
  unfold Mach.headUpdate
  extract_lets old m1 q
  have h1 : m1.gns = m.gns := by
    unfold m1
    split
    · rfl
    · exact (Mach.posted_event _ _ _ _ _).gns
  split
  · exact h1
  · split
    · exact (m1.lchValue_gns _ _ _ _).trans h1
    · exact (m1.lchValue_gns _ _ _ _).trans h1

theorem Mach.obsStream_gns (t : Nat) (l : List SignalObs) : (m.obsStream e t l).gns = m.gns := by
  unfold Mach.obsStream
  split
  · rfl
  · refine List.foldlRecOn (motive := fun m' : Mach => m'.gns = m.gns) l _ rfl fun m' h o _ => ?_
    split
    · exact (m'.posted_stream _ _ _ _ _ _).gns.trans h
    · exact h

theorem Mach.navKeep_epochAt (typ : Nat) (x : SolutionIn) : (m.navKeep e typ x).gns.epochAt = m.gns.epochAt := rfl

/-- The epoch solved is the newest one: nothing after it is told moves it. -/
theorem Mach.solution_epochAt (t : Nat) (x : SolutionIn) : (m.solution e t x).gns.epochAt = some t := by
  unfold Mach.solution
  extract_lets g m0 m1 m2 m3 f m4 ta tb m5 tracked m6 m7 h m8
  have h1 : m1.gns.epochAt = some t := m0.gnsApplyCfg_epochAt e
  have h2 : m1.ChannelsMove m2 := (m1.channelsMove_assignChannels e 0 x.sky).trans (Mach.channelsMove_assignChannels _ e 1 x.sky)
  have h3 : m2.ChannelsMove m3 := by
    refine foldl_channelsMove m2 (fun m' o => ?_) x.obs
    split
    · exact (m'.channelsMove_chCn0 e _ _).trans (Mach.channelsMove_s _ (Nat.le_add_right _ _) _)
    · exact .refl m'
  have h4 : m4.gns.epochAt = m3.gns.epochAt := m3.fsiUpdate_epochAt e _ _
  have h5 : m5.gns = m4.gns := by
    unfold m5
    split
    · rfl
    · rw [Mach.setBit_gns, Mach.s_gns, Mach.s_gns]
  have h6 : m6.gns.epochAt = m5.gns.epochAt := by
    unfold m6
    rw [Mach.ageUpdate_epochAt, Mach.sb_gns, Mach.s_gns, Mach.s_gns]
  have h7 : m7.gns = m6.gns := by
    unfold m7
    split
    · rw [Mach.s_gns, Mach.sb_gns]
    · rfl
  have h8 : m8.gns = m7.gns :=
    (Mach.headUpdate_gns _ e _ _ _).trans ((Mach.posStream_gns _ _ _ _ _).trans ((Mach.posStream_gns _ _ _ _ _).trans (m7.headSolve_gns x)))
  calc ((m8.obsStream e t x.obs).navKeep e ta x).gns.epochAt = m8.gns.epochAt :=
      (Mach.navKeep_epochAt _ e ta x).trans (congrArg Gns.epochAt (m8.obsStream_gns e t x.obs))
    _ = m6.gns.epochAt := congrArg Gns.epochAt (h8.trans h7)
    _ = m4.gns.epochAt := h6.trans (congrArg Gns.epochAt h5)
    _ = m1.gns.epochAt := h4.trans (h2.trans h3).epochAt
    _ = some t := h1

end

section
variable {s : State} {x : SolutionIn} {n : Nat}

theorem execSolutionEpoch_new (hn : n = s.env.ns / s.m.gnsPeriod * s.m.gnsPeriod) (h : s.m.gns.epochAt ≠ some n) (ht : s.env.ns ≤ n + 15000000) :
    exec (.solutionEpoch x) s = s.becomes (s.m.solution s.env n (if s.m.gnsRuns then x else emptySolution)) := by
  subst hn
  exact congrArg s.becomes (if_neg (by simp [h, ht]))

theorem execSolutionEpoch_old (hn : n = s.env.ns / s.m.gnsPeriod * s.m.gnsPeriod) (h : s.m.gns.epochAt = some n ∨ n + 15000000 < s.env.ns) :
    exec (.solutionEpoch x) s = .next s := by
  subst hn
  exact congrArg s.becomes (if_pos (by simpa using h))

end

/-! ### What happens to the receiver -/

theorem execAntBiasRetry_eq {s : State} {a : Nat} (ha : a < 2) (h : s.m.g (antState a) = 2) (hen : s.m.b (antEn a) = true)
    (hbias : s.m.b (antBias a) = true) (ua : Nat) : exec (.antBiasRetry a ua) s = s.becomes (s.m.antSet s.env a (biasClass ua)) := by
  refine (State.onInst_eq s (decide_eq_true ha) _).trans (congrArg s.becomes (if_pos ?_))
  simp [h, hen, hbias]

/-- The registers of channels lie apart from the receiver's flags and sources. -/
theorem chSts_apart {c : Nat} (hc : c < 96) : farReg (Reg.GNS_CHc_STS c) ∧ Reg.GNS_CHc_STS c ≠ Reg.GNS_STS ∧ Reg.GNS_CHc_STS c ≠ Reg.GNS_IRQ_STS := by
  simp only [farReg, Reg.GNS_CHc_STS, Reg.GNS_STS, Reg.GNS_IRQ_STS]
  omega

/-- A bias current above 80 mA at an antenna that is not SHORT brings it there, whatever the other one draws. -/
theorem Mach.antCheck_short {m : Mach} {e : Env} (ua : Nat) {ub : Nat} (hen : m.b (antEn 1) = true) (hbias : m.b (antBias 1) = true)
    (h : m.g (antState 1) ≠ 2) (hub : 80000 < ub) :
    (m.antCheck e 0 ua).antCheck e 1 ub = (m.antCheck e 0 ua).antSet e 1 2 ∧ (m.antCheck e 0 ua).g (antState 1) ≠ 2 := by
  obtain ⟨hstate, hcfg⟩ := Mach.antCheck_beside (m := m) (e := e) (b := 1) (by decide : 0 < 2) (by decide) ua
  have hne : (m.antCheck e 0 ua).g (antState 1) ≠ 2 := hstate ▸ h
  have hen' : (m.antCheck e 0 ua).b (antEn 1) = true := (Mach.b_congr (f := antEn 1) hcfg).trans hen
  have hbias' : (m.antCheck e 0 ua).b (antBias 1) = true := (Mach.b_congr (f := antBias 1) hcfg).trans hbias
  have hclass : biasClass ub = 2 := (if_neg (by omega)).trans (if_pos hub)
  refine ⟨?_, hne⟩
  generalize m.antCheck e 0 ua = m' at *
  rw [Mach.antCheck, if_neg (by simp [hen', hbias']), if_neg hne, hclass]

/-- Settles O25: each happening is one change of an antenna, of channels, of notches or of flags, and nothing after it undoes what it shows. A restart releases
every channel (log 55), and the best way to start is that of log 106. -/
theorem gnssHappenings : Obligations.GnssHappenings := by
  intro s
  refine ⟨fun ua ub => ⟨rfl, fun hen hbias h hub => ?_⟩, fun a ua ha h hen hbias => ⟨execAntBiasRetry_eq ha h hen hbias ua, fun hlo hhi => ?_⟩,
    fun c st cn0 hc hst => ⟨execChannelStateChange_plain hc hst cn0, fun hlo hcn0 hm => ?_⟩, fun c cn0 hc hn hm => ?_, fun c k hc hk hl => ?_,
    fun a sys sv ha => ⟨fun hw => ?_, execChannelCn0Release_strong ha⟩, fun hn hl => ⟨fun ht => ?_, execGnsNoSignal_early⟩,
    fun a b ha hb => ?_, fun q => ⟨rfl, _, rfl, rfl, s.m.rd_jamUpdate s.env q⟩, fun v hv hl => ?_, fun x n hn => ⟨fun hnew ht => ?_, execSolutionEpoch_old hn⟩⟩
  · obtain ⟨heq, hne⟩ := Mach.antCheck_short (e := s.env) ua hen hbias h hub
    obtain ⟨hstate, hirq, hch⟩ := Mach.antSet_short (e := s.env) (by decide : 1 < 2) hne
    exact ⟨_, congrArg s.becomes heq, rfl, hstate, hirq, fun c hlo hhi => hch c hhi (by omega)⟩
  · have hclass : biasClass ua = 0 := (if_neg (by omega)).trans (if_neg (by omega))
    have hx := execAntBiasRetry_eq ha h hen hbias ua
    rw [hclass] at hx
    exact ⟨_, hx, Mach.antSet_ok ha h hen hbias⟩
  · have hx := execChannelStateChange_plain (s := s) hc hst cn0
    rw [Mach.chState_searches hm (Nat.ne_of_gt hlo) (Nat.ne_of_lt hst)] at hx
    have hg (f : Fld) : (s.m.chLockKept s.env c st cn0).g f = (s.m.chSeen s.env c st cn0).g f := Mach.g_regs Mach.chLockKept_regs f
    exact ⟨_, hx, (hg _).trans (Mach.g_chSeen_state (Nat.lt_succ_of_lt hst)), (hg _).trans (Mach.g_chSeen_cn0 hcn0), (hg _).trans Mach.g_chSeen_lock,
      fun off ho => (Mach.rd_regs Mach.chLockKept_regs off).trans (Mach.rd_chSeen_other ho)⟩
  · obtain ⟨hstate, hmoved⟩ := Mach.chState_track_shows (e := s.env) (cn0 := cn0) hm
    obtain ⟨hclear, hirq, hstart, hrd⟩ := (s.m.chState s.env c 3 cn0).signalBack_shows s.env ((s.env.ns - s.m.gns.lastLock) / 1000000000)
    obtain ⟨hfar, hsts, hirqs⟩ := chSts_apart hc
    have hkept := hrd (Reg.GNS_CHc_STS c) hfar hsts hirqs
    exact ⟨_, execChannelStateChange_back hc hn hm cn0, hclear, (Mach.g_congr hkept).trans hstate, hstart.trans (hmoved.bestStart s.env), hirq⟩
  · exact ⟨_, execSpacingApply_takes hc hk hl, Mach.g_spacingTaken _ c k, fun off ho => Mach.rd_spacingTaken_other ho _ k⟩
  · refine ⟨_, execChannelCn0Release_weak ha hw, rfl, fun c hc => ?_⟩
    dsimp only
    exact s.m.rd_satRelease s.env a sys sv hc
  · exact ⟨_, execGnsNoSignal_due hn hl ht, s.m.signalLost_shows s.env _⟩
  · have hx (found : List (Int × Nat × Nat)) : exec (.notchEngage a b found) s = s.becomes (s.m.notchEngage s.env a b found) :=
      State.onInst_eq s (by simp [ha, hb]) _
    refine ⟨fun found hen => (hx found).trans (congrArg s.becomes (if_pos (by simp [hen]))), fun o p d hen hp hoff => ?_, fun hen => ?_⟩
    · exact ⟨_, hx _, Mach.notchEngage_one ha hb hen s.env o d hp hoff⟩
    · exact ⟨_, hx _, fun i hi => Mach.notchEngage_none ha hb hen s.env hi⟩
  · obtain ⟨hstart, hch⟩ := s.m.gnsRestart_shows s.env (v.toNat % 4)
    exact ⟨_, execGnsCtrlRestart_restarts hv hl, rfl, hstart, hch⟩
  · have hx := execSolutionEpoch_new (x := x) hn hnew ht
    exact ⟨hx, _, hx, rfl, Mach.solution_epochAt _ _ _ _⟩

end Sys2Proof.Machine
end

section
/-!
PROOFS. The commands of the analogue and serial inputs.
-/
namespace Sys2Proof.Machine

@[simp] theorem Mach.words_length (m : Mach) (off n : Nat) : (m.words off n).length = 4 * n := by
  induction n generalizing off with
  | zero => rfl
  | succ n ih =>
    rw [Mach.words, List.length_append, le_length, ih]
    omega

/-- FIL_STATUS_GET returns the status words of 16 chains and three words for each of eight ports. -/
theorem Mach.filStatus_length (m : Mach) :
    (m.regBytes ((List.range 16).map Reg.FIL_ANk_STS) ++ (List.range 8).flatMap fun p => m.words (Reg.FIL_SPp_CNT0 p) 3).length = 160 := by
  rw [List.length_append, Mach.regBytes_length, length_flatMap_of_const fun p => m.words_length (Reg.FIL_SPp_CNT0 p) 3]
  simp only [List.length_map, List.length_range]

/-- Settles O26: each clause is the command's own part on a state that takes it, past every check it makes. -/
theorem filterCommandsAnswer : Obligations.FilterCommandsAnswer := by
  intro s c hc
  refine ⟨fun k m1 hk hlt h1 hen hcodes hbound hratio hdcb hthr => ?_, fun k hk hlt hop hsize hlen hen hcrc => ?_, fun k q hk hq hlt hql hn he => ?_,
    fun k hk hlt hop hen => ?_, fun p m1 hp hlt hcon h1 hok hen => ?_, fun p q hp hq hlt hql hcon he => ?_,
    fun p hp hlt hmin hmax hdata hcon hen hidle => ?_, fun hop hbuf => ?_⟩
  · change execFilAnCfg c s = _
    unfold execFilAnCfg
    subst hk h1
    exact State.command_done hc (by simp [Nat.not_le.mpr hlt, hen, hcodes, hbound, hratio, hdcb, hthr, Res.ok]) (.inr rfl) (Nat.zero_le _)
  · change execFilCoefLoad c s = _
    unfold execFilCoefLoad
    subst hk
    exact State.command_done hc (by simp [Nat.not_le.mpr hlt, hop, hsize, hlen, hen, hcrc, Res.ok]) (.inr rfl) (Nat.zero_le _)
  · have hff : q ≠ 0xFF := by omega
    change execFilAnStream c s = _
    unfold execFilAnStream
    subst hk hq
    exact State.command_done hc (by simp [Nat.not_le.mpr hlt, queueOk, hql, hn, he, hff, Res.ok]) (.inl rfl) (Nat.zero_le _)
  · change execFilDcbCtrl c s = _
    unfold execFilDcbCtrl
    subst hk
    have h3 : ¬ 3 ≤ c.u8 1 := by omega
    exact State.command_done hc (by simp [Nat.not_le.mpr hlt, h3, hen, Nat.ne_of_lt hop, Res.ok]) (.inl rfl) (Nat.zero_le _)
  · have hswitch : (if m1.b (.FIL_SPp_CFG_en p) = true then m1.spEnChange s.env p else m1)
        = if false = m1.b (.FIL_SPp_CFG_en p) then m1 else m1.spEnChange s.env p := by
      cases m1.b (.FIL_SPp_CFG_en p) <;> rfl
    change execFilSerCfg c s = _
    unfold execFilSerCfg
    rw [hswitch]
    subst hp h1
    exact State.command_done hc (by simp [Nat.not_le.mpr hlt, hcon, hok, hen, Res.ok]) (.inr rfl) (Nat.zero_le _)
  · have hff : q ≠ 0xFF := by omega
    change execFilSerStream c s = _
    unfold execFilSerStream
    subst hp hq
    exact State.command_done hc (by simp [Nat.not_le.mpr hlt, queueOk, hql, hcon, he, hff, Res.ok]) (.inl rfl) (Nat.zero_le _)
  · have h0 : c.u16 2 ≠ 0 := by omega
    change execFilSerSend c s = _
    unfold execFilSerSend
    subst hp
    exact State.command_wait hc (by simp [Nat.not_le.mpr hlt, h0, Nat.not_lt.mpr hmax, Nat.not_lt.mpr hdata, hcon, hen, hidle]) (.inl rfl)
  · change execFilStatusGet c s = _
    unfold execFilStatusGet
    exact State.command_done hc (by simp [hop]) (.inl rfl) (s.m.filStatus_length ▸ hbuf)

end Sys2Proof.Machine
end

section
/-!
PROOFS. What posting an event or a stream record and handing a sample to Lichen can change of the state, and an element of a list that is changed in
parts that are not looked at.
-/
namespace Sys2Proof.Machine

/-! ### What is told outside a block (R40, R207, R555, R560, R597) -/

/-- What telling changes: registers, the host's queues, the recorder, Lichen, the stack link and what left the module. Every other part stays. -/
def Mach.Tells (m m' : Mach) : Prop :=
  m' = { m with regs := m'.regs, hif := m'.hif, peat := m'.peat, lch := m'.lch, stk := m'.stk, out := m'.out }

theorem Mach.Tells.refl (m : Mach) : m.Tells m := rfl

theorem Mach.Tells.trans {a b c : Mach} (h : a.Tells b) (h' : b.Tells c) : a.Tells c := by
  unfold Mach.Tells at h h' ⊢
  rw [h] at h'
  exact h'

theorem Mach.Tells.fil {m m' : Mach} (h : m.Tells m') : m'.fil = m.fil := (congrArg Mach.fil h :)

section
variable (m : Mach)

theorem Mach.tells_wr (off : Nat) (v : Word) : m.Tells (m.wr off v) := rfl
theorem Mach.tells_s (f : Fld) (v : Nat) : m.Tells (m.s f v) := rfl
theorem Mach.tells_sb (f : Fld) (v : Bool) : m.Tells (m.sb f v) := rfl
theorem Mach.tells_up (f : Fld) : m.Tells (m.up f) := rfl
theorem Mach.tells_setBit (off i : Nat) (v : Bool) : m.Tells (m.setBit off i v) := rfl
theorem Mach.tells_hostStore (a : Nat) (b : List Byte) : m.Tells (m.hostStore a b) := rfl
theorem Mach.tells_hif (h : Hif) : m.Tells { m with hif := h } := rfl
theorem Mach.tells_peat (p : Peat) : m.Tells { m with peat := p } := rfl
theorem Mach.tells_lch (l : Lch) : m.Tells { m with lch := l } := rfl
theorem Mach.tells_setRing (t : QType) (n : Nat) (r : Ring) : m.Tells (m.setRing t n r) := (m.tells_hif _).trans (Mach.tells_s _ _ _)

theorem Mach.tells_peatDrop (sev : Nat) : m.Tells (m.peatDrop sev) :=
  (((m.tells_up _).trans (Mach.tells_sb _ _ _)).trans (Mach.tells_setBit _ _ _ _)).trans (Mach.tells_peat _ _)

theorem Mach.tells_eqDrop (q : Nat) : m.Tells (m.eqDrop q) :=
  (((m.tells_setRing _ _ _).trans (Mach.tells_up _ _)).trans (Mach.tells_up _ _)).trans (Mach.tells_setBit _ _ _ _)

theorem Mach.tells_bufSync : m.Tells m.bufSync := by
  unfold Mach.bufSync
  extract_lets fill high m1 mib
  have h1 : m.Tells m1 := by
    unfold m1
    split
    · exact (m.tells_sb _ _).trans (Mach.tells_setBit _ _ _ _)
    · exact .refl m
  exact (h1.trans (m1.tells_s _ _)).trans (Mach.tells_s _ _ _)

theorem Mach.tells_record (r : PeatRec) : m.Tells (m.record r) := by
  unfold Mach.record
  split
  · exact m.tells_up _
  · split
    · exact m.tells_peatDrop _
    · exact (m.tells_peat _).trans (Mach.tells_bufSync _)

theorem iter_tells {n : Nat} {f : Nat → Mach → Mach} (hf : ∀ i m, Mach.Tells m (f i m)) : m.Tells (iter n f m) := by
  induction n with
  | zero => exact .refl m
  | succ n ih => exact iter_succ n f m ▸ ih.trans (hf n _)

theorem Mach.tells_push (t : QType) (n : Nat) (r : Ring) (h : Held) : m.Tells (m.push t n r h) :=
  (((iter_tells m fun _ _ => Mach.tells_hostStore _ _ _).trans (Mach.tells_hostStore _ _ _)).trans (Mach.tells_setRing _ t n _)).trans
    (Mach.tells_hostStore _ _ _)

theorem Mach.tells_putEvent (e : Env) (q sev code : Nat) (p : List Byte) : m.Tells (m.putEvent e q sev code p) :=
  (m.tells_push _ _ _ _).trans (Mach.tells_setBit _ _ _ _)

theorem Mach.tells_toEq (e : Env) (q sev code : Nat) (p : List Byte) : m.Tells (m.toEq e q sev code p) := by
  unfold Mach.toEq
  split
  · exact .refl m
  · split
    · exact m.tells_putEvent e q sev code p
    · exact m.tells_eqDrop q

theorem Mach.tells_route (e : Env) (sev code : Nat) (p : List Byte) : m.Tells (m.route e sev code p) := by
  unfold Mach.route
  dsimp only
  split
  · exact m.tells_toEq e _ sev code p
  · exact .refl m

theorem Mach.tells_tellDrops (e : Env) (q : Nat) : m.Tells (m.tellDrops e q) := by
  unfold Mach.tellDrops
  dsimp only
  split
  · exact ((m.tells_setRing _ _ _).trans (Mach.tells_record _ _)).trans (Mach.tells_putEvent _ _ _ _ _ _)
  · exact .refl m

/-- An event is posted. -/
theorem Mach.tells_event (e : Env) (code : Nat) (psev : Option Nat) (p : List Byte) : m.Tells (m.event e code psev p) := by
  have hrec : m.Tells (match psev with | some sev => m.record ⟨sev, blockOfEvent code, code, padWord p, none⟩ | none => m) := by
    cases psev with
    | none => exact .refl m
    | some sev => exact m.tells_record _
  exact (hrec.trans (Mach.tells_tellDrops _ _ _)).trans (Mach.tells_route _ _ _ _ _)

theorem Mach.tells_tellGap (e : Env) (j : Nat) : m.Tells (m.tellGap e j) := by
  unfold Mach.tellGap
  dsimp only
  split
  · exact m.tells_push _ _ _ _
  · exact .refl m

/-- A stream record is posted. -/
theorem Mach.tells_stream (e : Env) (j kind source flags : Nat) (body : List Byte) : m.Tells (m.stream e j kind source flags body) := by
  unfold Mach.stream
  extract_lets m1 r n
  split
  · split
    · exact m.tells_up _
    · exact .refl m
  · refine (m.tells_tellGap e j).trans (b := m1) ?_
    split
    · exact m1.tells_push _ _ _ _
    · exact (((m1.tells_setRing _ _ _).trans (Mach.tells_up _ _)).trans (Mach.tells_up _ _)).trans (Mach.tells_setBit _ _ _ _)

theorem Mach.tells_linkSend (typ dest : Nat) (p : List Byte) : m.Tells (m.linkSend typ dest p) := by
  rw [Mach.linkSend_eq]
  rfl

theorem Mach.tells_heaveStep (t : Nat) (heave : F64) : m.Tells (m.heaveStep t heave) := by
  unfold Mach.heaveStep
  extract_lets lim l cs m1 gaps total n ok m2
  have h1 : m.Tells m1 := m.tells_lch _
  have h2 : m.Tells m2 := by
    unfold m2
    split
    · exact h1
    · exact h1.trans (m1.tells_wr _ _)
  clear_value m2
  split
  · exact m.tells_lch _
  · split
    · refine .trans ?_ (Mach.tells_sb _ _ _)
      split
      · exact h2
      · exact h2.trans (m2.tells_setBit _ _ _)
    · exact .refl m

theorem Mach.tells_lchMotion (t : Nat) : m.Tells (m.lchMotion t) := by
  unfold Mach.lchMotion
  extract_lets vs v f m1
  have h1 : m.Tells m1 := ((m.tells_wr _ _).trans (Mach.tells_wr _ _ _)).trans (Mach.tells_wr _ _ _)
  clear_value m1
  split
  · exact .refl m
  · exact (h1.trans (m1.tells_lch _)).trans (Mach.tells_heaveStep _ _ _)

theorem Mach.tells_lchAccept (s : Nat) (x : LchSample) : m.Tells (m.lchAccept s x) := by
  unfold Mach.lchAccept
  extract_lets l stamps n per late q m1 m2
  have h1 : m.Tells m1 := (((m.tells_lch _).trans (Mach.tells_s _ _ _)).trans (Mach.tells_sb _ _ _)).trans (Mach.tells_s _ _ _)
  have h2 : m.Tells m2 := by
    unfold m2
    split
    · exact h1.trans (m1.tells_up _)
    · exact h1
  clear_value m2
  split
  · exact .refl m
  · split
    · exact h2.trans (m2.tells_lchMotion _)
    · exact h2

/-- A sample of an own source reaches its slot and the other controllers. -/
theorem Mach.tells_lchOwn (s stamp : Nat) (x : LchSample) : m.Tells (m.lchOwn s stamp x) := by
  unfold Mach.lchOwn Mach.lchTake
  refine .trans ?_ (Mach.tells_linkSend _ _ _ _)
  split
  · exact m.tells_lchAccept s _
  · exact .refl m

theorem Mach.tells_lchMissing (s : Nat) : m.Tells (m.lchMissing s) := by
  unfold Mach.lchMissing
  split
  · exact m.tells_up _
  · exact .refl m

/-- A host write stores one register, and may record that it was ignored. -/
theorem Mach.tells_hostPut (locked quiet : Bool) (off : Nat) (v : Word) : m.Tells (m.hostPut locked quiet off v) := by
  unfold Mach.hostPut Mach.hostPutBar
  split
  · refine .trans ?_ (Mach.tells_wr _ _ _)
    split
    · exact m.tells_record _
    · exact .refl m
  · exact .refl m

end

/-! ### A changed element, and a counter -/

/-- What a change leaves of every element, it leaves of the one it is made to. -/
theorem nth_upd_keeps {α β : Type} (g : α → β) {f : α → α} (hf : ∀ a, g (f a) = g a) (d : α) (l : List α) (i : Nat) :
    g (nth d (upd l i f) i) = g (nth d l i) := by
  induction l generalizing i with
  | nil => rfl
  | cons a l ih =>
    cases i with
    | zero => exact hf a
    | succ i => exact ih i

/-- A saturating counter reads one more, up to its largest value. -/
theorem Mach.g_up_same (m : Mach) {f : Fld} (hf : f.lo ≤ f.hi) (hh : f.hi < 32) : (m.up f).g f = min (2 ^ fldWidth f - 1) (m.g f + 1) := by
  have hpos := Nat.two_pow_pos (fldWidth f)
  rw [Mach.up, Mach.addSat, Mach.g_s_same m hf hh]
  split
  · next h => rw [Nat.mod_eq_of_lt h, Nat.min_eq_right (by omega)]
  · next h => rw [Nat.mod_eq_of_lt (by omega), Nat.min_eq_left (by omega)]

end Sys2Proof.Machine
end

section
/-!
PROOFS. What happens at the analogue chains and the serial ports: enabling, output samples, the ratio servo, the shunt's retry, characters, gaps, silence,
error reports and the end of a transmission.
-/
namespace Sys2Proof.Machine

/-! ### Chains and ports stored -/

section
variable {m : Mach} {k : Nat}

theorem Mach.an_setAn_same (h : k < m.fil.an.length) (f : AnSt → AnSt) : (m.setAn k f).an k = f (m.an k) := nth_upd_same _ h f

theorem Mach.sp_setSp_same (h : k < m.fil.sp.length) (f : SpSt → SpSt) : (m.setSp k f).sp k = f (m.sp k) := nth_upd_same _ h f

@[simp] theorem Mach.setAn_an_length (f : AnSt → AnSt) : (m.setAn k f).fil.an.length = m.fil.an.length := upd_length _ _ _

@[simp] theorem Mach.setSp_sp_length (f : SpSt → SpSt) : (m.setSp k f).fil.sp.length = m.fil.sp.length := upd_length _ _ _

/-- What is told outside the block leaves the chains alone. -/
theorem Mach.Tells.an {m' : Mach} (h : m.Tells m') (k : Nat) : m'.an k = m.an k := by
  rw [Mach.an, h.fil, Mach.an]

end

/-! ### A chain starts (R131, R134, R135, R136, R144) -/

/-- An admissible ratio needs an output divider that is not 0, so the grid of the samples has a period. -/
theorem Mach.anPeriodNs_pos {m : Mach} {k : Nat} (h : m.ratioOk k = true) : m.anPeriodNs k ≠ 0 := by
  unfold Mach.ratioOk Mach.cicR at h
  unfold Mach.anPeriodNs
  dsimp only at h
  rw [Bool.and_eq_true, decide_eq_true_eq] at h
  omega

section
variable {m : Mach} {k : Nat}

/-- A chain that starts shows the nominal ratio and zone MID. -/
theorem Mach.anStart_shows (m : Mach) (e : Env) (k : Nat) :
    (m.anStart e k).b (.FIL_ANk_CFG_en k) = m.b (.FIL_ANk_CFG_en k) ∧ (m.anStart e k).rd (Reg.FIL_ANk_RATIO k) = BitVec.ofNat 32 (m.ratioNominal k)
      ∧ (m.anStart e k).g (.FIL_ANk_EVT_zone k) = 1 := by
  have hcfg : Reg.FIL_ANk_CFG k ≠ Reg.FIL_ANk_RATIO k ∧ Reg.FIL_ANk_CFG k ≠ Reg.FIL_ANk_EVT k := by
    simp only [Reg.FIL_ANk_CFG, Reg.FIL_ANk_RATIO, Reg.FIL_ANk_EVT]
    omega
  have hevt : Reg.FIL_ANk_EVT k ≠ Reg.FIL_ANk_RATIO k := by
    simp only [Reg.FIL_ANk_RATIO, Reg.FIL_ANk_EVT]
    omega
  obtain ⟨hratio, hzone⟩ := hcfg
  unfold Mach.anStart
  dsimp only
  refine ⟨Mach.b_congr (f := .FIL_ANk_CFG_en k) ?_, Mach.rd_wr_same _ _ _, ?_⟩
  · exact (Mach.rd_wr_other hratio _ _).trans (Mach.rd_s_other _ hzone _)
  · exact (Mach.g_congr (f := .FIL_ANk_EVT_zone k) (Mach.rd_wr_other hevt _ _)).trans
      (Mach.g_s_same _ (show 16 ≤ 17 by decide) (show 17 < 32 by decide) _)

/-- A chain that starts gives its first sample at the first grid instant ahead. -/
theorem Mach.anStart_nextGrid (hk : k < m.fil.an.length) (hp : m.anPeriodNs k ≠ 0) (e : Env) :
    ((m.anStart e k).an k).nextGrid = some ((e.ns / m.anPeriodNs k + 1) * m.anPeriodNs k) := by
  unfold Mach.anStart
  dsimp only
  rw [if_neg hp, ((Mach.tells_s _ _ _).trans (Mach.tells_wr _ _ _)).an, Mach.an_setAn_same hk]

/-- A write that sets en of a chain whose settings pass every check starts it. -/
theorem execFilAnEnable_starts {s : State} {v : Word} (hk : k < 16) (hoff : s.m.b (.FIL_ANk_CFG_en k) = false)
    (h1 : m = s.m.hostPut s.env.locked (!s.env.locked) (Reg.FIL_ANk_CFG k) v) (hon : m.b (.FIL_ANk_CFG_en k) = true) (hcodes : m.cicCodes k = true)
    (hbound : m.cicBound k = true) (hratio : m.ratioOk k = true) (hdcb : m.dcbOk k = true) :
    exec (.filAnEnable k v) s = s.becomes (m.anStart s.env k) := by
  refine (State.onInst_eq s (decide_eq_true hk) _).trans (congrArg s.becomes ?_)
  subst h1
  simp [Mach.anCfgWrite, hoff, hon, hcodes, hbound, hratio, hdcb]

end

/-! ### An output sample (R134 to R147) -/

/-- Where a chain stands: its next grid instant, the instant of its newest sample, the inputs it has, and the place of its next value. -/
def AnSt.stand (a : AnSt) : Option Nat × Nat × Nat × Nat := (a.nextGrid, a.lastAt, a.have_, a.pos)

/-- The chain that has taken the modulator's samples, and the value it has then. -/
def Mach.anFed (m : Mach) (k : Nat) (mods : List Int) : AnSt × Option (Word × Bool) :=
  (m.an k).feed (m.cicN k) (m.cicR k) (m.cicM k) (Config.anCal k (m.g (.FIL_ANk_CFG_mode k))) (m.anPlace k) mods

theorem AnSt.modulator_keeps (a : AnSt) (n r md : Nat) (cal : Word × Word) (x : Int) :
    (a.modulator n r md cal x).pos = a.pos ∧ (a.modulator n r md cal x).moves = a.moves := by
  unfold AnSt.modulator
  dsimp only
  split
  · exact ⟨rfl, rfl⟩
  · exact ⟨rfl, rfl⟩

/-- Taking the modulator's samples moves neither the place of the next value nor the steps that wait. -/
theorem AnSt.feed_keeps (a : AnSt) (n r md : Nat) (cal : Word × Word) (place : Nat) (mods : List Int) :
    (a.feed n r md cal place mods).1.pos = a.pos ∧ (a.feed n r md cal place mods).1.moves = a.moves := by
  refine List.foldlRecOn (motive := fun x : AnSt × Option (Word × Bool) => x.1.pos = a.pos ∧ x.1.moves = a.moves) mods _ ⟨rfl, rfl⟩
    fun x ⟨hpos, hmoves⟩ i _ => ?_
  obtain ⟨hpos', hmoves'⟩ := x.1.modulator_keeps n r md cal i
  exact ⟨hpos'.trans hpos, hmoves'.trans hmoves⟩

/-- A chain without waiting steps that has formed a value stands one period and one ratio further on. -/
theorem AnSt.emit_stand {a : AnSt} (h : a.moves = []) (p ratio t : Nat) (v : Word × Bool) :
    (a.emit p ratio t v).stand = (some (t + p), t, a.have_, a.pos + ratio) := by
  simp [AnSt.emit, AnSt.stand, h, AnSt.settle]

section
variable (m : Mach) (e : Env) (k : Nat)

/-- A change of a chain that leaves where it stands. -/
theorem Mach.stand_setAn {f : AnSt → AnSt} (hf : ∀ a, (f a).stand = a.stand) : ((m.setAn k f).an k).stand = (m.an k).stand :=
  nth_upd_keeps AnSt.stand hf _ _ k

theorem Mach.tells_anFaults (op prot ovr : Bool) : m.Tells (m.anFaults e k op prot ovr) := by
  unfold Mach.anFaults
  dsimp only
  split
  · exact .refl m
  · exact ((((m.tells_sb _ _).trans (Mach.tells_sb _ _ _)).trans (Mach.tells_sb _ _ _)).trans (Mach.tells_setBit _ _ _ _)).trans
      (Mach.tells_event _ _ _ _ _)

theorem Mach.stand_anDcb (x : Word) (valid : Bool) : ((m.anDcb k x valid).2.an k).stand = (m.an k).stand := by
  unfold Mach.anDcb
  split
  · rfl
  · exact m.stand_setAn k fun _ => rfl

theorem Mach.stand_anThreshold (t : Nat) (y : Word) (valid : Bool) : ((m.anThreshold e k t y valid).an k).stand = (m.an k).stand := by
  unfold Mach.anThreshold
  extract_lets a
  split
  · exact m.stand_setAn k fun _ => rfl
  · extract_lets cont run at_
    split
    · exact m.stand_setAn k fun _ => rfl
    · unfold Mach.note
      rw [(((Mach.tells_s _ _ _).trans (Mach.tells_setBit _ _ _ _)).trans (Mach.tells_event _ e _ _ _)).an]
      exact m.stand_setAn k fun _ => rfl

/-- A sample that reaches Lichen's slots leaves the chains alone. -/
theorem Mach.tells_anToLichen (t : Nat) (valid : Bool) : m.Tells (m.anToLichen k t valid) := by
  refine iter_tells m fun s m' => ?_
  dsimp only
  split
  · exact .refl m'
  · split
    · exact m'.tells_lchMissing s
    · exact m'.tells_lchOwn s t _

/-- Without a value the chain only takes its inputs. -/
theorem Mach.anOutput_waits {m : Mach} {k n : Nat} {mods : List Int} (hn : (m.an k).nextGrid = some n) (hv : (m.anFed k mods).2 = none) (e : Env)
    (oc : Bool) : m.anOutput e k mods oc = m.setAn k fun _ => (m.anFed k mods).1 := by
  unfold Mach.anFed at hv ⊢
  unfold Mach.anOutput
  simp only [hn, hv]

/-- With a value the chain stands where forming it has left it: nothing after it moves that. -/
theorem Mach.anOutput_stand {m : Mach} {k n : Nat} {mods : List Int} {v : Word × Bool} (hk : k < m.fil.an.length) (hn : (m.an k).nextGrid = some n)
    (hv : (m.anFed k mods).2 = some v) (e : Env) (oc : Bool) :
    ((m.anOutput e k mods oc).an k).stand = ((m.anFed k mods).1.emit (m.anPeriodNs k) (m.rd (Reg.FIL_ANk_RATIO k)).toNat n v).stand := by
  unfold Mach.anOutput
  extract_lets N f m0
  split
  · next t v' ht hv' =>
    obtain rfl : n = t := Option.some.inj (hn.symm.trans ht)
    obtain rfl : v = v' := Option.some.inj (hv.symm.trans hv')
    extract_lets m1 a current prot mp
    split
    next x filled _ =>
    extract_lets op ovr valid
    split
    next y m2 h2 =>
    extract_lets m3 m4
    have h0 : m0.an k = (m.anFed k mods).1 := Mach.an_setAn_same hk _
    have h1 : m1.an k = (m.anFed k mods).1.emit (m.anPeriodNs k) (m.rd (Reg.FIL_ANk_RATIO k)).toNat n v := by
      rw [← h0]
      exact Mach.an_setAn_same ((Mach.setAn_an_length _).symm ▸ hk) _
    have hp : (mp.an k).stand = (m1.an k).stand := by
      unfold mp
      split
      · exact m1.stand_setAn k fun _ => rfl
      · rfl
    have hm2 : (m2.an k).stand = (mp.an k).stand := by
      have hdcb := (mp.anFaults e k op prot ovr).stand_anDcb k x valid
      rwa [h2, (mp.tells_anFaults e k op prot ovr).an] at hdcb
    have hm3 : m2.Tells m3 := ((m2.tells_wr _ _).trans (Mach.tells_sb _ _ _)).trans (Mach.tells_setBit _ _ _ _)
    have hm4 : (m4.an k).stand = (m3.an k).stand := by
      unfold m4
      rw [(Mach.tells_anToLichen _ k n valid).an]
      exact m3.stand_anThreshold e k n y valid
    rw [← h1, ← hp, ← hm2, ← hm3.an, ← hm4]
    clear_value m4
    split
    · rfl
    · split
      · exact m4.stand_setAn k fun _ => rfl
      · rw [(Mach.tells_stream _ e _ _ _ _ _).an]
        exact m4.stand_setAn k fun _ => rfl
  · next h => exact absurd (hn.symm.trans h) (Option.some_ne_none n)
  · next h => exact absurd (hv.symm.trans h) (Option.some_ne_none v)

end

/-! ### The ratio servo and the shunt (R136, R142) -/

section
variable {s : State} {k : Nat}

/-- A chain in force takes the wanted ratio within 200 ppm of the nominal one; beyond, it takes the nearest admissible ratio and unlocks. -/
theorem execRatioServoUpdate_shows {r : Nat} (hk : k < 16) (hen : s.m.b (.FIL_ANk_CFG_en k) = true) {want : Nat}
    (hr : min (max want (s.m.ratioNominal k - s.m.ratioNominal k / 5000)) (s.m.ratioNominal k + s.m.ratioNominal k / 5000) = r) :
    ∃ t : State, exec (.ratioServoUpdate k want) s = .next t ∧ t.m.rd (Reg.FIL_ANk_RATIO k) = BitVec.ofNat 32 r
      ∧ t.m.g (.FIL_ANk_STS_unlock k) = if r = want then 0 else 1 := by
  have hratio : Reg.FIL_ANk_RATIO k ≠ Reg.FIL_ANk_STS k := by
    simp only [Reg.FIL_ANk_RATIO, Reg.FIL_ANk_STS]
    omega
  subst hr
  refine ⟨_, (State.onInst_eq s (decide_eq_true hk) _).trans (congrArg s.becomes (if_neg (by simp [hen]))), ?_, ?_⟩
  · exact (Mach.rd_sb_other _ hratio _).trans (Mach.rd_wr_same _ _ _)
  · refine (Mach.g_sb_same _ (f := .FIL_ANk_STS_unlock k) rfl (show 5 < 32 by decide) _).trans ?_
    simp only [bne_iff_ne, ite_not]

/-- A shunt that closes shows it and raises its source. -/
theorem Mach.anFaults_closes {m : Mach} (h : m.b (.FIL_ANk_STS_prot k) = true) (hk : k < 16) (e : Env) (op ovr : Bool) :
    (m.anFaults e k op false ovr).g (.FIL_ANk_STS_prot k) = 0 ∧ (m.anFaults e k op false ovr).bit Reg.FIL_IRQ_STS 24 = true := by
  have hsts : farReg (Reg.FIL_ANk_STS k) ∧ Reg.FIL_ANk_STS k ≠ Reg.FIL_IRQ_STS := by
    simp only [farReg, Reg.FIL_ANk_STS, Reg.FIL_IRQ_STS]
    omega
  obtain ⟨hfar, hirq⟩ := hsts
  unfold Mach.anFaults
  dsimp only
  rw [if_neg (by simp [h])]
  constructor
  · rw [Mach.g_event _ _ _ _ _ (f := .FIL_ANk_STS_prot k) hfar, Mach.g_setBit_other _ (g := .FIL_ANk_STS_prot k) hirq,
      Mach.g_sb_beside _ (show 2 ≤ 2 by decide) (show 2 < 32 by decide) (show 4 ≤ 4 by decide) (.inl (show 2 < 4 by decide)),
      Mach.g_sb_same _ rfl (show 4 < 32 by decide)]
    rfl
  · rw [Mach.bit_congr (Mach.rd_event _ _ _ _ _ (by decide)), Mach.bit_setBit_same _ _ (by decide)]

theorem execAnShuntRetry_closes (hk : k < 16) (h : s.m.b (.FIL_ANk_STS_prot k) = true) (ht : (s.m.an k).protAt + 250000000 ≤ s.env.powered) :
    exec (.anShuntRetry k false) s = s.becomes (s.m.anFaults s.env k (s.m.b (.FIL_ANk_STS_open k)) false (s.m.b (.FIL_ANk_STS_ovr k))) :=
  (State.onInst_eq s (decide_eq_true hk) _).trans (congrArg s.becomes ((if_neg (by simp [h, Nat.not_lt.mpr ht])).trans (if_neg Bool.false_ne_true)))

theorem execAnShuntRetry_early (hk : k < 16) (ht : s.env.powered < (s.m.an k).protAt + 250000000) : exec (.anShuntRetry k false) s = .next s :=
  (State.onInst_eq s (decide_eq_true hk) _).trans (congrArg s.becomes (if_pos (by simp [ht])))

end

/-! ### Characters and gaps (R148 to R153) -/

section
variable {m : Mach} {p : Nat}

theorem Mach.spGap_idle (h : (m.sp p).buf = []) (upto : Nat) : m.spGap p upto = m := if_pos (by simp [h])

theorem Mach.spGap_early {upto : Nat} (h : upto ≤ (m.sp p).charAt + m.spBits p (m.g (.FIL_SPp_GAP_gap_max p))) : m.spGap p upto = m :=
  if_pos (by simp [h])

theorem Mach.spGap_late {upto : Nat} (hgap : m.g (.FIL_SPp_GAP_gap_max p) ≠ 0) (hbuf : (m.sp p).buf ≠ [])
    (h : (m.sp p).charAt + m.spBits p (m.g (.FIL_SPp_GAP_gap_max p)) < upto) : m.spGap p upto = m.spAbandon p (.FIL_SPp_CNT1_trunc p) :=
  if_neg (by simp [hgap, hbuf, Nat.not_le.mpr h])

/-- A sentence opens with $ or !. -/
theorem Mach.spNmea_opens {b : Byte} (hb : b = 0x24 ∨ b = 0x21) (h : (m.sp p).open_ = false) (e : Env) (at_ : Stamp) :
    m.spNmea e p b 0 at_ = m.setSp p fun x => { x with open_ := true, buf := [(b, at_)] } := by
  unfold Mach.spNmea
  dsimp only
  rw [if_neg (by decide), if_pos (by simpa using hb), h, if_neg Bool.false_ne_true]

/-- Outside a sentence every other character is dropped. -/
theorem Mach.spNmea_drops {b : Byte} (hd : b ≠ 0x24) (hx : b ≠ 0x21) (h : (m.sp p).open_ = false) (e : Env) (at_ : Stamp) :
    m.spNmea e p b 0 at_ = m := by
  unfold Mach.spNmea
  dsimp only
  rw [if_neg (by decide), if_neg (by simpa using ⟨hd, hx⟩), h, if_pos Bool.not_false]

theorem Mach.sp_spTally (f : Fld) (q : Nat) : (m.spTally p f).sp q = m.sp q := rfl

/-- A frame that is abandoned is gone from its port, and its counter moves with the port's source. -/
theorem Mach.spAbandon_shows (hlen : p < m.fil.sp.length) (hp : p < 8) {f : Fld} (hf : f.lo ≤ f.hi) (hh : f.hi < 32) (hirq : f.off ≠ Reg.FIL_IRQ_STS) :
    ((m.spAbandon p f).sp p).buf = [] ∧ ((m.spAbandon p f).sp p).open_ = false ∧ (m.spAbandon p f).bit Reg.FIL_IRQ_STS (16 + p) = true
      ∧ (m.spAbandon p f).g f = min (2 ^ fldWidth f - 1) (m.g f + 1) := by
  unfold Mach.spAbandon Mach.spCount
  have hsp : ((((m.setSp p fun x => { x with open_ := false, buf := [] }).spTally p f).setSp p fun x => { x with errMoved := true }).sp p)
      = { m.sp p with open_ := false, buf := [], errMoved := true } := by
    rw [Mach.sp_setSp_same ((Mach.setSp_sp_length _).symm ▸ hlen), Mach.sp_spTally, Mach.sp_setSp_same hlen]
  refine ⟨by rw [hsp], by rw [hsp], ?_, ?_⟩
  · exact Mach.bit_setBit_same ((m.setSp p _).up f) _ (show 16 + p < 32 by omega) true
  · exact (Mach.g_setBit_other _ hirq _ _).trans ((m.setSp p _).g_up_same hf hh)

end

section
variable {s : State} {k : Nat} {b : Byte}

/-- A character without an error on an idle port in NMEA framing. -/
theorem execSerialCharacter_nmea (hk : k < 8) (hen : s.m.b (.FIL_SPp_CFG_en k) = true) (hcon : s.m.spUnconnected k = false)
    (hbuf : (s.m.sp k).buf = []) (hframe : s.m.g (.FIL_SPp_CFG_frame k) = 0) :
    exec (.serialCharacter k b 0) s = s.becomes ((s.m.setSp k fun x => { x with charAt := s.env.powered }).spNmea s.env k b 0
      (s.env.time.before (s.m.spBits k (s.m.spChar k)))) := by
  have hmode : ¬ s.m.g (.FIL_SPp_CFG_frame k) = 1 := by omega
  refine (State.onInst_eq s (decide_eq_true hk) _).trans (congrArg s.becomes ((if_neg (by simp [hen, hcon])).trans ?_))
  dsimp only
  rw [if_neg hmode, if_neg (show ¬ 0 = 2 by decide), Mach.spGap_idle hbuf]

theorem execSerialGapTimeout_eq (hk : k < 8) : exec (.serialGapTimeout k) s = s.becomes (s.m.spGap k s.env.powered) :=
  State.onInst_eq s (decide_eq_true hk) _

/-! ### Silence, error reports and the end of a transmission (R155 to R157) -/

theorem Mach.spSilent_shows (m : Mach) (e : Env) (hk : k < 8) :
    (m.spSilent e k true).g (.FIL_SPp_STS_silent k) = 1 ∧ (m.spSilent e k true).bit Reg.FIL_IRQ_STS (16 + k) = true := by
  have hsts : farReg (Reg.FIL_SPp_STS k) ∧ Reg.FIL_SPp_STS k ≠ Reg.FIL_IRQ_STS := by
    simp only [farReg, Reg.FIL_SPp_STS, Reg.FIL_IRQ_STS]
    omega
  obtain ⟨hfar, hirq⟩ := hsts
  unfold Mach.spSilent
  constructor
  · rw [Mach.g_event _ _ _ _ _ (f := .FIL_SPp_STS_silent k) hfar, Mach.g_setBit_other _ (g := .FIL_SPp_STS_silent k) hirq,
      Mach.g_sb_same _ rfl (show 16 < 32 by decide)]
    rfl
  · rw [Mach.bit_congr (Mach.rd_event _ _ _ _ _ (by decide)), Mach.bit_setBit_same _ _ (by omega)]

theorem execSerialSilentTimeout_due (hk : k < 8) (hen : s.m.b (.FIL_SPp_CFG_en k) = true) (hms : s.m.g (.FIL_SPp_GAP_silent k) ≠ 0)
    (hsts : s.m.b (.FIL_SPp_STS_silent k) = false) (ht : (s.m.sp k).frameAt + 250000 * s.m.g (.FIL_SPp_GAP_silent k) ≤ s.env.powered) :
    exec (.serialSilentTimeout k) s = s.becomes (s.m.spSilent s.env k true) :=
  (State.onInst_eq s (decide_eq_true hk) _).trans (congrArg s.becomes (if_pos (by simp [hen, hms, hsts, ht])))

theorem execSerialSilentTimeout_early (hk : k < 8) (ht : s.env.powered < (s.m.sp k).frameAt + 250000 * s.m.g (.FIL_SPp_GAP_silent k)) :
    exec (.serialSilentTimeout k) s = .next s :=
  (State.onInst_eq s (decide_eq_true hk) _).trans (congrArg s.becomes (if_neg (by simp [Nat.not_le.mpr ht])))

theorem execFilSpErr_early (hk : k < 8) {n : Nat} (h : (s.m.sp k).errAt = some n) (ht : s.env.powered < n + 250000000) :
    exec (.filSpErr k) s = .next s :=
  (State.onInst_eq s (decide_eq_true hk) _).trans (congrArg s.becomes (if_neg (by simp [h, Nat.not_le.mpr ht])))

theorem execFilSpErr_first (hk : k < 8) (hm : (s.m.sp k).errMoved = true) (h : (s.m.sp k).errAt = none) :
    exec (.filSpErr k) s = s.becomes ((s.m.setSp k fun x => { x with errMoved := false, errAt := some s.env.powered }).event s.env 0x3004 (some 2)
      (le 1 k ++ le 4 (s.m.rd (Reg.FIL_SPp_CNT0 k)).toNat ++ le 4 (s.m.rd (Reg.FIL_SPp_CNT1 k)).toNat)) :=
  (State.onInst_eq s (decide_eq_true hk) _).trans (congrArg s.becomes (if_pos (by simp [hm, h])))

theorem Mach.spSent_sending {m : Mach} {c : Cmd} {t : Stamp} (h : (m.sp k).sending = some (c, t)) (e : Env) :
    m.spSent e k = ((m.setSp k fun x => { x with sending := none }).sb (.FIL_SPp_STS_tx_busy k) false).complete e 0x36 c stOk t.bytes [] := by
  unfold Mach.spSent
  rw [h]

theorem execSerialSendDone_done (hk : k < 8) {c : Cmd} {t : Stamp} (h : (s.m.sp k).sending = some (c, t)) (ht : (s.m.sp k).txEnd ≤ s.env.powered) :
    exec (.serialSendDone k) s
      = s.answers 0x36 c ((s.m.setSp k fun x => { x with sending := none }).sb (.FIL_SPp_STS_tx_busy k) false) stOk t.bytes [] :=
  (State.onInst_eq s (decide_eq_true hk) _).trans (congrArg s.becomes ((if_neg (Nat.not_lt.mpr ht)).trans (Mach.spSent_sending h s.env)))

theorem execSerialSendDone_early (hk : k < 8) (ht : s.env.powered < (s.m.sp k).txEnd) : exec (.serialSendDone k) s = .next s :=
  (State.onInst_eq s (decide_eq_true hk) _).trans (congrArg s.becomes (if_pos ht))

end

/-! ### What happens at the inputs -/

/-- Settles O27: each happening is one change of a chain or of a port with what it shows; the gap, the silence and the seconds of the shunt and of the error
report count in TIME cycles, and a row before its instant does nothing (log 109). -/
theorem filterHappenings : Obligations.FilterHappenings := by
  intro s k
  refine ⟨fun v m1 hk hoff h1 hon hcodes hbound hratio hdcb => ?_, fun mods oc f n hk hf hn => ⟨fun hv => ?_, fun hv hmoves hlen => ?_⟩,
    fun r hk hen hlo hhi => ?_, fun r hk hen hhi => ?_, fun hk hprot => ⟨fun ht => ?_, execAnShuntRetry_early hk⟩,
    fun b hk hen hcon hbuf hlen hframe => ?_, fun hk hgap hbuf => ⟨fun ht hlen => ?_, fun ht => ?_⟩,
    fun hk hen hms hsts => ⟨fun ht => ?_, execSerialSilentTimeout_early hk⟩,
    fun hk hm => ⟨fun n h ht => execFilSpErr_early hk h ht, execFilSpErr_first hk hm⟩,
    fun c t hk h => ⟨execSerialSendDone_done hk h, execSerialSendDone_early hk⟩⟩
  · have hx := execFilAnEnable_starts hk hoff h1 hon hcodes hbound hratio hdcb
    refine ⟨hx, fun hlen => ⟨_, hx, ?_⟩⟩
    have hlen1 : m1.fil.an.length = 16 := by rw [h1, (s.m.tells_hostPut _ _ _ _).fil, hlen]
    obtain ⟨hen, hshown, hzone⟩ := m1.anStart_shows s.env k
    exact ⟨hen.trans hon, hshown, hzone, Mach.anStart_nextGrid (hlen1 ▸ hk) (Mach.anPeriodNs_pos hratio) s.env⟩
  · subst hf
    exact (State.onInst_eq s (decide_eq_true hk) _).trans (congrArg s.becomes (Mach.anOutput_waits hn hv s.env oc))
  · subst hf
    obtain ⟨v, hv⟩ := Option.ne_none_iff_exists'.mp hv
    obtain ⟨hpos, hkept⟩ := (s.m.an k).feed_keeps (s.m.cicN k) (s.m.cicR k) (s.m.cicM k) (Config.anCal k (s.m.g (.FIL_ANk_CFG_mode k))) (s.m.anPlace k) mods
    have hstand := (Mach.anOutput_stand (hlen ▸ hk) hn hv s.env oc).trans (AnSt.emit_stand (hkept.trans hmoves) _ _ _ _)
    simp only [AnSt.stand, Prod.mk.injEq] at hstand
    obtain ⟨hgrid, hlast, hhave, hplace⟩ := hstand
    exact ⟨_, State.onInst_eq s (decide_eq_true hk) _, rfl, hgrid, hlast, hhave, hplace.trans (congrArg (· + _) hpos)⟩
  · obtain ⟨t, hx, hr, hunlock⟩ := execRatioServoUpdate_shows (r := r) hk hen (want := r) (by omega)
    exact ⟨t, hx, hr, hunlock.trans (if_pos rfl)⟩
  · obtain ⟨t, hx, hr, hunlock⟩ := execRatioServoUpdate_shows (r := s.m.ratioNominal k + s.m.ratioNominal k / 5000) hk hen (want := r) (by omega)
    exact ⟨t, hx, hr, hunlock.trans (if_neg (by omega))⟩
  · exact ⟨_, execAnShuntRetry_closes hk hprot ht, Mach.anFaults_closes hprot hk s.env _ _⟩
  · have hsp := Mach.sp_setSp_same (m := s.m) (hlen ▸ hk) fun x => { x with charAt := s.env.powered }
    have hx := execSerialCharacter_nmea (b := b) hk hen hcon hbuf hframe
    refine ⟨fun hb hopen => ?_, fun hd hx' hopen => ?_⟩
    · rw [Mach.spNmea_opens hb (by rw [hsp, hopen])] at hx
      refine ⟨_, hx, (Mach.sp_setSp_same ((Mach.setSp_sp_length _).symm ▸ hlen ▸ hk) _).trans ?_⟩
      rw [hsp]
    · rw [Mach.spNmea_drops hd hx' (by rw [hsp, hopen])] at hx
      exact ⟨_, hx, hsp, fun off => rfl⟩
  · have hx := execSerialGapTimeout_eq (s := s) hk
    have hirq : Reg.FIL_SPp_CNT1 k ≠ Reg.FIL_IRQ_STS := by
      simp only [Reg.FIL_SPp_CNT1, Reg.FIL_IRQ_STS]
      omega
    rw [Mach.spGap_late hgap hbuf ht] at hx
    exact ⟨_, hx, Mach.spAbandon_shows (hlen ▸ hk) hk (f := .FIL_SPp_CNT1_trunc k) (show 8 ≤ 15 by decide) (show 15 < 32 by decide) hirq⟩
  · exact (execSerialGapTimeout_eq hk).trans (congrArg s.becomes (Mach.spGap_early ht))
  · exact ⟨_, execSerialSilentTimeout_due hk hen hms hsts ht, s.m.spSilent_shows s.env hk⟩

end Sys2Proof.Machine
end

section
/-!
PROOFS. The feedback channels and encoder emulators as they are stored, and the commands of the feedback block.
-/
namespace Sys2Proof.Machine

/-! ### Channels and emulators stored -/

section
variable {m : Mach} {k : Nat}

theorem Mach.fb_setFb_same (h : k < m.fbk.ch.length) (f : FbCh → FbCh) : (m.setFb k f).fb k = f (m.fb k) := nth_upd_same _ h f

theorem Mach.fb_setFb_other {j : Nat} (h : j ≠ k) (f : FbCh → FbCh) : (m.setFb k f).fb j = m.fb j := nth_upd_other _ _ h f

theorem Mach.emu_setEmu_same (h : k < m.fbk.emu.length) (f : Emu → Emu) : (m.setEmu k f).emu k = f (m.emu k) := nth_upd_same _ h f

@[simp] theorem Mach.setFb_ch_length (f : FbCh → FbCh) : (m.setFb k f).fbk.ch.length = m.fbk.ch.length := upd_length _ _ _

@[simp] theorem Mach.setEmu_emu_length (f : Emu → Emu) : (m.setEmu k f).fbk.emu.length = m.fbk.emu.length := upd_length _ _ _

theorem Mach.Tells.fbk {m' : Mach} (h : m.Tells m') : m'.fbk = m.fbk := (congrArg Mach.fbk h :)

/-- The same block holds the same channels and emulators. -/
theorem Mach.fb_congr {m' : Mach} (h : m'.fbk = m.fbk) (k : Nat) : m'.fb k = m.fb k := by
  rw [Mach.fb, h, Mach.fb]

theorem Mach.emu_congr {m' : Mach} (h : m'.fbk = m.fbk) (k : Nat) : m'.emu k = m.emu k := by
  rw [Mach.emu, h, Mach.emu]

end

/-- A count that is loaded stands at its value. -/
theorem FbCh.load_count (h : FbCh) {v : Nat} (hv : v < 2 ^ 48) : (h.load v).count = v := Nat.mod_eq_of_lt hv

/-- FBK_STATUS_GET returns three words for each of 12 channels, the supplies' word and four emulators' words. -/
theorem Mach.fbkStatus_length (m : Mach) :
    ((List.range 12).flatMap (fun k => m.regBytes [Reg.FBK_CHc_FLAGS k, Reg.FBK_CHc_CNT k, Reg.FBK_CHc_STS k])
      ++ m.regBytes [Reg.FBK_SUP_STS] ++ m.regBytes ((List.range 4).map Reg.FBK_EMUe_STS)).length = 164 := by
  rw [List.length_append, List.length_append, Mach.regBytes_length, Mach.regBytes_length,
    length_flatMap_of_const (n := 12) fun k => m.regBytes_length [Reg.FBK_CHc_FLAGS k, Reg.FBK_CHc_CNT k, Reg.FBK_CHc_STS k]]
  simp only [List.length_map, List.length_range, List.length_cons, List.length_nil]

/-! ### FBK_SET_POS and FBK_IDX_ARM (R174, R178) -/

section
variable {s : State} {c : Cmd} {k : Nat}

theorem execFbkSetPos_loads (hc : s.takes c) (hk : k = c.u8 0) (hlt : k < 12) (hmode : s.m.g (.FBK_CHc_CFG_mode k) ≠ 1) :
    exec (.fbkSetPos c) s = s.answers 0x39 c (s.m.setFb k fun h => h.load (c.un 8 6)) stOk s.env.now.bytes [] := by
  change execFbkSetPos c s = _
  unfold execFbkSetPos
  subst hk
  exact State.command_done hc (by simp [Nat.not_le.mpr hlt, hmode]) (.inl rfl) (Nat.zero_le _)

theorem execFbkSetPos_ssi (hc : s.takes c) (hk : k = c.u8 0) (hlt : k < 12) (hmode : s.m.g (.FBK_CHc_CFG_mode k) = 1) :
    exec (.fbkSetPos c) s = s.answers 0x39 c s.m stState [] [] := by
  change execFbkSetPos c s = _
  unfold execFbkSetPos
  subst hk
  exact State.command_done hc (by simp [Nat.not_le.mpr hlt, hmode, Mach.fail]) (.inl rfl) (Nat.zero_le _)

theorem execFbkIdxArm_arms (hc : s.takes c) (hk : k = c.u8 0) (hlt : k < 12) (hv : c.u8 1 < 2) (hmode : s.m.g (.FBK_CHc_CFG_idx_mode k) = 2) :
    exec (.fbkIdxArm c) s = s.answers 0x3A c (s.m.s (.FBK_CHc_STS_armed k) (c.u8 1)) stOk [] [] := by
  change execFbkIdxArm c s = _
  unfold execFbkIdxArm
  subst hk
  exact State.command_done hc (by simp [Nat.not_le.mpr hlt, Nat.not_le.mpr hv, hmode, Res.ok]) (.inl rfl) (Nat.zero_le _)

theorem execFbkIdxArm_state (hc : s.takes c) (hk : k = c.u8 0) (hlt : k < 12) (hv : c.u8 1 < 2) (hmode : s.m.g (.FBK_CHc_CFG_idx_mode k) ≠ 2) :
    exec (.fbkIdxArm c) s = s.answers 0x3A c s.m stState [] [] := by
  change execFbkIdxArm c s = _
  unfold execFbkIdxArm
  subst hk
  exact State.command_done hc (by simp [Nat.not_le.mpr hlt, Nat.not_le.mpr hv, hmode, Mach.fail]) (.inl rfl) (Nat.zero_le _)

end

/-- Settles O31: the count is loaded into its channel alone and armed into its flag alone; the mode decides whether either answers STATE. -/
theorem countIsPresetAndIndexArmed : Obligations.CountIsPresetAndIndexArmed := by
  intro s c k hc hk hlt
  refine ⟨fun hmode hlen => ?_, execFbkSetPos_ssi hc hk hlt, fun hv hmode => ?_, execFbkIdxArm_state hc hk hlt⟩
  · refine ⟨_, execFbkSetPos_loads hc hk hlt hmode, ?_, rfl, fun j hj => Mach.fb_setFb_other hj _⟩
    rw [Mach.fb_setFb_same hlen, FbCh.load_count _ (un_lt c 8 6)]
  · refine ⟨_, execFbkIdxArm_arms hc hk hlt hv hmode, ?_, fun off ho => s.m.rd_s_other ho _⟩
    exact (Mach.g_s_same s.m (f := .FBK_CHc_STS_armed k) (Nat.le_refl 0) (show 0 < 32 by decide) _).trans (Nat.mod_eq_of_lt hv)

/-! ### The other commands of the block (R199, R200) -/

/-- Settles O28: each clause is the command's own part on a state that takes it, past every check it makes. -/
theorem feedbackCommandsAnswer : Obligations.FeedbackCommandsAnswer := by
  intro s c hc
  refine ⟨fun k m1 hk hlt hcon h1 hen hranges hcheck => ?_, fun k => execFbkSetPos_loads hc, fun k => execFbkIdxArm_arms hc,
    fun k m1 hk hlt hcon h1 hsrc hnum hratio hen => ?_, fun k q hk hq hlt hql hn he => ?_, fun hop hbuf => ?_,
    fun k hk hlt hen hdue hcmd => ?_⟩
  · change execFbkCfg c s = _
    unfold execFbkCfg
    subst hk
    refine State.command_done hc ?_ (.inr rfl) (Nat.zero_le _)
    simp only [Nat.not_le.mpr hlt, hcon, hen, ← h1, hranges, if_false, Bool.not_true, Bool.false_eq_true]
    split
    · next hon => rw [hcheck hon]; rfl
    · rfl
  · have hcode : ¬ (12 ≤ m1.g (.FBK_EMUe_CFG_src k) ∧ m1.g (.FBK_EMUe_CFG_src k) ≤ 14) := by omega
    have hnum0 : m1.g (.FBK_EMUe_RATIO_num k) ≠ 0 := by omega
    have hden : m1.g (.FBK_EMUe_RATIO_den k) ≠ 0 := by omega
    change execFbkEmuCfg c s = _
    unfold execFbkEmuCfg
    subst hk h1
    exact State.command_done hc (by simp [Nat.not_le.mpr hlt, hcon, hcode, hnum0, hden, Nat.not_lt.mpr hratio, hen, Res.ok]) (.inr rfl) (Nat.zero_le _)
  · have hff : q ≠ 0xFF := by omega
    change execFbkStream c s = _
    unfold execFbkStream
    subst hk hq
    exact State.command_done hc (by simp [Nat.not_le.mpr hlt, queueOk, hql, hn, he, hff, Res.ok]) (.inl rfl) (Nat.zero_le _)
  · change execFbkStatusGet c s = _
    unfold execFbkStatusGet
    exact State.command_done hc (by simp [hop]) (.inl rfl) (s.m.fbkStatus_length ▸ hbuf)
  · change execFbkLineTestRun c s = _
    unfold execFbkLineTestRun
    subst hk
    exact State.command_wait hc (by simp [Nat.not_le.mpr hlt, hen, hdue, hcmd]) (.inl rfl)

end Sys2Proof.Machine
end

section
/-!
PROOFS. What the feedback block leaves alone when it tells of a change, and what its emulators leave of its channels.
-/
namespace Sys2Proof.Machine

/-! ### Registers beside the block's sources (R202, R711) -/

/-- A register of the feedback block past FBK_STS and the block's sources. -/
abbrev fbReg (off : Nat) : Prop := Reg.FBK_SUP_STS ≤ off ∧ off < 0x80000

theorem fbReg_far {off : Nat} (h : fbReg off) : farReg off := by
  simp only [fbReg, farReg, Reg.FBK_SUP_STS] at *
  omega

theorem fbReg_ch {k : Nat} (hk : k < 12) : fbReg (Reg.FBK_CHc_CNT k) ∧ fbReg (Reg.FBK_CHc_STS k) := by
  simp only [fbReg, Reg.FBK_SUP_STS, Reg.FBK_CHc_CNT, Reg.FBK_CHc_STS]
  omega

theorem fbReg_emu {k : Nat} (hk : k < 4) : fbReg (Reg.FBK_EMUe_STS k) ∧ fbReg (Reg.FBK_EMUe_POS k) := by
  simp only [fbReg, Reg.FBK_SUP_STS, Reg.FBK_EMUe_STS, Reg.FBK_EMUe_POS]
  omega

section
variable (m : Mach) {off : Nat}

theorem Mach.rd_fbIrq (h : fbReg off) (i : Nat) : (m.fbIrq i).rd off = m.rd off := by
  obtain ⟨h0, h1⟩ : off ≠ Reg.FBK_IRQ_STS0 ∧ off ≠ Reg.FBK_IRQ_STS1 := by
    simp only [fbReg, Reg.FBK_SUP_STS, Reg.FBK_IRQ_STS0, Reg.FBK_IRQ_STS1] at *
    omega
  unfold Mach.fbIrq
  split
  · exact m.rd_setBit_other h0 _ _
  · exact m.rd_setBit_other h1 _ _

/-- A source that is raised and an event that is posted leave the block's other registers alone. -/
theorem Mach.rd_fbTold (h : fbReg off) (i : Nat) (e : Env) (code : Nat) (psev : Option Nat) (p : List Byte) :
    ((m.fbIrq i).event e code psev p).rd off = m.rd off :=
  (Mach.rd_event _ _ _ _ _ (fbReg_far h)).trans (m.rd_fbIrq h i)

theorem Mach.tells_fbIrq (i : Nat) : m.Tells (m.fbIrq i) := by
  unfold Mach.fbIrq
  split
  · exact m.tells_setBit _ _ _
  · exact m.tells_setBit _ _ _

theorem Mach.tells_fbTold (i : Nat) (e : Env) (code : Nat) (psev : Option Nat) (p : List Byte) : m.Tells ((m.fbIrq i).event e code psev p) :=
  (m.tells_fbIrq i).trans (Mach.tells_event _ _ _ _ _)

theorem Mach.adds_fbTold (i : Nat) (e : Env) (code : Nat) (psev : Option Nat) (p : List Byte) : m.Adds ((m.fbIrq i).event e code psev p) := by
  refine .trans (.of_eq ?_) (Mach.adds_event _ _ _ _ _)
  unfold Mach.fbIrq
  split
  · exact m.setBit_out _ _ _
  · exact m.setBit_out _ _ _

theorem Mach.tells_emit (w : String) (i : Nat) (x : Int) (b : List Byte) : m.Tells (m.emit w i x b) := rfl

theorem Mach.tells_supplySet (k : Nat) (on : Bool) : m.Tells (m.supplySet k on) := (m.tells_setBit _ _ _).trans (Mach.tells_emit _ _ _ _ _)

/-- Two bits of one register. -/
theorem Mach.bit_setBit_beside {i j : Nat} (hi : i < 32) (hj : j ≠ i) (v : Bool) : (m.setBit off i v).bit off j = m.bit off j :=
  congrArg (· != 0)
    (Mach.g_s_beside m (f := ⟨off, i, i⟩) (Nat.le_refl i) hi (g := ⟨off, j, j⟩) (Nat.le_refl j) (Nat.lt_or_gt_of_ne hj.symm) _)

end

/-! ### A channel that is changed in parts that are not looked at -/

/-- What a change leaves of a channel, stored or not. -/
theorem Mach.setFb_keeps {β : Type} {m : Mach} {k : Nat} {f : FbCh → FbCh} (g : FbCh → β) (hf : ∀ h, g (f h) = g h) :
    g ((m.setFb k f).fb k) = g (m.fb k) := nth_upd_keeps g hf _ _ k

theorem Mach.setEmu_keeps {β : Type} {m : Mach} {k : Nat} {f : Emu → Emu} (g : Emu → β) (hf : ∀ u, g (f u) = g u) :
    g ((m.setEmu k f).emu k) = g (m.emu k) := nth_upd_keeps g hf _ _ k

/-! ### What feeding the emulators leaves alone (R193, R194) -/

/-- Only emulators move: every channel and its registers stay. -/
structure Mach.EmusMove (m m' : Mach) : Prop where
  ch : m'.fbk.ch = m.fbk.ch
  rd : ∀ off : Nat, Reg.FBK_CHc_CFG 0 ≤ off → off < Reg.FBK_EMUe_CFG 0 → m'.rd off = m.rd off

theorem Mach.EmusMove.refl (m : Mach) : m.EmusMove m := ⟨rfl, fun _ _ _ => rfl⟩

theorem Mach.EmusMove.trans {a b c : Mach} (h : a.EmusMove b) (h' : b.EmusMove c) : a.EmusMove c :=
  ⟨h'.ch.trans h.ch, fun off hlo hhi => (h'.rd off hlo hhi).trans (h.rd off hlo hhi)⟩

theorem Mach.EmusMove.fb {m m' : Mach} (h : m.EmusMove m') (k : Nat) : m'.fb k = m.fb k := by
  rw [Mach.fb, h.ch, Mach.fb]

theorem iter_emusMove {n : Nat} {f : Nat → Mach → Mach} (hf : ∀ i m, Mach.EmusMove m (f i m)) (m : Mach) : m.EmusMove (iter n f m) :=
  ⟨iter_keeps (fun m => m.fbk.ch) (fun i a => (hf i a).ch) m,
    fun off hlo hhi => iter_keeps (fun m => m.rd off) (fun i a => (hf i a).rd off hlo hhi) m⟩

section
variable (m : Mach) (e : Env) (k : Nat)

theorem Mach.emusMove_setEmu (f : Emu → Emu) : m.EmusMove (m.setEmu k f) := ⟨rfl, fun _ _ _ => rfl⟩

theorem Mach.emusMove_emuSts {f : Fld} (hf : f.off = Reg.FBK_EMUe_STS k) (v : Nat) : m.EmusMove (m.s f v) := by
  refine ⟨rfl, fun off _ hhi => m.rd_s_other ?_ v⟩
  simp only [hf, Reg.FBK_EMUe_CFG, Reg.FBK_EMUe_STS] at *
  omega

theorem Mach.emusMove_fbTold (i code : Nat) (psev : Option Nat) (p : List Byte) : m.EmusMove ((m.fbIrq i).event e code psev p) := by
  refine ⟨congrArg Fbk.ch (m.tells_fbTold i e code psev p).fbk, fun off hlo hhi => m.rd_fbTold ?_ i e code psev p⟩
  simp only [fbReg, Reg.FBK_SUP_STS, Reg.FBK_CHc_CFG, Reg.FBK_EMUe_CFG] at *
  omega

theorem Mach.emusMove_setQueue (q : List EmuItem) : m.EmusMove (m.setQueue e k q) := by
  unfold Mach.setQueue
  extract_lets n q' m1
  have h1 : m.EmusMove m1 := (m.emusMove_setEmu k _).trans (Mach.emusMove_emuSts _ k rfl _)
  split
  · exact h1.trans ((m1.emusMove_emuSts k rfl _).trans (Mach.emusMove_fbTold _ _ _ _ _ _))
  · exact h1

theorem Mach.emusMove_emuFeed (d : Int) : m.EmusMove (m.emuFeed e k d) := by
  unfold Mach.emuFeed
  extract_lets den total out m1
  have h1 : m.EmusMove m1 := m.emusMove_setEmu k _
  split
  · exact .refl m
  · split
    · exact h1
    · exact h1.trans (m1.emusMove_setQueue e k _)

/-- A change of a channel's count reaches the emulators and nothing else. -/
theorem Mach.emusMove_emuCount (d : Int) : m.EmusMove (m.emuCount e k d) := by
  unfold Mach.emuCount
  split
  · exact .refl m
  · refine iter_emusMove (fun i m' => ?_) m
    split
    · exact m'.emusMove_emuFeed e i d
    · exact .refl m'

end

end Sys2Proof.Machine
end

section
/-!
PROOFS. What happens at the feedback channels: edges and pairs of changes, enabling, amplitude, SSI frames, line tests and supplies.
-/
namespace Sys2Proof.Machine

/-! ### Changes of the lines (R167, R170, R172) -/

theorem FbCh.edge_shows (h : FbCh) (te : Int) (c : Nat) (d : Int) :
    (h.edge te c d).count = h.count ∧ (h.edge te c d).a = h.a ∧ (h.edge te c d).lastT = te := by
  unfold FbCh.edge
  dsimp only
  split
  · exact ⟨rfl, rfl, rfl⟩
  · split
    · exact ⟨rfl, rfl, rfl⟩
    · exact ⟨rfl, rfl, rfl⟩

/-- The accepted levels of A, B and Z stored. -/
def Mach.fbLines (m : Mach) (k : Nat) (a b z : Bool) : Mach := m.setFb k fun h => { h with a := a, b := b, z := z }

theorem Mach.fbLines_ch_length (m : Mach) (k : Nat) (a b z : Bool) : (m.fbLines k a b z).fbk.ch.length = m.fbk.ch.length := Mach.setFb_ch_length _

section
variable {m : Mach} {e : Env} {k : Nat}

/-- Without invert a count change moves the count and dates the last edge; the channel's registers stay. -/
theorem Mach.fbCount_shows (hlen : k < m.fbk.ch.length) (hinv : m.b (.FBK_CHc_CFG_invert k) = false) (te : Nat) (d : Int) :
    ((m.fbCount e k te d).fb k).count = move48 (m.fb k).count d ∧ ((m.fbCount e k te d).fb k).a = (m.fb k).a
      ∧ ((m.fbCount e k te d).fb k).lastT = te
      ∧ ∀ off : Nat, Reg.FBK_CHc_CFG 0 ≤ off → off < Reg.FBK_EMUe_CFG 0 → (m.fbCount e k te d).rd off = m.rd off := by
  unfold Mach.fbCount
  rw [hinv, if_neg Bool.false_ne_true]
  dsimp only
  have hmove := Mach.emusMove_emuCount (m.setFb k fun h => { h with count := move48 h.count d }.edge te (move48 h.count d) d) e k d
  obtain ⟨hcount, ha, ht⟩ := FbCh.edge_shows { m.fb k with count := move48 (m.fb k).count d } te (move48 (m.fb k).count d) d
  rw [hmove.fb, Mach.fb_setFb_same hlen]
  exact ⟨hcount, ha, ht, hmove.rd⟩

theorem Mach.tells_seqErr (m : Mach) (k : Nat) : m.Tells (m.seqErr k) := rfl

/-- A sequence error shows in its flag and its count. -/
theorem Mach.seqErr_shows (m : Mach) (k : Nat) :
    (m.seqErr k).g (.FBK_CHc_STS_seq_flag k) = 1 ∧ (m.seqErr k).g (.FBK_CHc_CNT_seq_err k) = min 255 (m.g (.FBK_CHc_CNT_seq_err k) + 1) := by
  have hcnt : Reg.FBK_CHc_CNT k ≠ Reg.FBK_CHc_STS k := by
    simp only [Reg.FBK_CHc_CNT, Reg.FBK_CHc_STS]
    omega
  refine ⟨Mach.g_sb_same _ (f := .FBK_CHc_STS_seq_flag k) rfl (show 5 < 32 by decide) true, ?_⟩
  exact (Mach.g_congr (f := .FBK_CHc_CNT_seq_err k) (Mach.rd_sb_other _ hcnt true)).trans
    (m.g_up_same (f := .FBK_CHc_CNT_seq_err k) (Nat.zero_le _) (show 7 < 32 by decide))

section
variable (ha : (m.fb k).a = false) (hb : (m.fb k).b = false) (hz : (m.fb k).z = false) {n : Nat}
include ha hb hz

/-- A level of A that has not stood for filt + 4 cycles does not act. -/
theorem Mach.lineChange_early (h : n < m.g (.FBK_CHc_CFG_filt k) + 4) (nb nz : Nat) : m.lineChange e k true false false n nb nz = m := by
  simp [Mach.lineChange, Mach.linePair, Mach.lineDue, ha, hb, hz, Nat.not_le.mpr h]

/-- A alone has risen and stood for long enough, B for longer: it acts, dated to the cycle it arrived in. -/
theorem Mach.lineChange_rise (h : m.g (.FBK_CHc_CFG_filt k) + 4 ≤ n) (nz : Nat) :
    m.lineChange e k true false false n (2 * n) nz = m.lineAct e k true false false false (e.time.before n).toNs := by
  have hlate : ¬ 2 * n < n + m.g (.FBK_CHc_CFG_filt k) + 2 := by omega
  simp [Mach.lineChange, Mach.linePair, Mach.lineDue, ha, hb, hz, h, hlate, insertAge]

/-- In INC mode A and B have risen together and stood for long enough: they act at once. -/
theorem Mach.lineChange_pair (hmode : m.g (.FBK_CHc_CFG_mode k) = 0) (h : m.g (.FBK_CHc_CFG_filt k) + 4 ≤ n) (nz : Nat) :
    m.lineChange e k true true false n n nz = m.lineAct e k true true false true (e.time.before n).toNs := by
  have hnear : n < n + m.g (.FBK_CHc_CFG_filt k) + 2 := by omega
  simp [Mach.lineChange, Mach.linePair, Mach.lineDue, ha, hb, hz, h, hmode, hnear, insertAge]

variable (hen : m.b (.FBK_CHc_CFG_en k) = true) {te : Nat}
include hen

/-- In INC mode a rising A with B low is one count up the quadrature sequence. -/
theorem Mach.lineAct_inc (hmode : m.g (.FBK_CHc_CFG_mode k) = 0) (late : Bool) :
    m.lineAct e k true false false late te = (m.fbLines k true false false).fbCount e k te 1 := by
  simp [Mach.lineAct, Mach.fbLines, quadPos, ha, hb, hz, hen, hmode]

/-- In INC mode A and B changing together are two places of the sequence: a sequence error without a count. -/
theorem Mach.lineAct_pair (hmode : m.g (.FBK_CHc_CFG_mode k) = 0) (late : Bool) :
    m.lineAct e k true true false late te = (m.fbLines k true true false).seqErr k := by
  simp [Mach.lineAct, Mach.fbLines, quadPos, ha, hb, hz, hen, hmode]

omit hb in
/-- In PULSE mode a rising A with B low is one count down. -/
theorem Mach.lineAct_pulse (hmode : m.g (.FBK_CHc_CFG_mode k) = 3) :
    m.lineAct e k true false false false te = (m.fbLines k true false false).fbCount e k te (-1) := by
  simp [Mach.lineAct, Mach.fbLines, ha, hz, hen, hmode]

end

end

/-! ### Enabling (R166, R177, R184, R188, R197) -/

section
variable {m : Mach} {e : Env} {k : Nat}

/-- A supply that follows its bits leaves the count, and every channel in its place. -/
theorem Mach.supplySync_keeps (m : Mach) (e : Env) (k : Nat) (was : Mach) :
    ((m.supplySync e k was).fb k).count = (m.fb k).count ∧ (m.supplySync e k was).fbk.ch.length = m.fbk.ch.length := by
  unfold Mach.supplySync
  dsimp only
  split
  · rw [Mach.fb_congr (Mach.tells_supplySet _ _ _).fbk]
    exact ⟨Mach.setFb_keeps FbCh.count fun _ => rfl, Mach.setFb_ch_length _⟩
  · split
    · rw [Mach.fb_congr (Mach.tells_supplySet _ _ _).fbk]
      exact ⟨Mach.setFb_keeps FbCh.count fun _ => rfl, Mach.setFb_ch_length _⟩
    · exact ⟨rfl, rfl⟩

theorem Mach.tells_hallErr (m : Mach) (k : Nat) (v : Bool) : m.Tells (m.hallErr k v) := by
  unfold Mach.hallErr
  split
  · exact .refl m
  · exact (m.tells_sb _ _).trans (Mach.tells_fbIrq _ _)

/-- hall_err leaves the other flags of its register. -/
theorem Mach.g_hallErr_isolated (hk : k < 12) (m : Mach) (v : Bool) : (m.hallErr k v).g (.FBK_CHc_STS_isolated k) = m.g (.FBK_CHc_STS_isolated k) := by
  unfold Mach.hallErr
  split
  · rfl
  · exact (Mach.g_congr (f := .FBK_CHc_STS_isolated k) (Mach.rd_fbIrq _ (fbReg_ch hk).2 _)).trans
      (m.g_sb_beside (f := .FBK_CHc_STS_hall_err k) (g := .FBK_CHc_STS_isolated k) (Nat.le_refl 3) (show 3 < 32 by decide) (Nat.le_refl 7)
        (.inl (show 3 < 7 by decide)) v)

/-- A channel that starts stands still, keeps its count and is not isolated. -/
theorem Mach.fbStart_shows (hk : k < 12) (hlen : k < m.fbk.ch.length) :
    ((m.fbStart k).fb k).still = true ∧ ((m.fbStart k).fb k).speed = 0 ∧ ((m.fbStart k).fb k).count = (m.fb k).count
      ∧ (m.fbStart k).g (.FBK_CHc_STS_isolated k) = 0 := by
  unfold Mach.fbStart
  extract_lets code valid
  have h1 : m.Tells (if m.b (.FBK_CHc_STS_isolated k) then m.fbChanged k else m) := by
    split
    · exact m.tells_fbIrq _
    · exact .refl m
  generalize (if m.b (.FBK_CHc_STS_isolated k) then m.fbChanged k else m) = m1 at h1 ⊢
  rw [← h1.fbk] at hlen
  rw [Mach.g_hallErr_isolated hk, Mach.fb_congr (Mach.tells_hallErr _ _ _).fbk, ← Mach.fb_congr h1.fbk k, Mach.fb_congr (Mach.sb_fbk _ _ _),
    Mach.fb_setFb_same hlen]
  exact ⟨rfl, rfl, rfl, Mach.g_sb_same _ (f := .FBK_CHc_STS_isolated k) rfl (show 7 < 32 by decide) false⟩

/-- A write that sets en of a channel whose settings pass the check starts it. -/
theorem execFbkChEnable_starts {s : State} {v : Word} (hk : k < 12) (hoff : s.m.b (.FBK_CHc_CFG_en k) = false) (hv : v.toNat % 2 = 1)
    (hcon : s.m.fbUnconnected k = false) (h1 : m = (s.m.hostPut s.env.locked (!s.env.locked) (Reg.FBK_CHc_CFG k) v).supplySync s.env k s.m)
    (hcheck : m.fbCheck k = none) : exec (.fbkChEnable k v) s = s.becomes (m.fbStart k) := by
  refine (State.onInst_eq s (decide_eq_true hk) _).trans (congrArg s.becomes ((if_neg (by simp [hoff, hv])).trans ?_))
  subst h1
  unfold Mach.fbEnable
  dsimp only
  rw [if_neg (by simp [hcon]), hcheck]

end

/-! ### Amplitude (R168) -/

section
variable {s : State} {k : Nat}

/-- line_err as it reads once its change is told. -/
theorem Mach.g_lineErr_told (hk : k < 12) (m : Mach) (v : Bool) (e : Env) (code : Nat) (psev : Option Nat) (p : List Byte) :
    (((m.sb (.FBK_CHc_STS_line_err k) v).fbChanged k).event e code psev p).g (.FBK_CHc_STS_line_err k) = if v then 1 else 0 :=
  (Mach.g_congr (f := .FBK_CHc_STS_line_err k) (Mach.rd_fbTold _ (fbReg_ch hk).2 _ _ _ _ _)).trans
    (Mach.g_sb_same _ (f := .FBK_CHc_STS_line_err k) rfl (show 2 < 32 by decide) v)

theorem execLineAmplitudeLoss_new {pairs mask : Nat} (hk : k < 12) (hmask : mask = pairs &&& monitored (s.m.g (.FBK_CHc_CFG_mode k))) (h0 : mask ≠ 0)
    (hen : s.m.b (.FBK_CHc_CFG_en k) = true) (hline : s.m.b (.FBK_CHc_STS_line_err k) = false) :
    exec (.lineAmplitudeLoss k pairs) s = s.becomes
      ((((s.m.setFb k fun h => { h with lowPairs := mask }).sb (.FBK_CHc_STS_line_err k) true).fbChanged k).event s.env 0x3802 (some 3)
        (le 1 k ++ le 1 mask ++ le 1 1)) := by
  subst hmask
  exact (State.onInst_eq s (decide_eq_true hk) _).trans (congrArg s.becomes ((if_neg (by simp [hen, h0])).trans (if_neg (by simp [hline]))))

theorem execLineErrClear_set (hk : k < 12) (hline : s.m.b (.FBK_CHc_STS_line_err k) = true) :
    exec (.lineErrClear k) s = s.becomes (((s.m.sb (.FBK_CHc_STS_line_err k) false).fbChanged k).event s.env 0x3802 (some 2)
      (le 1 k ++ le 1 (s.m.fb k).lowPairs ++ le 1 0)) :=
  (State.onInst_eq s (decide_eq_true hk) _).trans (congrArg s.becomes (if_pos hline))

end

/-! ### SSI frames (R179 to R183) -/

theorem bitsNum_lt (l : List Bool) (i n : Nat) : bitsNum l i n < 2 ^ n := by
  induction n with
  | zero => exact Nat.one_pos
  | succ n ih =>
    have hstep : bitsNum l i (n + 1) = 2 * bitsNum l i n + (if l.getD (i + n) false then 1 else 0) := by simp [bitsNum, List.range_succ]
    rw [hstep, Nat.pow_succ]
    split <;> omega

section
variable {m : Mach} {e : Env} {k : Nat}

theorem Mach.faultNote_fbk (m : Mach) (e : Env) (cls inst addr : Nat) : (m.faultNote e cls inst addr).fbk = m.fbk := by
  unfold Mach.faultNote
  dsimp only
  split
  · rfl
  · split
    · rfl
    · rfl

/-- The fault table has one register. -/
theorem Mach.rd_faultNote {off : Nat} (h : off ≠ Reg.GEN_FAULT) (m : Mach) (e : Env) (cls inst addr : Nat) :
    (m.faultNote e cls inst addr).rd off = m.rd off := by
  have hset (l : List FaultEntry) : (m.setFaults l).rd off = m.rd off := (Mach.rd_s_other _ h _).trans (Mach.rd_s_other _ h _)
  unfold Mach.faultNote
  dsimp only
  split
  · exact hset _
  · split
    · exact hset _
    · rfl

/-- FBK_SSI_FAIL posted or not leaves what a channel has but the instant of the post. -/
theorem Mach.ssiFailPost_keeps {β : Type} (g : FbCh → β) (hg : ∀ h p, g { h with failPost := p } = g h) (m : Mach) (e : Env) (k : Nat) :
    g ((m.ssiFailPost e k).fb k) = g (m.fb k) := by
  unfold Mach.ssiFailPost
  extract_lets due
  split
  · rw [Mach.fb_congr (Mach.tells_event _ _ _ _ _).fbk]
    exact Mach.setFb_keeps g fun h => hg h _
  · rfl

theorem Mach.rd_ssiFailPost {off : Nat} (h : farReg off) (m : Mach) (e : Env) (k : Nat) : (m.ssiFailPost e k).rd off = m.rd off := by
  unfold Mach.ssiFailPost
  extract_lets due
  split
  · exact Mach.rd_event _ _ _ _ _ h
  · rfl

/-- A frame that failed leaves position and speed, and its result waits. -/
theorem Mach.ssiFail_shows (hlen : k < m.fbk.ch.length) (req : Nat) (test : Bool) :
    ((m.ssiFail e k req test).fb k).count = (m.fb k).count ∧ ((m.ssiFail e k req test).fb k).speed = (m.fb k).speed
      ∧ ((m.ssiFail e k req test).fb k).result = some (false, req)
      ∧ ∀ off : Nat, fbReg off → (m.ssiFail e k req test).rd off = m.rd off := by
  unfold Mach.ssiFail
  extract_lets m1
  have h1 : m1.fbk = m.fbk ∧ ∀ off : Nat, fbReg off → m1.rd off = m.rd off := by
    unfold m1
    split
    · refine ⟨m.faultNote_fbk e 4 k 0, fun off ho => Mach.rd_faultNote ?_ m e 4 k 0⟩
      simp only [fbReg, Reg.FBK_SUP_STS, Reg.GEN_FAULT] at *
      omega
    · exact ⟨rfl, fun _ _ => rfl⟩
  clear_value m1
  obtain ⟨hfbk, hrd⟩ := h1
  rw [Mach.ssiFailPost_keeps FbCh.count (fun _ _ => rfl), Mach.ssiFailPost_keeps FbCh.speed (fun _ _ => rfl),
    Mach.ssiFailPost_keeps FbCh.result (fun _ _ => rfl), ← Mach.fb_congr hfbk k, Mach.fb_setFb_same (hfbk ▸ hlen)]
  exact ⟨rfl, rfl, rfl, fun off ho => (Mach.rd_ssiFailPost (fbReg_far ho) _ e k).trans (hrd off ho)⟩

end

section
variable {s : State} {k req : Nat} {data : List Bool}

/-- A frame of plain binary code without error bit and CRC that has ended well, the first one: its word is the position. -/
theorem execSsiFrameEnd_first (hk : k < 12) (hlen : k < s.m.fbk.ch.length) (hreq : (s.m.fb k).req = some req) (hen : s.m.b (.FBK_CHc_CFG_en k) = true)
    (hmode : s.m.g (.FBK_CHc_CFG_mode k) = 1) (hcrc : s.m.g (.FBK_CHc_SSI_crc_w k) = 0) (herr : s.m.b (.FBK_CHc_SSI_err_en k) = false)
    (hgray : s.m.b (.FBK_CHc_SSI_gray k) = false) (hlast : (s.m.fb k).lastWord = none) :
    ∃ t : State, exec (.ssiFrameEnd k true true data) s = .next t
      ∧ (t.m.fb k).count = bitsNum data (s.m.g (.FBK_CHc_SSI_lead k)) (s.m.g (.FBK_CHc_SSI_bits k)) ∧ (t.m.fb k).req = none
      ∧ (t.m.fb k).result = some (true, req) := by
  refine ⟨_, State.onInst_eq s (decide_eq_true hk) _, ?_⟩
  simp only [hreq, hen, hmode, hcrc, herr, hgray, hlast, crcWidth, bne_self_eq_false, Bool.not_true, Bool.or_self, Bool.false_eq_true, if_false,
    Bool.false_and]
  rw [(Mach.emusMove_emuCount _ _ _ _).fb, Mach.fb_setFb_same hlen, FbCh.ssiWord, hlast, Nat.mod_eq_of_lt (bitsNum_lt _ _ _)]
  exact ⟨rfl, rfl, rfl⟩

/-- A frame whose data line was low at its request has failed and counts. -/
theorem execSsiFrameEnd_low (hk : k < 12) (hreq : (s.m.fb k).req = some req) (hen : s.m.b (.FBK_CHc_CFG_en k) = true)
    (hmode : s.m.g (.FBK_CHc_CFG_mode k) = 1) :
    exec (.ssiFrameEnd k false true data) s = s.becomes ((s.m.up (.FBK_CHc_CNT_ssi_tmo k)).ssiFail s.env k req true) := by
  refine (State.onInst_eq s (decide_eq_true hk) _).trans (congrArg s.becomes ?_)
  simp [hreq, hen, hmode]

end

/-! ### Line tests (R184) -/

theorem Mach.tells_netSend (m : Mach) (what : String) (p : Nat) (val : Int) (b : List Byte) : m.Tells (m.netSend what p val b) := by
  unfold Mach.netSend
  split
  · exact (m.tells_s _ _).trans (Mach.tells_emit _ _ _ _ _)
  · exact .refl m

theorem Mach.tells_toCq (m : Mach) (e : Env) (q index cid sq op st : Nat) (quiet : Bool) (res data : List Byte) :
    m.Tells (m.toCq e q index cid sq op st quiet res data) := by
  unfold Mach.toCq
  dsimp only
  split
  · exact m.tells_setRing _ _ _
  · exact (m.tells_push _ _ _ _).trans (Mach.tells_setBit _ _ _ _)

theorem Mach.tells_ite {m a b : Mach} {p : Prop} [Decidable p] (ha : m.Tells a) (hb : m.Tells b) : m.Tells (if p then a else b) := by
  split
  · exact ha
  · exact hb

theorem Mach.tells_sqSync (m : Mach) (q : Nat) : m.Tells (m.sqSync q) := (m.tells_s _ _).trans (Mach.tells_sb _ _ _)

/-- A completion is told outside the blocks. -/
theorem Mach.tells_complete (m : Mach) (e : Env) (op : Nat) (c : Cmd) (st : Nat) (res data : List Byte) : m.Tells (m.complete e op c st res data) := by
  unfold Mach.complete
  split
  · exact m.tells_emit _ _ _ _
  · unfold Mach.maintReply
    exact (m.tells_hif _).trans (Mach.tells_netSend _ _ _ _ _)
  · extract_lets found cq index hif m1
    have h1 : m.Tells m1 := ((m.tells_hif _).trans (Mach.tells_sqSync _ _)).trans (Mach.tells_s _ .HIF_CMD_CNT_done _)
    exact Mach.tells_ite h1 ((Mach.tells_ite h1 (h1.trans (m1.tells_hostStore _ _))).trans (Mach.tells_toCq _ _ _ _ _ _ _ _ _ _ _))

theorem Mach.faultVerdict_fbk (m : Mach) (cls inst : Nat) (lasting : Bool) : (m.faultVerdict cls inst lasting).fbk = m.fbk := rfl

/-- What a channel's line test waits for: that it is due, and the command that ordered it. -/
def FbCh.test (h : FbCh) : Bool × Option Cmd := (h.testDue, h.testCmd)

/-- A line test that has ended is neither due nor ordered. -/
theorem Mach.lineTest_ends {m : Mach} {k : Nat} (hlen : k < m.fbk.ch.length) (e : Env) (failed : Nat) :
    ((m.lineTest e k failed).fb k).test = (false, none) := by
  unfold Mach.lineTest
  extract_lets cmd m1 recent m3 m2
  have h1 : (m1.fb k).test = (false, none) := congrArg FbCh.test (Mach.fb_setFb_same hlen _)
  have h3 : (m3.fb k).test = (false, none) := Eq.trans (Mach.setFb_keeps FbCh.test fun _ => rfl) h1
  have h2 : (m2.fb k).test = (false, none) := by
    unfold m2
    clear_value m1 m3
    split
    · rw [Mach.fb_congr (Mach.tells_event _ _ _ _ _).fbk, Mach.fb_congr (m1.faultVerdict_fbk _ _ _), h1]
    · split
      · have h4 := (congrArg FbCh.test (Mach.fb_congr (m3.faultVerdict_fbk 4 k true) k)).trans h3
        rw [Mach.fbChanged, Mach.fb_congr (Mach.tells_fbTold _ _ _ _ _ _).fbk, Mach.fb_congr (Mach.sb_fbk _ _ _)]
        exact Eq.trans (Mach.setFb_keeps FbCh.test fun _ => rfl) h4
      · exact h3
  clear_value m2 cmd
  cases cmd with
  | some c => exact (congrArg FbCh.test (Mach.fb_congr (m2.tells_complete _ _ _ _ _ _).fbk k)).trans h2
  | none => exact h2

theorem execSsiLineTest_due {s : State} {k : Nat} (hk : k < 12) (hdue : (s.m.fb k).testDue = true) (f : Nat) :
    exec (.ssiLineTest k f) s = s.becomes (s.m.lineTest s.env k f) :=
  (State.onInst_eq s (decide_eq_true hk) _).trans (congrArg s.becomes (if_pos (by simp [hdue])))

end Sys2Proof.Machine
end

section
/-!
PROOFS. What happens at the supplies and at the encoder emulators, and with the channels all that happens in the feedback block.
-/
namespace Sys2Proof.Machine

/-! ### Supplies (R197, R198) -/

section
variable {m : Mach} {e : Env} {k : Nat}

theorem Mach.rd_supplyEvent {off : Nat} (h : fbReg off) (m : Mach) (e : Env) (mask : Nat) (budget set : Bool) :
    (m.supplyEvent e mask budget set).rd off = m.rd off := Mach.rd_event _ _ _ _ _ (fbReg_far h)

theorem fbReg_supSts : fbReg Reg.FBK_SUP_STS := by decide

theorem fbSts_ne_supSts (k : Nat) : Reg.FBK_CHc_STS k ≠ Reg.FBK_SUP_STS := by
  simp only [Reg.FBK_CHc_STS, Reg.FBK_SUP_STS]
  omega

/-- The flag of a supply in fault, as it reads once it is written. -/
theorem Mach.g_supFault_set (m : Mach) (k : Nat) (v : Bool) : (m.sb (.FBK_CHc_STS_sup_fault k) v).g (.FBK_CHc_STS_sup_fault k) = if v then 1 else 0 :=
  m.g_sb_same (f := .FBK_CHc_STS_sup_fault k) rfl (show 1 < 32 by decide) v

/-- A supply switched off by fault shows it, is not in tolerance and raises its bit. -/
theorem Mach.supplyOff_shows (hk : k < 12) (m : Mach) (e : Env) :
    (m.supplyOff e k).g (.FBK_CHc_STS_sup_fault k) = 1 ∧ (m.supplyOff e k).bit Reg.FBK_SUP_STS k = false
      ∧ (m.supplyOff e k).bit Reg.FBK_SUP_STS (16 + k) = true := by
  have hrd (m' : Mach) : ((m'.sb (.FBK_CHc_STS_sup_fault k) true).fbIrq 40).rd Reg.FBK_SUP_STS = m'.rd Reg.FBK_SUP_STS :=
    (Mach.rd_fbIrq _ fbReg_supSts 40).trans (m'.rd_sb_other (f := .FBK_CHc_STS_sup_fault k) (fbSts_ne_supSts k).symm true)
  unfold Mach.supplyOff
  rw [Mach.g_congr (f := .FBK_CHc_STS_sup_fault k) (Mach.rd_fbIrq _ (fbReg_ch hk).2 _), Mach.g_supFault_set, Mach.bit_congr (hrd _),
    Mach.bit_congr (hrd _)]
  refine ⟨rfl, Mach.bit_setBit_same _ _ (by omega) false, ?_⟩
  exact (Mach.bit_setBit_beside _ (by omega) (by omega) false).trans (Mach.bit_setBit_same m _ (by omega) true)

/-- A supply that is on again after a fault shows it and is in tolerance. -/
theorem Mach.supplyOn_shows (hk : k < 12) (m : Mach) (f : FbCh → FbCh) :
    (((m.sb (.FBK_CHc_STS_sup_fault k) false).setFb k f).supplySet k true).g (.FBK_CHc_STS_sup_fault k) = 0
      ∧ (((m.sb (.FBK_CHc_STS_sup_fault k) false).setFb k f).supplySet k true).bit Reg.FBK_SUP_STS k = true :=
  ⟨(Mach.g_setBit_other _ (g := .FBK_CHc_STS_sup_fault k) (fbSts_ne_supSts k) k true).trans (m.g_supFault_set k false),
    Mach.bit_setBit_same _ _ (by omega) true⟩

end

section
variable {s : State} {k n : Nat}

theorem execSupplyOverload_off (hk : k < 12) (hen : s.m.b (.FBK_CHc_CFG_sup_en k) = true) (hfault : s.m.b (.FBK_CHc_STS_sup_fault k) = false) :
    exec (.supplyOverload k) s = s.becomes ((s.m.supplyOff s.env k).supplyEvent s.env (2 ^ k) false true) :=
  (State.onInst_eq s (decide_eq_true hk) _).trans (congrArg s.becomes (if_pos (by simp [hen, hfault])))

theorem execSupplyRetry_on (hk : k < 12) (hen : s.m.b (.FBK_CHc_CFG_sup_en k) = true) (hfault : s.m.b (.FBK_CHc_STS_sup_fault k) = true)
    (hat : (s.m.fb k).supAt = some n) (ht : n + 250000000 ≤ s.env.powered) :
    exec (.supplyRetry k true) s = s.becomes ((((s.m.sb (.FBK_CHc_STS_sup_fault k) false).setFb k fun h => { h with supAt := none }).supplySet k
      true).supplyEvent s.env (2 ^ k) false false) := by
  refine (State.onInst_eq s (decide_eq_true hk) _).trans (congrArg s.becomes ?_)
  simp [hen, hfault, hat, ht]

theorem execSupplyRetry_early (hk : k < 12) (hat : (s.m.fb k).supAt = some n) (ht : s.env.powered < n + 250000000) (good : Bool) :
    exec (.supplyRetry k good) s = .next s := by
  refine (State.onInst_eq s (decide_eq_true hk) _).trans (congrArg s.becomes ?_)
  simp [hat, Nat.not_le.mpr ht]

/-- Above 7.5 W the budget's flag is set, whatever supplies it takes off. -/
theorem execSupplyBudget_shows {loads : List Nat} (h : 7500 < loads.sum) :
    ∃ t : State, exec (.supplyBudget loads) s = .next t ∧ t.m.g .FBK_SUP_STS_budget = 1 := by
  change ∃ t : State, execSupplyBudget loads s = .next t ∧ _
  unfold execSupplyBudget
  simp only [if_neg (Nat.not_le.mpr h)]
  refine ⟨_, State.act_eq s _, ?_⟩
  refine (Mach.g_congr (f := .FBK_SUP_STS_budget) (Mach.rd_supplyEvent fbReg_supSts _ _ _ _ _)).trans ?_
  exact (Mach.g_congr (f := .FBK_SUP_STS_budget) (Mach.rd_fbIrq _ fbReg_supSts _)).trans (Mach.g_sb_same _ rfl (by decide) true)

end

/-! ### Emulators (R193 to R196) -/

section
variable {m : Mach} {e : Env} {k : Nat}

/-- A backlog that is stored: the emulator keeps the rest, the backlog within its bound reads back, the other registers of the emulator stay, and
what left the module stays listed. -/
theorem Mach.setQueue_shows (hk : k < 4) (hlen : k < m.fbk.emu.length) (e : Env) (q : List EmuItem) :
    (m.setQueue e k q).emu k = { m.emu k with queue := queueCut 65535 q }
      ∧ (queueCounts q ≤ 65535 → (m.setQueue e k q).g (.FBK_EMUe_STS_backlog k) = queueCounts q)
      ∧ (m.setQueue e k q).rd (Reg.FBK_EMUe_POS k) = m.rd (Reg.FBK_EMUe_POS k) ∧ m.Adds (m.setQueue e k q) := by
  unfold Mach.setQueue
  extract_lets n q' m1
  have hpos : Reg.FBK_EMUe_POS k ≠ Reg.FBK_EMUe_STS k := by
    simp only [Reg.FBK_EMUe_POS, Reg.FBK_EMUe_STS]
    omega
  have hemu : m1.emu k = { m.emu k with queue := q' } := (Mach.emu_congr (Mach.s_fbk _ _ _) k).trans (Mach.emu_setEmu_same hlen _)
  have hsum : m1.g (.FBK_EMUe_STS_backlog k) = min n 65535 :=
    (Mach.g_s_same _ (f := .FBK_EMUe_STS_backlog k) (Nat.zero_le _) (show 15 < 32 by decide) _).trans
      (Nat.mod_eq_of_lt (Nat.lt_of_le_of_lt (Nat.min_le_right _ _) (show 65535 < 2 ^ 16 by decide)))
  have hrd : m1.rd (Reg.FBK_EMUe_POS k) = m.rd (Reg.FBK_EMUe_POS k) := Mach.rd_s_other _ hpos _
  have hadds : m.Adds m1 := .of_eq rfl
  clear_value m1
  split
  · next h =>
    refine ⟨?_, fun hle => absurd hle (Nat.not_le.mpr h), ?_, hadds.trans ((Mach.Adds.of_eq (m1.sb_out _ _)).trans (Mach.adds_fbTold _ _ _ _ _ _))⟩
    · rw [Mach.emu_congr (Mach.tells_fbTold _ _ _ _ _ _).fbk, Mach.emu_congr (Mach.sb_fbk _ _ _), hemu]
    · rw [Mach.rd_fbTold _ (fbReg_emu hk).2, Mach.rd_sb_other _ hpos, hrd]
  · next h => exact ⟨hemu, fun hle => hsum.trans (Nat.min_eq_left hle), hrd, hadds⟩

/-- Z moving or not leaves the other parts of an emulator, and every register. -/
theorem Mach.emuZ_keeps (m : Mach) (k : Nat) (v : Bool) :
    ((m.emuZ k v).emu k).lastOut = (m.emu k).lastOut ∧ (m.emuZ k v).fbk.emu.length = m.fbk.emu.length ∧ (m.emuZ k v).regs = m.regs := by
  unfold Mach.emuZ
  split
  · exact ⟨rfl, rfl, rfl⟩
  · rw [Mach.emu_congr (Mach.emit_fbk _ _ _ _ _)]
    exact ⟨Mach.setEmu_keeps Emu.lastOut fun _ => rfl, Mach.setEmu_emu_length _, rfl⟩

theorem Mach.emuZ_rises (h : (m.emu k).z = false) : m.emuZ k true = (m.setEmu k fun u => { u with z := true }).emit "EMU_Z" k 1 :=
  if_neg (by simp [h])

theorem ofInt_succ (n : Nat) : ofInt 32 ((n : Int) + 1) = (n + 1) % 2 ^ 32 := by
  unfold ofInt
  omega

/-- A count that goes out forward dates the emulator's newest count and moves its position by one. -/
theorem Mach.emuStep_shows (hlen : k < m.fbk.emu.length) (hinv : m.b (.FBK_EMUe_CFG_invert k) = false) (e : Env) :
    ((m.emuStep e k 1).emu k).lastOut = some e.powered ∧ (m.emuStep e k 1).fbk.emu.length = m.fbk.emu.length
      ∧ (m.emuStep e k 1).g (.FBK_EMUe_POS_pos k) = (m.g (.FBK_EMUe_POS_pos k) + 1) % 2 ^ 32 := by
  unfold Mach.emuStep
  rw [hinv, if_neg Bool.false_ne_true]
  extract_lets d' st pos m1 zp
  have hemu : (m1.emu k).lastOut = some e.powered := by
    unfold m1
    rw [Mach.emu_congr (Mach.emit_fbk _ _ _ _ _), Mach.emu_congr (Mach.s_fbk _ _ _), Mach.emu_setEmu_same hlen]
  have hemus : m1.fbk.emu.length = m.fbk.emu.length := upd_length _ _ _
  have hpos : m1.g (.FBK_EMUe_POS_pos k) = (m.g (.FBK_EMUe_POS_pos k) + 1) % 2 ^ 32 := by
    refine (Mach.g_s_same (m.setEmu k _) (f := .FBK_EMUe_POS_pos k) (Nat.zero_le _) (show 31 < 32 by decide) pos).trans ?_
    rw [show pos = _ from ofInt_succ _, show fldWidth (.FBK_EMUe_POS_pos k) = 32 from rfl, Nat.mod_mod]
  clear_value m1
  obtain ⟨hlast, hkept, hregs⟩ := m1.emuZ_keeps k (zp != 0 && toSigned 32 pos % (zp : Int) == 0 && st == 2)
  exact ⟨hlast.trans hemu, hkept.trans hemus, (Mach.g_regs hregs _).trans hpos⟩

section
variable (hen : m.b (.FBK_EMUe_CFG_en k) = true) (hheld : m.emuHeld k = false) {q : List EmuItem}
include hen hheld

theorem Mach.emuOutput_index (hq : (m.emu k).queue = .index :: q) : m.emuOutput e k = (m.emuZ k true).setQueue e k q := by
  simp [Mach.emuOutput, hen, hheld, hq]

theorem Mach.emuOutput_count {n : Int} (hq : (m.emu k).queue = .counts n :: q) (hn : 0 < n) (hready : m.emuReady e k = true) :
    m.emuOutput e k = (m.emuStep e k 1).setQueue e k (if n.natAbs ≤ 1 then q else .counts (n - 1) :: q) := by
  simp [Mach.emuOutput, hen, hheld, hq, hready, Int.not_lt.mpr (Int.le_of_lt hn)]

/-- No count goes out within 25 TIME cycles of the newest one. -/
theorem Mach.emuOutput_spaced {n : Int} (hq : (m.emu k).queue = .counts n :: q) {u : Nat} (hu : (m.emu k).lastOut = some u)
    (ht : e.powered < u + 25) : m.emuOutput e k = m := by
  have hready : m.emuReady e k = false := by
    simp only [Mach.emuReady, hu, decide_eq_false_iff_not]
    omega
  simp [Mach.emuOutput, hen, hheld, hq, hready]

end

end

theorem execEmuCountOutput_eq {s : State} {k : Nat} (hk : k < 4) : exec (.emuCountOutput k) s = s.becomes (s.m.emuOutput s.env k) :=
  State.onInst_eq s (decide_eq_true hk) _

/-! ### What each happening shows -/

section
variable {s : State} {k : Nat}

theorem execFbkLineChange_eq (hk : k < 12) (a b z : Bool) (na nb nz : Nat) :
    exec (.fbkLineChange k a b z na nb nz) s = s.becomes (s.m.lineChange s.env k a b z na nb nz) := State.onInst_eq s (decide_eq_true hk) _

section
variable (hk : k < 12) (hlen : s.m.fbk.ch.length = 12) (hen : s.m.b (.FBK_CHc_CFG_en k) = true) (hinv : s.m.b (.FBK_CHc_CFG_invert k) = false)
  (ha : (s.m.fb k).a = false) (hb : (s.m.fb k).b = false) (hz : (s.m.fb k).z = false) {n : Nat} (hn : s.m.g (.FBK_CHc_CFG_filt k) + 4 ≤ n)
include hk hen ha hb hz hn

include hlen hinv in
/-- In INC mode an edge of A counts and dates the speed's last edge. -/
theorem execFbkLineChange_counts (hmode : s.m.g (.FBK_CHc_CFG_mode k) = 0) :
    ∃ t : State, exec (.fbkLineChange k true false false n (2 * n) (2 * n)) s = .next t ∧ t.env = s.env
      ∧ (t.m.fb k).count = move48 (s.m.fb k).count 1 ∧ (t.m.fb k).a = true ∧ (t.m.fb k).lastT = (s.env.time.before n).toNs := by
  have hx := execFbkLineChange_eq (s := s) hk true false false n (2 * n) (2 * n)
  rw [Mach.lineChange_rise ha hb hz hn, Mach.lineAct_inc ha hb hz hen hmode] at hx
  obtain ⟨hcount, hup, ht, -⟩ := Mach.fbCount_shows (m := s.m.fbLines k true false false) (e := s.env) (by rwa [Mach.fbLines_ch_length, hlen]) hinv
    (s.env.time.before n).toNs 1
  have hfb : (s.m.fbLines k true false false).fb k = { s.m.fb k with a := true, b := false, z := false } := Mach.fb_setFb_same (hlen ▸ hk) _
  rw [hfb] at hcount hup
  exact ⟨_, hx, rfl, hcount, hup, ht⟩

/-- In INC mode a pair of changes counts as a sequence error only. -/
theorem execFbkLineChange_pair (hmode : s.m.g (.FBK_CHc_CFG_mode k) = 0) :
    ∃ t : State, exec (.fbkLineChange k true true false n n (2 * n)) s = .next t ∧ (t.m.fb k).count = (s.m.fb k).count
      ∧ (t.m.fb k).lastT = (s.m.fb k).lastT ∧ t.m.g (.FBK_CHc_STS_seq_flag k) = 1
      ∧ t.m.g (.FBK_CHc_CNT_seq_err k) = min 255 (s.m.g (.FBK_CHc_CNT_seq_err k) + 1) := by
  have hx := execFbkLineChange_eq (s := s) hk true true false n n (2 * n)
  rw [Mach.lineChange_pair ha hb hz hmode hn, Mach.lineAct_pair ha hb hz hen hmode] at hx
  obtain ⟨hflag, hcnt⟩ := (s.m.fbLines k true true false).seqErr_shows k
  refine ⟨_, hx, ?_, ?_, hflag, hcnt⟩
  · dsimp only
    rw [Mach.fb_congr (Mach.tells_seqErr _ k).fbk]
    exact Mach.setFb_keeps FbCh.count fun _ => rfl
  · dsimp only
    rw [Mach.fb_congr (Mach.tells_seqErr _ k).fbk]
    exact Mach.setFb_keeps FbCh.lastT fun _ => rfl

include hlen hinv in
/-- In PULSE mode an edge of A with B low counts down, without a sequence error. -/
theorem execFbkLineChange_pulse (hmode : s.m.g (.FBK_CHc_CFG_mode k) = 3) :
    ∃ t : State, exec (.fbkLineChange k true false false n (2 * n) (2 * n)) s = .next t
      ∧ (t.m.fb k).count = move48 (s.m.fb k).count (-1) ∧ t.m.rd (Reg.FBK_CHc_CNT k) = s.m.rd (Reg.FBK_CHc_CNT k) := by
  have hx := execFbkLineChange_eq (s := s) hk true false false n (2 * n) (2 * n)
  rw [Mach.lineChange_rise ha hb hz hn, Mach.lineAct_pulse ha hz hen hmode] at hx
  obtain ⟨hcount, -, -, hrd⟩ := Mach.fbCount_shows (m := s.m.fbLines k true false false) (e := s.env) (by rwa [Mach.fbLines_ch_length, hlen]) hinv
    (s.env.time.before n).toNs (-1)
  have hkept : ((s.m.fbLines k true false false).fb k).count = (s.m.fb k).count := Mach.setFb_keeps FbCh.count fun _ => rfl
  have hcnt : Reg.FBK_CHc_CFG 0 ≤ Reg.FBK_CHc_CNT k ∧ Reg.FBK_CHc_CNT k < Reg.FBK_EMUe_CFG 0 := by
    simp only [Reg.FBK_CHc_CFG, Reg.FBK_CHc_CNT, Reg.FBK_EMUe_CFG]
    omega
  rw [hkept] at hcount
  exact ⟨_, hx, hcount, hrd _ hcnt.1 hcnt.2⟩

end

/-- A channel that is enabled keeps its count, stands still and is not isolated. -/
theorem execFbkChEnable_shows {v : Word} {m1 : Mach} (hk : k < 12) (hoff : s.m.b (.FBK_CHc_CFG_en k) = false) (hv : v.toNat % 2 = 1)
    (hcon : s.m.fbUnconnected k = false) (h1 : m1 = (s.m.hostPut s.env.locked (!s.env.locked) (Reg.FBK_CHc_CFG k) v).supplySync s.env k s.m)
    (hcheck : m1.fbCheck k = none) (hlen : s.m.fbk.ch.length = 12) :
    ∃ t : State, exec (.fbkChEnable k v) s = .next t ∧ (t.m.fb k).still = true ∧ (t.m.fb k).speed = 0 ∧ (t.m.fb k).count = (s.m.fb k).count
      ∧ t.m.g (.FBK_CHc_STS_isolated k) = 0 := by
  obtain ⟨hcount, hch⟩ := (s.m.hostPut s.env.locked (!s.env.locked) (Reg.FBK_CHc_CFG k) v).supplySync_keeps s.env k s.m
  have hput := (s.m.tells_hostPut s.env.locked (!s.env.locked) (Reg.FBK_CHc_CFG k) v).fbk
  rw [← h1, hput, hlen] at hch
  rw [← h1, Mach.fb_congr hput] at hcount
  obtain ⟨hstill, hspeed, hkept, hiso⟩ := Mach.fbStart_shows hk (m := m1) (hch ▸ hk)
  exact ⟨_, execFbkChEnable_starts hk hoff hv hcon h1 hcheck, hstill, hspeed, hkept.trans hcount, hiso⟩

theorem execLineAmplitudeLoss_shows {pairs mask : Nat} (hk : k < 12) (hmask : mask = pairs &&& monitored (s.m.g (.FBK_CHc_CFG_mode k)))
    (h0 : mask ≠ 0) (hen : s.m.b (.FBK_CHc_CFG_en k) = true) (hline : s.m.b (.FBK_CHc_STS_line_err k) = false) :
    ∃ t : State, exec (.lineAmplitudeLoss k pairs) s = .next t ∧ t.m.g (.FBK_CHc_STS_line_err k) = 1 :=
  have hg := Mach.g_lineErr_told hk (s.m.setFb k fun h => { h with lowPairs := mask }) true s.env 0x3802 (some 3) (le 1 k ++ le 1 mask ++ le 1 1)
  ⟨_, execLineAmplitudeLoss_new hk hmask h0 hen hline, hg⟩

theorem execLineErrClear_shows (hk : k < 12) (hline : s.m.b (.FBK_CHc_STS_line_err k) = true) :
    ∃ t : State, exec (.lineErrClear k) s = .next t ∧ t.m.g (.FBK_CHc_STS_line_err k) = 0 :=
  have hg := Mach.g_lineErr_told hk s.m false s.env 0x3802 (some 2) (le 1 k ++ le 1 (s.m.fb k).lowPairs ++ le 1 0)
  ⟨_, execLineErrClear_set hk hline, hg⟩

/-- A frame that has failed leaves position and speed, and counts. -/
theorem execSsiFrameEnd_fails {req : Nat} (hk : k < 12) (hreq : (s.m.fb k).req = some req) (hen : s.m.b (.FBK_CHc_CFG_en k) = true)
    (hmode : s.m.g (.FBK_CHc_CFG_mode k) = 1) (hlen : s.m.fbk.ch.length = 12) (data : List Bool) :
    ∃ t : State, exec (.ssiFrameEnd k false true data) s = .next t ∧ (t.m.fb k).count = (s.m.fb k).count ∧ (t.m.fb k).speed = (s.m.fb k).speed
      ∧ (t.m.fb k).result = some (false, req) ∧ t.m.g (.FBK_CHc_CNT_ssi_tmo k) = min 255 (s.m.g (.FBK_CHc_CNT_ssi_tmo k) + 1) := by
  have hx := execSsiFrameEnd_low (data := data) hk hreq hen hmode
  have hfbk := s.m.up_fbk (.FBK_CHc_CNT_ssi_tmo k)
  have hup := s.m.g_up_same (f := .FBK_CHc_CNT_ssi_tmo k) (show 16 ≤ 23 by decide) (show 23 < 32 by decide)
  generalize s.m.up (.FBK_CHc_CNT_ssi_tmo k) = m1 at hx hfbk hup
  obtain ⟨hcount, hspeed, hresult, hrd⟩ := Mach.ssiFail_shows (m := m1) (e := s.env) (k := k) (by rwa [hfbk, hlen]) req true
  rw [Mach.fb_congr hfbk] at hcount hspeed
  exact ⟨_, hx, hcount, hspeed, hresult, (Mach.g_congr (f := .FBK_CHc_CNT_ssi_tmo k) (hrd _ (fbReg_ch hk).1)).trans hup⟩

theorem execSupplyOverload_shows (hk : k < 12) (hen : s.m.b (.FBK_CHc_CFG_sup_en k) = true) (hfault : s.m.b (.FBK_CHc_STS_sup_fault k) = false) :
    ∃ t : State, exec (.supplyOverload k) s = .next t ∧ t.m.g (.FBK_CHc_STS_sup_fault k) = 1 ∧ t.m.bit Reg.FBK_SUP_STS k = false
      ∧ t.m.bit Reg.FBK_SUP_STS (16 + k) = true := by
  obtain ⟨hfaulty, hoff, hbit⟩ := Mach.supplyOff_shows hk s.m s.env
  have hsup := (s.m.supplyOff s.env k).rd_supplyEvent fbReg_supSts s.env (2 ^ k) false true
  have hsts := (s.m.supplyOff s.env k).rd_supplyEvent (fbReg_ch hk).2 s.env (2 ^ k) false true
  exact ⟨_, execSupplyOverload_off hk hen hfault, (Mach.g_congr (f := .FBK_CHc_STS_sup_fault k) hsts).trans hfaulty, (Mach.bit_congr hsup k).trans hoff,
    (Mach.bit_congr hsup (16 + k)).trans hbit⟩

theorem execSupplyRetry_shows {n : Nat} (hk : k < 12) (hen : s.m.b (.FBK_CHc_CFG_sup_en k) = true) (hfault : s.m.b (.FBK_CHc_STS_sup_fault k) = true)
    (hat : (s.m.fb k).supAt = some n) (ht : n + 250000000 ≤ s.env.powered) :
    ∃ t : State, exec (.supplyRetry k true) s = .next t ∧ t.m.g (.FBK_CHc_STS_sup_fault k) = 0 ∧ t.m.bit Reg.FBK_SUP_STS k = true := by
  obtain ⟨hclear, hbit⟩ := Mach.supplyOn_shows hk s.m fun h => { h with supAt := none }
  have hx := execSupplyRetry_on hk hen hfault hat ht
  generalize ((s.m.sb (.FBK_CHc_STS_sup_fault k) false).setFb k fun h => { h with supAt := none }).supplySet k true = m1 at hx hclear hbit
  exact ⟨_, hx, (Mach.g_congr (f := .FBK_CHc_STS_sup_fault k) (Mach.rd_supplyEvent (fbReg_ch hk).2 m1 _ _ _ _)).trans hclear,
    (Mach.bit_congr (Mach.rd_supplyEvent fbReg_supSts m1 _ _ _ _) k).trans hbit⟩

section
variable (hk : k < 4) (hen : s.m.b (.FBK_EMUe_CFG_en k) = true) (hheld : s.m.emuHeld k = false) (hlen : s.m.fbk.emu.length = 4) {q : List EmuItem}
include hk hen hheld hlen

/-- An index raises Z in the state it comes in. -/
theorem execEmuCountOutput_index (hq : (s.m.emu k).queue = .index :: q) (hz : (s.m.emu k).z = false) (hle : queueCounts q ≤ 65535) :
    ∃ t : State, exec (.emuCountOutput k) s = .next t ∧ (t.m.emu k).z = true ∧ (t.m.emu k).state = (s.m.emu k).state
      ∧ ⟨"EMU_Z", k, 1, []⟩ ∈ t.m.out ∧ t.m.g (.FBK_EMUe_STS_backlog k) = queueCounts q := by
  have hx := execEmuCountOutput_eq (s := s) hk
  rw [Mach.emuOutput_index hen hheld hq, Mach.emuZ_rises hz] at hx
  have hlt : k < s.m.fbk.emu.length := hlen ▸ hk
  have hlenZ : k < (s.m.setEmu k fun u => { u with z := true }).fbk.emu.length := (Mach.setEmu_emu_length _).symm ▸ hlt
  have hemuZ := Mach.emu_setEmu_same hlt fun u => { u with z := true }
  have hout : (⟨"EMU_Z", k, 1, []⟩ : Out) ∈ ((s.m.setEmu k fun u => { u with z := true }).emit "EMU_Z" k 1).out := List.mem_cons_self
  generalize s.m.setEmu k (fun u => { u with z := true }) = m1 at hx hlenZ hemuZ hout
  obtain ⟨hemu, hsum, -, hadds⟩ := Mach.setQueue_shows (m := m1.emit "EMU_Z" k 1) hk hlenZ s.env q
  rw [Mach.emu_congr (Mach.emit_fbk _ _ _ _ _), hemuZ] at hemu
  exact ⟨_, hx, (congrArg Emu.z hemu :), (congrArg Emu.state hemu :), hadds.mem hout, hsum hle⟩

/-- A count goes out forward. -/
theorem execEmuCountOutput_count {n : Int} (hq : (s.m.emu k).queue = .counts n :: q) (hn : 0 < n) (hinv : s.m.b (.FBK_EMUe_CFG_invert k) = false)
    (hready : s.m.emuReady s.env k = true) :
    ∃ t : State, exec (.emuCountOutput k) s = .next t ∧ (t.m.emu k).lastOut = some s.env.powered
      ∧ t.m.g (.FBK_EMUe_POS_pos k) = (s.m.g (.FBK_EMUe_POS_pos k) + 1) % 2 ^ 32 := by
  have hx := execEmuCountOutput_eq (s := s) hk
  rw [Mach.emuOutput_count hen hheld hq hn hready] at hx
  obtain ⟨hlast, hemus, hpos⟩ := Mach.emuStep_shows (m := s.m) (hlen ▸ hk) hinv s.env
  rw [hlen] at hemus
  generalize s.m.emuStep s.env k 1 = m1 at hx hlast hemus hpos
  obtain ⟨hemu, -, hrd, -⟩ := m1.setQueue_shows hk (hemus ▸ hk) s.env (if n.natAbs ≤ 1 then q else .counts (n - 1) :: q)
  exact ⟨_, hx, (congrArg Emu.lastOut hemu).trans hlast, (Mach.g_congr (f := .FBK_EMUe_POS_pos k) hrd).trans hpos⟩

omit hlen in
theorem execEmuCountOutput_spaced {n : Int} (hq : (s.m.emu k).queue = .counts n :: q) {u : Nat} (hu : (s.m.emu k).lastOut = some u)
    (ht : s.env.powered < u + 25) : exec (.emuCountOutput k) s = .next s :=
  (execEmuCountOutput_eq hk).trans (congrArg s.becomes (Mach.emuOutput_spaced hen hheld hq hu ht))

end

end

/-! ### What happens in the block -/

/-- Settles O29: each happening is one change of a channel, a supply or an emulator with what it shows; telling of it and feeding the emulators leave that,
and before its instant or its spacing nothing happens. -/
theorem feedbackHappenings : Obligations.FeedbackHappenings := by
  intro s k
  refine ⟨fun a b z na nb nz hk => execFbkLineChange_eq hk a b z na nb nz, fun n hk hlen hen hinv ha hb hz => ⟨fun hmode hn => ?_, fun hmode hn => ?_,
      fun hn => ?_⟩,
    fun v m1 hk hoff hv hcon h1 hcheck => ?_, fun pairs mask hk hmask h0 hen hclear => ?_, execLineErrClear_shows,
    fun data req word hk hreq hen hmode hcrc herr hgray hlen hword => ?_, fun f hk hdue hlen => ?_, execSupplyOverload_shows,
    fun n hk hen hfault hat => ?_, fun loads h => execSupplyBudget_shows h, fun hk hen hheld hlen => ?_⟩
  · exact ⟨execFbkLineChange_counts hk hlen hen hinv ha hb hz hn hmode, execFbkLineChange_pair hk hen ha hb hz hn hmode⟩
  · exact execFbkLineChange_pulse hk hlen hen hinv ha hb hz hn hmode
  · exact (execFbkLineChange_eq hk _ _ _ _ _ _).trans (congrArg s.becomes (Mach.lineChange_early ha hb hz hn _ _))
  · exact ⟨execFbkChEnable_starts hk hoff hv hcon h1 hcheck, execFbkChEnable_shows hk hoff hv hcon h1 hcheck⟩
  · exact execLineAmplitudeLoss_shows hk hmask h0 hen hclear
  · subst hword
    exact ⟨execSsiFrameEnd_first hk (hlen ▸ hk) hreq hen hmode hcrc herr hgray, execSsiFrameEnd_fails hk hreq hen hmode hlen data⟩
  · exact ⟨execSsiLineTest_due hk hdue f, _, execSsiLineTest_due hk hdue f, Prod.mk.inj (Mach.lineTest_ends (hlen ▸ hk) s.env f)⟩
  · exact ⟨execSupplyRetry_shows hk hen hfault hat, fun ht => execSupplyRetry_early hk hat ht true⟩
  · exact ⟨fun q => execEmuCountOutput_index hk hen hheld hlen, fun n q => execEmuCountOutput_count hk hen hheld hlen,
      fun n q u hq => execEmuCountOutput_spaced hk hen hheld hq⟩

end Sys2Proof.Machine
end

section
/-!
PROOFS. The commands of Lichen on the active controller.
-/
namespace Sys2Proof.Machine

/-! ### LCH commands (R211, R249, R250) -/

/-- The data of LCH_STATUS_GET (R249): LCH_STS and four registers of each slot. -/
theorem Mach.lchStatus_length (m : Mach) :
    (m.words Reg.LCH_STS 1 ++ (List.range 24).flatMap fun k => m.words (Reg.LCH_Ss_STS k) 4).length = 388 := by
  rw [List.length_append, Mach.words_length, length_flatMap_of_const fun k => m.words_length (Reg.LCH_Ss_STS k) 4, List.length_range]

/-- Settles O32: each clause is the command's own part on a state that takes it, past every check it makes; it completes at acceptance and waits for the
close of the next epoch (log 59). -/
theorem fusionCommandsQueue : Obligations.FusionCommandsQueue := by
  intro s c k hc ha hk
  subst hk
  refine ⟨fun hlen hlt hoff hcfg hcaps => ?_, fun hlt hx => ?_, fun hlt h1 hsus hstale hqual => ?_, fun hlt h0 hdes => ?_,
    fun n hn hsize hdata hcrc himg hlay => ?_, fun hlat hlon hpl => ?_, fun hset hpl => ?_, fun x l o res hlt hon hrel hstale hstep hsmp hoff hres => ?_,
    fun hpl => ?_, fun q hq hlt hn he => ?_, fun hop hbuf => ?_⟩
  · have hsize : ¬ (c.data.length != 0 && c.data.length != 64) = true := by simp only [Bool.and_eq_true, bne_iff_ne]; omega
    change execLchStreamCfg c s = _
    unfold execLchStreamCfg
    exact State.command_done hc ((if_neg hsize).trans (by simp [Nat.not_le.mpr hlt, ha, hoff, hcfg, hcaps, Res.ok])) (.inr rfl) (Nat.zero_le _)
  · change execLchStreamExclude c s = _
    unfold execLchStreamExclude
    exact State.command_done hc (by simp [Nat.not_le.mpr hlt, Nat.not_le.mpr hx, ha, Res.ok]) (.inl rfl) (Nat.zero_le _)
  · change execLchDesignate c s = _
    unfold execLchDesignate
    exact State.command_done hc (by simp [Nat.not_le.mpr hlt, h1, ha, hsus, hstale, hqual, Res.ok]) (.inl rfl) (Nat.zero_le _)
  · change execLchDesignate c s = _
    unfold execLchDesignate
    exact State.command_done hc (by simp [Nat.not_le.mpr hlt, h0, ha, hdes, Res.ok]) (.inl rfl) (Nat.zero_le _)
  · change execLchWeightsLoad c s = _
    unfold execLchWeightsLoad
    subst hn
    exact State.command_done hc (by simp [ha, ← hsize, hdata, hcrc, himg, hlay]) (.inl rfl) (Nat.zero_le _)
  · change execLchDatumSet c s = _
    unfold execLchDatumSet
    exact State.command_done hc (by simp [Nat.not_lt.mpr hlat, Nat.not_lt.mpr hlon, ha, hpl, Res.ok]) (.inr rfl) (Nat.zero_le _)
  · change execLchCfgSet c s = _
    unfold execLchCfgSet
    exact State.command_done hc (by simp [hset, ha, hpl, Res.ok]) (.inr rfl) (Nat.zero_le _)
  · change execLchRefAnchor c s = _
    unfold execLchRefAnchor
    subst hres
    exact State.command_done hc (by simp [Nat.not_le.mpr hlt, ha, hon, hrel, hstale, hstep, hsmp, hoff]) (.inl rfl) (Nat.zero_le _)
  · change execLchReset c s = _
    unfold execLchReset
    exact State.command_done hc (by simp [ha, hpl, Res.ok]) (.inl rfl) (Nat.zero_le _)
  · change execLchOutStream c s = _
    unfold execLchOutStream
    subst hq
    exact State.command_done hc (by simp [Nat.not_le.mpr hlt, hn, ha, he, Res.ok]) (.inl rfl) (Nat.zero_le _)
  · change execLchStatusGet c s = _
    unfold execLchStatusGet
    exact State.command_done hc (by simp [ha, hop]) (.inl rfl) (s.m.lchStatus_length ▸ hbuf)

end Sys2Proof.Machine
end

section
/-!
PROOFS. What posting and Lichen's close leave of the number of the next epoch and of what waits for it.
-/
namespace Sys2Proof.Machine

/-! ### Posting leaves Lichen alone (R555, R560, R597) -/

/-- What is kept of each part of a fold is kept of the fold. -/
theorem foldl_keeps {α β γ : Type} (g : α → γ) {f : α → β → α} (hf : ∀ a b, g (f a b) = g a) (l : List β) (a : α) : g (l.foldl f a) = g a :=
  List.foldlRecOn l f (motive := fun x => g x = g a) rfl fun x hx b _ => (hf x b).trans hx

section
variable (m : Mach)

theorem Mach.peat_lch (p : Peat) : ({ m with peat := p } : Mach).lch = m.lch := rfl

theorem Mach.hif_lch (h : Hif) : ({ m with hif := h } : Mach).lch = m.lch := rfl

@[simp] theorem Mach.setRing_lch (t : QType) (n : Nat) (r : Ring) : (m.setRing t n r).lch = m.lch :=
  (Mach.s_lch _ _ _).trans (m.hif_lch _)

@[simp] theorem Mach.bufSync_lch : m.bufSync.lch = m.lch := by
  unfold Mach.bufSync
  extract_lets fill high m1 mib
  rw [Mach.s_lch, Mach.s_lch]
  unfold m1
  split <;> rfl

@[simp] theorem Mach.peatDrop_lch (sev : Nat) : (m.peatDrop sev).lch = m.lch := by
  unfold Mach.peatDrop
  rw [Mach.peat_lch, Mach.setBit_lch, Mach.sb_lch, Mach.up_lch]

@[simp] theorem Mach.eqDrop_lch (q : Nat) : (m.eqDrop q).lch = m.lch := by
  unfold Mach.eqDrop
  rw [Mach.setBit_lch, Mach.up_lch, Mach.up_lch, Mach.setRing_lch]

@[simp] theorem Mach.record_lch (r : PeatRec) : (m.record r).lch = m.lch := by
  unfold Mach.record
  split
  · exact m.up_lch _
  · split
    · exact m.peatDrop_lch _
    · exact Mach.bufSync_lch _

@[simp] theorem Mach.push_lch (t : QType) (n : Nat) (r : Ring) (h : Held) : (m.push t n r h).lch = m.lch := by
  unfold Mach.push Mach.storeShadow Mach.storeHeld Mach.hostStore
  rw [Mach.emit_lch, Mach.setRing_lch, Mach.emit_lch]
  exact iter_keeps Mach.lch (fun _ m' => m'.emit_lch _ _ _ _) m

@[simp] theorem Mach.putEvent_lch (e : Env) (q sev code : Nat) (p : List Byte) : (m.putEvent e q sev code p).lch = m.lch := by
  unfold Mach.putEvent
  rw [Mach.setBit_lch, Mach.push_lch]

@[simp] theorem Mach.toEq_lch (e : Env) (q sev code : Nat) (p : List Byte) : (m.toEq e q sev code p).lch = m.lch := by
  unfold Mach.toEq
  split
  · rfl
  · split
    · exact m.putEvent_lch _ _ _ _ _
    · exact m.eqDrop_lch _

@[simp] theorem Mach.tellDrops_lch (e : Env) (q : Nat) : (m.tellDrops e q).lch = m.lch := by
  unfold Mach.tellDrops
  extract_lets r p
  split
  · rw [Mach.putEvent_lch, Mach.record_lch, Mach.setRing_lch]
  · rfl

/-- An event is posted. -/
@[simp] theorem Mach.event_lch (e : Env) (code : Nat) (psev : Option Nat) (p : List Byte) : (m.event e code psev p).lch = m.lch := by
  unfold Mach.event Mach.route
  extract_lets m1 q b
  have h1 : (m1.tellDrops e q).lch = m.lch := by
    rw [Mach.tellDrops_lch]
    unfold m1
    split
    · exact m.record_lch _
    · rfl
  split
  · rw [Mach.toEq_lch, h1]
  · exact h1

@[simp] theorem Mach.tellGap_lch (e : Env) (j : Nat) : (m.tellGap e j).lch = m.lch := by
  unfold Mach.tellGap
  extract_lets r
  split
  · exact m.push_lch _ _ _ _
  · rfl

/-- A stream record is posted. -/
@[simp] theorem Mach.stream_lch (e : Env) (j kind source flags : Nat) (body : List Byte) : (m.stream e j kind source flags body).lch = m.lch := by
  unfold Mach.stream
  extract_lets m1 r n
  split
  · split
    · exact m.up_lch _
    · rfl
  · have h1 : m1.lch = m.lch := m.tellGap_lch e j
    clear_value m1
    split
    · exact (m1.push_lch _ _ _ _).trans h1
    · rw [Mach.setBit_lch, Mach.up_lch, Mach.up_lch, Mach.setRing_lch, h1]

@[simp] theorem Mach.linkSend_lch (typ dest : Nat) (p : List Byte) : (m.linkSend typ dest p).lch = m.lch :=
  (congrArg Mach.lch (m.linkSend_eq typ dest p) :)

end

/-! ### What waits for a close (R211, R215, R217) -/

/-- What waits for a close: the number of the next epoch, the commands accepted, and the active's assignments. -/
def Mach.lchWaits (m : Mach) : Nat × List (Nat × Nat × Cmd) × List (Nat × List (Nat × Nat)) := (m.lch.next, m.lch.pend, m.lch.assign)

/-- Nothing that waits depends on anything outside Lichen. -/
theorem Mach.lchWaits_congr {m m' : Mach} (h : m'.lch = m.lch) : m'.lchWaits = m.lchWaits := by
  simp only [Mach.lchWaits, h]

theorem Mach.lchWaits_eq_iff {m : Mach} {n : Nat} {p : List (Nat × Nat × Cmd)} {a : List (Nat × List (Nat × Nat))} :
    m.lchWaits = (n, p, a) ↔ m.lch.next = n ∧ m.lch.pend = p ∧ m.lch.assign = a := by
  simp only [Mach.lchWaits, Prod.mk.injEq]

/-- A choice keeps what both of its sides keep. -/
theorem Mach.ite_lchWaits {m a b : Mach} {p : Prop} [Decidable p] (ha : a.lchWaits = m.lchWaits) (hb : b.lchWaits = m.lchWaits) :
    (if p then a else b).lchWaits = m.lchWaits := by
  split
  · exact ha
  · exact hb

section
variable (m : Mach) (e : Env)

@[simp] theorem Mach.wr_lchWaits (off : Nat) (v : Word) : (m.wr off v).lchWaits = m.lchWaits := Mach.lchWaits_congr (m.wr_lch _ _)
@[simp] theorem Mach.wr64_lchWaits (lo hi n : Nat) : (m.wr64 lo hi n).lchWaits = m.lchWaits := Mach.lchWaits_congr (m.wr64_lch _ _ _)
@[simp] theorem Mach.s_lchWaits (f : Fld) (v : Nat) : (m.s f v).lchWaits = m.lchWaits := Mach.lchWaits_congr (m.s_lch _ _)
@[simp] theorem Mach.sb_lchWaits (f : Fld) (v : Bool) : (m.sb f v).lchWaits = m.lchWaits := Mach.lchWaits_congr (m.sb_lch _ _)
@[simp] theorem Mach.up_lchWaits (f : Fld) : (m.up f).lchWaits = m.lchWaits := Mach.lchWaits_congr (m.up_lch _)
@[simp] theorem Mach.setBit_lchWaits (off i : Nat) (v : Bool) : (m.setBit off i v).lchWaits = m.lchWaits := Mach.lchWaits_congr (m.setBit_lch _ _ _)
@[simp] theorem Mach.setLslot_lchWaits (k : Nat) (f : LchSlot → LchSlot) : (m.setLslot k f).lchWaits = m.lchWaits := rfl
@[simp] theorem Mach.event_lchWaits (code : Nat) (psev : Option Nat) (p : List Byte) : (m.event e code psev p).lchWaits = m.lchWaits :=
  Mach.lchWaits_congr (m.event_lch e code psev p)
@[simp] theorem Mach.note_lchWaits (code : Nat) (p : List Byte) : (m.note e code p).lchWaits = m.lchWaits := m.event_lchWaits e code none p
@[simp] theorem Mach.stream_lchWaits (j kind source flags : Nat) (body : List Byte) : (m.stream e j kind source flags body).lchWaits = m.lchWaits :=
  Mach.lchWaits_congr (m.stream_lch e j kind source flags body)

/-! ### Commands that take effect (R250) -/

@[simp] theorem Mach.ownSync_lchWaits (c o : Nat) : (m.ownSync c o).lchWaits = m.lchWaits := Mach.ite_lchWaits (m.sb_lchWaits _ _) rfl

@[simp] theorem Mach.lchSlotRegs_lchWaits (c : Cmd) : (m.lchSlotRegs c).lchWaits = m.lchWaits := by
  unfold Mach.lchSlotRegs
  extract_lets s own m0 m1
  have h0 : m0.lchWaits = m.lchWaits :=
    (Mach.ownSync_lchWaits _ _ _).trans (iter_keeps Mach.lchWaits (fun _ m' => m'.wr_lchWaits _ _) m)
  have h1 : m1.lchWaits = m.lchWaits := (m0.ownSync_lchWaits _ _).trans h0
  clear_value m1
  have hslot (f : LchSlot → LchSlot) : (m1.setLslot s f).lchWaits = m.lchWaits := (m1.setLslot_lchWaits s f).trans h1
  exact Mach.ite_lchWaits (hslot _) (Mach.ite_lchWaits h1 (hslot _))

@[simp] theorem Mach.lchClears_lchWaits (s : Nat) : (m.lchClears e s).lchWaits = m.lchWaits := by
  unfold Mach.lchClears
  extract_lets m1
  have h1 : m1.lchWaits = m.lchWaits := Mach.ite_lchWaits ((Mach.event_lchWaits _ _ _ _ _).trans (m.setBit_lchWaits _ _ _)) rfl
  clear_value m1
  exact Mach.ite_lchWaits ((Mach.event_lchWaits _ _ _ _ _).trans ((m1.setBit_lchWaits _ _ _).trans h1)) h1

@[simp] theorem Mach.lchSlotCfg_lchWaits (c : Cmd) : (m.lchSlotCfg e c).lchWaits = m.lchWaits := by
  unfold Mach.lchSlotCfg
  extract_lets s m1
  have h1 : m1.lchWaits = m.lchWaits := m.lchSlotRegs_lchWaits c
  clear_value m1
  refine Mach.ite_lchWaits ?_ h1
  rw [Mach.wr_lchWaits, Mach.wr_lchWaits, Mach.lchClears_lchWaits, h1]

@[simp] theorem Mach.lchDesEnd_lchWaits (s : Nat) : (m.lchDesEnd e s).lchWaits = m.lchWaits := by
  unfold Mach.lchDesEnd
  rw [Mach.event_lchWaits, Mach.setBit_lchWaits, Mach.sb_lchWaits]

theorem Mach.lchContraSet_lchWaits (kind mask : Nat) : (m.lchContraSet kind mask).lchWaits = m.lchWaits := rfl

@[simp] theorem Mach.lchRestart_lchWaits : m.lchRestart.lchWaits = m.lchWaits := rfl

@[simp] theorem Mach.lchDesignate_lchWaits (c : Cmd) : (m.lchDesignate e c).lchWaits = m.lchWaits := by
  unfold Mach.lchDesignate
  extract_lets s kind m2 m1
  have h2 : m2.lchWaits = m.lchWaits := by
    refine iter_keeps Mach.lchWaits (fun k m' => Mach.ite_lchWaits ?_ rfl) m
    extract_lets m0
    have h0 : m0.lchWaits = m'.lchWaits := Mach.ite_lchWaits (m'.lchDesEnd_lchWaits e k) rfl
    exact Mach.ite_lchWaits ((Mach.sb_lchWaits _ _ _).trans ((m0.sb_lchWaits _ _).trans h0)) h0
  rw [Mach.event_lchWaits, Mach.setBit_lchWaits]
  clear_value m2
  refine Mach.ite_lchWaits ?_ (m.sb_lchWaits _ _)
  rw [Mach.lchContraSet_lchWaits, Mach.sb_lchWaits, Mach.sb_lchWaits, h2]

@[simp] theorem Mach.lchDatum_lchWaits (c : Cmd) : (m.lchDatum e c).lchWaits = m.lchWaits := by
  unfold Mach.lchDatum
  extract_lets old new deg ax0 ax1 o0 o1 d r a o move ps turn y q x n p shift slots m0 m1 m2
  rw [Mach.event_lchWaits]
  unfold m2
  rw [Mach.wr_lchWaits, Mach.wr64_lchWaits, Mach.wr64_lchWaits]
  rfl

/-- A command that takes effect leaves what waits. -/
theorem Mach.lchApply_lchWaits (op : Nat) (c : Cmd) : (m.lchApply e op c).lchWaits = m.lchWaits := by
  unfold Mach.lchApply
  refine Mach.ite_lchWaits (m.lchSlotCfg_lchWaits e c) (Mach.ite_lchWaits (m.sb_lchWaits _ _) (Mach.ite_lchWaits (m.lchDesignate_lchWaits e c)
    (Mach.ite_lchWaits ?weights (Mach.ite_lchWaits (m.lchDatum_lchWaits e c) (Mach.ite_lchWaits ?settings (Mach.ite_lchWaits ?anchor
    (Mach.ite_lchWaits m.lchRestart_lchWaits (Mach.ite_lchWaits rfl (Mach.ite_lchWaits ?counters rfl)))))))))
  case weights =>
    rw [Mach.sb_lchWaits, Mach.wr_lchWaits]
    rfl
  case settings =>
    extract_lets m1 v
    have h1 : m1.lchWaits = m.lchWaits := by
      unfold m1
      rw [Mach.wr_lchWaits, Mach.wr_lchWaits, Mach.wr_lchWaits, Mach.wr_lchWaits]
    clear_value m1
    exact Mach.ite_lchWaits h1 ((Mach.lchRestart_lchWaits _).trans ((m1.wr_lchWaits _ _).trans h1))
  case anchor => rw [Mach.sb_lchWaits, Mach.setLslot_lchWaits]
  case counters => exact iter_keeps Mach.lchWaits (fun _ m' => (Mach.wr_lchWaits _ _ _).trans (m'.wr_lchWaits _ _)) m

/-- The commands due leave those that name a later epoch. -/
theorem Mach.lchApplyAll_lchWaits (j : Nat) :
    (m.lchApplyAll e j).lchWaits = (m.lch.next, m.lch.pend.filter (fun p => !lchDue j p), m.lch.assign) := by
  unfold Mach.lchApplyAll
  exact foldl_keeps Mach.lchWaits (fun m' (p : Nat × Nat × Cmd) => m'.lchApply_lchWaits e p.2.1 p.2.2) _ _

end

end Sys2Proof.Machine
end

section
/-!
PROOFS. What the steps of Lichen's close leave of what waits, and what its stream leaves of the registers.
-/
namespace Sys2Proof.Machine

/-! ### Stream records and registers (R249, R560) -/

section
variable {off : Nat} (m : Mach) (e : Env)

theorem Mach.rd_setRing_other (t : QType) {n : Nat} (h : off ≠ qSts t n) (r : Ring) : (m.setRing t n r).rd off = m.rd off :=
  Mach.rd_s_other _ (f := qPos t n) h _

theorem Mach.rd_push_other (t : QType) {n : Nat} (h : off ≠ qSts t n) (r : Ring) (x : Held) : (m.push t n r x).rd off = m.rd off := by
  unfold Mach.push
  rw [Mach.rd_regs (Mach.storeShadow_regs _ _ _ _), Mach.rd_setRing_other _ t h, Mach.rd_regs (m.storeHeld_regs _ _ _ _)]

/-- A stream record moves no register outside the host interface but its queue's status. -/
theorem Mach.rd_stream {q : Nat} (hf : farReg off) (hq : off ≠ qSts .stq q) (kind source flags : Nat) (body : List Byte) :
    (m.stream e q kind source flags body).rd off = m.rd off := by
  have hup (m : Mach) : (m.up .HIF_ERR_CNT_stq_drop).rd off = m.rd off := Mach.alike_up (Mach.alike_refl m) (by decide) off hf
  unfold Mach.stream Mach.tellGap
  extract_lets r0 m1 r n
  have h1 : m1.rd off = m.rd off := by
    unfold m1
    split
    · exact m.rd_push_other _ hq _ _
    · rfl
  clear_value m1
  split
  · split
    · exact hup m
    · rfl
  · split
    · exact (m1.rd_push_other _ hq _ _).trans h1
    · exact (Mach.alike_setBit (Mach.alike_refl _) (by decide) _ _ off hf).trans
        ((hup _).trans ((Mach.rd_s_other _ (f := qInfo .stq q) hq _).trans ((m1.rd_setRing_other _ hq _).trans h1)))

/-- The stream of R249 as well. -/
theorem Mach.rd_lchStream (j t1 : Nat) (hf : farReg off) (hq : ∀ q, off ≠ qSts .stq q) : (m.lchStream e j t1).rd off = m.rd off := by
  unfold Mach.lchStream
  split
  · rfl
  · next q mask n _ =>
    extract_lets l m0 st m1
    have h1 : m1.rd off = m.rd off := by
      unfold m1
      split
      · rfl
      · exact m0.rd_stream e hf (hq q) _ _ _ _
    clear_value m1
    split
    · rfl
    split
    · exact h1
    · refine Eq.trans (iter_keeps (Mach.rd · off) (fun s m' => ?_) m1) h1
      split
      · exact m'.rd_stream e hf (hq q) _ _ _ _
      · rfl

/-- The registers of a stream queue end in other digits than LCH_IRQ_STS. -/
theorem lchIrq_ne_qSts (q : Nat) : Reg.LCH_IRQ_STS ≠ qSts .stq q := by
  simp only [Reg.LCH_IRQ_STS, qSts, QType.base]
  omega

end

section
variable (m : Mach) (e : Env)

/-! ### The steps of a close (R214 to R249) -/

@[simp] theorem Mach.lchPredict_lchWaits : m.lchPredict.lchWaits = m.lchWaits := Mach.ite_lchWaits rfl rfl

theorem Mach.lchSlip_lchWaits (l : List LchSample) (s j t0 t1 : Nat) : (m.lchSlip e l s j t0 t1).lchWaits = m.lchWaits := by
  unfold Mach.lchSlip
  extract_lets nom want inside around sus m1
  have h1 : m1.lchWaits = m.lchWaits := by
    unfold m1
    rw [Mach.setLslot_lchWaits, Mach.note_lchWaits, Mach.setBit_lchWaits, Mach.sb_lchWaits, Mach.up_lchWaits]
  clear_value m1
  refine Mach.ite_lchWaits rfl (Mach.ite_lchWaits rfl (Mach.ite_lchWaits ?_ h1))
  rw [Mach.event_lchWaits, Mach.setBit_lchWaits, Mach.sb_lchWaits, h1]

theorem Mach.lchTally_lchWaits (l : List LchSample) (a : LchAt) (s j t0 t1 : Nat) : (m.lchTally e l a s j t0 t1).lchWaits = m.lchWaits := by
  unfold Mach.lchTally
  extract_lets m1 m2 stale
  rw [Mach.sb_lchWaits, Mach.lchSlip_lchWaits]
  unfold m2 m1
  rw [Mach.setLslot_lchWaits, Mach.sb_lchWaits]
  exact Mach.ite_lchWaits (m.up_lchWaits _) rfl

theorem Mach.lchScore_lchWaits (s t1 : Nat) (fs : List Word) (inn : List F64) : (m.lchScore e s t1 fs inn).lchWaits = m.lchWaits := by
  unfold Mach.lchScore
  extract_lets l use hist sc cap t0 trust jump drift q m1 m2 m' m3 thr was now
  have h2 : m2.lchWaits = m.lchWaits := by
    unfold m2 m1
    rw [Mach.setLslot_lchWaits, Mach.s_lchWaits, Mach.s_lchWaits, Mach.s_lchWaits]
  have h' : m'.lchWaits = m.lchWaits := (m2.setLslot_lchWaits _ _).trans h2
  have h3 : m3.lchWaits = m.lchWaits := by
    refine Mach.ite_lchWaits (Mach.ite_lchWaits h' ?_) h2
    rw [Mach.event_lchWaits, Mach.setBit_lchWaits, Mach.up_lchWaits, Mach.sb_lchWaits, h']
  clear_value m3
  refine Mach.ite_lchWaits h3 ?_
  rw [Mach.event_lchWaits, Mach.setBit_lchWaits, Mach.sb_lchWaits, h3]

@[simp] theorem Mach.lchRunEnd_lchWaits (s : Nat) : (m.lchRunEnd s).lchWaits = m.lchWaits := rfl
@[simp] theorem Mach.lchPair_lchWaits (kind : Nat) (run : Nat × Nat) (near : Option Nat) : (m.lchPair kind run near).lchWaits = m.lchWaits := rfl

@[simp] theorem Mach.lchContradict_lchWaits (kind : Nat) (slots : List Nat) (d : F64) (marks : Bool) :
    (m.lchContradict e kind slots d marks).lchWaits = m.lchWaits := by
  unfold Mach.lchContradict
  extract_lets mark m1
  rw [Mach.event_lchWaits, Mach.setBit_lchWaits]
  exact Mach.ite_lchWaits
    (foldl_keeps Mach.lchWaits (fun m' s => (Mach.lchRunEnd_lchWaits _ _).trans ((Mach.sb_lchWaits _ _ _).trans (m'.sb_lchWaits _ _))) _ _) rfl

@[simp] theorem Mach.lchReturn_lchWaits (s t1 : Nat) (near : Bool) : (m.lchReturn s t1 near).lchWaits = m.lchWaits := by
  unfold Mach.lchReturn
  extract_lets o m1
  have h1 : m1.lchWaits = m.lchWaits := m.setLslot_lchWaits _ _
  clear_value m1
  exact Mach.ite_lchWaits rfl (Mach.ite_lchWaits ((Mach.setLslot_lchWaits _ _ _).trans ((m1.sb_lchWaits _ _).trans h1)) h1)

theorem Mach.lchTwo_lchWaits (kind t1 : Nat) (a b : LchVal) : (m.lchTwo e kind t1 a b).lchWaits = m.lchWaits := by
  unfold Mach.lchTwo
  extract_lets g d above pair was m1 near both o m2 run
  split
  · exact Mach.ite_lchWaits (m1.lchReturn_lchWaits _ _ _) (Mach.ite_lchWaits (m1.lchReturn_lchWaits _ _ _) rfl)
  · refine Mach.ite_lchWaits (Mach.ite_lchWaits ?_ rfl) (Mach.ite_lchWaits (Mach.lchContradict_lchWaits _ _ _ _ _ _) rfl)
    rw [Mach.lchContraSet_lchWaits, Mach.lchPair_lchWaits, Mach.sb_lchWaits, Mach.sb_lchWaits]
    rfl

theorem Mach.lchMany_lchWaits (kind t1 : Nat) (cs : List Nat) (vs : List LchVal) : (m.lchMany e kind t1 cs vs).lchWaits = m.lchWaits := by
  unfold Mach.lchMany
  extract_lets g med out n persist
  refine Mach.ite_lchWaits (Mach.ite_lchWaits (foldl_keeps Mach.lchWaits (fun m' s => m'.lchRunEnd_lchWaits s) _ _)
    (m.lchContradict_lchWaits _ _ _ _ _)) (foldl_keeps Mach.lchWaits (fun m' v => ?_) _ _)
  extract_lets s m1 m2
  have h1 : m1.lchWaits = m'.lchWaits := by
    unfold m1
    rw [Mach.setLslot_lchWaits, Mach.up_lchWaits, Mach.sb_lchWaits]
  have h2 : m2.lchWaits = m'.lchWaits := (Mach.lchReturn_lchWaits _ _ _ _).trans (m'.setLslot_lchWaits _ _)
  clear_value m1 m2
  refine Mach.ite_lchWaits (Mach.ite_lchWaits ?_ h1) (Mach.ite_lchWaits ((m2.sb_lchWaits _ _).trans h2) h2)
  rw [Mach.sb_lchWaits, Mach.sb_lchWaits, h1]

/-- The judgement of a kind (R243 to R246). -/
theorem Mach.lchJudge_lchWaits (vals : List LchVal) (t1 kind : Nat) : (m.lchJudge e vals t1 kind).lchWaits = m.lchWaits := by
  unfold Mach.lchJudge
  extract_lets cs vs idle m0 m1 m2
  have h0 : m0.lchWaits = m.lchWaits := by
    refine iter_keeps Mach.lchWaits (fun s m' => Mach.ite_lchWaits ?_ rfl) m
    have hs := m'.sb_lchWaits (.LCH_Ss_STS_outlier s) false
    exact Mach.ite_lchWaits hs (Mach.ite_lchWaits hs hs)
  have h1 : m1.lchWaits = m.lchWaits := Mach.ite_lchWaits h0 ((m0.lchContraSet_lchWaits _ _).trans h0)
  have h2 : m2.lchWaits = m.lchWaits := (m1.lchPair_lchWaits _ _ _).trans h1
  clear_value m2 m1 cs vs
  split
  · split
    · exact (m1.lchTwo_lchWaits _ _ _ _ _).trans h1
    · exact Mach.ite_lchWaits h1 h1
  · exact Mach.ite_lchWaits h2 ((m2.lchMany_lchWaits _ _ _ _ _).trans h2)

@[simp] theorem Mach.lchContraSync_lchWaits : m.lchContraSync.lchWaits = m.lchWaits := (Mach.sb_lchWaits _ _ _).trans (m.sb_lchWaits _ _)

@[simp] theorem Mach.lchBegin_lchWaits (pos hdg : Option LchVal) : (m.lchBegin pos hdg).lchWaits = m.lchWaits := Mach.ite_lchWaits rfl rfl

theorem Mach.lchFuse_lchWaits (v : LchVal) : (m.lchFuse v).lchWaits = m.lchWaits := by
  unfold Mach.lchFuse
  extract_lets trust var n h d y
  exact Mach.ite_lchWaits ((Mach.up_lchWaits _ _).trans (m.sb_lchWaits _ _)) rfl

/-- The observer's close (R233, R238). -/
theorem Mach.lchObserve_lchWaits (vals : List LchVal) : (m.lchObserve e vals).1.lchWaits = m.lchWaits := by
  unfold Mach.lchObserve
  extract_lets m1 p h best use m2 m3 nonFinite broken m4
  have h3 : m3.lchWaits = m.lchWaits :=
    calc m3.lchWaits
      _ = m2.lchWaits := foldl_keeps Mach.lchWaits (fun m' v => m'.lchFuse_lchWaits v) _ _
      _ = m1.lchWaits := m1.lchBegin_lchWaits _ _
      _ = m.lchWaits := iter_keeps Mach.lchWaits (fun _ m' => m'.sb_lchWaits _ _) m
  clear_value m3
  have h4 : m4.lchWaits = m.lchWaits := by
    unfold m4
    rw [Mach.event_lchWaits, Mach.setBit_lchWaits, Mach.sb_lchWaits, h3]
  clear_value m4
  split
  · exact (Mach.lchBegin_lchWaits _ _ _).trans (m4.lchRestart_lchWaits.trans h4)
  · exact h3

theorem Mach.lchHealth_lchWaits (old : Nat → Nat) : (m.lchHealth e old).lchWaits = m.lchWaits := by
  refine iter_keeps Mach.lchWaits (fun s m' => ?_) m
  extract_lets h m1
  refine Mach.ite_lchWaits rfl ?_
  rw [Mach.event_lchWaits]
  unfold m1
  rw [Mach.setBit_lchWaits, Mach.sb_lchWaits]

theorem Mach.lchEndDesignations_lchWaits : (m.lchEndDesignations e).lchWaits = m.lchWaits := by
  unfold Mach.lchEndDesignations
  extract_lets m1
  rw [Mach.sb_lchWaits]
  exact iter_keeps Mach.lchWaits (fun s m' => Mach.ite_lchWaits (m'.lchDesEnd_lchWaits e s) rfl) m

theorem Mach.lchSteps_lchWaits (t1 anew : Nat) (des began : Nat → Bool) : (m.lchSteps e t1 anew des began).lchWaits = m.lchWaits := by
  unfold Mach.lchSteps
  extract_lets long old cand hold nh hcand np pr l
  split
  split
  extract_lets m1 m2 why m3
  have h2 : m2.lchWaits = m.lchWaits := by
    unfold m2
    rw [Mach.s_lchWaits, Mach.s_lchWaits, Mach.s_lchWaits, Mach.s_lchWaits, Mach.s_lchWaits]
    rfl
  clear_value m2
  have h3 : m3.lchWaits = m.lchWaits := by
    refine Mach.ite_lchWaits h2 ?_
    rw [Mach.event_lchWaits, Mach.setBit_lchWaits, h2]
  clear_value m3
  refine Mach.ite_lchWaits h3 ?_
  rw [Mach.event_lchWaits, Mach.setBit_lchWaits, h3]

theorem Mach.lchWindOut_lchWaits (vals : List LchVal) : (m.lchWindOut vals).lchWaits = m.lchWaits :=
  Mach.ite_lchWaits rfl ((Mach.wr_lchWaits _ _ _).trans (m.wr_lchWaits _ _))

theorem Mach.lchPublish_lchWaits (j t1 : Nat) (vals : List LchVal) : (m.lchPublish e j t1 vals).lchWaits = m.lchWaits := by
  unfold Mach.lchPublish
  extract_lets x at_ f pe pstep hstep posV hdgV att wind far m1 m2 m3 m4 lag
  have h2 : m2.lchWaits = m.lchWaits := by
    unfold m2 m1
    simp only [Mach.wr_lchWaits, Mach.wr64_lchWaits]
  have h3 : m3.lchWaits = m.lchWaits := by
    unfold m3
    rw [Mach.lchWindOut_lchWaits, Mach.wr_lchWaits, Mach.wr_lchWaits, h2]
  clear_value m3
  unfold m4
  simp only [Mach.s_lchWaits, Mach.sb_lchWaits, h3]

/-- The stream of R249. -/
theorem Mach.lchStream_lchWaits (j t1 : Nat) : (m.lchStream e j t1).lchWaits = m.lchWaits := by
  unfold Mach.lchStream
  split
  · rfl
  · next q mask n _ =>
    extract_lets l m0 st m1
    have h1 : m1.lchWaits = m.lchWaits := Mach.ite_lchWaits rfl (m0.stream_lchWaits _ _ _ _ _ _)
    clear_value m1
    refine Mach.ite_lchWaits rfl (Mach.ite_lchWaits h1 ((iter_keeps Mach.lchWaits (fun s m' => ?_) m1).trans h1))
    exact Mach.ite_lchWaits (m'.stream_lchWaits _ _ _ _ _ _) rfl

end

end Sys2Proof.Machine
end

section
/-!
PROOFS. What happens to Lichen by itself: closes, and the ends of timing_suspect and jump.
-/
namespace Sys2Proof.Machine

/-! ### A close (R215, R217) -/

section
variable (m : Mach) (e : Env)

theorem Mach.linkSend_lchWaits (typ dest : Nat) (p : List Byte) : (m.linkSend typ dest p).lchWaits = m.lchWaits :=
  Mach.lchWaits_congr (m.linkSend_lch typ dest p)

/-- A close counts the epoch and leaves what waits for a later one; at the wait limit it is told. -/
theorem Mach.lchClose_shows (assigned : Option (List (Nat × Nat))) (limit : Bool) :
    (m.lchClose e assigned limit).lchWaits = (m.lch.next + 1, m.lch.pend.filter (fun p => !lchDue m.lch.next p), m.lch.assign)
      ∧ (limit = true → (m.lchClose e assigned limit).bit Reg.LCH_IRQ_STS 10 = true) := by
  unfold Mach.lchClose
  extract_lets j due des old m0 reset t1 t0 serving at_ ats l0 mp m1 vals m2 m3 m4 began r m5 m6 m7 keep slots l7 m8 named
  have h7 : m7.lchWaits = m6.lchWaits := Mach.ite_lchWaits ((Mach.setBit_lchWaits _ _ _ _).trans (m6.up_lchWaits _)) rfl
  have h6 : m6.lchWaits = (m.lch.next, m.lch.pend.filter (fun p => !lchDue m.lch.next p), m.lch.assign) :=
    calc m6.lchWaits
      _ = m5.lchWaits := (Mach.lchPublish_lchWaits _ _ _ _ _).trans (m5.lchSteps_lchWaits _ _ _ _ _)
      _ = r.1.lchWaits := (Mach.lchEndDesignations_lchWaits _ _).trans (r.1.lchHealth_lchWaits _ _)
      _ = m4.lchWaits := m4.lchObserve_lchWaits _ _
      _ = m3.lchWaits := m3.lchContraSync_lchWaits
      _ = m2.lchWaits := iter_keeps Mach.lchWaits (fun _ m' => m'.lchJudge_lchWaits _ _ _ _) m2
      _ = m1.lchWaits := iter_keeps Mach.lchWaits (fun _ m' => Mach.ite_lchWaits (m'.lchScore_lchWaits _ _ _ _ _) rfl) m1
      _ = mp.lchWaits := iter_keeps Mach.lchWaits (fun _ m' => Mach.ite_lchWaits (m'.lchTally_lchWaits _ _ _ _ _ _ _) rfl) mp
      _ = m0.lchWaits := Mach.lchPredict_lchWaits _
      _ = _ := m.lchApplyAll_lchWaits e _
  have h8 : m8.lchWaits = (m.lch.next + 1, m.lch.pend.filter (fun p => !lchDue m.lch.next p), m.lch.assign) :=
    Mach.lchWaits_eq_iff.mpr ⟨rfl, (Mach.lchWaits_eq_iff.mp (h7.trans h6)).2⟩
  have hirq : limit = true → m8.bit Reg.LCH_IRQ_STS 10 = true := fun hl => by
    have h10 : m7.bit Reg.LCH_IRQ_STS 10 = true := by
      unfold m7
      rw [if_pos hl]
      exact Mach.bit_setBit_same _ _ (by decide) true
    exact h10
  clear_value m8
  constructor
  · rw [Mach.lchStream_lchWaits]
    exact (Mach.ite_lchWaits rfl (m8.linkSend_lchWaits _ _ _)).trans h8
  · intro hl
    rw [Mach.bit_congr (Mach.rd_lchStream _ _ _ _ (by decide) lchIrq_ne_qSts), ← hirq hl]
    split
    · rfl
    · exact Mach.bit_congr (Mach.rd_regs (m8.linkSend_regs _ _ _) _) _

end

/-! ### Which close comes next (R205, R215, R217) -/

theorem execEpochClose_eq (s : State) : exec .epochClose s = s.becomes (s.m.lchCloseNext s.env) := rfl

section
variable {m : Mach} {e : Env}

section
variable (hpos : m.g .STK_STS_pos < 2) (hlead : m.shadows = false)
include hpos hlead

/-- A controller that leads closes an epoch from its instant on when every enabled stream is complete. -/
theorem Mach.lchCloseNext_complete (hall : m.lchAll = true) (hdue : m.epochInstant m.lch.next ≤ e.ns) :
    m.lchCloseNext e = m.lchClose e none false := by
  simp only [Mach.lchCloseNext, Nat.not_le.mpr hpos, hlead, hall, hdue, if_false, if_true, Bool.false_eq_true, decide_true, Bool.and_self]

/-- A controller that leads closes an epoch at its wait limit with a stream missing. -/
theorem Mach.lchCloseNext_limit (hmiss : m.lchAll = false) (hdue : m.lchLimit ≤ e.ns) : m.lchCloseNext e = m.lchClose e none true := by
  simp only [Mach.lchCloseNext, Nat.not_le.mpr hpos, hlead, hmiss, hdue, if_false, if_true, Bool.false_eq_true, Bool.and_false]

/-- Before its wait limit an epoch that is not complete, or whose instant lies ahead, does not close. -/
theorem Mach.lchCloseNext_early (hlim : e.ns < m.lchLimit) (hwait : m.lchAll = false ∨ e.ns < m.epochInstant m.lch.next) : m.lchCloseNext e = m := by
  have hopen : ¬ (decide (m.epochInstant m.lch.next ≤ e.ns) && m.lchAll) = true := by
    rcases hwait with h | h
    · simp [h]
    · simp [Nat.not_le.mpr h]
  simp only [Mach.lchCloseNext, Nat.not_le.mpr hpos, hlead, hopen, Nat.not_le.mpr hlim, if_false, Bool.false_eq_true]

end

/-- A standby closes the next epoch with the active's assignment once every sample that names is present. -/
theorem Mach.lchCloseNext_assigned (hpos : m.g .STK_STS_pos < 2) (hsh : m.shadows = true) {named : List (Nat × Nat)}
    {l : List (Nat × List (Nat × Nat))} (ha : m.lch.assign = (m.lch.next, named) :: l)
    (hin : (named.all fun p => (m.lslot p.1).samples.any fun x => x.at_ == p.2) = true) :
    m.lchCloseNext e
      = { m with lch := { m.lch with assign := l.filter fun x => decide (m.lch.next < x.1) } }.lchClose e (some named) false := by
  have hfind : (m.lch.assign.find? fun a => a.1 == m.lch.next && a.2.all fun p => (m.lslot p.1).samples.any fun x => x.at_ == p.2)
      = some (m.lch.next, named) := by
    rw [ha]
    exact List.find?_cons_of_pos (by simp only [beq_self_eq_true, hin, Bool.and_self])
  have hrest : (m.lch.assign.filter fun x => decide (m.lch.next < x.1)) = l.filter fun x => decide (m.lch.next < x.1) := by
    rw [ha]
    exact List.filter_cons_of_neg (by simp)
  simp only [Mach.lchCloseNext, Nat.not_le.mpr hpos, hsh, hfind, hrest, if_false, if_true]

/-- An expansion, and a standby without an assignment, closes no epoch. -/
theorem Mach.lchCloseNext_none (h : 2 ≤ m.g .STK_STS_pos ∨ (m.shadows = true ∧ m.lch.assign = [])) : m.lchCloseNext e = m := by
  unfold Mach.lchCloseNext
  split
  · rfl
  · next hpos =>
    obtain ⟨hsh, ha⟩ := h.resolve_left hpos
    rw [if_pos hsh, ha]
    rfl

end

/-! ### The ends of timing_suspect and jump (R220, R228) -/

section
variable {s : State} {k t : Nat}

theorem lchSts_apart (hk : k < 24) : farReg (Reg.LCH_Ss_STS k) ∧ Reg.LCH_Ss_STS k ≠ Reg.LCH_IRQ_STS := by
  simp only [farReg, Reg.LCH_Ss_STS, Reg.LCH_IRQ_STS]
  omega

/-- The machine once timing_suspect of a slot is cleared and told (R220). -/
def Mach.timingClear (m : Mach) (e : Env) (k : Nat) : Mach :=
  ((m.sb (.LCH_Ss_STS_timing_suspect k) false).setBit Reg.LCH_IRQ_STS 5 true).event e 0x4006 (some 2) (le 1 k ++ le 1 0)

theorem Mach.timingClear_shows (m : Mach) (e : Env) (hk : k < 24) :
    (m.timingClear e k).g (.LCH_Ss_STS_timing_suspect k) = 0 ∧ (m.timingClear e k).bit Reg.LCH_IRQ_STS 5 = true := by
  obtain ⟨hfar, hirq⟩ := lchSts_apart hk
  unfold Mach.timingClear
  constructor
  · rw [Mach.g_event _ _ _ _ _ (f := .LCH_Ss_STS_timing_suspect k) hfar, Mach.g_setBit_other _ (g := .LCH_Ss_STS_timing_suspect k) hirq,
      Mach.g_sb_same _ rfl (show 7 < 32 by decide)]
    rfl
  · rw [Mach.bit_congr (Mach.rd_event _ _ _ _ _ (by decide)), Mach.bit_setBit_same _ _ (by decide)]

theorem execTimingSuspectClear_due (hk : k < 24) (hsus : s.m.b (.LCH_Ss_STS_timing_suspect k) = true) {l : List Nat}
    (hslips : (s.m.lslot k).slips = t :: l) (ht : t + s.m.g .LCH_SLIP_CFG_ts_clear * 1000000000 ≤ s.env.ns) :
    exec (.timingSuspectClear k) s = s.becomes (s.m.timingClear s.env k) :=
  (State.onInst_eq s (decide_eq_true hk) _).trans (congrArg s.becomes (if_pos (by simp [hsus, hslips, ht])))

theorem execTimingSuspectClear_early (hk : k < 24) {l : List Nat} (hslips : (s.m.lslot k).slips = t :: l)
    (ht : s.env.ns < t + s.m.g .LCH_SLIP_CFG_ts_clear * 1000000000) : exec (.timingSuspectClear k) s = .next s :=
  (State.onInst_eq s (decide_eq_true hk) _).trans (congrArg s.becomes (if_neg (by simp [hslips, Nat.not_le.mpr ht])))

theorem execJumpHoldEnd_ends (hk : k < 24) (hjump : (s.m.lslot k).jumpAt = some t)
    (ht : t + s.m.g .LCH_TRUST_THR_jump_hold * 1000000000 ≤ s.env.ns) :
    exec (.jumpHoldEnd k) s = s.becomes (s.m.sb (.LCH_Ss_STS_jump k) false) :=
  (State.onInst_eq s (decide_eq_true hk) _).trans (congrArg s.becomes (if_pos (by simp [hjump, ht])))

end

/-- Settles O33: a close counts the epoch and applies what was due, no epoch closes before its own instant (log 113), and the two flags end at their
instants. -/
theorem fusionHappenings : Obligations.FusionHappenings := by
  intro s
  refine ⟨fun hpos hlead => ⟨fun limit hcase => ?_, fun hlim hwait => ?_⟩, fun named l hpos hsh ha hin => ?_, fun h => ?_,
    fun k t l hk hsus hslips => ⟨fun ht => ⟨_, execTimingSuspectClear_due hk hsus hslips ht, s.m.timingClear_shows s.env hk⟩,
      execTimingSuspectClear_early hk hslips⟩, fun k t hk hjump ht => ?_⟩
  · have hx : exec .epochClose s = s.becomes (s.m.lchClose s.env none limit) := by
      rw [execEpochClose_eq]
      rcases hcase with ⟨rfl, hall, hdue⟩ | ⟨rfl, hmiss, hdue⟩
      · rw [Mach.lchCloseNext_complete hpos hlead hall hdue]
      · rw [Mach.lchCloseNext_limit hpos hlead hmiss hdue]
    obtain ⟨hwaits, htold⟩ := s.m.lchClose_shows s.env none limit
    obtain ⟨hnext, hpend, -⟩ := Mach.lchWaits_eq_iff.mp hwaits
    exact ⟨hx, _, hx, hnext, hpend, htold⟩
  · exact congrArg s.becomes (Mach.lchCloseNext_early hpos hlead hlim hwait)
  · have hx := (execEpochClose_eq s).trans (congrArg s.becomes (Mach.lchCloseNext_assigned hpos hsh ha hin))
    obtain ⟨hwaits, -⟩ := Mach.lchClose_shows { s.m with lch := { s.m.lch with assign := l.filter fun x => decide (s.m.lch.next < x.1) } }
      s.env (some named) false
    obtain ⟨hnext, -, hassign⟩ := Mach.lchWaits_eq_iff.mp hwaits
    exact ⟨_, hx, hnext, hassign⟩
  · exact congrArg s.becomes (Mach.lchCloseNext_none h)
  · exact ⟨_, execJumpHoldEnd_ends hk hjump ht, Mach.g_sb_same _ rfl (show 8 < 32 by decide) false,
      fun off hoff => Mach.rd_sb_other _ hoff _⟩

end Sys2Proof.Machine
end

section
/-!
PROOFS. The commands of the positioning law and SLV_CFG_SET on the active controller.
-/
namespace Sys2Proof.Machine

/-! ### A command is held for its boundary (R257) -/

@[simp] theorem Mach.forward_regs (m : Mach) (op at_ : Nat) (c : Cmd) : (m.forward op at_ c).regs = m.regs := m.linkSend_regs _ _ _

@[simp] theorem Mach.forward_pl (m : Mach) (op at_ : Nat) (c : Cmd) : (m.forward op at_ c).pl = m.pl := m.linkSend_pl _ _ _

@[simp] theorem Mach.plFed_regs (m : Mach) (e : Env) (op : Nat) (c : Cmd) : (m.plFed e op c).regs = m.regs := by
  unfold Mach.plFed
  split <;> rfl

@[simp] theorem Mach.plFed_pend (m : Mach) (e : Env) (op : Nat) (c : Cmd) : (m.plFed e op c).pl.pend = m.pl.pend := by
  unfold Mach.plFed
  split <;> rfl

/-- Only a manual feed begins the time of R291 anew. -/
theorem Mach.plFed_manualAt (m : Mach) (e : Env) (op : Nat) (c : Cmd) :
    (m.plFed e op c).pl.manualAt = if op = 0x57 ∧ c.u8 0 = 1 then e.ns else m.pl.manualAt := by
  unfold Mach.plFed
  simp only [Bool.and_eq_true, decide_eq_true_eq, beq_iff_eq]
  split <;> rfl

section
variable (m : Mach) (e : Env) (op : Nat) (c : Cmd)

theorem Mach.plHold_regs : (m.plHold e op c).regs = m.regs := by
  simp [Mach.plHold, Mach.plWait]

/-- A held command waits after those that came before it, under the number of the next cycle. -/
theorem Mach.plHold_pend : (m.plHold e op c).pl.pend = m.pl.pend ++ [(m.plNextCycle, op, c, true)] := by
  simp [Mach.plHold, Mach.plWait]

theorem Mach.plHold_manualAt : (m.plHold e op c).pl.manualAt = if op = 0x57 ∧ c.u8 0 = 1 then e.ns else m.pl.manualAt := by
  rw [Mach.plHold, Mach.forward_pl, Mach.plWait, Mach.plFed_manualAt]

end

/-- A command of the law whose parameters are admissible is held, on the active controller (R257). -/
theorem plCmd_holds {s : State} {c : Cmd} (hc : s.takes c) (ha : s.m.isActive = true) (op : Nat) (need : Bool) {bad : Nat} (hbad : bad = 0) :
    plCmd op c need bad s = s.becomes (s.m.plHold s.env op c) := by
  subst hbad
  have hneed : (need && s.env.isSealed) = false ∨ (need && s.env.isSealed) = s.env.isSealed := by
    cases need
    · exact .inl rfl
    · exact .inr rfl
  exact State.command_wait hc (need := fun e => need && e.isSealed) (by simp [ha]) hneed

/-! ### Key slots are looked at before a model image is checked (R293, R650) -/

/-- A key slot that does not match its hash shows in SEC_STS, UPD_IRQ_STS and what an event writes. -/
theorem Mach.rd_otpNote (m : Mach) (e : Env) (slots : List Nat) {off : Nat} (hf : farReg off) (hs : off ≠ Reg.SEC_STS)
    (hu : off ≠ Reg.UPD_IRQ_STS) : (m.otpNote e slots).rd off = m.rd off := by
  refine foldl_keeps (fun m : Mach => m.rd off) (fun m k => ?_) slots m
  dsimp only
  split
  · rw [Mach.rd_event _ _ _ _ _ hf, Mach.updIrq, Mach.rd_setBit_other _ hu, Mach.rd_sb_other _ hs]
  · rfl

theorem Mach.otpNote_isActive (m : Mach) (e : Env) (slots : List Nat) : (m.otpNote e slots).isActive = m.isActive :=
  congrArg (· == 0) (Mach.g_congr (f := .STK_STS_role) (m.rd_otpNote e slots (by decide) (by decide) (by decide)))

/-- A state whose key slots have been looked at takes the same commands. -/
theorem State.takes_otpNote {s : State} {c : Cmd} (hc : s.takes c) (slots : List Nat) :
    State.takes { s with m := s.m.otpNote s.env slots } c := by
  obtain ⟨hqueue, hlen, henv, hlocked, hrom⟩ := hc
  have hkept : (s.m.otpNote s.env slots).b .GEN_START_boot_rom = s.m.b .GEN_START_boot_rom :=
    Mach.b_congr (s.m.rd_otpNote s.env slots (by decide) (by decide) (by decide))
  exact ⟨hqueue, hlen, henv, hlocked, hkept.trans hrom⟩

/-! ### Each command past the check of its parameters (R294, R295) -/

section
variable {s : State} {c : Cmd}

theorem execPlModeSet_holds (hc : s.takes c) (ha : s.m.isActive = true) (hmode : c.u8 0 < 6) :
    exec (.plModeSet c) s = s.becomes (s.m.plHold s.env 0x50 c) :=
  plCmd_holds hc ha 0x50 false (if_neg (Nat.not_le.mpr hmode))

/-- PL_FEED with entries in range (R283, R291). -/
theorem execPlFeed_holds (hc : s.takes c) (ha : s.m.isActive = true) (h1 : 1 ≤ c.u8 0) (h3 : c.u8 0 ≤ 3)
    (hlen : c.data.length = c.u8 1 * (if c.u8 0 = 1 then 16 else if c.u8 0 = 2 then 8 else 2)) (hok : feedOk (c.u8 0) (c.u8 1) c = true) :
    exec (.plFeed c) s = s.becomes (s.m.plHold s.env 0x57 c) :=
  plCmd_holds hc ha 0x57 false (by simp [Nat.ne_of_gt h1, Nat.not_lt.mpr h3, hlen, hok])

/-- PL_MODEL_LOAD with an image that passes length, CRC, signature and layout (R293). -/
theorem execPlModelLoad_holds (hc : s.takes c) (ha : s.m.isActive = true) (hsize : c.u32 0 = c.data.length)
    (hlen : c.data.length = 384 + 872 * imgN c.data 6 1)
    (hcrc : crc32c ((c.data.drop 32).take (256 + 872 * imgN c.data 6 1)) = imgN c.data 12 4) (himg : s.env.imageOk c.data = true)
    (hlay : plModelOk c.data = true) : exec (.plModelLoad c) s = s.becomes ((s.m.otpNote s.env [1, 2, 3]).plHold s.env 0x56 c) := by
  change execPlModelLoad c s = _
  have hl : (c.u32 0 == c.data.length && c.data.length == 384 + 872 * imgN c.data 6 1) = true := by
    rw [hsize, ← hlen, beq_self_eq_true, Bool.and_self]
  have hcr : (crc32c ((c.data.drop 32).take (256 + 872 * imgN c.data 6 1)) == imgN c.data 12 4) = true := beq_iff_eq.mpr hcrc
  simp only [execPlModelLoad, hl, hcr, himg, hlay, Bool.not_true, Bool.and_self, Bool.false_eq_true, if_false, if_true]
  exact plCmd_holds (State.takes_otpNote hc _) ((Mach.otpNote_isActive _ _ _).trans ha) 0x56 false rfl

end

/-- Settles O34: each command whose parameters pass its own checks is held by `plCmd_holds` under the number of the next cycle; PL_MODEL_LOAD on the machine
whose key slots have been looked at, and a manual feed begins the time of R291 anew. -/
theorem lawCommandsHold : Obligations.LawCommandsHold := by
  intro s c hc ha
  refine ⟨execPlModeSet_holds hc ha, fun hhdg => plCmd_holds hc ha 0x51 false (if_neg (Nat.not_le.mpr hhdg)), fun h1 h16 hlen hhdg => ?_,
    fun hlen hcfg => ?_, fun hi hlen hthr => ?_, fun hi hlen hcrc => ?_, fun p hp hsize hlen hcrc himg hlay => ?_,
    fun hcfg => plCmd_holds hc ha 0x5B true (if_pos hcfg), fun sub n hsub hn h1 h3 hlen hok => ?_, fun n hn hmode => ⟨hn, ?_⟩, fun h1 h3 hn hdata => ?_⟩
  · have hcount : ¬ (c.u8 0 = 0 || 16 < c.u8 0) = true := by simp only [Bool.or_eq_true, decide_eq_true_eq]; omega
    exact plCmd_holds hc ha 0x52 false ((if_neg hcount).trans ((if_neg (by simp [hlen])).trans (if_neg (Bool.eq_false_iff.mp hhdg))))
  · have hsize : ¬ (c.data.length != 92 && c.data.length != 156) = true := by simp only [Bool.and_eq_true, bne_iff_ne]; omega
    exact plCmd_holds hc ha 0x53 true ((if_neg hsize).trans (if_pos hcfg))
  · exact plCmd_holds hc ha 0x54 true (by simp [Nat.not_le.mpr hi, hlen, hthr])
  · exact plCmd_holds hc ha 0x55 true (by simp [Nat.not_le.mpr hi, hlen, hcrc])
  · subst hp
    exact execPlModelLoad_holds hc ha hsize hlen hcrc himg hlay
  · subst hsub hn
    exact execPlFeed_holds hc ha h1 h3 hlen hok
  · exact ⟨_, execPlModeSet_holds hc ha hmode, hn ▸ s.m.plHold_pend s.env 0x50 c, s.m.plHold_regs s.env 0x50 c, rfl⟩
  · have hx := execPlFeed_holds hc ha h1 h3 (by simp [hn, hdata]) (by simp [hn, feedOk])
    exact ⟨_, hx, s.m.plHold_pend s.env 0x57 c, by simpa using s.m.plHold_manualAt s.env 0x57 c⟩

end Sys2Proof.Machine
end

section
/-!
PROOFS. The commands of Bracken: a host problem, its cancellation, the self-test, a bank's march test and status.
-/
namespace Sys2Proof.Machine

/-- A stop ends the solve in progress: NOITER before the first iterate, DEADLINE after it (R325). -/
theorem Mach.slvStop_running {m : Mach} {r : QpRun} (hrun : m.slv.run = some r) (hend : r.ended = none) (e : Env) (phase flags : Nat) :
    m.slvStop e phase flags
      = m.setRun (some (if r.k = 0 then r.endAs e.ns 5 flags else r.endAs e.ns 1 (flags ||| if phase = 0 then fMidfact else 0))) := by
  simp [Mach.slvStop, hrun, hend]

section
variable {s : State} {c : Cmd} (hc : s.takes c)
include hc

/-- SLV_SOLVE of a problem that parses, on a module that serves and with no host problem at hand (R310, R333). -/
theorem execSlvSolve_submits {q : Qp} (hlen : c.u32 0 = c.data.length) (h1 : 1 ≤ c.u32 4) (hmax : c.u32 4 ≤ 10000000) (hserves : s.m.slvServes = true)
    (hhost : s.m.slv.host = none) (hsrc : ∀ r : QpRun, s.m.slv.run = some r → r.job.src ≠ 1) (hparse : qpParse c.data s.m.slvBanks = .ok q)
    (hbuf : q.resultLen ≤ c.bufLen) :
    exec (.slvSolve c) s = s.becomes (({ s.m with slv := { s.m.slv with host := some ⟨1, false, q, none, some c, c.u32 4⟩ } }.sb
      .SLV_STS_host_pending true).slvNext s.env) := by
  have h0 : c.u32 4 ≠ 0 := by omega
  change execSlvSolve c s = _
  unfold execSlvSolve
  refine State.command_wait hc ?_ (.inl rfl)
  cases hrun : s.m.slv.run with
  | none => simp [hrun, hlen, h0, Nat.not_lt.mpr hmax, hserves, hhost, hparse, Nat.not_lt.mpr hbuf]
  | some r => simp [hrun, hsrc r hrun, hlen, h0, Nat.not_lt.mpr hmax, hserves, hhost, hparse, Nat.not_lt.mpr hbuf]

/-- SLV_CANCEL of the host problem that is solved (R334). -/
theorem execSlvCancel_stops {r : QpRun} (hrun : s.m.slv.run = some r) (hsrc : r.job.src = 1) (hend : r.ended = none) (phase : Nat) :
    exec (.slvCancel c phase) s = s.answers 0x59 c (s.m.setRun (some (if r.k = 0 then r.endAs s.env.ns 5 fCancel
      else r.endAs s.env.ns 1 (fCancel ||| if phase = 0 then fMidfact else 0)))) stOk [] [] := by
  change execSlvCancel c phase s = _
  unfold execSlvCancel
  rw [← Mach.slvStop_running hrun hend]
  exact State.command_done hc (by simp [hrun, hsrc, hend, Res.ok]) (.inl rfl) (Nat.zero_le _)

/-- SLV_CANCEL with no host problem. -/
theorem execSlvCancel_state (hrun : s.m.slv.run = none) (hhost : s.m.slv.host = none) (phase : Nat) :
    exec (.slvCancel c phase) s = s.answers 0x59 c s.m stState [] [] := by
  change execSlvCancel c phase s = _
  unfold execSlvCancel
  exact State.command_done hc (by simp [hrun, hhost, Mach.fail]) (.inl rfl) (Nat.zero_le _)

/-- SLV_SELFTEST with no test at hand (R332). -/
theorem execSlvSelftest_waits (hserves : s.m.slvServes = true) (hself : s.m.slv.selfTest = none) (hbank : s.m.slv.bankTest = []) :
    exec (.slvSelftest c) s = s.becomes ({ s.m with slv := { s.m.slv with selfTest := some (some c) } }.slvNext s.env) := by
  change execSlvSelftest c s = _
  unfold execSlvSelftest
  exact State.command_wait hc (by simp [hserves, hself, hbank]) (.inl rfl)

/-- SLV_STATUS_GET without clearing returns SLV_STS to SLV_ECC. -/
theorem execSlvStatusGet_reads (hclear : c.u8 0 % 2 = 0) (hbuf : 72 ≤ c.bufLen) :
    exec (.slvStatusGet c) s = s.answers 0x5C c s.m stOk [] (s.m.words Reg.SLV_STS 18) := by
  change execSlvStatusGet c s = _
  unfold execSlvStatusGet
  exact State.command_done hc (by simp [hclear]) (.inl rfl) (by rwa [Mach.words_length])

/-- SLV_BANK_TEST with no test at hand (R331). -/
theorem execSlvBankTest_queues (hbank : c.u8 0 < 8) (hserves : s.m.slvServes = true) (hself : s.m.slv.selfTest = none)
    (hidle : s.m.slv.bankTest = []) : exec (.slvBankTest c) s = s.becomes (s.m.bankQueue s.env (c.u8 0) (some c)) := by
  change execSlvBankTest c s = _
  unfold execSlvBankTest
  exact State.command_wait hc (by simp [Nat.not_le.mpr hbank, hserves, hself, hidle]) (.inl rfl)

end

/-- Settles O36: each command past the checks it makes; a cancellation stops the solve as its stop instant would. -/
theorem solverCommandsAnswer : Obligations.SolverCommandsAnswer := by
  intro s c hc
  exact ⟨fun _ => execSlvSolve_submits hc, fun _ phase hrun hsrc hend => execSlvCancel_stops hc hrun hsrc hend phase,
    fun phase hrun hhost => execSlvCancel_state hc hrun hhost phase, execSlvSelftest_waits hc, execSlvStatusGet_reads hc, execSlvBankTest_queues hc⟩

end Sys2Proof.Machine
end

section
/-!
PROOFS. What happens in Bracken: an iteration completes or is rejected, the stop instant lands, the pace is lost, a scratch bank errs, and a march test ends.
-/
namespace Sys2Proof.Machine

/-! ### The solve in progress stored (R316, R338) -/

theorem Mach.setRun_run (m : Mach) (r : Option QpRun) : (m.setRun r).slv.run = r := by
  cases r with
  | none => rfl
  | some r => rfl

/-! ### Iterations (R316, R321, R329) -/

section
variable {m : Mach} {r : QpRun} {o : IterOut} (hrun : m.slv.run = some r) (hend : r.ended = none) (hpace : r.flags.testBit 7 = false)
  (ho : o = r.job.qp.scale.iterate (m.brk r.s) r.pt)
include hrun hend hpace ho

theorem Mach.slvIterate_completes {pt : QpPt} {ev : QpEval} (hout : o.out = .ok (pt, ev)) (e : Env) :
    m.slvIterate e = m.slvComplete e { r with piv := r.piv + o.pivots, pivMax := max r.pivMax o.pivots } r.job.qp.scale pt ev := by
  subst ho
  simp [Mach.slvIterate, hrun, hend, hpace, hout]

/-- A rejected iteration goes back to the best iterate with a larger scale exponent; rej_max of them in a row end the solve NUMERIC. -/
theorem Mach.slvIterate_rejects {cause : Nat} (hout : o.out = .error cause) (e : Env) {r2 : QpRun}
    (h2 : r2 = { r with piv := r.piv + o.pivots, pivMax := max r.pivMax o.pivots,
                        pt := (match r.bests with | (_, p, _) :: _ => p | [] => r.pt), s := r.s + 1, rejected := r.rejected + 1,
                        rejRun := r.rejRun + 1, flags := r.flags ||| fRegUp }) :
    (m.slvIterate e).slv.run = some (if m.g .SLV_CFG_rej_max ≤ r2.rejRun then r2.endAs e.ns 3 0 else r2) := by
  subst ho h2
  simp only [Mach.slvIterate, hrun, hend, hpace, hout, Option.isSome_none, Bool.false_and, Bool.or_false, Bool.false_eq_true, if_false]
  exact Mach.setRun_run _ _

end

theorem execBrackenIterationEnd_eq (s : State) : exec .brackenIterationEnd s = s.becomes (s.m.slvIterate s.env) := rfl

/-! ### The stop instant (R324, R325) -/

section
variable {m : Mach} {e : Env} {r : QpRun} (hrun : m.slv.run = some r)
include hrun

/-- A host problem has a deadline. -/
theorem Mach.stopReached_host (hsrc : r.job.src = 1) (h : 0 ≤ shortDiff e.now.short ((m.g .SLV_DEADLINE_deadline + 2 ^ 32 - 1250) % 2 ^ 32)) :
    m.stopReached e = true := by
  simp only [Mach.stopReached, hrun, hsrc, h, beq_self_eq_true, Bool.true_or, decide_true, Bool.and_self]

theorem Mach.stopReached_early (h : shortDiff e.now.short ((m.g .SLV_DEADLINE_deadline + 2 ^ 32 - 1250) % 2 ^ 32) < 0) :
    m.stopReached e = false := by
  simp only [Mach.stopReached, hrun, Int.not_le.mpr h, decide_false, Bool.and_false]

end

theorem execSolveStopInstant_stops {s : State} {r : QpRun} (hrun : s.m.slv.run = some r) (hend : r.ended = none)
    (hstop : s.m.stopReached s.env = true) (phase : Nat) :
    exec (.solveStopInstant phase) s = s.becomes (s.m.setRun (some (if r.k = 0 then r.endAs s.env.ns 5 0
      else r.endAs s.env.ns 1 (if phase = 0 then fMidfact else 0)))) := by
  refine congrArg s.becomes ((if_pos hstop).trans ?_)
  rw [Mach.slvStop_running hrun hend, Nat.zero_or]

theorem execSolveStopInstant_early {s : State} (hstop : s.m.stopReached s.env = false) (phase : Nat) :
    exec (.solveStopInstant phase) s = .next s := congrArg s.becomes (if_neg (by simp [hstop]))

/-! ### The pace (R314) -/

theorem execPaceLost_due {s : State} {r : QpRun} (hrun : s.m.slv.run = some r) (hpace : r.flags.testBit 7 = true) (hend : r.ended = none)
    (hwait : r.mark < r.k) (ht : r.heard + 2000000 ≤ s.env.ns) :
    exec .paceLost s = s.becomes (((s.m.slvUnpace.sb .SLV_STS_pace_lost true).event s.env 0x5806 (some 2) (le 1 r.mark)).setBit Reg.SLV_IRQ_STS 9 true) := by
  change execPaceLost s = _
  simp [execPaceLost, State.act, State.becomes, hrun, hpace, hend, hwait, ht]

theorem Mach.paceLost_shows (m : Mach) (e : Env) (p : List Byte) :
    (((m.sb .SLV_STS_pace_lost true).event e 0x5806 (some 2) p).setBit Reg.SLV_IRQ_STS 9 true).g .SLV_STS_pace_lost = 1
      ∧ (((m.sb .SLV_STS_pace_lost true).event e 0x5806 (some 2) p).setBit Reg.SLV_IRQ_STS 9 true).bit Reg.SLV_IRQ_STS 9 = true := by
  refine ⟨?_, Mach.bit_setBit_same _ _ (by decide) true⟩
  rw [Mach.g_setBit_other _ (by decide), Mach.g_event _ _ _ _ _ (by decide), Mach.g_sb_same _ (by decide) (by decide), if_pos rfl]

/-! ### What the module shows of the scratch memory (R330, R331) -/

/-- The interrupt bits of Bracken, the error counters with the banks isolated, and the banks that wait for a march test. -/
def Mach.scratch (m : Mach) : Word × Word × List (Nat × Option Cmd) := (m.rd Reg.SLV_IRQ_STS, m.rd Reg.SLV_ECC, m.slv.bankTest)

theorem Mach.scratch_congr {m m' : Mach} (hi : m'.rd Reg.SLV_IRQ_STS = m.rd Reg.SLV_IRQ_STS) (he : m'.rd Reg.SLV_ECC = m.rd Reg.SLV_ECC)
    (ht : m'.slv.bankTest = m.slv.bankTest) : m'.scratch = m.scratch := by
  rw [Mach.scratch, hi, he, ht, Mach.scratch]

theorem Mach.scratch_eq_iff {m m' : Mach} : m'.scratch = m.scratch
    ↔ m'.rd Reg.SLV_IRQ_STS = m.rd Reg.SLV_IRQ_STS ∧ m'.rd Reg.SLV_ECC = m.rd Reg.SLV_ECC ∧ m'.slv.bankTest = m.slv.bankTest := by
  simp only [Mach.scratch, Prod.mk.injEq]

/-- A choice keeps the register that both of its sides keep. -/
theorem Mach.ite_rd {m a b : Mach} {off : Nat} {p : Prop} [Decidable p] (ha : a.rd off = m.rd off) (hb : b.rd off = m.rd off) :
    (if p then a else b).rd off = m.rd off := by
  split
  · exact ha
  · exact hb

theorem Mach.Tells.slv {m m' : Mach} (h : m.Tells m') : m'.slv = m.slv := (congrArg Mach.slv h :)

section
variable (m : Mach) (e : Env)

theorem Mach.s_scratch {f : Fld} (hi : Reg.SLV_IRQ_STS ≠ f.off) (he : Reg.SLV_ECC ≠ f.off) (v : Nat) : (m.s f v).scratch = m.scratch :=
  Mach.scratch_congr (m.rd_s_other hi v) (m.rd_s_other he v) rfl

theorem Mach.sb_scratch {f : Fld} (hi : Reg.SLV_IRQ_STS ≠ f.off) (he : Reg.SLV_ECC ≠ f.off) (v : Bool) : (m.sb f v).scratch = m.scratch :=
  m.s_scratch hi he _

theorem Mach.slv_scratch {x : Slv} (h : x.bankTest = m.slv.bankTest) : ({ m with slv := x } : Mach).scratch = m.scratch :=
  Mach.scratch_congr (Mach.rd_regs rfl _) (Mach.rd_regs rfl _) h

theorem Mach.setRun_scratch (r : Option QpRun) : (m.setRun r).scratch = m.scratch := by
  have hslv : ({ m with slv := { m.slv with run := r } } : Mach).scratch = m.scratch := m.slv_scratch rfl
  cases r with
  | some r => simp (disch := decide) only [Mach.setRun, Mach.s_scratch, Mach.sb_scratch, hslv]
  | none => simp (disch := decide) only [Mach.setRun, Mach.s_scratch, Mach.sb_scratch, hslv]

theorem Mach.setKept_scratch (k : Option (List Nat × QpPt)) : (m.setKept k).scratch = m.scratch := by
  unfold Mach.setKept
  rw [Mach.s_scratch _ (by decide) (by decide), Mach.sb_scratch _ (by decide) (by decide)]
  exact m.slv_scratch rfl

/-- A problem that starts shows its deadline, its budget, the retained point and its own status. -/
theorem Mach.slvStart_scratch (j : QpJob) : (m.slvStart e j).scratch = m.scratch := by
  unfold Mach.slvStart
  extract_lets toD dl m0 keeps m1 paced late
  have h0 : m0.scratch = m.scratch := by
    unfold m0
    clear_value dl toD
    cases toD with
    | some d => exact (Mach.s_scratch _ (by decide) (by decide) _).trans (m.s_scratch (by decide) (by decide) _)
    | none => rfl
  have h1 : m1.scratch = m.scratch := by
    unfold m1
    split
    · exact (m0.setKept_scratch none).trans h0
    · exact h0
  clear_value m1
  split
  exact (m1.setRun_scratch _).trans h1

/-- What starts next takes its problem from those that wait, and shows itself in SLV_STS. -/
theorem Mach.slvNext_scratch : (m.slvNext e).scratch = m.scratch := by
  unfold Mach.slvNext
  split
  · rfl
  · split
    · exact (Mach.slvStart_scratch _ e _).trans ((Mach.sb_scratch _ (by decide) (by decide) _).trans (m.slv_scratch rfl))
    · exact (Mach.slvStart_scratch _ e _).trans
        ((Mach.sb_scratch _ (by decide) (by decide) _).trans ((Mach.sb_scratch _ (by decide) (by decide) _).trans (m.slv_scratch rfl)))
    · split
      · exact (Mach.sb_scratch _ (by decide) (by decide) _).trans (m.s_scratch (by decide) (by decide) _)
      · split
        · exact (Mach.s_scratch _ (by decide) (by decide) _).trans
            ((Mach.sb_scratch _ (by decide) (by decide) _).trans (m.s_scratch (by decide) (by decide) _))
        · exact (Mach.sb_scratch _ (by decide) (by decide) _).trans (m.s_scratch (by decide) (by decide) _)

theorem Mach.event_scratch (code : Nat) (psev : Option Nat) (p : List Byte) : (m.event e code psev p).scratch = m.scratch :=
  Mach.scratch_congr (m.rd_event e code psev p (by decide)) (m.rd_event e code psev p (by decide))
    (congrArg Slv.bankTest (m.tells_event e code psev p).slv)

theorem Mach.faultNote_slv (cls inst addr : Nat) : (m.faultNote e cls inst addr).slv = m.slv := by
  have hset (l : List FaultEntry) : (m.setFaults l).slv = m.slv := (Mach.s_slv _ _ _).trans (Mach.s_slv _ _ _)
  unfold Mach.faultNote
  dsimp only
  split
  · exact hset _
  · split
    · exact hset _
    · rfl

theorem Mach.faultNote_scratch (cls inst addr : Nat) : (m.faultNote e cls inst addr).scratch = m.scratch :=
  Mach.scratch_congr (Mach.rd_faultNote (by decide) m e cls inst addr) (Mach.rd_faultNote (by decide) m e cls inst addr)
    (congrArg Slv.bankTest (m.faultNote_slv e cls inst addr))

theorem Mach.faultVerdict_scratch (cls inst : Nat) (lasting : Bool) : (m.faultVerdict cls inst lasting).scratch = m.scratch :=
  (Mach.s_scratch _ (by decide) (by decide) _).trans ((Mach.s_scratch _ (by decide) (by decide) _).trans
    (Mach.scratch_congr (Mach.rd_regs rfl _) (Mach.rd_regs rfl _) rfl))

theorem Mach.rd_upWrap_other {off : Nat} {f : Fld} (h : off ≠ f.off) : (m.upWrap f).rd off = m.rd off := m.rd_s_other h _

/-- The registers that a queue or an Ethernet port has for itself lie 12 above a multiple of 16, whatever its number. -/
theorem Mach.rd_netSend {off : Nat} (ha : off % 16 ≠ 12) (what : String) (p : Nat) (val : Int) (b : List Byte) :
    (m.netSend what p val b).rd off = m.rd off := by
  have hport : off ≠ (Fld.NETp_TX_CNT_frames p).off := by
    simp only [Fld.NETp_TX_CNT_frames]
    omega
  unfold Mach.netSend
  split
  · exact (Mach.rd_emit _ _ _ _ _ off).trans (m.rd_upWrap_other hport)
  · rfl

theorem Mach.rd_sqSync {off : Nat} (ha : off % 16 ≠ 12) (q : Nat) : (m.sqSync q).rd off = m.rd off := by
  have hsq : off ≠ qSts .sq q := by
    simp only [qSts, QType.base]
    omega
  exact (Mach.rd_sb_other _ hsq _).trans (m.rd_s_other hsq _)

theorem Mach.rd_hif (h : Hif) (off : Nat) : ({ m with hif := h } : Mach).rd off = m.rd off := rfl

/-- A completion, whatever way its command came, leaves the registers of the other blocks. -/
theorem Mach.rd_complete {off : Nat} (hf : farReg off) (ha : off % 16 ≠ 12) (op : Nat) (c : Cmd) (st : Nat) (res data : List Byte) :
    (m.complete e op c st res data).rd off = m.rd off := by
  unfold Mach.complete
  split
  · exact m.rd_emit _ _ _ _ off
  · unfold Mach.maintReply
    exact (Mach.rd_netSend _ ha _ _ _ _).trans (m.rd_hif _ off)
  · next sq _ =>
    extract_lets found cq index hif m1
    have hdone : off ≠ Fld.HIF_CMD_CNT_done.off := by
      rintro rfl
      revert hf
      decide
    have h1 : m1.rd off = m.rd off := (Mach.rd_upWrap_other _ hdone).trans ((Mach.rd_sqSync _ ha sq).trans (m.rd_hif _ off))
    clear_value m1 found
    have hcq : cq < 16 := by
      unfold cq
      cases found with
      | some p => exact Nat.mod_lt _ (by decide)
      | none => exact Nat.lt_of_lt_of_le (m.g_lt _) (by simp [fldWidth, Fld.HIF_SQq_CFG_cq])
    clear_value cq index
    have h2 : (if data.isEmpty = true then m1 else m1.hostStore c.bufAddr data).rd off = m.rd off :=
      Mach.ite_rd h1 ((Mach.rd_regs (m1.hostStore_regs _ _) off).trans h1)
    exact Mach.ite_rd h1 ((Mach.alike_toCq (Mach.alike_refl _) e hcq _ _ _ _ _ _ _ _ off hf).trans h2)

theorem Mach.complete_scratch (op : Nat) (c : Cmd) (st : Nat) (res data : List Byte) : (m.complete e op c st res data).scratch = m.scratch :=
  Mach.scratch_congr (m.rd_complete e (by decide) (by decide) op c st res data) (m.rd_complete e (by decide) (by decide) op c st res data)
    (congrArg Slv.bankTest (m.tells_complete e op c st res data).slv)

end

/-! ### A bank's verdict (R331) -/

/-- What a verdict or an error leaves of what the module shows: the error counters, and every source of Bracken but bank_tested. -/
structure Mach.KeepsErrors (m m' : Mach) : Prop where
  irq : ∀ i : Nat, i ≠ 7 → m'.bit Reg.SLV_IRQ_STS i = m.bit Reg.SLV_IRQ_STS i
  ue : m'.g .SLV_ECC_ue = m.g .SLV_ECC_ue
  ce : m'.g .SLV_ECC_ce = m.g .SLV_ECC_ce

theorem Mach.KeepsErrors.refl (m : Mach) : m.KeepsErrors m := ⟨fun _ _ => rfl, rfl, rfl⟩

theorem Mach.KeepsErrors.trans {a b c : Mach} (h : a.KeepsErrors b) (h' : b.KeepsErrors c) : a.KeepsErrors c where
  irq := fun i hi => (h'.irq i hi).trans (h.irq i hi)
  ue := h'.ue.trans h.ue
  ce := h'.ce.trans h.ce

/-- The counters and the sources lie in the registers shown. -/
theorem Mach.KeepsErrors.of_rd {m m' : Mach} (hi : m'.rd Reg.SLV_IRQ_STS = m.rd Reg.SLV_IRQ_STS) (he : m'.rd Reg.SLV_ECC = m.rd Reg.SLV_ECC) :
    m.KeepsErrors m' := ⟨fun i _ => Mach.bit_congr hi i, Mach.g_congr he, Mach.g_congr he⟩

theorem Mach.KeepsErrors.of_scratch {m m' : Mach} (h : m'.scratch = m.scratch) : m.KeepsErrors m' := by
  obtain ⟨hi, he, -⟩ := Mach.scratch_eq_iff.mp h
  exact .of_rd hi he

section
variable (m : Mach)

/-- The problems and tests that wait stand beside the registers. -/
theorem Mach.keepsErrors_slv (x : Slv) : m.KeepsErrors { m with slv := x } := .of_rd (Mach.rd_regs rfl _) (Mach.rd_regs rfl _)

theorem Mach.keepsErrors_isolated (v : Nat) : m.KeepsErrors (m.s .SLV_ECC_isolated v) where
  irq := fun i _ => Mach.bit_congr (m.rd_s_other (by decide) v) i
  ue := m.g_s_beside (by decide) (by decide) (by decide) (.inr (by decide)) v
  ce := m.g_s_beside (by decide) (by decide) (by decide) (.inr (by decide)) v

theorem Mach.keepsErrors_tested : m.KeepsErrors (m.setBit Reg.SLV_IRQ_STS 7 true) where
  irq := fun _ hi => m.bit_setBit_beside (by decide) hi true
  ue := m.g_setBit_other (by decide) 7 true
  ce := m.g_setBit_other (by decide) 7 true

/-- A verdict raises bank_tested and takes its bank out of those that wait. -/
theorem Mach.bankVerdict_shows (e : Env) (b : Nat) (lasting pass : Bool) :
    m.KeepsErrors (m.bankVerdict e b lasting pass) ∧ (m.bankVerdict e b lasting pass).bit Reg.SLV_IRQ_STS 7 = true
      ∧ (m.bankVerdict e b lasting pass).slv.bankTest = m.slv.bankTest.filter fun x => x.1 != b := by
  unfold Mach.bankVerdict
  extract_lets mine slv m1 m2 m3 m4
  have h2 : m2.scratch = m1.scratch := (Mach.event_scratch _ e _ _ _).trans (m1.faultVerdict_scratch _ _ _)
  clear_value m2
  have h3 : m2.KeepsErrors m3 ∧ m3.slv = m2.slv := by
    unfold m3
    split
    · exact ⟨m2.keepsErrors_isolated _, m2.s_slv _ _⟩
    · exact ⟨.refl m2, rfl⟩
  clear_value m3
  have h4 : (m4.slvNext e).scratch = (m3.setBit Reg.SLV_IRQ_STS 7 true).scratch :=
    (m4.slvNext_scratch e).trans (foldl_keeps Mach.scratch (fun m' (x : Nat × Option Cmd) => by
      cases x.2 with
      | some c => exact m'.complete_scratch e 0x5D c _ _ _
      | none => rfl) mine _)
  obtain ⟨hirq, -, htest⟩ := Mach.scratch_eq_iff.mp h4
  refine ⟨(((m.keepsErrors_slv _ : m.KeepsErrors m1).trans (.of_scratch h2)).trans h3.1).trans (m3.keepsErrors_tested.trans (.of_scratch h4)), ?_, ?_⟩
  · exact (Mach.bit_congr hirq 7).trans (Mach.bit_setBit_same _ _ (by decide) true)
  · rw [htest, Mach.setBit_slv, h3.2, (Mach.scratch_eq_iff.mp h2).2.2]

theorem Mach.keepsErrors_bankQueue (e : Env) (b : Nat) (c : Option Cmd) : m.KeepsErrors (m.bankQueue e b c) :=
  (m.keepsErrors_slv _).trans (.of_scratch (Mach.slvNext_scratch _ e))

end

/-! ### An error of a scratch bank (R330) -/

section
variable (m : Mach) (e : Env) (bank addr : Nat) (u : Bool)

/-- The error noted, told and counted. -/
def Mach.bankErred : Mach :=
  let m1 := (m.faultNote e 2 bank addr).event e 0x5803 (some (if u then 5 else 3)) (le 1 bank ++ le 1 (if u then 1 else 0) ++ le 4 addr)
  if u then (m1.up .SLV_ECC_ue).setBit Reg.SLV_IRQ_STS 6 true else (m1.up .SLV_ECC_ce).setBit Reg.SLV_IRQ_STS 5 true

/-- An uncorrectable error ends the solve in progress NUMERIC. -/
def Mach.bankStops (readable : Bool) : Mach :=
  match m.slv.run with
  | some r => if u && r.ended.isNone then m.setRun (some ({ r with bests := if readable then r.bests else [] }.endAs e.ns 3 fEcc)) else m
  | none => m

/-- The bank that erred fails the test it is in, or waits for one. -/
def Mach.bankSuspect : Mach :=
  if m.bankNow == some bank then m.bankVerdict e bank true false
  else if m.slv.bankTest.any (fun x => x.1 == bank) || (m.g .SLV_ECC_isolated).testBit bank then m
  else m.bankQueue e bank none

theorem execScratchEccError_eq {s : State} {bank : Nat} (hb : bank < 8) (addr : Nat) (u readable : Bool) :
    exec (.scratchEccError bank addr u readable) s
      = s.becomes (((s.m.bankErred s.env bank addr u).bankStops s.env u readable).bankSuspect s.env bank) :=
  s.onInst_eq (decide_eq_true hb) _

theorem Mach.bankErred_uncorrectable : m.bankErred e bank addr true
    = (((m.faultNote e 2 bank addr).event e 0x5803 (some 5) (le 1 bank ++ le 1 1 ++ le 4 addr)).up .SLV_ECC_ue).setBit Reg.SLV_IRQ_STS 6 true := by
  simp only [Mach.bankErred, if_true]

theorem Mach.bankErred_slv : (m.bankErred e bank addr u).slv = m.slv := by
  unfold Mach.bankErred
  extract_lets m1
  have h1 : m1.slv = m.slv := (Mach.tells_event _ e _ _ _).slv.trans (m.faultNote_slv e 2 bank addr)
  split
  · exact (Mach.setBit_slv _ _ _ _).trans ((m1.up_slv _).trans h1)
  · exact (Mach.setBit_slv _ _ _ _).trans ((m1.up_slv _).trans h1)

/-- A counter that counts, its source raised with it. -/
theorem Mach.g_counted_same {f : Fld} (hlo : f.lo ≤ f.hi) (hhi : f.hi < 32) (hf : f.off ≠ Reg.SLV_IRQ_STS) (i : Nat) :
    ((m.up f).setBit Reg.SLV_IRQ_STS i true).g f = min (2 ^ fldWidth f - 1) (m.g f + 1) :=
  (Mach.g_setBit_other _ hf i true).trans (m.g_up_same hlo hhi)

/-- A field beside the counter. -/
theorem Mach.g_counted_beside {f g : Fld} (hlo : f.lo ≤ f.hi) (hhi : f.hi < 32) (hg : g.lo ≤ g.hi) (hfg : f.hi < g.lo ∨ g.hi < f.lo)
    (hne : g.off ≠ Reg.SLV_IRQ_STS) (i : Nat) : ((m.up f).setBit Reg.SLV_IRQ_STS i true).g g = m.g g :=
  (Mach.g_setBit_other _ hne i true).trans (m.g_s_beside hlo hhi hg hfg _)

/-- The error's own source is raised, and its own counter counts. -/
theorem Mach.bankErred_shows :
    (m.bankErred e bank addr u).bit Reg.SLV_IRQ_STS (if u then 6 else 5) = true
      ∧ (m.bankErred e bank addr u).g .SLV_ECC_ue = (if u then min 255 (m.g .SLV_ECC_ue + 1) else m.g .SLV_ECC_ue)
      ∧ (m.bankErred e bank addr u).g .SLV_ECC_ce = (if u then m.g .SLV_ECC_ce else min 255 (m.g .SLV_ECC_ce + 1))
      ∧ (m.bankErred e bank addr u).g .SLV_ECC_isolated = m.g .SLV_ECC_isolated := by
  unfold Mach.bankErred
  extract_lets m1
  have h1 : m1.rd Reg.SLV_ECC = m.rd Reg.SLV_ECC := (Mach.rd_event _ e _ _ _ (by decide)).trans (Mach.rd_faultNote (by decide) m e 2 bank addr)
  have hg {f : Fld} (hf : f.off = Reg.SLV_ECC) : m1.g f = m.g f := Mach.g_congr (by rw [hf, h1])
  clear_value m1
  cases u with
  | true =>
    refine ⟨Mach.bit_setBit_same _ _ (by decide) true, (m1.g_counted_same ?_ ?_ ?_ 6).trans (congrArg (fun n => min 255 (n + 1)) (hg rfl)),
      (m1.g_counted_beside ?_ ?_ ?_ ?_ ?_ 6).trans (hg rfl), (m1.g_counted_beside ?_ ?_ ?_ ?_ ?_ 6).trans (hg rfl)⟩
    all_goals decide
  | false =>
    refine ⟨Mach.bit_setBit_same _ _ (by decide) true, (m1.g_counted_beside ?_ ?_ ?_ ?_ ?_ 5).trans (hg rfl),
      (m1.g_counted_same ?_ ?_ ?_ 5).trans (congrArg (fun n => min 255 (n + 1)) (hg rfl)), (m1.g_counted_beside ?_ ?_ ?_ ?_ ?_ 5).trans (hg rfl)⟩
    all_goals decide

theorem Mach.bankStops_idle {m : Mach} (h : m.slv.run = none) (e : Env) (u readable : Bool) : m.bankStops e u readable = m := by
  simp only [Mach.bankStops, h]

theorem Mach.bankStops_scratch (readable : Bool) : (m.bankStops e u readable).scratch = m.scratch := by
  unfold Mach.bankStops
  split
  · split
    · exact m.setRun_scratch _
    · rfl
  · rfl

/-- A bank that is isolated is not tested again. -/
theorem Mach.bankSuspect_isolated {m : Mach} {bank : Nat} (htest : m.slv.bankTest = []) (hiso : (m.g .SLV_ECC_isolated).testBit bank = true) (e : Env) :
    m.bankSuspect e bank = m := by
  have hnow : m.bankNow = none := by simp [Mach.bankNow, htest]
  simp [Mach.bankSuspect, hnow, hiso]

theorem Mach.keepsErrors_bankSuspect : m.KeepsErrors (m.bankSuspect e bank) := by
  unfold Mach.bankSuspect
  split
  · exact (m.bankVerdict_shows e bank true false).1
  · split
    · exact .refl m
    · exact m.keepsErrors_bankQueue e bank none

end

section
variable {s : State} {bank : Nat} (hb : bank < 8)
include hb

theorem execScratchEccError_isolated (addr : Nat) (hrun : s.m.slv.run = none) (htest : s.m.slv.bankTest = [])
    (hiso : (s.m.g .SLV_ECC_isolated).testBit bank = true) (u readable : Bool) :
    exec (.scratchEccError bank addr u readable) s = s.becomes (s.m.bankErred s.env bank addr u) := by
  have hslv := s.m.bankErred_slv s.env bank addr u
  obtain ⟨-, -, -, hsame⟩ := s.m.bankErred_shows s.env bank addr u
  rw [execScratchEccError_eq hb, Mach.bankStops_idle (by rw [hslv, hrun]), Mach.bankSuspect_isolated (by rw [hslv, htest]) (by rwa [hsame])]

theorem execScratchEccError_shows (addr : Nat) (u readable : Bool) :
    ∃ t : State, exec (.scratchEccError bank addr u readable) s = .next t ∧ t.m.bit Reg.SLV_IRQ_STS (if u then 6 else 5) = true
      ∧ t.m.g .SLV_ECC_ue = (if u then min 255 (s.m.g .SLV_ECC_ue + 1) else s.m.g .SLV_ECC_ue)
      ∧ t.m.g .SLV_ECC_ce = (if u then s.m.g .SLV_ECC_ce else min 255 (s.m.g .SLV_ECC_ce + 1)) := by
  obtain ⟨hirq, hue, hce, -⟩ := s.m.bankErred_shows s.env bank addr u
  have hkeeps : (s.m.bankErred s.env bank addr u).KeepsErrors (((s.m.bankErred s.env bank addr u).bankStops s.env u readable).bankSuspect s.env bank) :=
    .trans (.of_scratch (Mach.bankStops_scratch _ s.env u readable)) (Mach.keepsErrors_bankSuspect _ s.env bank)
  refine ⟨_, execScratchEccError_eq hb addr u readable, (hkeeps.irq _ ?_).trans hirq, hkeeps.ue.trans hue, hkeeps.ce.trans hce⟩
  split <;> decide

/-- A march test of the bank under test gives its verdict (R331). -/
theorem execBankMarchTest_ends (hnow : s.m.bankNow = some bank) (pass : Bool) :
    exec (.bankMarchTest bank pass) s = s.becomes (s.m.bankVerdict s.env bank (!pass || s.m.bankThrice s.env bank) pass) :=
  (s.onInst_eq (decide_eq_true hb) _).trans (congrArg s.becomes (if_pos (by rw [hnow, beq_self_eq_true])))

end

/-- Settles O37: an iteration and a stop store the solve they leave; an error or a verdict keeps what the other raised and counted, also through the start of
the problem or test that comes next. -/
theorem solverHappenings : Obligations.SolverHappenings := by
  intro s
  refine ⟨fun r r1 pt ev o hrun hend hpace ho hout h1 => ?_, fun r r2 cause o hrun hend hpace ho hout h2 => ?_, fun r phase hrun hend => ⟨?_, ?_, ?_⟩,
    fun r hrun hpace hend hwait ht => ?_, fun bank addr hb hrun _ htest hiso => ?_, fun bank pass hb hnow => execBankMarchTest_ends hb hnow pass,
    fun bank addr u r hb => execScratchEccError_shows hb addr u r, fun bank pass hb hnow => ?_⟩
  · subst h1
    rw [execBrackenIterationEnd_eq, Mach.slvIterate_completes hrun hend hpace ho hout]
  · exact ⟨_, execBrackenIterationEnd_eq s, Mach.slvIterate_rejects hrun hend hpace ho hout s.env h2⟩
  · exact fun hstop => execSolveStopInstant_stops hrun hend hstop phase
  · intro hsrc hle
    have hx := execSolveStopInstant_stops hrun hend (Mach.stopReached_host hrun hsrc hle) phase
    generalize hr : (if r.k = 0 then r.endAs s.env.ns 5 0 else _ : QpRun) = r' at hx
    refine ⟨_, r', hx, s.m.setRun_run (some r'), ?_, rfl⟩
    subst hr
    split
    · rfl
    · rfl
  · exact fun hlt => execSolveStopInstant_early (Mach.stopReached_early hrun hlt) phase
  · have hx := execPaceLost_due hrun hpace hend hwait ht
    exact ⟨hx, _, hx, Mach.paceLost_shows _ s.env _⟩
  · rw [execScratchEccError_isolated hb addr hrun htest hiso, Mach.bankErred_uncorrectable]
  · obtain ⟨-, hirq, htest⟩ := s.m.bankVerdict_shows s.env bank (!pass || s.m.bankThrice s.env bank) pass
    refine ⟨_, execBankMarchTest_ends hb hnow pass, hirq, ?_⟩
    rw [htest]
    simp

end Sys2Proof.Machine
end

section
/-!
PROOFS. The commands of the strings and the Drone on the active controller.
-/
namespace Sys2Proof.Machine

/-- The check of a command that names a string is the check that follows, when there is such a string. -/
theorem strNamed_of_lt {c : Cmd} (hstr : c.u8 1 < 48) (k : Nat) : strNamed c k = k := if_neg (Nat.not_le.mpr hstr)

section
variable {s : State} {c : Cmd} (hc : s.takes c) (hgroup : c.u8 0 < 6) (ha : s.m.isActive = true)
include hc hgroup ha

/-- A command of the strings whose parameters are admissible is queued and forwarded, on the active controller, whether or not it needs an envelope in SEALED
(R340). -/
theorem strCmd_accepts (op : Nat) (need : Bool) {bad : Env → Mach → Nat} (hbad : bad s.env s.m = 0) (at_ : Env → Mach → Nat) :
    strCmd op c need bad at_ s = s.becomes (s.m.strAccept s.env op c (at_ s.env s.m)) := by
  have hneed : (need && s.env.isSealed) = false ∨ (need && s.env.isSealed) = s.env.isSealed := by
    cases need
    · exact .inl rfl
    · exact .inr rfl
  exact State.command_wait hc (need := fun e => need && e.isSealed) (by simp [Nat.not_le.mpr hgroup, hbad, ha]) hneed

/-- A command that names a string and passes the check that follows applies at the tick of a change that arrives now. -/
theorem strCmd_named (op : Nat) (need : Bool) (hstr : c.u8 1 < 48) {k : Nat} (hk : k = 0) :
    strCmd op c need (fun _ _ => strNamed c k) (fun e m => m.strAppTick e) s = s.becomes (s.m.strAccept s.env op c (s.m.strAppTick s.env)) :=
  strCmd_accepts hc hgroup ha op need ((strNamed_of_lt hstr k).trans hk) _

/-- STR_SP_SET with up to 16 entries that name strings, for an instant from 300 µs to 10 s ahead or for none (R375). -/
theorem execStrSpSet_accepts (h1 : 1 ≤ c.u8 1) (h16 : c.u8 1 ≤ 16) (hlen : c.data.length = 8 * c.u8 1)
    (hstrs : ((spEntries c).any fun p => decide (48 ≤ p.1)) = false)
    (hat : c.u32 4 ≠ 0 → 37500 ≤ shortDiff (c.u32 4) s.env.now.short ∧ shortDiff (c.u32 4) s.env.now.short ≤ 1250000000) :
    exec (.strSpSet c) s = s.becomes (s.m.strAccept s.env 0x62 c (s.m.spTick s.env c)) := by
  refine strCmd_accepts hc hgroup ha 0x62 false ?_ fun e m => m.spTick e c
  have hcount : ¬ (c.u8 1 = 0 || 16 < c.u8 1) = true := by simp only [Bool.or_eq_true, decide_eq_true_eq]; omega
  have hsize : ¬ (c.data.length != 8 * c.u8 1) = true := by simp [hlen]
  have hlate : ¬ (c.u32 4 != 0 && decide (shortDiff (c.u32 4) s.env.now.short < 37500)) = true := by
    simp only [Bool.and_eq_true, bne_iff_ne, decide_eq_true_eq]; omega
  have hfar : ¬ (c.u32 4 != 0 && decide (1250000000 < shortDiff (c.u32 4) s.env.now.short)) = true := by
    simp only [Bool.and_eq_true, bne_iff_ne, decide_eq_true_eq]; omega
  exact (if_neg hcount).trans <| (if_neg hsize).trans <| (if_neg (Bool.eq_false_iff.mp hstrs)).trans <| (if_neg hlate).trans (if_neg hfar)

end

/-- Settles O38: each command whose parameters pass its own checks is queued and forwarded by `strCmd_accepts`, at the tick of a change that arrives now or,
for STR_SP_SET, of the instant it asks for. -/
theorem stringCommandsQueue : Obligations.StringCommandsQueue := by
  intro s c hc hgroup ha
  have accepts := @strCmd_accepts s c hc hgroup ha
  have named := @strCmd_named s c hc hgroup ha
  refine ⟨fun hstr hlen hok => named 0x60 true hstr ?_, fun hst => accepts 0x61 false (if_neg (Nat.not_le.mpr hst)) _,
    execStrSpSet_accepts hc hgroup ha, fun hstr => named 0x63 false hstr rfl, fun hstr hlen hok => named 0x68 true hstr ?_,
    fun hstr hcount => named 0x69 true hstr (if_neg (Nat.not_lt.mpr hcount)), fun hmode => accepts 0x6A false (if_neg (Nat.not_le.mpr hmode)) _,
    accepts 0x6B false rfl _, fun p hp hstr hfin hpos => named 0x6C false hstr ?_, fun hstr hcrc => named 0x6D true hstr (if_neg (by simp [hcrc])),
    fun hstr => named 0x6E false hstr rfl⟩
  · exact (if_neg (by simp [hlen])).trans (if_pos hok)
  · exact (if_neg (by simp [hlen])).trans (if_pos hok)
  · subst hp
    exact if_pos (by rw [hfin, hpos, Bool.and_self])

end Sys2Proof.Machine
end

section
/-!
PROOFS. The commands of the CAN controllers.
-/
namespace Sys2Proof.Machine

section
variable {s : State} {c : Cmd} {k o : Nat} (hc : s.takes c) (hk : k = c.u8 0)
include hc hk

section
variable (hlt : k < 4)
include hlt

/-- CAN_CFG of a controller that is OFF, with an image that passes its checks. -/
theorem execCanCfg_configures (hlen : c.data.length = 792) (hquiet : s.m.canQuiet k = true) {m1 : Mach} (h1 : m1 = s.m.putData c 0 (canCfgRegs k))
    (hnomatch : m1.g (.CAN_c_CTRL_nomatch k) ≠ 3) (hseg1 : m1.g (.CAN_c_NBT_ntseg1 k) ≠ 0) (hseg2 : m1.g (.CAN_c_NBT_ntseg2 k) ≠ 0)
    (hsaf : k < 2 → m1.b (.CAN_c_CTRL_saf_res k) = false) (hwm0 : m1.g (.CAN_c_FIFOq_STS_wm k 0) ≤ 64) (hwm1 : m1.g (.CAN_c_FIFOq_STS_wm k 1) ≤ 64)
    (hleave : m1.canLeaveOff k 0 = true) : exec (.canCfg c) s = s.answers 0x70 c ((m1.fifoSync k 0).fifoSync k 1) stOk [] [] := by
  have hres : (decide (k < 2) && m1.b (.CAN_c_CTRL_saf_res k)) = false := by simpa using hsaf
  change execCanCfg c s = _
  unfold execCanCfg
  subst hk h1
  refine State.command_done hc ?_ (.inr rfl) (Nat.zero_le _)
  simp only [Nat.not_le.mpr hlt, hlen, hquiet, hnomatch, hres, hseg1, hseg2, Nat.not_lt.mpr hwm0, Nat.not_lt.mpr hwm1, hleave, bne_self_eq_false,
    Bool.not_true, decide_false, Bool.or_self, Bool.false_eq_true, if_false]
  rfl

/-- CAN_CTRL_ACT that sets the mode (R407). -/
theorem execCanCtrlAct_mode (hact : c.u8 1 = 0) (hmode : c.u8 2 < 4) {m1 : Mach} (h1 : m1 = s.m.s (.CAN_c_CTRL_mode k) (c.u8 2))
    (hleave : m1.canLeaveOff k (s.m.g (.CAN_c_CTRL_mode k)) = true) :
    exec (.canCtrlAct c) s = s.answers 0x71 c (m1.canUnbar k) stOk [] [] := by
  change execCanCtrlAct c s = _
  unfold execCanCtrlAct
  subst hk h1
  exact State.command_done hc (need := fun e => e.isSealed && c.u8 1 == 0) (by simp [Nat.not_le.mpr hlt, hact, Nat.not_le.mpr hmode, hleave, Res.ok])
    (.inr (by simp [hact])) (Nat.zero_le _)

/-- CAN_CTRL_ACT that permits the recovery of a controller that is bus-off (R422). -/
theorem execCanCtrlAct_recovers (hact : c.u8 1 = 1) (hoff : s.m.g (.CAN_c_STS_state k) = 2) (hrec : s.m.b (.CAN_c_STS_recovering k) = false) :
    exec (.canCtrlAct c) s = s.answers 0x71 c (((s.m.sb (.CAN_c_STS_rec_wait k) false).sb (.CAN_c_STS_recovering k) true).setCan k
      fun x => { x with recAt := s.env.powered }) stOk [] [] := by
  change execCanCtrlAct c s = _
  unfold execCanCtrlAct
  subst hk
  exact State.command_done hc (need := fun e => e.isSealed && c.u8 1 == 0) (by simp [Nat.not_le.mpr hlt, hact, hoff, hrec, Res.ok])
    (.inl (by simp [hact])) (Nat.zero_le _)

/-- CAN_CTRL_ACT that orders the loopback test (R423). -/
theorem execCanCtrlAct_tests (hact : c.u8 1 = 2) (htest : s.m.b (.CAN_c_STS_testing k) = false) (hiso : s.m.b (.CAN_c_STS_isolated k) = false) :
    exec (.canCtrlAct c) s = s.becomes ((s.m.canTest k).setCan k fun x => { x with testCmd := some c }) := by
  change execCanCtrlAct c s = _
  unfold execCanCtrlAct
  subst hk
  exact State.command_wait hc (need := fun e => e.isSealed && c.u8 1 == 0) (by simp [Nat.not_le.mpr hlt, hact, htest, hiso]) (.inl (by simp [hact]))

/-- CAN_STREAM that binds a FIFO to an enabled stream queue (R418). -/
theorem execCanStream_binds (ho : o = c.u8 1) (hfifo : o < 2) {q : Nat} (hq : q = c.u8 2) (hq16 : q < 16) (hen : s.m.b (qEn .stq q) = true) :
    exec (.canStream c) s = s.answers 0x76 c ((s.m.setCan k fun x => { x with bound := upd x.bound o fun _ => some q }).sb
      (.CAN_c_FIFOq_STS_bound k o) true) stOk [] [] := by
  have hff : (q != 0xFF) = true := bne_iff_ne.mpr (by omega)
  change execCanStream c s = _
  unfold execCanStream
  subst hk ho hq
  exact State.command_done hc (by simp [Nat.not_le.mpr hlt, Nat.not_le.mpr hfifo, queueOk, hq16, hff, bne_iff_ne.mp hff, hen, Res.ok]) (.inl rfl)
    (Nat.zero_le _)

end

section
variable (ho : o = c.u8 1)
include ho

/-- CAN_OBJ_CFG of an object that is neither in use nor reserved, with a format that its controller carries and an identifier of R404. -/
theorem execCanObjCfg_configures (hlt : k < 4) (h128 : o < 128) (hsafe : s.m.canSafe k o = false) {cfg : Word}
    (hcfg : cfg = BitVec.ofNat 32 (c.u32 4) &&& objCfgMask) {id : Nat} (hid : id = c.u32 8 % 2 ^ 30)
    (hfd : cfg.toNat.testBit 2 = true → cfg.toNat.testBit 4 = false ∧ s.m.b (.CAN_c_CTRL_fd_en k) = true)
    (hbrs : cfg.toNat.testBit 3 = true → cfg.toNat.testBit 2 = true) (hbase : id < 2 ^ 29 → id % 2 ^ 18 = 0)
    (hpend : s.m.b (.CAN_c_OBJo_CFG_pending k o) = false) (htarget : (s.m.canObj k o).target = none) (hown : s.m.canOwned k o = false) :
    exec (.canObjCfg c) s = s.answers 0x72 c
      (((s.m.wr (Reg.CAN_c_OBJo_CFG k o) cfg).wr (Reg.CAN_c_OBJo_ID k o) (BitVec.ofNat 32 id)).setObj k o fun x =>
        { x with dlc := s.m.g (.CAN_c_OBJo_CFG_dlc k o), at_ := none, frame := [] }) stOk [] [] := by
  have hformat : ¬ ((cfg.toNat.testBit 2 && (cfg.toNat.testBit 4 || !s.m.b (.CAN_c_CTRL_fd_en k))) || (cfg.toNat.testBit 3 && !cfg.toNat.testBit 2)
      || (decide (id < 2 ^ 29) && id % 2 ^ 18 != 0)) = true := by
    simp only [Bool.or_eq_true, Bool.and_eq_true, Bool.not_eq_true', decide_eq_true_eq, bne_iff_ne]
    rintro ((⟨h2, h4 | hen⟩ | ⟨h3, h2⟩) | ⟨hlow, hne⟩)
    · exact Bool.false_ne_true ((hfd h2).1.symm.trans h4)
    · exact Bool.false_ne_true (hen.symm.trans (hfd h2).2)
    · exact Bool.false_ne_true (h2.symm.trans (hbrs h3))
    · exact hne (hbase hlow)
  change execCanObjCfg c s = _
  unfold execCanObjCfg
  subst hk ho hcfg hid
  refine State.command_done hc ?_ (.inr rfl) (Nat.zero_le _)
  exact (if_neg (by simp [Nat.not_le.mpr hlt, Nat.not_le.mpr h128])).trans <| (if_neg (Bool.eq_false_iff.mp hsafe)).trans <|
    (if_neg hformat).trans (if_neg (by simp [hpend, htarget, hown]))

/-- CAN_TX of the object's own length, at once (R410, R425). -/
theorem execCanTx_requests (hnames : s.m.canNames k o = none) (hen : s.m.b (.CAN_c_OBJo_CFG_en k o) = true)
    (hdir : s.m.b (.CAN_c_OBJo_CFG_dir k o) = true) (hown : s.m.canOwned k o = false) (hmode : (s.m.canc k).mode = 1) (hrole : s.m.shadowRole = false)
    (htx : (s.m.canObj k o).tx = none) (hlen : c.u8 2 = 255) (htt : s.m.b (.CAN_c_OBJo_CFG_tt_en k o) = false)
    (hdata : dlcLen (s.m.b (.CAN_c_OBJo_CFG_fdf k o)) (s.m.g (.CAN_c_OBJo_CFG_dlc k o)) ≤ c.data.length) :
    exec (.canTx c) s = s.becomes ((s.m.setObj k o fun x =>
      { x with payload := putBytes 0 (c.data.take (dlcLen (s.m.b (.CAN_c_OBJo_CFG_fdf k o)) (s.m.g (.CAN_c_OBJo_CFG_dlc k o)))) x.payload,
               dlc := s.m.g (.CAN_c_OBJo_CFG_dlc k o), tx := some c, retries := 0, target := none, due := none }).sb
      (.CAN_c_OBJo_CFG_pending k o) true) := by
  change execCanTx c s = _
  unfold execCanTx
  subst hk ho
  exact State.command_wait hc (by simp [hnames, hen, hdir, hown, hmode, hrole, htx, hlen, htt, Nat.not_lt.mpr hdata]) (.inl rfl)

/-- CAN_CANCEL of a frame that has not started (R415). -/
theorem execCanCancel_withdraws (hnames : s.m.canNames k o = none) (hflight : (s.m.canc k).flight = none)
    (hpend : s.m.b (.CAN_c_OBJo_CFG_pending k o) = true ∨ (s.m.canObj k o).target.isSome = true) :
    exec (.canCancel c) s = s.answers 0x74 c ((s.m.canWithdraw s.env k o 0x41).canIrq k 6) stOk [0] [] := by
  change execCanCancel c s = _
  unfold execCanCancel
  subst hk ho
  refine State.command_done hc ?_ (.inl rfl) (Nat.zero_le _)
  simp only [hnames, hflight, Bool.false_eq_true, if_false, Bool.or_eq_true, hpend, if_true]
  rfl

/-- CAN_RX_READ of a FIFO that is not bound (R418). -/
theorem execCanRxRead_fifo (hlt : k < 4) {n : Nat} (hn : n = c.u8 2) (hhi : o < 2 + 128) (hlo : 128 ≤ o) (h1 : 1 ≤ n) (h64 : n ≤ 64)
    (hbound : s.m.b (.CAN_c_FIFOq_STS_bound k (o - 128)) = false)
    (hbuf : (((s.m.canc k).fifo.getD (o - 128) []).take n).flatten.length ≤ c.bufLen) :
    exec (.canRxRead c) s = s.answers 0x75 c (s.m.setFifoC k (o - 128) (((s.m.canc k).fifo.getD (o - 128) []).drop n)) stOk
      (le 1 (min n ((s.m.canc k).fifo.getD (o - 128) []).length)) (((s.m.canc k).fifo.getD (o - 128) []).take n).flatten := by
  have hrange : ¬ (decide (4 ≤ k) || decide (0x82 ≤ o) || decide (n = 0) || decide (64 < n)) = true := by
    simp only [Bool.or_eq_true, decide_eq_true_eq]
    omega
  change execCanRxRead c s = _
  unfold execCanRxRead
  subst hk ho hn
  exact State.command_done hc ((if_neg hrange).trans ((if_neg (Nat.not_lt.mpr hlo)).trans (if_neg (Bool.eq_false_iff.mp hbound)))) (.inl rfl) hbuf

end

end

/-- CAN_STATUS_GET without clearing: six words for each of four controllers. -/
theorem execCanStatusGet_reads {s : State} {c : Cmd} (hc : s.takes c) (hclear : c.u8 0 % 2 = 0) (hbuf : 96 ≤ c.bufLen) :
    exec (.canStatusGet c) s = s.answers 0x77 c s.m stOk []
      ((List.range 4).flatMap fun k => s.m.regBytes [Reg.CAN_c_STS k, Reg.CAN_c_ERR k, Reg.CAN_c_CNT0 k, Reg.CAN_c_CNT1 k,
        Reg.CAN_c_FIFOq_STS k 0, Reg.CAN_c_FIFOq_STS k 1]) := by
  change execCanStatusGet c s = _
  unfold execCanStatusGet
  refine State.command_done hc (by simp [hclear]) (.inl rfl) ?_
  rwa [length_flatMap_of_const (n := 24) fun _ => Mach.regBytes_length _ _, List.length_range]

/-- Settles O40: each clause is the command's own part on a state that takes it, past every check it makes. -/
theorem canCommandsAnswer : Obligations.CanCommandsAnswer := by
  intro s c k o hc hk hlt ho
  refine ⟨fun m1 hlen hmode hforce h1 hnomatch hseg1 hseg2 hsaf hwm0 hwm1 hleave => ?_, fun m1 h0 hmode => ?_, fun h1 => ?_, fun h2 htest hiso => ?_,
    fun cfg id hcfg hid h128 hsafe => execCanObjCfg_configures hc hk ho hlt h128 hsafe hcfg hid, fun hnames hen hdir hown hmode hrole hfree hlen htt hdata => ?_,
    execCanCancel_withdraws hc hk ho, fun n hn => execCanRxRead_fifo hc hk ho hlt hn, fun q hfifo hq => execCanStream_binds hc hk hlt ho hfifo hq,
    execCanStatusGet_reads hc⟩
  · exact execCanCfg_configures hc hk hlt hlen (by simp [Mach.canQuiet, hmode, hforce]) h1 hnomatch hseg1 hseg2 hsaf hwm0 hwm1 hleave
  · exact execCanCtrlAct_mode hc hk hlt (ho ▸ h0) hmode
  · exact execCanCtrlAct_recovers hc hk hlt (ho ▸ h1)
  · have hx := execCanCtrlAct_tests hc hk hlt (ho ▸ h2) htest hiso
    exact ⟨hx, _, hx, Mach.b_sb_same s.m (f := .CAN_c_STS_testing k) rfl (show 13 < 32 by decide) true, rfl⟩
  · have hx := execCanTx_requests hc hk ho hnames hen hdir hown hmode hrole hfree hlen htt hdata
    exact ⟨hx, _, hx, Mach.b_sb_same _ (f := .CAN_c_OBJo_CFG_pending k o) rfl (show 13 < 32 by decide) true, rfl⟩

end Sys2Proof.Machine
end

section
/-!
PROOFS. The CAN controllers as they are stored, what telling, receiving and withdrawing leave of them, and when no frame is in flight.
-/
namespace Sys2Proof.Machine

/-! ### A controller stored -/

theorem Mach.Tells.can {m m' : Mach} (h : m.Tells m') : m'.can = m.can := (congrArg Mach.can h :)

section
variable {m : Mach} {k : Nat} {f : CanCtl → CanCtl}

/-- The same block holds the same controllers. -/
theorem Mach.canc_congr {m' : Mach} (h : m'.can = m.can) (k : Nat) : m'.canc k = m.canc k := by
  rw [Mach.canc, h, Mach.canc]

theorem Mach.canc_setCan_same (h : k < m.can.length) (f : CanCtl → CanCtl) : (m.setCan k f).canc k = f (m.canc k) := nth_upd_same _ h f

theorem Mach.setCan_can_length (f : CanCtl → CanCtl) : (m.setCan k f).can.length = m.can.length := upd_length _ _ _

/-- A controller that is not there reads as at reset, whatever is stored. -/
theorem Mach.canc_setCan_beyond (h : ¬ k < m.can.length) : (m.setCan k f).canc k = CanCtl.reset := by
  simp [Mach.canc, Mach.setCan, nth, Nat.le_of_not_lt h]

/-- What a change gives every controller, and a controller has at reset, it has after the change, stored or not. -/
theorem Mach.canc_setCan_has {P : CanCtl → Prop} (hreset : P CanCtl.reset) (hf : ∀ x, P (f x)) : P ((m.setCan k f).canc k) := by
  by_cases h : k < m.can.length
  · exact Mach.canc_setCan_same h f ▸ hf _
  · exact Mach.canc_setCan_beyond h ▸ hreset

/-- What a change leaves of a controller, stored or not. -/
theorem Mach.setCan_keeps {β : Type} (g : CanCtl → β) (hf : ∀ x, g (f x) = g x) : g ((m.setCan k f).canc k) = g (m.canc k) :=
  nth_upd_keeps g hf _ _ k

end

/-! ### What a controller has on its bus (R408, R410, R421) -/

/-- A controller on its bus: the mode in force, whether it has joined, its error counters and the frame in flight. -/
def CanCtl.bus (x : CanCtl) : Nat × Bool × Nat × Nat × Option CanFlight := (x.mode, x.joined, x.tec, x.rec_, x.flight)

/-- Controller k stands on its bus as before. -/
def Mach.KeepsBus (k : Nat) (m m' : Mach) : Prop := (m'.canc k).bus = (m.canc k).bus

theorem Mach.KeepsBus.refl (k : Nat) (m : Mach) : m.KeepsBus k m := rfl

theorem Mach.KeepsBus.trans {k : Nat} {a b c : Mach} (h : a.KeepsBus k b) (h' : b.KeepsBus k c) : a.KeepsBus k c := Eq.trans h' h

theorem Mach.KeepsBus.rec_ {k : Nat} {m m' : Mach} (h : m.KeepsBus k m') : (m'.canc k).rec_ = (m.canc k).rec_ := congrArg (·.2.2.2.1) h

theorem Mach.KeepsBus.flight {k : Nat} {m m' : Mach} (h : m.KeepsBus k m') : (m'.canc k).flight = (m.canc k).flight := congrArg (·.2.2.2.2) h

theorem Mach.Tells.keepsBus {m m' : Mach} (h : m.Tells m') (k : Nat) : m.KeepsBus k m' := congrArg CanCtl.bus (Mach.canc_congr h.can k)

section
variable {k : Nat} {a m m' : Mach}

/-- What is told after a change. -/
theorem Mach.KeepsBus.told (ht : m.Tells m') (h : a.KeepsBus k m) : a.KeepsBus k m' := h.trans (ht.keepsBus k)

theorem Mach.KeepsBus.setCan (h : a.KeepsBus k m) {f : CanCtl → CanCtl} (hf : ∀ x, (f x).bus = x.bus) : a.KeepsBus k (m.setCan k f) :=
  h.trans (Mach.setCan_keeps CanCtl.bus hf)

theorem Mach.KeepsBus.setObj (h : a.KeepsBus k m) (o : Nat) (f : CanObj → CanObj) : a.KeepsBus k (m.setObj k o f) := h.setCan fun _ => rfl

theorem Mach.KeepsBus.canTxEnd (h : a.KeepsBus k m) (e : Env) (o st : Nat) (late : Bool) (sof : Nat) : a.KeepsBus k (m.canTxEnd e k o st late sof) := by
  unfold Mach.canTxEnd
  split
  · exact h
  · exact .told (Mach.tells_complete _ _ _ _ _ _ _) (h.setObj o _)

theorem Mach.KeepsBus.canWithdraw (h : a.KeepsBus k m) (e : Env) (o st : Nat) : a.KeepsBus k (m.canWithdraw e k o st) :=
  .setObj (.canTxEnd (.told (m.tells_sb _ _) h) e o st false 0) o _

end

/-! ### Reception (R416 to R418) -/

section
variable (m : Mach) (e : Env) (k : Nat)

theorem Mach.tells_upWrap (f : Fld) : m.Tells (m.upWrap f) := rfl

theorem Mach.tells_canIrq (i : Nat) : m.Tells (m.canIrq k i) := m.tells_setBit _ _ _

theorem Mach.tells_fifoSync (q : Nat) : m.Tells (m.fifoSync k q) := (m.tells_s _ _).trans (Mach.tells_setBit _ _ _ _)

theorem Mach.keepsBus_setFifoC (q : Nat) (l : List (List Byte)) : m.KeepsBus k (m.setFifoC k q l) :=
  .told (Mach.tells_fifoSync _ k q) ((Mach.KeepsBus.refl k m).setCan fun _ => rfl)

theorem Mach.keepsBus_toFifo (q : Nat) (r : List Byte) : m.KeepsBus k (m.toFifo e k q r) := by
  unfold Mach.toFifo
  extract_lets x l m1 lost m2 due
  have h1 : m.KeepsBus k m1 := by
    unfold m1
    split
    · exact m.keepsBus_setFifoC k q _
    · exact .refl k m
  have h2 : m.KeepsBus k m2 := .told (Mach.tells_canIrq _ k 3) (.told (m1.tells_up _) h1)
  clear_value m1 m2
  split
  · exact m.keepsBus_setFifoC k q _
  · split
    · exact .told (Mach.tells_event _ _ _ _ _) (h2.setCan fun _ => rfl)
    · exact h2.setCan fun _ => rfl

/-- A frame handed to Lichen is told. -/
theorem Mach.tells_lchFrame (typ index : Nat) (index2 : Option Nat) (stamp : Nat) (binary : Bool) (b : List Byte) :
    m.Tells (m.lchFrame typ index index2 stamp binary b) := by
  refine iter_tells m fun s m' => Mach.tells_ite ?_ (.refl m')
  split
  · exact m'.tells_lchOwn s stamp _
  · exact m'.tells_lchMissing s

theorem Mach.keepsBus_toObj (o sof : Nat) (r p : List Byte) : m.KeepsBus k (m.toObj e k o sof r p) := by
  unfold Mach.toObj
  extract_lets m1 at_ m2
  have h1 : m.Tells m1 := Mach.tells_ite (m.tells_up _) (.refl m)
  have h2 : m.KeepsBus k m2 :=
    (Mach.KeepsBus.told (Mach.tells_s _ _ _) (.told (Mach.tells_upWrap _ _) (.told (m1.tells_sb _ _) (h1.keepsBus k)))).setObj o _
  clear_value m1 m2
  split
  · exact (m.tells_up _).keepsBus k
  · exact .told (Mach.tells_lchFrame _ _ _ _ _ _ _) (.told (Mach.tells_ite (m2.tells_canIrq k 5) (.refl m2)) h2)

/-- A frame that is received leaves the controller on its bus as it was. -/
theorem Mach.keepsBus_canReceive (sof id dlc flags : Nat) (p : List Byte) : m.KeepsBus k (m.canReceive e k sof id dlc flags p) := by
  unfold Mach.canReceive
  dsimp only
  split
  · split
    · exact m.keepsBus_toFifo e k 0 _
    · exact m.keepsBus_toFifo e k 1 _
    · exact m.keepsBus_toObj e k _ sof _ _
  · split
    · exact m.keepsBus_toFifo e k 0 _
    · exact m.keepsBus_toFifo e k 1 _
    · exact .refl k m

end

/-! ### Counters and the error state (R421, R422) -/

section
variable (m : Mach) (e : Env) (k : Nat)

theorem Mach.tells_canState (st : Nat) : m.Tells (m.canState e k st) := by
  unfold Mach.canState
  dsimp only
  split
  · exact .refl m
  · exact ((m.tells_s _ _).trans (Mach.tells_setBit _ _ _ _)).trans (Mach.tells_event _ _ _ _ _)

theorem Mach.canErr_can (tec rec_ : Nat) : (m.canErr k tec rec_).can = (m.setCan k fun x => { x with tec := tec, rec_ := rec_ }).can := rfl

/-- Counters that come into force leave of a controller what they and the start of a recovery leave. -/
theorem Mach.canCount_keeps {β : Type} (g : CanCtl → β) (hg : ∀ x n, g { x with recAt := n } = g x) (tec rec_ : Nat) :
    g ((m.canCount e k tec rec_).canc k) = g ((m.setCan k fun x => { x with tec := tec, rec_ := rec_ }).canc k) := by
  unfold Mach.canCount
  extract_lets was st m1 auto
  have h1 : m1.canc k = (m.setCan k fun x => { x with tec := tec, rec_ := rec_ }).canc k :=
    Mach.canc_congr ((Mach.tells_canState _ e k st).can.trans (m.canErr_can k tec rec_)) k
  clear_value m1
  split
  · have htells : m1.Tells ((((m1.up (.CAN_c_CNT1_busoff k)).sb (.CAN_c_STS_rec_wait k) (!auto)).sb (.CAN_c_STS_recovering k) auto).s (.CAN_c_STS_rec_seq k) 0) :=
      (((m1.tells_up _).trans (Mach.tells_sb _ _ _)).trans (Mach.tells_sb _ _ _)).trans (Mach.tells_s _ _ _)
    exact (Mach.setCan_keeps g fun x => hg x _).trans (congrArg g ((Mach.canc_congr htells.can k).trans h1))
  · exact congrArg g h1

theorem Mach.canCount_flight (tec rec_ : Nat) : ((m.canCount e k tec rec_).canc k).flight = (m.canc k).flight :=
  (m.canCount_keeps e k CanCtl.flight (fun _ _ => rfl) tec rec_).trans (Mach.setCan_keeps CanCtl.flight fun _ => rfl)

theorem Mach.canCount_rec {m : Mach} {k : Nat} (h : k < m.can.length) (e : Env) (tec rec_ : Nat) : ((m.canCount e k tec rec_).canc k).rec_ = rec_ :=
  (m.canCount_keeps e k CanCtl.rec_ (fun _ _ => rfl) tec rec_).trans (congrArg CanCtl.rec_ (Mach.canc_setCan_same h _))

end

/-! ### No frame in flight (R410, R414, R423) -/

section
variable (m : Mach) (e : Env) (k : Nat)

theorem Mach.setCan_flight_none {f : CanCtl → CanCtl} (hf : ∀ x, (f x).flight = none) : ((m.setCan k f).canc k).flight = none :=
  Mach.canc_setCan_has (P := fun x => x.flight = none) rfl hf

theorem Mach.setCan_flight {m : Mach} {k : Nat} (h : (m.canc k).flight = none) {f : CanCtl → CanCtl} (hf : ∀ x, (f x).flight = x.flight) :
    ((m.setCan k f).canc k).flight = none := (Mach.setCan_keeps CanCtl.flight hf).trans h

/-- The frame in flight is retried or withdrawn: none is in flight. -/
theorem Mach.canRetry_flight (f : CanFlight) : ((m.canRetry e k f).canc k).flight = none := by
  unfold Mach.canRetry
  extract_lets o m1
  have h1 : (m1.canc k).flight = none := m.setCan_flight_none k fun _ => rfl
  clear_value m1
  refine Eq.trans (Mach.KeepsBus.flight ?_) h1
  have hself := Mach.KeepsBus.refl k m1
  split
  · exact hself.setObj o _
  · split
    · exact .told (Mach.tells_canIrq _ k 6) (hself.canWithdraw e o _)
    · split
      · exact hself.canWithdraw e o _
      · exact (Mach.KeepsBus.told (m1.tells_up _) hself).setObj o _

/-- The frame in flight was sent: none is in flight. -/
theorem Mach.canSent_flight (f : CanFlight) : ((m.canSent e k f).canc k).flight = none := by
  unfold Mach.canSent
  extract_lets o sof x m1 m2 m3
  have h2 : (m2.canc k).flight = none :=
    (Mach.KeepsBus.told (Mach.tells_upWrap _ _) (.told (Mach.tells_s _ _ _) (.told (Mach.tells_sb _ _ _) (.refl k _)))).flight.trans
      (m1.setCan_flight_none k fun _ => rfl)
  have h3 : m2.Tells m3 := Mach.tells_ite (m2.tells_canIrq k 4) (.refl m2)
  clear_value m2 m3
  exact (((h3.keepsBus k).canTxEnd e o stOk f.cancel sof).setObj o _).flight.trans h2

/-- A bus error starts no frame. -/
theorem Mach.canError_flight {m : Mach} {k : Nat} (h : (m.canc k).flight = none) (e : Env) (typ : Nat) (data tx dominant : Bool) :
    ((m.canError e k typ data tx dominant).canc k).flight = none := by
  unfold Mach.canError
  extract_lets x st cnt m1 m2 errs n
  have h1 : (m1.canc k).flight = none :=
    (Mach.KeepsBus.told (Mach.tells_sb _ _ _) (.told (Mach.tells_s _ _ _) ((m.tells_up cnt).keepsBus k))).flight.trans h
  have h2 : (m2.canc k).flight = none := by
    unfold m2
    clear_value m1
    split
    · split
      · exact (m1.canCount_flight e k _ _).trans h1
      · exact (m1.canCount_flight e k _ _).trans h1
    · split
      · exact Mach.setCan_flight h1 fun _ => rfl
      · exact h1
  clear_value m2
  split
  · exact Mach.setCan_flight_none _ k fun _ => rfl
  · exact Mach.setCan_flight h2 fun _ => rfl

/-- However the frame in flight ends, none is in flight. -/
theorem Mach.canFlightEnd_flight (result tdcv : Nat) (f : CanFlight) : ((m.canFlightEnd e k result tdcv f).canc k).flight = none := by
  unfold Mach.canFlightEnd
  extract_lets o brs m1 m2 w
  clear_value m1
  split
  · exact Mach.canError_flight (Mach.canRetry_flight _ e k f) e _ _ _ _
  · have h2 : (m2.canc k).flight = none := m1.canSent_flight e k f
    clear_value m2
    split
    · split
      · exact (m2.keepsBus_canReceive e k _ _ _ _ _).flight.trans h2
      · exact h2
    · exact Mach.canRetry_flight _ e k f
    · exact m1.canRetry_flight e k f

end

end Sys2Proof.Machine
end

section
/-!
PROOFS. What moves of CAN_c_STS, what a withdrawal leaves of an object's pending flag, and what a host write leaves of the mode.
-/
namespace Sys2Proof.Machine

/-! ### What moves of CAN_c_STS (R421 to R423, R430) -/

/-- CAN_c_STS lies outside the host interface and the recorder, apart from the registers that an error beside it moves. -/
theorem canSts_apart {k : Nat} (hk : k < 4) : farReg (Reg.CAN_c_STS k) ∧ Reg.CAN_c_STS k ≠ Reg.CAN_IRQ_STS ∧ Reg.CAN_c_STS k ≠ Reg.GEN_FAULT := by
  simp only [farReg, Reg.CAN_c_STS, Reg.CAN_IRQ_STS, Reg.GEN_FAULT]
  omega

/-- The configuration of an object lies outside the host interface and the recorder, apart from the block's sources. -/
theorem canObj_apart {k o : Nat} (hk : k < 4) (ho : o < 128) : farReg (Reg.CAN_c_OBJo_CFG k o) ∧ Reg.CAN_c_OBJo_CFG k o ≠ Reg.CAN_IRQ_STS := by
  simp only [farReg, Reg.CAN_c_OBJo_CFG, Reg.CAN_IRQ_STS]
  omega

/-- The fault table has one register, which a verdict moves. -/
theorem Mach.rd_faultVerdict {off : Nat} (h : off ≠ Reg.GEN_FAULT) (m : Mach) (cls inst : Nat) (lasting : Bool) :
    (m.faultVerdict cls inst lasting).rd off = m.rd off := by
  unfold Mach.faultVerdict Mach.setFaults
  rw [Mach.rd_s_other _ h, Mach.rd_s_other _ h]
  rfl

/-- The fields of CAN_c_STS from bit n on stay. -/
def Mach.KeepsSts (k n : Nat) (m m' : Mach) : Prop := ∀ f : Fld, f.off = Reg.CAN_c_STS k → n ≤ f.lo → f.lo ≤ f.hi → m'.g f = m.g f

/-- One change after others. -/
theorem Mach.KeepsSts.after {k n : Nat} {a b c : Mach} (h' : b.KeepsSts k n c) (h : a.KeepsSts k n b) : a.KeepsSts k n c :=
  fun f hoff hn hf => (h' f hoff hn hf).trans (h f hoff hn hf)

theorem Mach.KeepsSts.mono {k n n' : Nat} {m m' : Mach} (h : m.KeepsSts k n m') (hle : n ≤ n') : m.KeepsSts k n' m' :=
  fun f hoff hn => h f hoff (Nat.le_trans hle hn)

theorem Mach.KeepsSts.of_rd {k n : Nat} {m m' : Mach} (h : m'.rd (Reg.CAN_c_STS k) = m.rd (Reg.CAN_c_STS k)) : m.KeepsSts k n m' :=
  fun _ hoff _ _ => Mach.g_congr (hoff ▸ h)

theorem Mach.KeepsSts.b {k n : Nat} {m m' : Mach} (h : m.KeepsSts k n m') {f : Fld} (hoff : f.off = Reg.CAN_c_STS k) (hn : n ≤ f.lo) (hf : f.lo ≤ f.hi) :
    m'.b f = m.b f := by
  rw [Mach.b, h f hoff hn hf, Mach.b]

section
variable (m : Mach) (e : Env) {k : Nat} {n : Nat}

/-- A write below bit n. -/
theorem Mach.keepsSts_s {f : Fld} (hf : f.lo ≤ f.hi) (hn : f.hi < n) (hh : f.hi < 32) (v : Nat) : m.KeepsSts k n (m.s f v) :=
  fun _ _ hlo hg => Mach.g_s_beside m hf hh hg (.inl (Nat.lt_of_lt_of_le hn hlo)) v

theorem Mach.keepsSts_sb {f : Fld} (hf : f.lo ≤ f.hi) (hn : f.hi < n) (hh : f.hi < 32) (v : Bool) : m.KeepsSts k n (m.sb f v) :=
  m.keepsSts_s hf hn hh _

/-- A write of another register. -/
theorem Mach.keepsSts_other {f : Fld} (h : Reg.CAN_c_STS k ≠ f.off) (v : Nat) : m.KeepsSts k n (m.s f v) := .of_rd (m.rd_s_other h v)

theorem Mach.keepsSts_setCan (c : Nat) (f : CanCtl → CanCtl) : m.KeepsSts k n (m.setCan c f) := .of_rd rfl

variable (hk : k < 4)
include hk

/-- A source of the block that is raised and an event that is posted. -/
theorem Mach.keepsSts_told (i code : Nat) (psev : Option Nat) (p : List Byte) : m.KeepsSts k n ((m.canIrq k i).event e code psev p) :=
  have ⟨hfar, hirq, _⟩ := canSts_apart hk
  .of_rd ((Mach.rd_event _ _ _ _ _ hfar).trans (m.rd_setBit_other hirq _ _))

/-- A change of the error state moves the state field only. -/
theorem Mach.keepsSts_canState (hn : 2 ≤ n) (st : Nat) : m.KeepsSts k n (m.canState e k st) := by
  unfold Mach.canState
  dsimp only
  split
  · exact .of_rd rfl
  · exact .after (Mach.keepsSts_told _ e hk _ _ _ _)
      (m.keepsSts_s (f := .CAN_c_STS_state k) (show 0 ≤ 1 by decide) (show 1 < n from hn) (show 1 < 32 by decide) st)

/-- The error state reads what it changes to. -/
theorem Mach.g_canState {st : Nat} (hst : st < 4) : (m.canState e k st).g (.CAN_c_STS_state k) = st := by
  obtain ⟨hfar, hirq, -⟩ := canSts_apart hk
  unfold Mach.canState
  dsimp only
  split
  · next h => exact h
  · exact (Mach.g_event (f := .CAN_c_STS_state k) _ _ _ _ _ hfar).trans <| (Mach.g_setBit_other (g := .CAN_c_STS_state k) _ hirq _ _).trans <|
      (Mach.g_s_same m (f := .CAN_c_STS_state k) (show 0 ≤ 1 by decide) (show 1 < 32 by decide) st).trans (Nat.mod_eq_of_lt hst)

/-- Counters that come into force move the error state and what a recovery shows. -/
theorem Mach.keepsSts_canCount (tec rec_ : Nat) : m.KeepsSts k 12 (m.canCount e k tec rec_) := by
  have herr (f : Fld) (hf : f.off = Reg.CAN_c_ERR k) : Reg.CAN_c_STS k ≠ f.off := by
    simp only [hf, Reg.CAN_c_STS, Reg.CAN_c_ERR]
    omega
  unfold Mach.canCount
  extract_lets was st m1 auto
  have h1 : m.KeepsSts k 12 m1 :=
    .after (Mach.keepsSts_canState _ e hk (by decide) st) <| .after (Mach.keepsSts_other _ (f := .CAN_c_ERR_rp k) (herr _ rfl) _) <|
      .after (Mach.keepsSts_other _ (f := .CAN_c_ERR_rec k) (herr _ rfl) _) <|
      .after (Mach.keepsSts_other _ (f := .CAN_c_ERR_tec k) (herr _ rfl) _) (m.keepsSts_setCan k _)
  clear_value m1
  split
  · have hcnt : Reg.CAN_c_STS k ≠ (Fld.CAN_c_CNT1_busoff k).off := by
      simp only [Fld.CAN_c_CNT1_busoff, Reg.CAN_c_STS]
      omega
    exact .after (Mach.keepsSts_setCan _ k _) <|
      .after (Mach.keepsSts_s _ (f := .CAN_c_STS_rec_seq k) (show 4 ≤ 11 by decide) (show 11 < 12 by decide) (show 11 < 32 by decide) _) <|
      .after (Mach.keepsSts_sb _ (f := .CAN_c_STS_recovering k) (Nat.le_refl 3) (show 3 < 12 by decide) (show 3 < 32 by decide) _) <|
      .after (Mach.keepsSts_sb _ (f := .CAN_c_STS_rec_wait k) (Nat.le_refl 2) (show 2 < 12 by decide) (show 2 < 32 by decide) _) <|
      .after (m1.keepsSts_other hcnt _) h1
  · exact h1

/-- A bus error shows its type and phase. -/
theorem Mach.canError_shows {typ : Nat} (htyp : typ ≤ 6) (data tx dominant : Bool) :
    (m.canError e k typ data tx dominant).g (.CAN_c_STS_lec k) = typ ∧ (m.canError e k typ data tx dominant).b (.CAN_c_STS_lec_data k) = data := by
  unfold Mach.canError
  extract_lets x st cnt m1 m2 errs n
  obtain ⟨-, -, hfault⟩ := canSts_apart hk
  have hlec : m1.g (.CAN_c_STS_lec k) = typ := by
    refine (Mach.g_sb_beside _ (f := .CAN_c_STS_lec_data k) (Nat.le_refl 19) (show 19 < 32 by decide) (g := .CAN_c_STS_lec k) (show 16 ≤ 18 by decide)
      (.inr (show 18 < 19 by decide)) data).trans ?_
    refine (Mach.g_s_same _ (f := .CAN_c_STS_lec k) (show 16 ≤ 18 by decide) (show 18 < 32 by decide) typ).trans (Nat.mod_eq_of_lt ?_)
    exact Nat.lt_of_le_of_lt htyp (show 6 < 2 ^ 3 by decide)
  have hdata : m1.b (.CAN_c_STS_lec_data k) = data := Mach.b_sb_same _ (f := .CAN_c_STS_lec_data k) rfl (show 19 < 32 by decide) data
  have h2 : m1.KeepsSts k 14 m2 := by
    unfold m2
    clear_value m1
    split
    · split
      · exact (m1.keepsSts_canCount e hk _ _).mono (by decide)
      · exact (m1.keepsSts_canCount e hk _ _).mono (by decide)
    · split
      · exact m1.keepsSts_setCan k _
      · exact .of_rd rfl
  clear_value m1 m2
  suffices h : ∀ m' : Mach, m2.KeepsSts k 14 m' → m'.g (.CAN_c_STS_lec k) = typ ∧ m'.b (.CAN_c_STS_lec_data k) = data by
    refine h _ ?_
    split
    · exact .after (Mach.keepsSts_setCan _ k _) <|
        .after (Mach.keepsSts_sb _ (f := .CAN_c_STS_testing k) (Nat.le_refl 13) (show 13 < 14 by decide) (show 13 < 32 by decide) true) <|
        .after (Mach.keepsSts_told _ e hk _ _ _ _) (.of_rd (Mach.rd_faultNote hfault m2 e 6 k 0))
    · exact m2.keepsSts_setCan k _
  intro m' h
  have h' := h.after h2
  exact ⟨(h' (.CAN_c_STS_lec k) rfl (show 14 ≤ 16 by decide) (show 16 ≤ 18 by decide)).trans hlec,
    (h'.b (f := .CAN_c_STS_lec_data k) rfl (show 14 ≤ 19 by decide) (Nat.le_refl 19)).trans hdata⟩

/-- A verdict moves the fault table. -/
theorem Mach.keepsSts_canVerdict (lasting : Bool) : m.KeepsSts k n (m.canVerdict e k lasting) := by
  obtain ⟨-, -, hfault⟩ := canSts_apart hk
  exact .after (Mach.keepsSts_told _ e hk _ _ _ _) (.of_rd (Mach.rd_faultVerdict hfault m 6 k lasting))

/-- A loop test that passes has ended, and the controller is not isolated (R423). -/
theorem Mach.canTestEnd_passes : (m.canTestEnd e k true).b (.CAN_c_STS_testing k) = false ∧ (m.canTestEnd e k true).b (.CAN_c_STS_isolated k) = false := by
  unfold Mach.canTestEnd
  extract_lets x m1 m2
  have htest : m2.b (.CAN_c_STS_testing k) = false :=
    congrArg (· != 0) ((Mach.g_sb_beside _ (f := .CAN_c_STS_isolated k) (Nat.le_refl 12) (show 12 < 32 by decide) (g := .CAN_c_STS_testing k) (Nat.le_refl 13)
      (.inl (show 12 < 13 by decide)) false).trans (Mach.g_sb_same _ (f := .CAN_c_STS_testing k) rfl (show 13 < 32 by decide) false))
  have hiso : m2.b (.CAN_c_STS_isolated k) = false := Mach.b_sb_same _ (f := .CAN_c_STS_isolated k) rfl (show 12 < 32 by decide) false
  clear_value m2
  rw [if_pos rfl]
  have h : m2.KeepsSts k 12 ((if x.mode = 3 then m2.canState e k (errState x.tec x.rec_) else m2).canVerdict e k false) := by
    refine .after (Mach.keepsSts_canVerdict _ e hk false) ?_
    split
    · exact m2.keepsSts_canState e hk (by decide) _
    · exact .of_rd rfl
  exact ⟨(h.b (f := .CAN_c_STS_testing k) rfl (show 12 ≤ 13 by decide) (Nat.le_refl 13)).trans htest,
    (h.b (f := .CAN_c_STS_isolated k) rfl (Nat.le_refl 12) (Nat.le_refl 12)).trans hiso⟩

end

theorem errState_lt (tec rec_ : Nat) : errState tec rec_ < 4 := by
  unfold errState
  split
  · decide
  · split <;> decide

/-- Counters that are cleared stay at 0 through a change of the error state. -/
theorem Mach.canErr_cleared (m : Mach) (e : Env) (k st : Nat) :
    (((m.canErr k 0 0).canState e k st).canc k).tec = 0 ∧ (((m.canErr k 0 0).canState e k st).canc k).rec_ = 0 := by
  rw [Mach.canc_congr (Mach.tells_canState _ e k st).can, Mach.canc_congr (m.canErr_can k 0 0)]
  exact Mach.canc_setCan_has (P := fun x => x.tec = 0 ∧ x.rec_ = 0) ⟨rfl, rfl⟩ fun _ => ⟨rfl, rfl⟩

/-- A controller that enters OFF is in OFF, with no frame in flight (R408). -/
theorem Mach.canOff_off (m : Mach) (e : Env) (k : Nat) : ((m.canOff e k).canc k).mode = 0 ∧ ((m.canOff e k).canc k).flight = none := by
  unfold Mach.canOff
  extract_lets m1 m2
  have htells := (((m2.tells_sb (.CAN_c_STS_rec_wait k) false).trans (Mach.tells_sb _ (.CAN_c_STS_recovering k) false)).trans
    (Mach.tells_s _ (.CAN_c_STS_rec_seq k) 0)).trans (Mach.tells_canState _ e k 3)
  rw [Mach.canc_congr htells.can]
  exact Mach.canc_setCan_has (P := fun x => x.mode = 0 ∧ x.flight = none) ⟨rfl, rfl⟩ fun _ => ⟨rfl, rfl⟩

/-! ### The pending flag of an object (R411, R413) -/

theorem Mach.rd_ite {p : Prop} [Decidable p] {a b : Mach} {off : Nat} {w : Word} (ha : a.rd off = w) (hb : b.rd off = w) :
    (if p then a else b).rd off = w := by
  split
  · exact ha
  · exact hb

/-- A completion by any path moves a register outside the host interface and the recorder only where the offsets of rings and of the ports' counters lie. -/
theorem Mach.rd_complete_plain {off : Nat} (hf : farReg off) (hn : off % 16 ≠ 12) (m : Mach) (e : Env) (op : Nat) (c : Cmd) (st : Nat) (res data : List Byte) :
    (m.complete e op c st res data).rd off = m.rd off := by
  unfold Mach.complete
  split
  · rfl
  · next port src _ =>
    have htx : off ≠ (Fld.NETp_TX_CNT_frames port).off := by
      simp only [Fld.NETp_TX_CNT_frames]
      omega
    unfold Mach.maintReply Mach.netSend
    dsimp only
    split
    · exact Mach.rd_s_other _ htx _
    · rfl
  · next q _ =>
    extract_lets found cq index hif m1
    have hcq : cq < 16 := by
      unfold cq
      clear_value found
      cases found with
      | none => exact Nat.lt_of_lt_of_le (Mach.g_lt m _) (by simp [fldWidth, Fld.HIF_SQq_CFG_cq])
      | some p => exact Nat.mod_lt _ (by decide)
    have hq : off ≠ qSts .sq q := by
      simp only [qSts, QType.base]
      omega
    have hdone : off ≠ (Fld.HIF_CMD_CNT_done).off := by
      rintro rfl
      revert hf
      decide
    have h1 : m1.rd off = m.rd off := (Mach.rd_s_other _ hdone _).trans ((Mach.rd_sb_other _ hq _).trans (Mach.rd_s_other _ hq _))
    clear_value m1
    have h2 : (if data.isEmpty then m1 else m1.hostStore c.bufAddr data).rd off = m.rd off :=
      Mach.rd_ite h1 ((Mach.rd_regs (m1.hostStore_regs _ _) off).trans h1)
    exact Mach.rd_ite h1 ((Mach.alike_toCq (Mach.alike_refl _) e hcq _ _ _ _ _ _ _ _ off hf).trans h2)

/-- A request that is withdrawn is not pending. -/
theorem Mach.canWithdraw_pending {k o : Nat} (hk : k < 4) (ho : o < 128) (m : Mach) (e : Env) (st : Nat) :
    (m.canWithdraw e k o st).b (.CAN_c_OBJo_CFG_pending k o) = false := by
  have hflag := Mach.b_sb_same m (f := .CAN_c_OBJo_CFG_pending k o) rfl (show 13 < 32 by decide) false
  have hmod : Reg.CAN_c_OBJo_CFG k o % 16 ≠ 12 := by
    simp only [Reg.CAN_c_OBJo_CFG]
    omega
  refine Eq.trans (Mach.b_congr (f := .CAN_c_OBJo_CFG_pending k o) (m := m.sb (.CAN_c_OBJo_CFG_pending k o) false) ?_) hflag
  unfold Mach.canWithdraw Mach.canTxEnd
  split
  · rfl
  · exact Mach.rd_complete_plain (canObj_apart hk ho).1 hmod _ _ _ _ _ _ _

/-- A withdrawal that is told leaves the request withdrawn. -/
theorem Mach.canWithdraw_told {k o : Nat} (hk : k < 4) (ho : o < 128) (m : Mach) (e : Env) (st i code : Nat) (psev : Option Nat) (p : List Byte) :
    (((m.canWithdraw e k o st).canIrq k i).event e code psev p).b (.CAN_c_OBJo_CFG_pending k o) = false := by
  have hflag := Mach.canWithdraw_pending hk ho m e st
  obtain ⟨hfar, hirq⟩ := canObj_apart hk ho
  generalize m.canWithdraw e k o st = m1 at hflag ⊢
  exact (Mach.b_congr (f := .CAN_c_OBJo_CFG_pending k o) ((Mach.rd_event _ _ _ _ _ hfar).trans (m1.rd_setBit_other hirq _ _))).trans hflag

/-! ### A host write of CAN_c_CTRL (R405, R407) -/

/-- The mode field takes every host write. -/
theorem Mach.g_hostPut_mode {k : Nat} (hk : k < 4) (m : Mach) (locked quiet : Bool) (v : Word) :
    (m.hostPut locked quiet (Reg.CAN_c_CTRL k) v).g (.CAN_c_CTRL_mode k) = v.toNat % 4 := by
  obtain ⟨d, hd, hrw, hw1c⟩ : ∃ d : RegDef, regAt (Reg.CAN_c_CTRL k) = some d ∧ d.rw = 3 ∧ d.w1c = 0 := by
    obtain rfl | rfl | rfl | rfl : k = 0 ∨ k = 1 ∨ k = 2 ∨ k = 3 := by omega
    all_goals exact ⟨_, rfl, rfl, rfl⟩
  have hbit (i : Nat) (hi : i < 2) : (hostMerge d locked quiet (m.rd (Reg.CAN_c_CTRL k)) v).getLsbD i = v.getLsbD i := by
    have h3 : (3 : Nat).testBit i = true := by
      obtain rfl | rfl : i = 0 ∨ i = 1 := by omega
      · rfl
      · rfl
    have htakes : takesBit d locked quiet i = true := by simp [takesBit, hrw, h3]
    rw [hostMerge_bit d locked quiet _ v (by omega), htakes, hw1c]
    simp
  have hg (m : Mach) : m.g (.CAN_c_CTRL_mode k) = (m.rd (Reg.CAN_c_CTRL k)).toNat % 4 := by
    simp [Mach.g, fldGet, fldWidth, Fld.CAN_c_CTRL_mode]
  rw [hg, Mach.rd_hostPut_same hd]
  refine Nat.eq_of_testBit_eq fun i => ?_
  rw [show (4 : Nat) = 2 ^ 2 from rfl, Nat.testBit_mod_two_pow, Nat.testBit_mod_two_pow]
  by_cases hi : i < 2
  · exact congrArg (decide (i < 2) && ·) (hbit i hi)
  · simp [hi]

theorem Mach.canUnbar_regs (m : Mach) (k : Nat) : (m.canUnbar k).regs = m.regs := by
  unfold Mach.canUnbar
  split
  · rfl
  · rfl

/-- A mode that is written stands, or timing that R405 refuses leaves OFF and shows cfg_err. -/
theorem Mach.canModeWritten_shows {m m' : Mach} (k : Nat) {mode : Nat} (hm : m.g (.CAN_c_CTRL_mode k) = mode)
    (h' : m' = if m.canLeaveOff k 0 then m.canUnbar k else ((m.s (.CAN_c_CTRL_mode k) 0).sb (.CAN_c_STS_cfg_err k) true).canUnbar k) :
    m'.g (.CAN_c_CTRL_mode k) = mode ∨ m'.g (.CAN_c_CTRL_mode k) = 0 ∧ m'.b (.CAN_c_STS_cfg_err k) = true := by
  have hctrl : (Fld.CAN_c_CTRL_mode k).off ≠ (Fld.CAN_c_STS_cfg_err k).off := by
    simp only [Fld.CAN_c_CTRL_mode, Fld.CAN_c_STS_cfg_err]
    omega
  subst h'
  split
  · exact .inl ((Mach.g_regs (m.canUnbar_regs k) _).trans hm)
  · have hregs := Mach.canUnbar_regs ((m.s (.CAN_c_CTRL_mode k) 0).sb (.CAN_c_STS_cfg_err k) true) k
    refine .inr ⟨?_, ?_⟩
    · exact (Mach.g_regs hregs _).trans <| (Mach.g_s_other hctrl _ _).trans
        (Mach.g_s_same m (f := .CAN_c_CTRL_mode k) (show 0 ≤ 1 by decide) (show 1 < 32 by decide) 0)
    · exact (Mach.b_congr (Mach.rd_regs hregs _)).trans (Mach.b_sb_same _ (f := .CAN_c_STS_cfg_err k) rfl (show 20 < 32 by decide) true)

end Sys2Proof.Machine
end

section
/-!
PROOFS. What happens on a CAN bus: frames start, end and are received, errors, recovery, integration, changes of mode, time-triggered targets and their
deadline, and the end of a loop test.
-/
namespace Sys2Proof.Machine

section
variable {s : State} {k o : Nat} (hk : k < 4)
include hk

/-! ### Frames (R410, R416, R419) -/

/-- The next frame starts (R410). -/
theorem execCanTxStart_starts {lag sof : Nat} (hsof : sof = (s.env.now.short + lag) % 2 ^ 32) (hbus : s.m.canOnBus k = true)
    (hfree : (s.m.canc k).flight = none) (hmode : (s.m.canc k).mode = 1) (hnext : s.m.canNext k = some o) :
    exec (.canTxStart k lag) s = s.becomes ((s.m.setCan k fun x => { x with flight := some ⟨o, s.m.canFrame k o sof, false, false⟩ }).emit
      "CAN" k o (s.m.canFrame k o sof)) := by
  subst hsof
  refine (State.onInst_eq s (decide_eq_true hk) _).trans (congrArg s.becomes ((if_neg (by simp [hbus, hfree, hmode])).trans ?_))
  rw [hnext]
  exact if_pos hmode

theorem execCanTxEnd_ends {f : CanFlight} (hflight : (s.m.canc k).flight = some f) (result tdcv : Nat) :
    exec (.canTxEnd k result tdcv) s = s.becomes (s.m.canFlightEnd s.env k result tdcv f) := by
  refine (State.onInst_eq s (decide_eq_true hk) _).trans (congrArg s.becomes ?_)
  rw [hflight]

/-- A classical frame ends without error at a controller in NORMAL that is not receive-error-passive: it counts down REC and is routed (R416, R421). -/
theorem execCanFrameReceive_receives {ago sof flags : Nat} (hsof : sof = (((s.env.now.short : Int) - ago) % 2 ^ 32).toNat) (hbus : s.m.canOnBus k = true)
    (hmode : (s.m.canc k).mode = 1) (hflags : flags % 2 = 0) (hrec : (s.m.canc k).rec_ < 128) (id dlc : Nat) (p : List Byte) :
    exec (.canFrameReceive k ago id dlc flags p) s
      = s.becomes ((s.m.canCount s.env k (s.m.canc k).tec ((s.m.canc k).rec_ - 1)).canReceive s.env k sof id dlc flags p) := by
  subst hsof
  refine (State.onInst_eq s (decide_eq_true hk) _).trans (congrArg s.becomes ((if_neg (by simp [hbus, hmode])).trans ((if_neg (by simp [hflags])).trans ?_)))
  simp only [Nat.not_le.mpr hrec, if_false, hmode, if_true]

/-! ### Errors, recovery and integration (R408, R421 to R423) -/

theorem execCanBusError_counts {typ : Nat} (h1 : 1 ≤ typ) (h6 : typ ≤ 6) (hbus : s.m.canOnBus k = true) (hmode : (s.m.canc k).mode ≠ 3) (d tx dom : Bool) :
    exec (.canBusError k typ d tx dom) s = s.becomes (s.m.canError s.env k typ d tx dom) :=
  (State.onInst_eq s (by simp [hk, h1, h6]) _).trans (congrArg s.becomes (if_pos (by simp [hbus, hmode])))

theorem execCanLoopTestEnd_ends (htest : s.m.b (.CAN_c_STS_testing k) = true) (pass : Bool) :
    exec (.canLoopTestEnd k pass) s = s.becomes (s.m.canTestEnd s.env k pass) :=
  (State.onInst_eq s (decide_eq_true hk) _).trans (congrArg s.becomes (if_pos htest))

theorem execCanBusoffRecovery_rejoins (hstate : s.m.g (.CAN_c_STS_state k) = 2) (hrec : s.m.b (.CAN_c_STS_recovering k) = true)
    (hat : (s.m.canc k).recAt + 4400 * s.m.canBit k ≤ s.env.powered) :
    exec (.canBusoffRecovery k) s
      = s.becomes ((((s.m.sb (.CAN_c_STS_recovering k) false).s (.CAN_c_STS_rec_seq k) 128).canErr k 0 0).canState s.env k 0) :=
  (State.onInst_eq s (decide_eq_true hk) _).trans (congrArg s.becomes (if_pos (by simp [hstate, hrec, hat])))

theorem execCanBusIntegration_joins (hjoined : (s.m.canc k).joined = false) (hmode : (s.m.canc k).mode = 1 ∨ (s.m.canc k).mode = 2)
    (htest : s.m.b (.CAN_c_STS_testing k) = false) (hiso : s.m.b (.CAN_c_STS_isolated k) = false) (hclk : s.m.clkFailed 8 = false) :
    exec (.canBusIntegration k) s
      = s.becomes ((s.m.setCan k fun x => { x with joined := true }).canState s.env k (errState (s.m.canc k).tec (s.m.canc k).rec_)) := by
  have h0 : (s.m.canc k).mode ≠ 0 := by omega
  have h3 : (s.m.canc k).mode ≠ 3 := by omega
  exact (State.onInst_eq s (decide_eq_true hk) _).trans (congrArg s.becomes (if_neg (by simp [hjoined, h0, h3, htest, hiso, hclk])))

/-! ### Modes (R405, R407, R408) -/

/-- A host write of CAN_c_CTRL of a safety channel that is OFF. -/
theorem execCanModeWrite_leavesOff {v : Word} {m1 : Mach} (hk2 : 2 ≤ k) (hforce : s.m.g (.CAN_c_CTRL_mode k) = 0) (hmode : (s.m.canc k).mode = 0)
    (h1 : m1 = s.m.hostPut s.env.locked (!s.env.locked) (Reg.CAN_c_CTRL k) v) (hnomatch : m1.g (.CAN_c_CTRL_nomatch k) ≠ 3) :
    exec (.canModeWrite k v) s
      = s.becomes (if m1.canLeaveOff k 0 then m1.canUnbar k else ((m1.s (.CAN_c_CTRL_mode k) 0).sb (.CAN_c_STS_cfg_err k) true).canUnbar k) := by
  have hquiet : s.m.canQuiet k = true := by simp [Mach.canQuiet, hforce, hmode]
  refine (State.onInst_eq s (decide_eq_true hk) _).trans (congrArg s.becomes ?_)
  subst h1
  simp only [hquiet, hforce, Bool.true_and, hnomatch, Nat.not_lt.mpr hk2, if_false]

theorem execCanModeApply_off (hfree : (s.m.canc k).flight = none) (hmode : (s.m.canc k).mode ≠ 0) (hwant : s.m.g (.CAN_c_CTRL_mode k) = 0)
    (htest : s.m.b (.CAN_c_STS_testing k) = false) : exec (.canModeApply k) s = s.becomes (s.m.canOff s.env k) :=
  (State.onInst_eq s (decide_eq_true hk) _).trans (congrArg s.becomes ((if_neg (by simp [hfree, hwant, hmode, htest])).trans (if_pos hwant)))

/-- A controller leaves OFF for NORMAL or RESTRICTED: it starts to integrate. -/
theorem execCanModeApply_leavesOff {w : Nat} (hfree : (s.m.canc k).flight = none) (hmode : (s.m.canc k).mode = 0)
    (hwant : s.m.g (.CAN_c_CTRL_mode k) = w) (hw : w = 1 ∨ w = 2) (htest : s.m.b (.CAN_c_STS_testing k) = false)
    (hiso : s.m.b (.CAN_c_STS_isolated k) = false) :
    exec (.canModeApply k) s
      = s.becomes (((s.m.setCan k fun x => { x with mode := w }).setCan k fun x => { x with joined := false }).canState s.env k 3) := by
  subst hwant
  have h0 : s.m.g (.CAN_c_CTRL_mode k) ≠ 0 := by omega
  have h3 : s.m.g (.CAN_c_CTRL_mode k) ≠ 3 := by omega
  exact (State.onInst_eq s (decide_eq_true hk) _).trans (congrArg s.becomes ((if_neg (by simp [hfree, hmode, h0.symm, htest])).trans <| (if_neg h0).trans <|
    (if_neg (by simp [hiso])).trans ((if_neg h3).trans (if_pos (by simp [hmode])))))

/-! ### Time-triggered objects (R413) -/

theorem execCanTtTarget_reached (ho : o < 128) {t : Nat} (htarget : (s.m.canObj k o).target = some t) (hnow : shortDiff t s.env.now.short ≤ 0) :
    exec (.canTtTarget k o) s
      = s.becomes ((s.m.setObj k o fun x => { x with target := none, due := some t }).sb (.CAN_c_OBJo_CFG_pending k o) true) := by
  refine (State.onInst_eq s (by simp [hk, ho]) _).trans (congrArg s.becomes ?_)
  rw [htarget]
  exact if_neg (Int.not_lt.mpr hnow)

theorem execCanTxLate_withdraws (ho : o < 128) {t : Nat} (hfree : (s.m.canc k).flight = none) (hdue : (s.m.canObj k o).due = some t)
    (hpend : s.m.b (.CAN_c_OBJo_CFG_pending k o) = true) (hlate : s.m.g (.CAN_c_OBJo_CFG_tt_late k o) ≠ 0)
    (hnow : 125 * (s.m.g (.CAN_c_OBJo_CFG_tt_late k o) : Int) ≤ shortDiff s.env.now.short t) :
    exec (.canTxLate k o) s = s.becomes ((((s.m.up (.CAN_c_OBJo_CNT_late_ovw k o)).canWithdraw s.env k o stLate).canIrq k 6).event s.env
      0x7003 (some 3) (le 1 k ++ le 1 o ++ le 4 t)) := by
  refine (State.onInst_eq s (by simp [hk, ho]) _).trans (congrArg s.becomes ?_)
  rw [hdue, hfree]
  exact if_neg (by simp [hpend, hlate, Int.not_lt.mpr hnow])

end

/-- Settles O41. Each clause is the happening's own step; what it shows afterwards is what the step stores, which telling of it leaves alone. That a good frame
counts REC down by one is log entry 74, that a frame's start is dated from the row's instant log entry 75. -/
theorem canHappenings : Obligations.CanHappenings := by
  intro s k o hk
  refine ⟨fun lag sof hsof hbus hfree hmode hnext => ?_, fun typ d tx dom h1 h6 hbus hmode => ?_,
    fun pass htest => execCanLoopTestEnd_ends hk htest pass, fun htest => ?_, fun hstate hrec hat => ?_,
    fun ago sof id dlc flags p hsof hbus hmode hflags hrec => ?_, fun result tdcv f hflight => ?_,
    fun v m1 hk2 hforce hmode h1 hnomatch => ?_, fun hfree hmode hwant htest => ?_, fun w hfree hmode hwant hw htest hiso => ?_,
    fun hjoined hmode htest hiso hclk => ?_, fun t ho htarget hnow => ?_, fun t ho hfree hdue hpend hlate hnow => ?_⟩
  · have hx := execCanTxStart_starts hk hsof hbus hfree hmode hnext
    exact ⟨hx, fun hlen => ⟨_, hx, congrArg CanCtl.flight (Mach.canc_setCan_same hlen _), rfl⟩⟩
  · have hx := execCanBusError_counts hk h1 h6 hbus hmode d tx dom
    obtain ⟨hlec, hdata⟩ := s.m.canError_shows s.env hk h6 d tx dom
    exact ⟨hx, _, hx, hlec, hdata, rfl⟩
  · obtain ⟨htesting, hiso⟩ := s.m.canTestEnd_passes s.env hk
    exact ⟨_, execCanLoopTestEnd_ends hk htest true, htesting, hiso, rfl⟩
  · have hx := execCanBusoffRecovery_rejoins hk hstate hrec hat
    refine ⟨hx, fun _ => ⟨_, hx, ?_⟩⟩
    obtain ⟨htec, hrec0⟩ := ((s.m.sb (.CAN_c_STS_recovering k) false).s (.CAN_c_STS_rec_seq k) 128).canErr_cleared s.env k 0
    exact ⟨htec, hrec0, Mach.g_canState _ s.env hk (by decide)⟩
  · have hx := execCanFrameReceive_receives hk hsof hbus hmode hflags hrec id dlc p
    exact ⟨hx, fun hlen => ⟨_, hx, (Mach.keepsBus_canReceive _ s.env k sof id dlc flags p).rec_.trans (Mach.canCount_rec hlen s.env _ _), rfl⟩⟩
  · have hx := execCanTxEnd_ends hk hflight result tdcv
    exact ⟨hx, fun _ => ⟨_, hx, s.m.canFlightEnd_flight s.env k result tdcv f, rfl⟩⟩
  · have hx := execCanModeWrite_leavesOff hk hk2 hforce hmode h1 hnomatch
    exact ⟨hx, fun _ => ⟨_, hx, rfl, Mach.canModeWritten_shows k (h1 ▸ Mach.g_hostPut_mode hk s.m _ _ v) rfl⟩⟩
  · have hx := execCanModeApply_off hk hfree hmode hwant htest
    obtain ⟨hoff, hnone⟩ := s.m.canOff_off s.env k
    exact ⟨hx, fun _ => ⟨_, hx, hoff, hnone, rfl⟩⟩
  · have hx := execCanModeApply_leavesOff hk hfree hmode hwant hw htest hiso
    refine ⟨hx, fun hlen => ⟨_, hx, ?_⟩⟩
    have hcanc (m : Mach) : (m.canState s.env k 3).canc k = m.canc k := Mach.canc_congr (m.tells_canState s.env k 3).can k
    rw [hcanc, Mach.canc_setCan_same (by rwa [Mach.setCan_can_length]), Mach.canc_setCan_same hlen]
    exact ⟨rfl, rfl, rfl⟩
  · have hx := execCanBusIntegration_joins hk hjoined hmode htest hiso hclk
    refine ⟨hx, fun hlen => ⟨_, hx, ?_, Mach.g_canState _ s.env hk (errState_lt _ _), rfl⟩⟩
    exact (congrArg CanCtl.joined (Mach.canc_congr (Mach.tells_canState _ s.env k _).can k)).trans (congrArg CanCtl.joined (Mach.canc_setCan_same hlen _))
  · have hx := execCanTtTarget_reached hk ho htarget hnow
    exact ⟨hx, _, hx, Mach.b_sb_same _ (f := .CAN_c_OBJo_CFG_pending k o) rfl (show 13 < 32 by decide) true, rfl⟩
  · have hx := execCanTxLate_withdraws hk ho hfree hdue hpend hlate hnow
    have htold := Mach.canWithdraw_told hk ho (s.m.up (.CAN_c_OBJo_CNT_late_ovw k o)) s.env stLate 6 0x7003 (some 3) (le 1 k ++ le 1 o ++ le 4 t)
    exact ⟨hx, _, hx, htold, rfl⟩

end Sys2Proof.Machine
end
